-- ==== Sys2Proof/Word.lean ====
section
/-! DEFINITION. The byte, the byte string and the sparse table: the data shapes every block of the model shares. -/

namespace Sys2Proof

/-- One byte, as carried in frames, messages, host memory and memories of the device. -/
abbrev Byte := BitVec 8

/-- A byte string, byte 0 first. -/
abbrev Bytes := List Byte

/-- A sparse table: pairs of key and content, keys strictly rising, no pair equal to what an absent key reads as. -/
abbrev Tab (α : Type) := List (Nat × α)

end Sys2Proof
end

