-- ==== Sys2Proof/Syntax.lean ====
section
/-! DEFINITION. The commands of the block: one constructor of Instr per row of the opcode table, and the types of their operands. -/

namespace Sys2Proof

/-- What the error code of a memory word found when the word was read (R182, R230, R254, R264, R319, R320, R387). -/
inductive Ecc where
  | clean
  | corrected
  | uncorrectable
deriving DecidableEq, Repr

/-- What a DMA read of host memory returned: the bytes; a time-out, UR or CA (R222, R483); or a chain that reached a 65th link
(R475). -/
inductive Dma where
  | data (b : Bytes)
  | fault
  | tooLong
deriving DecidableEq, Repr

/-- The way a dictionary request came in (chapter 3, "Containers"; the pair link of R543 is the last). -/
inductive Path where
  | mgmt (port : Nat)
  | mailbox
  | queue (sq : Nat)
  | pairLink
deriving DecidableEq, Repr

/-- Where a request came from and whom the answer goes to: the path, and the KEY, SENDER, SEQ and source MAC address of its
container (R107, R114, R122) or the TAG, response limit and response address of its work-queue entry (R477). -/
structure Origin where
  path : Path
  keyLevel : Nat
  keyGen : Nat
  sender : Nat
  seq : Nat
  srcMac : Nat
  tag : Nat
  respMax : Nat
  respAddr : Nat
  quiet : Bool
deriving DecidableEq, Repr

/-- One item of a Mirty message (Table 3-5). The value is held little-endian, as in a work-queue entry (R9). -/
structure Item where
  area : Nat
  index : Nat
  element : Nat
  row : Nat
  vlen : Nat
  istatus : Nat
  reserved : Nat
  value : Bytes
deriving DecidableEq, Repr

/-- A Mirty message (Table 3-4). `exact` says that LENGTH equals the bytes of the items and the padding is zero (R98, R100). -/
structure Msg where
  opcode : Nat
  flags : Nat
  level : Nat
  count : Nat
  tag : Nat
  length : Nat
  status : Nat
  failItem : Nat
  detail : Nat
  reserved : Nat
  exact : Bool
  items : List Item
deriving DecidableEq, Repr

/-- What the parse graph of the loaded image yields for a frame (R163, R165): the image's part of head acceptance, which the
manual does not describe. Offsets count from the destination address. -/
structure Parse where
  bytesRead : Nat
  nodes : Nat
  template : Nat
  key : Bytes
  segs : List Nat
  proto : Nat
  l3 : Nat
  l4 : Nat
  payload : Nat
  /-- The words of the parser store that the walk reads, in order, each with what its code found (R182, R183). -/
  reads : List (Nat × Ecc)
  /-- What the codes of the template's two words found. -/
  template0 : Ecc
  template1 : Ecc
deriving DecidableEq, Repr

/-- A search key of a lookup (Table 6-1, R224): what the ingress routine asks the Lookup Tables. -/
inductive LookupKey where
  | exact (key : Bytes)
  | prefix4 (vrf : Nat) (addr : Nat)
  | prefix6 (vrf : Nat) (addr : Nat)
  | mac (bd : Nat)
deriving DecidableEq, Repr

/-- The fields of the resolved action that an ingress instruction may write (Table 5-9). -/
inductive RaField where
  | destKind | dest | cls | colour | policerValid | policer | nhValid | nextHop | rwValid | rewrite | ecmpValid | ecmpGroup
  | ecmpMember | mirror | sample | puntCopy | reason | hairpin | digest | ttlDec | tsAction | tsId | tsOffset | extKind
deriving DecidableEq, Repr

/-- What one instruction of an ingress routine does (R177 to R179). The instruction set is the image's. -/
inductive MicroOp where
  | set (f : RaField) (v : Nat)
  | setExt (v : Nat)
  | useResult
  | compute
  | finish
deriving DecidableEq, Repr

/-- A run of an egress routine (R181, R402, R423): the words of the egress store it reads, one for each instruction it starts,
with what the code of each found; and the frame as rewritten, without FCS, or none where the routine drops it. The instruction
set is the image's. -/
structure EgressRun where
  words : List (Nat × Ecc)
  frame : Option Bytes
deriving DecidableEq, Repr

/-- What DATA of a work-queue entry names (R475): a buffer; the segments of a chain, address and length, as its links gave them;
or a chain whose links could not be read, or that reached a 65th link. -/
inductive Links where
  | flat
  | segs (l : List (Nat × Nat))
  | fault
  | tooLong
deriving DecidableEq, Repr

/-- The header of a work-queue entry (Table 13-4) with its queue, the zero-reserved check left to the fetch. -/
structure SqCmd where
  sq : Nat
  tag : Nat
  fence : Bool
  quiet : Bool
  addr : Nat
  links : Links := .flat
deriving DecidableEq, Repr

/-- Payload of a table command (Table 13-6). -/
structure TblArgs where
  table : Nat
  index : Nat
  size : Nat
  key : Bytes
deriving DecidableEq, Repr

/-- Payload of a rule command (Table 13-6). -/
structure RuleArgs where
  bank : Nat
  width : Nat
  entry : Nat
  lower : Bool
  p1 : Nat
  p2 : Nat
deriving DecidableEq, Repr

/-- Payload of a flow command (Table 13-6). -/
structure FlowArgs where
  byKey : Bool
  mask : Nat
  slice : Nat
  record : Nat
  count : Nat
  aliasAddr : Nat
  key : Bytes
deriving DecidableEq, Repr

/-- Payload of CREATE_SQ (Table 13-6). -/
structure SqArgs where
  qid : Nat
  cqid : Nat
  level : Nat
  kind : Nat
  push : Nat
  ringSize : Nat
  poll : Nat
  indexAddr : Nat
  ring : Nat
deriving DecidableEq, Repr

/-- Payload of CREATE_CQ and MODIFY_CQ (Table 13-6). -/
structure CqArgs where
  qid : Nat
  vector : Nat
  modCount : Nat
  flags : Nat
  ringSize : Nat
  modTimer : Nat
  indexAddr : Nat
  wakeCeiling : Nat
  ring : Nat
deriving DecidableEq, Repr

/-- The kinds of ledger change a MIRROR message carries (Table 15-4a). -/
inductive MirrorMsg where
  | put (record : Nat) (hot : Nat) (cold : Nat)
  | remove (record : Nat)
  | portMap (pool : Nat) (entry : Nat) (word : Nat)
  | slotTable (table : Nat) (rows : List Nat)
  | weight (row : Nat) (w : Nat)
  | generation (template : Nat) (gen : Nat)
deriving DecidableEq, Repr

/-- The steps a CONTROL message of the pair orders (Table 15-4a, R547, R555, R560). -/
inductive ControlMsg where
  | joinRequest (claim imageId imageVersion slots : Nat)
  | joinAccept
  | joinRefuse (code : Nat)
  | align (cclk sec ns : Nat)
  | configDone
  | tablesDone
  | bulkDone
  | selfCheck (hash : Nat)
  | turnAsk (epoch : Nat) (step : Bool)
  | turnPass
  | turnAt (cclk : Nat)
  | turnFail (group : Nat)
deriving DecidableEq, Repr

/-- The data a BULK message carries (R560 step 5): one record slot, one port-map entry or one slot table. -/
abbrev BulkMsg := MirrorMsg

/-- What one attempt of a boot step found, resource by resource (R600 to R602): bit n of `failed` is resource n. -/
structure StepResult where
  failed : Nat
deriving DecidableEq, Repr

/-- A JTAG instruction (R649). -/
inductive TapInstr where
  | extest | extestPulse | extestTrain | clamp | bypass | idcode | sample | preload
deriving DecidableEq, Repr

/-- The commands of the block, one constructor per row of the opcode table, in the table's order. -/
inductive Instr where
  /-- SECOND_WINDOW_END (R664) -/
  | secondWindowEnd
  /-- FRAME_RECEPTION (R141): the port, the frame from destination address through FCS, the verdict of the FCS check -/
  | frameReception (port : Nat) (frame : Bytes) (fcsOk : Bool)
  /-- HEAD_ACCEPTANCE (R26): the pipeline, and what the image's parse graph yields for the head it takes -/
  | headAcceptance (pipe : Nat) (parse : Parse)
  /-- TABLE_LOOKUP (R210): the frame, the key, and the entries it finds uncorrectable: table id and location (R231) -/
  | tableLookup (fid : Nat) (key : LookupKey) (bad : List (Nat × Nat))
  /-- RULE_SEARCH (R241): the frame, the bank entries whose parity fails (R252), and the rules whose ACTION is found uncorrectable
  (R254), by address -/
  | ruleSearch (fid : Nat) (parity : List Nat) (actions : List Nat)
  /-- PATTERN_SCAN (R256): the pipeline's engine, and the transition words it reads, by offset, that the code does not find clean
  or that are known bad (R264) -/
  | patternScan (pipe : Nat) (words : List (Nat × Ecc))
  /-- MICRO_INSTRUCTION (R178): the frame, the ingress word of its next instruction and what it does, the state of the
  control-store word and of an active configuration word it reads (R626: the corrupt object's number, if any) -/
  | microInstruction (fid : Nat) (word : Nat) (op : MicroOp) (ecc : Ecc) (config : Option Nat)
  /-- CS_REPAIR_COMPLETE (R183): the pipeline and the word -/
  | csRepairComplete (pipe : Nat) (store : Nat) (word : Nat)
  /-- FLOW_SET (R291): the frame and the masked fields -/
  | flowSet (fid : Nat) (mask : Nat) (connState : Nat) (svcAddr : Nat) (svcPort : Nat)
  /-- INGRESS_RESOLUTION (R191): the frame -/
  | ingressResolution (fid : Nat)
  /-- RECIRC_ENQUEUE (R185): the frame and the run of its egress routine -/
  | recircEnqueue (fid : Nat) (egress : EgressRun)
  /-- LEDGER_OPERATION (R286): the frame whose operation enters its slice, and what the codes of the cache ways and write-buffer
  entries that it reads find, by slot (R323) -/
  | ledgerOperation (fid : Nat) (ways : List (Nat × Ecc))
  /-- HBM_READ_RETURN (R298): the slice and slot read, what the codes of the hot and the cold part found -/
  | hbmReadReturn (slice : Nat) (slot : Nat) (hot : Ecc) (cold : Ecc)
  /-- ALIAS_ADMISSION (R307): the slice the oldest waiting reply-key admission arrives at -/
  | aliasAdmission (slice : Nat)
  /-- ALIAS_FORWARD (R308): the slice the oldest forwarded operation arrives at -/
  | aliasForward (slice : Nat)
  /-- BUFFER_GRANT (R380): the pool; what the code of the header of the next buffer found, and of its link word; the link word
  read, where it is another than the list was threaded with (R373); and a request that names a handle, with its owner (R370, R371) -/
  | bufferGrant (pool : Nat) (header : Ecc) (link : Ecc) (word : Option Nat) (stray : Option (Nat × Nat))
  /-- POOL_STARVED (R381): the frame whose hold window expires -/
  | poolStarved (fid : Nat)
  /-- BUFFER_RELEASE (R384): the handle, the owner presented, the rotation position (R675), and what the code of the header finds -/
  | bufferRelease (handle : Nat) (owner : Nat) (position : Nat) (header : Ecc)
  /-- UNDERTOW_PASS (R386) -/
  | undertowPass
  /-- FABRIC_STAGE_ONE (R389): one CCLK cycle of the matching -/
  | fabricStageOne
  /-- FABRIC_DISCARD (R390): the ingress pipeline, the middle buffer and the rank whose head found no room -/
  | fabricDiscard (pipe : Nat) (middle : Nat) (class7 : Bool)
  /-- MC_FIFO_HEAD (R391): the middle buffer and the rank -/
  | mcFifoHead (middle : Nat) (class7 : Bool)
  /-- MC_PIPELINE_STRUCK (R391): the middle buffer, the rank and the pipeline -/
  | mcPipelineStruck (middle : Nat) (class7 : Bool) (pipe : Nat)
  /-- FABRIC_STAGE_TWO (R392): the egress pipeline served in this cycle -/
  | fabricStageTwo (pipe : Nat)
  /-- MC_REPLICATION (R422): the egress pipeline -/
  | mcReplication (pipe : Nat)
  /-- INTERNAL_DELIVERY (R403): the egress pipeline -/
  | internalDelivery (pipe : Nat)
  /-- CAPTURE_COMPOSE (R424) -/
  | captureCompose
  /-- TRANSMIT_SELECTION (R416): the egress pipeline -/
  | transmitSelection (pipe : Nat)
  /-- GATE_ENTRY_CHANGE (R419): the port -/
  | gateEntryChange (port : Nat)
  /-- TRANSMISSION_START (R140): the port, the run of the egress routine, what the code of the body words found -/
  | transmissionStart (port : Nat) (egress : EgressRun) (ecc : Ecc)
  /-- TRANSMISSION_END (R397): the port -/
  | transmissionEnd (port : Nat)
  /-- READ (R103) -/
  | read (o : Origin) (m : Msg)
  /-- WRITE (R47) -/
  | write (o : Origin) (m : Msg)
  /-- COMPOUND_WRITE (R59) -/
  | compoundWrite (o : Origin) (m : Msg)
  /-- DESCRIBE (R657) -/
  | describe (o : Origin) (m : Msg)
  /-- ENUMERATE (R658) -/
  | enumerate (o : Origin) (m : Msg)
  /-- ECHO (R99) -/
  | echo (o : Origin) (m : Msg)
  /-- TURN_REQUEST (R62) -/
  | turnRequest (o : Origin) (level : Nat) (value : Nat)
  /-- VALIDATION_COMPLETE (R63) -/
  | validationComplete
  /-- TURN_CYCLE (R67) -/
  | turnCycle
  /-- SNAPSHOT_WRITTEN (R79) -/
  | snapshotWritten
  /-- SLACK_WATER_END (R68) -/
  | slackWaterEnd
  /-- SLACK_TIMEOUT (R69) -/
  | slackTimeout
  /-- RESEEDING_COMPLETE (R71) -/
  | reseedingComplete
  /-- STEP_REQUEST (R72) -/
  | stepRequest (o : Origin) (level : Nat) (value : Nat)
  /-- AUTO_EPOCH_STEP (R73) -/
  | autoEpochStep
  /-- SNAP_REQUEST (R82) -/
  | snapRequest (o : Origin) (level : Nat) (value : Nat)
  /-- HALT_REQUEST (R55) -/
  | haltRequest (o : Origin) (level : Nat) (value : Nat)
  /-- HALTED_SET (R55): the block's bit -/
  | haltedSet (block : Nat)
  /-- MGMT_FRAME_RECEIVED (R109): the port and the frame without FCS -/
  | mgmtFrameReceived (port : Nat) (frame : Bytes)
  /-- NONCE_QUERY (R112): the port and the frame without FCS -/
  | nonceQuery (port : Nat) (frame : Bytes)
  /-- INJECT_FRAME (R117): the port and the transport frame without FCS -/
  | injectFrame (port : Nat) (frame : Bytes)
  /-- MB_DOORBELL (R120): the length written, and what the request area then holds -/
  | mbDoorbell (length : Nat) (area : Bytes)
  /-- MAILBOX_RESPONSE (R122) -/
  | mailboxResponse
  /-- KEY_REVOKE (R129): the level whose generation ends -/
  | keyRevoke (o : Origin) (level : Nat) (target : Nat) (value : Nat)
  /-- MGMT_MODE (R127) -/
  | mgmtMode (o : Origin) (level : Nat) (value : Nat)
  /-- MGMT_LINK_RESTART (R127) -/
  | mgmtLinkRestart (port : Nat)
  /-- OCTET_ENABLE (R156) -/
  | octetEnable (o : Origin) (level : Nat) (octet : Nat) (value : Nat)
  /-- OCTET_DRAINED (R156) -/
  | octetDrained (octet : Nat)
  /-- PORT_ENABLE (R155) -/
  | portEnable (o : Origin) (level : Nat) (port : Nat) (value : Nat)
  /-- AUTONEG_COMPLETE (R147): the highest common technology, as its speed code and whether it is an -S one, if there is one; the
  FEC bits of the partner's page (as FEC_ADVERTISE), and whether the partner agrees on fast-wake EEE (R143) -/
  | autonegComplete (port : Nat) (tech : Option (Nat × Bool)) (fecPage : Nat) (eee : Bool)
  /-- TRAINING_COMPLETE (R149) -/
  | trainingComplete (port : Nat)
  /-- ALIGNMENT_COMPLETE (R150) -/
  | alignmentComplete (port : Nat)
  /-- UP_HOLD_EXPIRY (R151) -/
  | upHoldExpiry (port : Nat)
  /-- LINK_FAULT (R151): whether the attempt's 500 ms have passed (R150), and whether the port sees local fault -/
  | linkFault (port : Nat) (late : Bool) (local_ : Bool)
  /-- LINK_FAULT_CLEARED (R151) -/
  | linkFaultCleared (port : Nat)
  /-- DOWN_HOLD_EXPIRY (R151) -/
  | downHoldExpiry (port : Nat)
  /-- BRINGUP_TIMEOUT (R150) -/
  | bringupTimeout (port : Nat)
  /-- RETRY_WAIT_END (R150) -/
  | retryWaitEnd (port : Nat)
  /-- FEC_DEGRADED (R152): what the FEC corrected and could not correct in the 1 s window that ends -/
  | fecDegraded (port : Nat) (symbols : Nat) (codewords : Nat) (uncorrected : Nat)
  /-- EEE_LPI_ENTRY (R143) -/
  | eeeLpiEntry (port : Nat)
  /-- CS_LOAD (R169): the image length -/
  | csLoad (o : Origin) (level : Nat) (value : Nat)
  /-- CS_LOAD_COMPLETE (R170) -/
  | csLoadComplete
  /-- TBL_READ (R218) -/
  | tblRead (c : SqCmd) (a : TblArgs) (ecc : Ecc)
  /-- TBL_INSERT (R203) -/
  | tblInsert (c : SqCmd) (a : TblArgs)
  /-- TBL_UPDATE (R221) -/
  | tblUpdate (c : SqCmd) (a : TblArgs)
  /-- TBL_DELETE (R75) -/
  | tblDelete (c : SqCmd) (a : TblArgs)
  /-- TBL_LOCK (R220) -/
  | tblLock (c : SqCmd) (a : TblArgs)
  /-- TBL_UNLOCK (R669) -/
  | tblUnlock (c : SqCmd) (a : TblArgs)
  /-- ECMP_SET (R215) -/
  | ecmpSet (c : SqCmd) (a : TblArgs)
  /-- TABLE_COMMIT (R221): the command in progress, by queue and TAG, what its DMA read returned, and the entries that its check
  finds uncorrectable: table id and location (R231) -/
  | tableCommit (sq : Nat) (tag : Nat) (d : Dma) (bad : List (Nat × Nat))
  /-- LOCK_EXPIRED (R220): table id and entry -/
  | lockExpired (table : Nat) (entry : Bytes)
  /-- LEARN_HOLDOFF_EXPIRY (R226): bridge domain and station -/
  | learnHoldoffExpiry (bd : Nat) (mac : Nat)
  /-- RULE_READ (R246) -/
  | ruleRead (c : SqCmd) (a : RuleArgs)
  /-- RULE_WRITE (R670) -/
  | ruleWrite (c : SqCmd) (a : RuleArgs)
  /-- RULE_CLEAR (R246) -/
  | ruleClear (c : SqCmd) (a : RuleArgs)
  /-- RULE_MOVE (R247) -/
  | ruleMove (c : SqCmd) (a : RuleArgs)
  /-- RULE_MOVE_COPY (R249): the running move, by its queue and TAG -/
  | ruleMoveCopy (sq : Nat) (tag : Nat)
  /-- RB_SCRUB (R252): the bank entries whose parity failed in this pass -/
  | rbScrub (bad : List Nat)
  /-- PAT_LOAD (R260): the command, its length, and the header read by DMA -/
  | patLoad (c : SqCmd) (length : Nat) (header : Dma)
  /-- PAT_LOAD_COMPLETE (R262): the body read by DMA -/
  | patLoadComplete (body : Dma)
  /-- FLOW_READ (R314) -/
  | flowRead (c : SqCmd) (a : FlowArgs) (cold : Ecc)
  /-- FLOW_WALK (R311): what the codes of the cold parts find, by slot -/
  | flowWalk (c : SqCmd) (a : FlowArgs) (cold : List (Nat × Ecc))
  /-- FLOW_INSERT (R315): the image, and the key block read from ALIAS_ADDR when that is not 0 -/
  | flowInsert (c : SqCmd) (a : FlowArgs) (image : Dma) (aliasKey : Dma)
  /-- FLOW_UPDATE (R316): the image -/
  | flowUpdate (c : SqCmd) (a : FlowArgs) (image : Dma)
  /-- FLOW_DELETE (R317) -/
  | flowDelete (c : SqCmd) (a : FlowArgs)
  /-- FLOW_PIN (R672) -/
  | flowPin (c : SqCmd) (a : FlowArgs)
  /-- FLOW_UNPIN (R672) -/
  | flowUnpin (c : SqCmd) (a : FlowArgs)
  /-- WRITEBACK (R294): the slot whose write-back is dispatched, and what the code of its way finds (R323) -/
  | writeback (slice : Nat) (slot : Nat) (way : Ecc)
  /-- FOLD (R279): the slot, and what the code of its cold part finds -/
  | fold (slice : Nat) (slot : Nat) (cold : Ecc)
  /-- LEDGER_REPAIR (R321): the slot, whether the cold part of the lost record is readable, and what the codes of the other hot and cold
  parts read find, by slot -/
  | ledgerRepair (slice : Nat) (slot : Nat) (cold : Ecc) (read : List (Nat × Ecc × Ecc))
  /-- LEDGER_AGING (R360): the slice whose cursor steps -/
  | ledgerAging (slice : Nat)
  /-- NAT_RELEASE (R344): the pool and the port-map entry -/
  | natRelease (pool : Nat) (entry : Nat)
  /-- PORTMAP_AUDIT (R345): the pool and the port-map entry visited -/
  | portmapAudit (pool : Nat) (entry : Nat)
  /-- COUNTER_EXPORT (R362) -/
  | counterExport
  /-- LEARN_NOTICE (R229) -/
  | learnNotice
  /-- MAC_AGING (R228) -/
  | macAging
  /-- EM_RETURN (R205) -/
  | emReturn
  /-- FILTER_REBUILD (R209) -/
  | filterRebuild
  /-- CAPTURE_COPY (R426) -/
  | captureCopy
  /-- PAIR_MIRROR (R549) -/
  | pairMirror
  /-- FAR_PASS (R442): the spilled entries, far list first, whose code finds an uncorrectable error (R445) -/
  | farPass (bad : List Nat)
  /-- REBALANCE_RUN (R352): the backend table -/
  | rebalanceRun (table : Nat)
  /-- SLOT_TABLE_REBUILD (R354): the backend table -/
  | slotTableRebuild (table : Nat)
  /-- BACKEND_STATE (R348): the row and its state -/
  | backendState (o : Origin) (level : Nat) (row : Nat) (value : Nat)
  /-- CAP_READ (R426) -/
  | capRead (c : SqCmd) (count : Nat)
  /-- FUNCTION_LEVEL_RESET (R450) -/
  | functionLevelReset
  /-- PERST_N (R599): the level the pin takes (false: low) -/
  | perstN (high : Bool)
  /-- ADMIN_ENABLE (R459) -/
  | adminEnable (o : Origin) (level : Nat) (value : Nat)
  /-- SQ_DOORBELL (R468) -/
  | sqDoorbell (sq : Nat)
  /-- PUSH_WINDOW_DOORBELL (R473): the queue, the TAIL carried, what the window then holds -/
  | pushWindowDoorbell (sq : Nat) (tail : Nat) (window : Bytes)
  /-- SQ_POLL (R469) -/
  | sqPoll (sq : Nat)
  /-- ENTRY_FETCH (R470): the queue, the first unit read, and the remaining units -/
  | entryFetch (sq : Nat) (first : Dma) (rest : Dma)
  /-- CQ_DOORBELL (R471) -/
  | cqDoorbell (cq : Nat)
  /-- CREATE_SQ (R462) -/
  | createSq (c : SqCmd) (a : SqArgs)
  /-- DELETE_SQ (R465) -/
  | deleteSq (c : SqCmd) (qid : Nat)
  /-- CREATE_CQ (R462) -/
  | createCq (c : SqCmd) (a : CqArgs)
  /-- DELETE_CQ (R466) -/
  | deleteCq (c : SqCmd) (qid : Nat)
  /-- MODIFY_CQ (R476) -/
  | modifyCq (c : SqCmd) (a : CqArgs)
  /-- RESTART (R467): the queue, its type, and what its index block holds -/
  | restart (c : SqCmd) (qid : Nat) (cq : Bool) (block : Dma)
  /-- NOP (R476) -/
  | nop (c : SqCmd)
  /-- DICT (R477): response limit and address, and the message read -/
  | dict (c : SqCmd) (respMax : Nat) (respAddr : Nat) (message : Dma)
  /-- INJECT (R482): pipeline, class, and the frame read -/
  | inject (c : SqCmd) (pipe : Nat) (cls : Nat) (frame : Dma)
  /-- RX_POST (R480) -/
  | rxPost (c : SqCmd) (bufLen : Nat)
  /-- INTERRUPT_SIGNAL (R486): the completion queue, and which limit is reached -/
  | interruptSignal (cq : Nat) (byCeiling : Bool)
  /-- MSIX_UNMASK (R487) -/
  | msixUnmask (vector : Nat)
  /-- L1_ENTRY (R489): the state the link reaches (Table 13-1): 1 L1, 2 L1.1, 3 L1.2 -/
  | l1Entry (state : Nat)
  /-- L1_EXIT (R489) -/
  | l1Exit
  /-- D3HOT_ENTRY (R451): true for D3hot, false for a cleared Bus Master Enable; and PME_En -/
  | d3hotEntry (d3hot : Bool) (pmeEn : Bool)
  /-- D0_RETURN (R493) -/
  | d0Return
  /-- TIME_SET (R498): seconds and nanoseconds -/
  | timeSet (o : Origin) (level : Nat) (sec : Nat) (ns : Nat)
  /-- TIME_STEP (R498): signed nanoseconds -/
  | timeStep (o : Origin) (level : Nat) (ns : Int)
  /-- TIME_SLEW (R499): signed nanoseconds -/
  | timeSlew (o : Origin) (level : Nat) (ns : Int)
  /-- TIME_LATCH (R500) -/
  | timeLatch (o : Origin) (level : Nat) (value : Nat)
  /-- TIME_INCREMENT (R497) -/
  | timeIncrement (o : Origin) (level : Nat) (value : Nat)
  /-- PPS_OUT_EDGE (R515) -/
  | ppsOutEdge
  /-- PPS_IN (R516) -/
  | ppsIn
  /-- SYNCE_LOSS (R519) -/
  | synceLoss
  /-- CAL_SET (R521): seconds and nanoseconds -/
  | calSet (o : Origin) (level : Nat) (sec : Nat) (ns : Nat)
  /-- CAL_SYNC (R524) -/
  | calSync (o : Origin) (level : Nat) (value : Nat)
  /-- CAL_SYNC_LOAD (R524) -/
  | calSyncLoad
  /-- CRYSTAL_STOP (R522) -/
  | crystalStop
  /-- VBAT_LOW (R522) -/
  | vbatLow
  /-- CLAIM_DECISION (R534): the byte sampled on CLAIM_IN -/
  | claimDecision (claimIn : Nat)
  /-- FIRST_CLAIM (R536) -/
  | firstClaim
  /-- PRIVILEGED_FAULT (R557): 0 Flow Ledger, 1 HBM, 2 clock tree -/
  | privilegedFault (unit : Nat)
  /-- PAIR_YIELD (R538) -/
  | pairYield (o : Origin) (level : Nat) (value : Nat)
  /-- PAIR_REJOIN (R528) -/
  | pairRejoin (o : Origin) (level : Nat) (value : Nat)
  /-- PAIR_ENABLE (R529) -/
  | pairEnable (o : Origin) (level : Nat) (value : Nat)
  /-- HEALTH (R559): the report received and the last claim byte -/
  | health (report : Bytes) (claim : Nat)
  /-- HEALTH_TIMER (R539) -/
  | healthTimer
  /-- DIGEST (R554): window number, sub-digests and counts received -/
  | digest (window : Nat) (subs : List Nat) (counts : List Nat)
  /-- DIGEST_WINDOW_CLOSE (R552): the window -/
  | digestWindowClose (window : Nat)
  /-- PAIR_CONTROL (R555) -/
  | pairControl (m : ControlMsg)
  /-- SELF_CHECK_COMPLETE (R556): whether this unit and whether the partner failed -/
  | selfCheckComplete (selfFailed : Bool) (partnerFailed : Bool)
  /-- PAIR_WRITE (R544): the message and its live point -/
  | pairWrite (m : Msg) (live : Nat)
  /-- PAIR_COMMAND (R545): the opcode and payload of the command with its data, its commit cycle -/
  | pairCommand (opcode : Nat) (body : Bytes) (data : Bytes) (commit : Nat)
  /-- MIRROR (R548) -/
  | mirror (m : MirrorMsg)
  /-- PAIR_FRAME (R539): pipeline, class and frame without FCS -/
  | pairFrame (pipe : Nat) (cls : Nat) (frame : Bytes)
  /-- BULK (R561) -/
  | bulk (m : BulkMsg)
  /-- RETRANSMIT_TIMEOUT (R540): the message that is unacknowledged -/
  | retransmitTimeout (seq : Nat)
  /-- PAIR_LOST (R541) -/
  | pairLost
  /-- SOUNDING_TEST (R558): the test and whether it failed -/
  | soundingTest (test : Nat) (failed : Bool)
  /-- JOIN_START (R560): the partner's claim number, image, slot count; whether the reference offset exceeds 0.1 ppm -/
  | joinStart (claim : Nat) (imageId : Nat) (imageVersion : Nat) (slots : Nat) (offset : Bool)
  /-- JOIN_FINISH (R560) -/
  | joinFinish
  /-- ENERGY_SAMPLE (R564): READ_VOUT in mV and READ_IOUT in mA -/
  | energySample (mv : Nat) (ma : Nat)
  /-- VOLTAGE_LOOP (R569): the smallest slack in ps, and whether the regulator acknowledged in ULINEAR16 (R639) -/
  | voltageLoop (slack : Int) (ack : Bool)
  /-- VREG_CHECK (R570): READ_VOUT in mV, and whether the difference has lasted 1 ms -/
  | vregCheck (mv : Nat) (lasting : Bool)
  /-- REGULATOR_RETRY (R639): whether the regulator answers in ULINEAR16 -/
  | regulatorRetry (ack : Bool)
  /-- SLOT_GATE_LOOP (R573): the pipeline -/
  | slotGateLoop (pipe : Nat)
  /-- ENGINE_WAIT (R574): the pipeline, and whether the head that waits is express -/
  | engineWait (pipe : Nat) (express : Bool)
  /-- BUFFER_THRESHOLD_LOOP (R576) -/
  | bufferThresholdLoop
  /-- VOLTAGE_PROTECTION (R578) -/
  | voltageProtection
  /-- THERMAL_PROTECTION (R579): the hottest sensor in degrees Celsius -/
  | thermalProtection (tj : Int)
  /-- OVERRIDE_END (R580): knob 0 or 1 -/
  | overrideEnd (knob : Nat)
  /-- GOV_KNOBS (R568): the row and its 16 bytes as a number -/
  | govKnobs (o : Origin) (level : Nat) (row : Nat) (value : Nat)
  /-- PERF_SELECT (R586): the row and its 16 bytes as a number -/
  | perfSelect (o : Origin) (level : Nat) (row : Nat) (value : Nat)
  /-- PRECISE_SAMPLE_WRITE (R592): the pipeline whose sample completes -/
  | preciseSampleWrite (pipe : Nat)
  /-- POWER_ON (R642): TEST_MODE at the release of reset (R634) -/
  | powerOn (testMode : Bool)
  /-- RESET_N (R643): how long the pin was low, in ns; and, between 1 and 10 us, whether the device resets -/
  | resetN (lowNs : Nat)
  /-- RESET_REQUEST (R596) -/
  | resetRequest (o : Origin) (level : Nat) (value : Nat)
  /-- THERMAL_TRIP (R653) -/
  | thermalTrip
  /-- CLOCK_TREE_FAULT (R627): 0 root PLL, 1 CCLK, 2 FCLK, 3 MCLK, 4 KCLK -/
  | clockTreeFault (clock : Nat)
  /-- RAIL_UNDERVOLTAGE (R644) -/
  | railUndervoltage
  /-- CORE_RESTART (R598): 1 lockstep, 2 watchdog -/
  | coreRestart (reason : Nat)
  /-- BOOT_STEP_COMPLETE (R600): what the running attempt of the step found -/
  | bootStepComplete (r : StepResult)
  /-- LEDGER_REBASED (R326) -/
  | ledgerRebased
  /-- BOOT_ATTEMPT_TIMEOUT (R602): the resources that have not passed -/
  | bootAttemptTimeout (r : StepResult)
  /-- BOOT_CONTINUE (R604) -/
  | bootContinue (o : Origin) (level : Nat) (value : Nat)
  /-- CONTROL_PATH_RETRY (R605): whether steps 05 and 06 pass, bit 0 MGMT0, bit 1 MGMT1 of step 06 -/
  | controlPathRetry (pcieOk : Bool) (mgmtOk : Nat)
  /-- HBM_STACK_LOST (R613) -/
  | hbmStackLost (stack : Nat)
  /-- LEDGER_FAULT (R627): the slice, and whether it is only the repair or error limit that is exceeded -/
  | ledgerFault (slice : Nat) (limitOnly : Bool)
  /-- EVENT_CLEAR (R622): the group, the bits, and the sources of the group raised in the same MCLK cycle -/
  | eventClear (o : Origin) (level : Nat) (group : Nat) (bits : Nat)
  /-- HBM_WRITE_COMPLETE (R295) -/
  | hbmWriteComplete (slice : Nat)
  /-- LEDGER_SCRUB (R324): the slot read, what the codes of its parts found -/
  | ledgerScrub (slice : Nat) (slot : Nat) (hot : Ecc) (cold : Ecc)
  /-- SLICE_FLUSH_COMPLETE (R627): the slots of the ways whose tag was not intact -/
  | sliceFlushComplete (slice : Nat) (badTags : List Nat)
  /-- INDEX_READ_COMPLETE (R468): the queue, its type, the index block read -/
  | indexReadComplete (qid : Nat) (cq : Bool) (block : Dma)
  /-- MB_OVERRUN_CLEAR (R121) -/
  | mbOverrunClear
  /-- PPS_OUT_FALL (R515) -/
  | ppsOutFall
  /-- PMB_ALERT (R639) -/
  | pmbAlert
  /-- LINK_LEAVES_L1 (R491) -/
  | linkLeavesL1
  /-- MGMT_LINK_CHANGE (R624): the port and whether its link is now up -/
  | mgmtLinkChange (port : Nat) (up : Bool)
  /-- THERMAL_TRIP_CLEARED (R653) -/
  | thermalTripCleared
  /-- TAP_INSTRUCTION_LOADED (R649) -/
  | tapInstructionLoaded (t : TapInstr)
deriving DecidableEq, Repr

end Sys2Proof
end

