-- ==== Sys2Proof/Machine/Bits.lean ====
section
/-! DEFINITION. Bit fields, byte orders, wrapping comparison and the sparse table's operations, which every block uses. -/

namespace Sys2Proof.Machine
open Sys2Proof

/-- The field of `v` that starts at bit `off` and is `w` bits wide. -/
def fld (v off w : Nat) : Nat := (v >>> off) % 2 ^ w

/-- `v` with the field at bit `off`, `w` bits wide, replaced by `x`. -/
def setFld (v off w x : Nat) : Nat := v - (fld v off w) * 2 ^ off + (x % 2 ^ w) * 2 ^ off

/-- The little-endian field of a row: `n` bytes from byte `o`. -/
def byteFld (v o n : Nat) : Nat := fld v (8 * o) (8 * n)

/-- A row with `n` bytes from byte `o` replaced. -/
def setByteFld (v o n x : Nat) : Nat := setFld v (8 * o) (8 * n) x

/-- `v` with bit `n` set. -/
def setBit (v n : Nat) : Nat := v ||| (1 <<< n)

/-- `v` with bit `n` cleared. -/
def clearBit (v n : Nat) : Nat := if v.testBit n then v - 2 ^ n else v

/-- The bits of `v` that are not in `m`. -/
def andNot (v m : Nat) : Nat := v ^^^ (v &&& m)

/-- The number of set bits among the low `n` bits. -/
def popCount : Nat → Nat → Nat
  | 0, _ => 0
  | n + 1, v => v % 2 + popCount n (v / 2)

/-- 0 or 1. -/
def b2n (b : Bool) : Nat := if b then 1 else 0

/-- R17: `a` is later than `b`, both `n` bits wide. -/
def later (n a b : Nat) : Bool :=
  let d := (a + 2 ^ n - b % 2 ^ n) % 2 ^ n
  0 < d && d < 2 ^ (n - 1)

/-- A two's complement value of `w` bits. -/
def toSigned (w v : Nat) : Int := if v % 2 ^ w < 2 ^ (w - 1) then (v % 2 ^ w : Nat) else ((v % 2 ^ w : Nat) : Int) - 2 ^ w

/-- The two's complement code of an integer in `w` bits. -/
def ofSigned (w : Nat) (x : Int) : Nat := (x % 2 ^ w).toNat

/-- R9: bytes, least significant first, as a number. -/
def leNat : Bytes → Nat
  | [] => 0
  | b :: t => b.toNat + 256 * leNat t

/-- R9: bytes, most significant first, as a number. -/
def beNat (b : Bytes) : Nat := leNat b.reverse

/-- R9: `n` bytes of a number, least significant first. -/
def leBytes : Nat → Nat → Bytes
  | 0, _ => []
  | n + 1, v => BitVec.ofNat 8 v :: leBytes n (v / 256)

/-- R9: `n` bytes of a number, most significant first. -/
def beBytes (n v : Nat) : Bytes := (leBytes n v).reverse

/-- `n` bytes from offset `o`. -/
def slice (b : Bytes) (o n : Nat) : Bytes := (b.drop o).take n

/-- `n` bytes from offset `o` as a big-endian number. -/
def beAt (b : Bytes) (o n : Nat) : Nat := beNat (slice b o n)

/-- `n` bytes from offset `o` as a little-endian number. -/
def leAt (b : Bytes) (o n : Nat) : Nat := leNat (slice b o n)

/-- `n` zero bytes. -/
def zeros (n : Nat) : Bytes := List.replicate n 0

/-- The bytes with those from offset `o` replaced by `x`. -/
def overwrite (b : Bytes) (o : Nat) (x : Bytes) : Bytes := b.take o ++ x ++ b.drop (o + x.length)

/-- A ceiling division. -/
def ceilDiv (a b : Nat) : Nat := (a + b - 1) / b

/-- What key `k` of a sparse table holds, if it is listed. -/
def tabFind {α : Type} : Tab α → Nat → Option α
  | [], _ => none
  | e :: t, k => if e.1 = k then some e.2 else tabFind t k

/-- What key `k` reads as when an absent key reads as `d`. -/
def tabGet {α : Type} (d : α) (t : Tab α) (k : Nat) : α := (tabFind t k).getD d

/-- The table with key `k` holding `v`, keys rising. -/
def tabInsert {α : Type} : Tab α → Nat → α → Tab α
  | [], k, v => [(k, v)]
  | e :: t, k, v => if k < e.1 then (k, v) :: e :: t else if k = e.1 then (k, v) :: t else e :: tabInsert t k v

/-- The table without key `k`. -/
def tabErase {α : Type} (t : Tab α) (k : Nat) : Tab α := t.filter (fun e => e.1 != k)

/-- The table with key `k` holding `v` when an absent key reads as `d`: the entry leaves when it would say what an absent key
says. -/
def tabPut {α : Type} [DecidableEq α] (d : α) (t : Tab α) (k : Nat) (v : α) : Tab α :=
  if v = d then tabErase t k else tabInsert t k v

/-- The keys of a table rise strictly. -/
def tabRising {α : Type} : Tab α → Bool
  | [] => true
  | [_] => true
  | a :: b :: t => decide (a.1 < b.1) && tabRising (b :: t)

/-- The canonical form: strictly rising keys, and no entry equal to what an absent key reads as. -/
def tabWf {α : Type} [DecidableEq α] (d : Nat → α) (t : Tab α) : Bool := tabRising t && t.all (fun e => e.2 ≠ d e.1)

/-- Element `i` of a list, or `d`. -/
def nth {α : Type} (d : α) (l : List α) (i : Nat) : α := l.getD i d

/-- The list with element `i` replaced; unchanged where there is none. -/
def setNth {α : Type} : List α → Nat → α → List α
  | [], _, _ => []
  | _ :: t, 0, v => v :: t
  | a :: t, i + 1, v => a :: setNth t i v

/-- The least `i` from `lo`, over `n` numbers, that satisfies `p`. -/
def firstFrom (p : Nat → Bool) : Nat → Nat → Option Nat
  | _, 0 => none
  | lo, n + 1 => if p lo then some lo else firstFrom p (lo + 1) n

end Sys2Proof.Machine
end

