-- ==== Sys2Proof/Machine/Hash.lean ====
section
/-! DEFINITION. The digests and codes the manual names by name alone: SHA-256, SHA-384, HMAC-SHA-256, SipHash-2-4, CRC-32C and the
Ethernet FCS. Their definitions are those of their published standards (PRESUMED, log entry 2). -/

namespace Sys2Proof.Machine
open Sys2Proof

/-! ### The SHA-2 digests (FIPS 180-4) -/

/-- The primes below 410: the first eighty of them. A number below 23² without a divisor below 23 is prime. -/
def primes : List Nat :=
  (List.range 410).filter (fun n => 2 ≤ n && [2, 3, 5, 7, 11, 13, 17, 19].all (fun d => n % d ≠ 0 || n = d))

/-- The largest `r + x` with `x` below 2^bits whose `k`-th power does not exceed `n`: one bit after the other. -/
def rootFrom (k n : Nat) : Nat → Nat → Nat
  | 0, r => r
  | b + 1, r => rootFrom k n b (if (r + 2 ^ b) ^ k ≤ n then r + 2 ^ b else r)

/-- The first `w` bits of the fractional part of the `k`-th root of `p`. -/
def rootFraction (k w p : Nat) : Nat := rootFrom k (p * 2 ^ (k * w)) (w + 6) 0 % 2 ^ w

/-- What tells one SHA-2 function from another: the word's width, the number of rounds, the three shifts of each of the four
mixing functions, and the hash value it begins with. -/
structure Sha2 where
  width : Nat
  rounds : Nat
  mixA : Nat × Nat × Nat
  mixE : Nat × Nat × Nat
  early : Nat × Nat × Nat
  late : Nat × Nat × Nat
  start : List Nat
deriving DecidableEq, Repr

/-- SHA-256: its hash value begins with square roots of the first eight primes. -/
def sha2w32 : Sha2 where
  width := 32
  rounds := 64
  mixA := (2, 13, 22)
  mixE := (6, 11, 25)
  early := (7, 18, 3)
  late := (17, 19, 10)
  start := (primes.take 8).map (rootFraction 2 32)

/-- SHA-384: 64-bit words, the ninth to the sixteenth prime. -/
def sha2w64 : Sha2 where
  width := 64
  rounds := 80
  mixA := (28, 34, 39)
  mixE := (14, 18, 41)
  early := (1, 8, 7)
  late := (19, 61, 6)
  start := ((primes.drop 8).take 8).map (rootFraction 2 64)

/-- The round constants: cube roots of the primes. -/
def Sha2.constants (v : Sha2) : List Nat := (primes.take v.rounds).map (rootFraction 3 v.width)

/-- A word turned right by `n` places. -/
def Sha2.turn (v : Sha2) (n x : Nat) : Nat := x / 2 ^ n + x % 2 ^ n * 2 ^ (v.width - n)

/-- The exclusive sum of three turned words. -/
def Sha2.turns (v : Sha2) (k : Nat × Nat × Nat) (x : Nat) : Nat := v.turn k.1 x ^^^ v.turn k.2.1 x ^^^ v.turn k.2.2 x

/-- The same with the third one shifted, its low bits lost. -/
def Sha2.slides (v : Sha2) (k : Nat × Nat × Nat) (x : Nat) : Nat := v.turn k.1 x ^^^ v.turn k.2.1 x ^^^ x / 2 ^ k.2.2

/-- `n` words more of the message schedule; the newest word stands first. -/
def Sha2.schedule (v : Sha2) : Nat → List Nat → List Nat
  | 0, l => l
  | n + 1, l => v.schedule n
      ((v.slides v.late (nth 0 l 1) + nth 0 l 6 + v.slides v.early (nth 0 l 14) + nth 0 l 15) % 2 ^ v.width :: l)

/-- One round: the working words a to h as a list, and the sum of the round's constant and its schedule word. -/
def Sha2.round (v : Sha2) (h : List Nat) (x : Nat) : List Nat :=
  let word (i : Nat) : Nat := nth 0 h i
  let choice := (word 4 &&& word 5) + ((2 ^ v.width - 1 - word 4) &&& word 6)
  let majority := (word 0 &&& (word 1 ||| word 2)) ||| (word 1 &&& word 2)
  let lift := word 7 + v.turns v.mixE (word 4) + choice + x
  [(lift + v.turns v.mixA (word 0) + majority) % 2 ^ v.width, word 0, word 1, word 2,
   (word 3 + lift) % 2 ^ v.width, word 4, word 5, word 6]

/-- A hash value after one block of sixteen words. -/
def Sha2.block (v : Sha2) (h : List Nat) (b : Bytes) : List Nat :=
  let first := (List.range 16).map (fun i => beAt b (v.width / 8 * i) (v.width / 8))
  let words := (v.schedule (v.rounds - 16) first.reverse).reverse
  let mixed := (List.zipWith (· + ·) v.constants words).foldl v.round h
  List.zipWith (fun x y => (x + y) % 2 ^ v.width) h mixed

/-- A hash value after `n` blocks. -/
def Sha2.blocks (v : Sha2) : Nat → List Nat → Bytes → List Nat
  | 0, h, _ => h
  | n + 1, h, b => v.blocks n (v.block h (b.take (2 * v.width))) (b.drop (2 * v.width))

/-- The message with its one bit, zeros, and its length in bits in the last two words of a block. -/
def Sha2.padded (v : Sha2) (m : Bytes) : Bytes :=
  let size := 2 * v.width
  let tail := size / 8
  m ++ 0x80#8 :: zeros ((2 * size - 1 - tail - m.length % size) % size) ++ beBytes tail (8 * m.length)

/-- The whole hash value of a message. -/
def Sha2.digest (v : Sha2) (m : Bytes) : Bytes :=
  let p := v.padded m
  (v.blocks (p.length / (2 * v.width)) v.start p).flatMap (beBytes (v.width / 8))

/-- SHA-256. -/
def sha256 (m : Bytes) : Bytes := sha2w32.digest m

/-- SHA-384: the first six words. -/
def sha384 (m : Bytes) : Bytes := (sha2w64.digest m).take 48

/-- HMAC-SHA-256; a longer key is digested first. -/
def hmacSha256 (key msg : Bytes) : Bytes :=
  let k0 := if 64 < key.length then sha256 key else key
  let k := k0 ++ zeros (64 - k0.length)
  sha256 (k.map (· ^^^ 0x5c#8) ++ sha256 (k.map (· ^^^ 0x36#8) ++ msg))

/-- A reflected CRC-32 over one byte. -/
def crcBits (poly : Nat) : Nat → Nat → Nat
  | 0, c => c
  | n + 1, c => crcBits poly n (if c % 2 = 1 then (c >>> 1) ^^^ poly else c >>> 1)

/-- A reflected CRC-32 register run over bytes. -/
def crcRun (poly : Nat) : Nat → Bytes → Nat
  | c, [] => c
  | c, b :: t => crcRun poly (crcBits poly 8 (c ^^^ b.toNat)) t

/-- CRC-32C (Castagnoli). -/
def crc32c (b : Bytes) : Nat := crcRun 0x82f63b78 0xffffffff b ^^^ 0xffffffff

/-- The Ethernet frame check sequence of IEEE 802.3 as a number; it is carried least significant byte first. -/
def fcs32 (b : Bytes) : Nat := crcRun 0xedb88320 0xffffffff b ^^^ 0xffffffff

/-- A CRC-64 register, most significant bit first, moved by `n` bits. -/
def crc64Bits : Nat → Nat → Nat
  | 0, c => c
  | n + 1, c => crc64Bits n ((if c.testBit 63 then (c <<< 1) ^^^ 0x42F0E1EBA9EA3693 else c <<< 1) % 2 ^ 64)

/-- A CRC-64 register run over bytes. -/
def crc64Run : Nat → Bytes → Nat
  | c, [] => c
  | c, b :: t => crc64Run (crc64Bits 8 (c ^^^ (b.toNat <<< 56))) t

/-- CRC-64 with the ECMA-182 polynomial, initial value 0, no reflection, no final XOR (R553). -/
def crc64 (b : Bytes) : Nat := crc64Run 0 b

/-- A 64-bit rotation to the left. -/
def rotl64 (x n : Nat) : Nat := (x <<< n ||| x >>> (64 - n)) % 2 ^ 64

/-- A 64-bit sum. -/
def add64 (a b : Nat) : Nat := (a + b) % 2 ^ 64

/-- One SipRound. -/
def sipRound (v : Nat × Nat × Nat × Nat) : Nat × Nat × Nat × Nat :=
  let (v0, v1, v2, v3) := v
  let v0 := add64 v0 v1
  let v1 := rotl64 v1 13 ^^^ v0
  let v0 := rotl64 v0 32
  let v2 := add64 v2 v3
  let v3 := rotl64 v3 16 ^^^ v2
  let v0 := add64 v0 v3
  let v3 := rotl64 v3 21 ^^^ v0
  let v2 := add64 v2 v1
  let v1 := rotl64 v1 17 ^^^ v2
  let v2 := rotl64 v2 32
  (v0, v1, v2, v3)

/-- The compression of SipHash-2-4 over 64-bit words. -/
def sipWords : List Nat → Nat × Nat × Nat × Nat → Nat × Nat × Nat × Nat
  | [], v => v
  | m :: t, (v0, v1, v2, v3) =>
    let (a0, a1, a2, a3) := sipRound (sipRound (v0, v1, v2, v3 ^^^ m))
    sipWords t (a0 ^^^ m, a1, a2, a3)

/-- The 64-bit words of SipHash's padded message. -/
def sipMessage (b : Bytes) : List Nat :=
  (List.range (b.length / 8)).map (fun i => leAt b (8 * i) 8) ++
    [leNat (b.drop (8 * (b.length / 8))) + (b.length % 256) * 2 ^ 56]

/-- SipHash-2-4 with a 16-byte key. -/
def sipHash (key : Nat) (b : Bytes) : Nat :=
  let k0 := key % 2 ^ 64
  let k1 := key / 2 ^ 64 % 2 ^ 64
  let (v0, v1, v2, v3) := sipWords (sipMessage b)
    (k0 ^^^ 0x736f6d6570736575, k1 ^^^ 0x646f72616e646f6d, k0 ^^^ 0x6c7967656e657261, k1 ^^^ 0x7465646279746573)
  let (a0, a1, a2, a3) := sipRound (sipRound (sipRound (sipRound (v0, v1, v2 ^^^ 0xff, v3))))
  a0 ^^^ a1 ^^^ a2 ^^^ a3

end Sys2Proof.Machine
end

