-- ==== Sys2Proof/Machine/Signature.lean ====
section
/-! DEFINITION. The check of an ECDSA signature on the curve P-384 with SHA-384 (R166 step 4; FIPS 186-5, PRESUMED, log entry
2). -/

namespace Sys2Proof.Machine
open Sys2Proof

/-! ### The curve y² = x³ − 3x + b over the integers modulo `p384` -/

/-- The field's prime. -/
def p384 : Nat := 2 ^ 384 - 2 ^ 128 - 2 ^ 96 + 2 ^ 32 - 1

/-- The order of the base point. -/
def n384 : Nat :=
  0xffffffffffffffffffffffffffffffffffffffffffffffffc7634d81f4372ddf581a0db248b0a77aecec196accc52973

/-- The curve's coefficient b. -/
def b384 : Nat :=
  0xb3312fa7e23ee7e4988e056be3f82d19181d9c6efe8141120314088f5013875ac656398d8a2ed19d2a85c8edd3ec2aef

/-- The base point. -/
def g384 : Nat × Nat :=
  (0xaa87ca22be8b05378eb1c71ef320ad746e1d3b628ba79b9859f741e082542a385502f25dbf55296c3a545e3872760ab7,
   0x3617de4a96262c6f5d9e98bf9292dc29f8f41dbd289a147ce9da3113b5f0b8c00a60b1ce1d7e819d7a431d7c90ea0e5f)

/-- A product in the field. -/
def fMul (a b : Nat) : Nat := a * b % p384

/-- A difference in the field. -/
def fSub (a b : Nat) : Nat := (a + p384 - b) % p384

/-- `b ^ e` modulo `m`, bit by bit from the exponent's low end. -/
def powMod (m : Nat) : Nat → Nat → Nat → Nat → Nat
  | 0, _, _, acc => acc
  | fuel + 1, b, e, acc => powMod m fuel (b * b % m) (e / 2) (if e % 2 = 1 then acc * b % m else acc)

/-- A coordinate pair lies on the curve. -/
def onCurve (q : Nat × Nat) : Bool :=
  q.1 < p384 && q.2 < p384 && fMul q.2 q.2 = (fMul (fMul q.1 q.1) q.1 + 3 * (p384 - q.1) + b384) % p384

/-- A point as x / z² and y / z³; z = 0 is the point at infinity. -/
structure JPoint where
  x : Nat
  y : Nat
  z : Nat
deriving DecidableEq, Repr

/-- The point at infinity. -/
def jZero : JPoint := ⟨1, 1, 0⟩

/-- Twice a point. -/
def jDouble (a : JPoint) : JPoint :=
  let z2 := fMul a.z a.z
  let y2 := fMul a.y a.y
  let s := 4 * fMul a.x y2 % p384
  let m := 3 * fMul (fSub a.x z2) (a.x + z2) % p384
  let x := fSub (fMul m m) (2 * s % p384)
  ⟨x, fSub (fMul m (fSub s x)) (8 * fMul y2 y2 % p384), 2 * fMul a.y a.z % p384⟩

/-- A point plus one with affine coordinates. -/
def jAdd (a : JPoint) (q : Nat × Nat) : JPoint :=
  if a.z = 0 then ⟨q.1, q.2, 1⟩
  else
    let z2 := fMul a.z a.z
    let h := fSub (fMul q.1 z2) a.x
    let r := fSub (fMul q.2 (fMul z2 a.z)) a.y
    if h = 0 then (if r = 0 then jDouble a else jZero)
    else
      let h2 := fMul h h
      let h3 := fMul h h2
      let v := fMul a.x h2
      let x := fSub (fSub (fMul r r) h3) (2 * v % p384)
      ⟨x, fSub (fMul r (fSub v x)) (fMul a.y h3), fMul a.z h⟩

/-- u·G + v·Q by the low `n` bits of `u` and `v`, the high ones first. -/
def jCombine (u v : Nat) (q : Nat × Nat) : Nat → JPoint → JPoint
  | 0, a => a
  | n + 1, a =>
    let d := jDouble a
    let g := if u.testBit n then jAdd d g384 else d
    jCombine u v q n (if v.testBit n then jAdd g q else g)

/-- The signature (r, s) of a message under the public key `q`. -/
def ecdsaOk (q : Nat × Nat) (r s : Nat) (msg : Bytes) : Bool :=
  let w := powMod n384 384 s (n384 - 2) 1
  let c := jCombine (beNat (sha384 msg) * w % n384) (r * w % n384) q 384 jZero
  let z2 := fMul c.z c.z
  onCurve q && 1 ≤ r && r < n384 && 1 ≤ s && s < n384 && c.z ≠ 0 &&
    (fMul r z2 = c.x || (r + n384 < p384 && fMul (r + n384) z2 = c.x))

end Sys2Proof.Machine
end

