-- ==== Sys2Proof/Config.lean ====
section
/-! DEFINITION. What the manual leaves open: the free values. Each is a constant with no body, so that no proof can see what
it is; where a fresh value is due, it is applied to the counter `free` of the state (log entry 1). -/

namespace Sys2Proof

/-- Draw number `n` of the device's random source: RESET_NONCE (R110) and FLOW_HASH_SEED (R272). -/
opaque Config.random : Nat → Nat

/-- Free value number `n`: a value the manual says exists and does not state. -/
opaque Config.freeValue : Nat → Nat

/-- Whether a choice the manual leaves to the device falls one way, at free value number `n`. -/
opaque Config.freeChoice : Nat → Bool

/-- Whether a pattern of an image, given by the image (header and body), scan set and pattern number, has a match that ends with the last of
the bytes of a window so far. The transition words are the image's, their format is not in the manual (R255, R256). -/
opaque Config.patternEnds : Bytes → Nat → Nat → Bytes → Bool

/-- Whether a word of the egress store encodes a backward branch, by its number in the store and its 128 bits (R166 step 5):
the instruction set is not in the manual. -/
opaque Config.backwardBranch : Nat → Nat → Bool

/-- Receive SNR of a lane in 0.1 dB at a CCLK count (LANE_STATUS): the line's, which no command of the block carries. -/
opaque Config.laneSnr : Nat → Nat → BitVec 16

/-- LANE_TX_EQ of a lane as step 07 calibrates it at a CCLK cycle (Default "boot", Table 4-5): four S8 fields. -/
opaque Config.laneTxEq : Nat → Nat → BitVec 32

/-- MGMT0_MAC of the partner (R539): the other unit's fuses, which no message of Table 15-4a carries. -/
opaque Config.partnerMac : BitVec 48

/-- The hash of both configuration sets as a self-check takes it (R555), over their objects and values: no algorithm is named. -/
opaque Config.setHash : List (Nat × Nat) → BitVec 64

/-- The width and the rate the PCIe link has trained to (PCIE_STATUS): the host's part of training. -/
opaque Config.pcieWidth : BitVec 4

/-- The rate code of PCIE_STATUS. -/
opaque Config.pcieRate : BitVec 4

end Sys2Proof
end

