-- ==== Sys2Proof/Machine/DictTable.lean ====
section
/-! DEFINITION. The dictionary tables of the manual's chapters as data: for every object its number, type, access, change
class, agreement group, default, field layout, reserved bits and value range. -/

namespace Sys2Proof.Machine
open Sys2Proof

/-- Object types (Table 3-1). -/
inductive ObjType where
  | u8 | u16 | u32 | u64 | s32 | s64 | bits32 | bits64 | time80 | s16
  | octets (n : Nat)
  | table (rowSize rows : Nat)
deriving DecidableEq, Repr

/-- Change classes (Table 2-1). -/
inductive Change where
  | none | live | shadow | halt
deriving DecidableEq, Repr

/-- What must be halted for an H object to be writable (R54, R157; area 68 takes all pipelines; area 28 to 58 their block). -/
inductive HaltOwner where
  | none | octet | bit (n : Nat) | pipelines
deriving DecidableEq, Repr

/-- The range check on one value or row alone (R663): bounds, signed bounds, or a rule written in Dictionary.lean. -/
inductive Range where
  | any
  | within (lo hi : Nat)
  | zeroOr (lo hi : Nat)
  | signed (w : Nat) (lo hi : Int)
  | time
  | rule
deriving DecidableEq, Repr

/-- One row of a dictionary table. -/
structure ObjDesc where
  area : Nat
  lo : Nat
  hi : Nat
  e0 : Nat
  e1 : Nat
  type : ObjType
  readLevel : Nat
  writeLevel : Option Nat
  change : Change
  group : Nat
  /-- The default; none where the object is unset until written (R16). Rows that differ are given by `rowDefault`. -/
  dflt : Option Nat
  /-- Sizes of the fields of the value or row from offset 0; byte strings are runs of ones (R9, R86). -/
  layout : List Nat
  /-- Reserved bits of the value or row (R12). -/
  reserved : Nat
  range : Range
  owner : HaltOwner
deriving DecidableEq, Repr

/-- 7E:0000.0 ACTIVE_EPOCH -/
abbrev oActiveEpoch : Nat := 0x7e000000
/-- 7E:0000.1 ACTIVE_SET -/
abbrev oActiveSet : Nat := 0x7e000001
/-- 7E:0000.2 SET_STATE -/
abbrev oSetState : Nat := 0x7e000002
/-- 7E:0000.3 DRAINED_EPOCH -/
abbrev oDrainedEpoch : Nat := 0x7e000003
/-- 7E:0001.0 TURN_REQUEST -/
abbrev oTurnRequest : Nat := 0x7e000100
/-- 7E:0001.1 TURN_RESULT -/
abbrev oTurnResult : Nat := 0x7e000101
/-- 7E:0001.2 FAILED_GROUP -/
abbrev oFailedGroup : Nat := 0x7e000102
/-- 7E:0001.3 TURN_CCLK -/
abbrev oTurnCclk : Nat := 0x7e000103
/-- 7E:0001.4 TURN_TIME -/
abbrev oTurnTime : Nat := 0x7e000104
/-- 7E:0001.5 STEP_REQUEST -/
abbrev oStepRequest : Nat := 0x7e000105
/-- 7E:0002.0 SLACK_LIMIT -/
abbrev oSlackLimit : Nat := 0x7e000200
/-- 7E:0002.1 SLACK_REMAIN -/
abbrev oSlackRemain : Nat := 0x7e000201
/-- 7E:0002.2 SLACK_DISCARDS -/
abbrev oSlackDiscards : Nat := 0x7e000202
/-- 7E:0003.0 AUTO_DRAIN_INTERVAL -/
abbrev oAutoDrainInterval : Nat := 0x7e000300
/-- 7E:0003.1 RETIRED_COUNT -/
abbrev oRetiredCount : Nat := 0x7e000301
/-- 7E:0004.0 SNAP_REQUEST -/
abbrev oSnapRequest : Nat := 0x7e000400
/-- 7E:0004.1 SNAP_ON_TURN -/
abbrev oSnapOnTurn : Nat := 0x7e000401
/-- 7E:0004.2 SNAP_SEQ -/
abbrev oSnapSeq : Nat := 0x7e000402
/-- 7E:0010.0 HALT_REQUEST -/
abbrev oHaltRequest : Nat := 0x7e001000
/-- 7E:0010.1 HALTED -/
abbrev oHalted : Nat := 0x7e001001
/-- 00:0000.0 VENDOR -/
abbrev oVendor : Nat := 0x00000000
/-- 00:0000.1 ORDER_CODE -/
abbrev oOrderCode : Nat := 0x00000001
/-- 00:0000.2 STEPPING -/
abbrev oStepping : Nat := 0x00000002
/-- 00:0000.3 SERIAL -/
abbrev oSerial : Nat := 0x00000003
/-- 00:0000.4 DICT_VERSION -/
abbrev oDictVersion : Nat := 0x00000004
/-- 00:0010.0 WRITE_FLOORS -/
abbrev oWriteFloors : Nat := 0x00001000
/-- 00:0010.1 FACTORY_DISABLED -/
abbrev oFactoryDisabled : Nat := 0x00001001
/-- 00:0010.2 PCIE_CEILING -/
abbrev oPcieCeiling : Nat := 0x00001002
/-- 00:0010.3 PCIE_AUTH -/
abbrev oPcieAuth : Nat := 0x00001003
/-- 00:0010.4 CLAIM_MIN -/
abbrev oClaimMin : Nat := 0x00001004
/-- 00:0010.5 CLAIM_MAX -/
abbrev oClaimMax : Nat := 0x00001005
/-- 00:0010.6 CS_KEY_HASH -/
abbrev oCsKeyHash : Nat := 0x00001006
/-- 00:0010.7 PATCH_ENABLE -/
abbrev oPatchEnable : Nat := 0x00001007
/-- 00:0020.0–3 KEY_GEN, by element. -/
abbrev oKeyGen (i : Nat) : Nat := 0x00002000 + i
/-- 00:0021.0–2 KEY_REVOKE, by element. -/
abbrev oKeyRevoke (i : Nat) : Nat := 0x00002100 + i
/-- 00:0021.3 KEY_REVOKE_F -/
abbrev oKeyRevokeF : Nat := 0x00002103
/-- 00:0022.0–3 ROOT_CHECK, by element. -/
abbrev oRootCheck (i : Nat) : Nat := 0x00002200 + i
/-- 00:0100.0 MIRTY_ETHERTYPE -/
abbrev oMirtyEthertype : Nat := 0x00010000
/-- 00:0100.1 MGMT_ENABLE -/
abbrev oMgmtEnable : Nat := 0x00010001
/-- 00:0100.2 MGMT_MODE -/
abbrev oMgmtMode : Nat := 0x00010002
/-- 00:0100.3 MGMT0_MAC -/
abbrev oMgmt0Mac : Nat := 0x00010003
/-- 00:0100.4 MGMT1_MAC -/
abbrev oMgmt1Mac : Nat := 0x00010004
/-- 00:0100.5 RESET_NONCE -/
abbrev oResetNonce : Nat := 0x00010005
/-- 00:0100.6 PUNT_INJECT -/
abbrev oPuntInject : Nat := 0x00010006
/-- 00:0101.0 REQUESTS -/
abbrev oRequests : Nat := 0x00010100
/-- 00:0101.1 AUTH_FAILURES -/
abbrev oAuthFailures : Nat := 0x00010101
/-- 00:0101.2 REPLAYS -/
abbrev oReplays : Nat := 0x00010102
/-- 00:0101.3 MALFORMED -/
abbrev oMalformed : Nat := 0x00010103
/-- 00:0101.4 BUSY_REJECTS -/
abbrev oBusyRejects : Nat := 0x00010104
/-- 00:0101.5 NONCE_QUERIES -/
abbrev oNonceQueries : Nat := 0x00010105
/-- 00:0101.6 INJECT_REFUSED -/
abbrev oInjectRefused : Nat := 0x00010106
/-- 10:0000–003F.0 OCTET_ENABLE, by index from the first. -/
abbrev oOctetEnable (i : Nat) : Nat := 0x10000000 + 256 * i
/-- 10:0000–003F.1 OCTET_MODE, by index from the first. -/
abbrev oOctetMode (i : Nat) : Nat := 0x10000001 + 256 * i
/-- 10:0000–003F.2 OCTET_STATE, by index from the first. -/
abbrev oOctetState (i : Nat) : Nat := 0x10000002 + 256 * i
/-- 10:0000–003F.3 RX_LANE_MAP, by index from the first. -/
abbrev oRxLaneMap (i : Nat) : Nat := 0x10000003 + 256 * i
/-- 10:0000–003F.4 TX_LANE_MAP, by index from the first. -/
abbrev oTxLaneMap (i : Nat) : Nat := 0x10000004 + 256 * i
/-- 10:0000–003F.5 LANE_POLARITY, by index from the first. -/
abbrev oLanePolarity (i : Nat) : Nat := 0x10000005 + 256 * i
/-- 10:0100–02FF.0 PORT_ENABLE, by index from the first. -/
abbrev oPortEnable (i : Nat) : Nat := 0x10010000 + 256 * i
/-- 10:0100–02FF.1 SPEED, by index from the first. -/
abbrev oSpeed (i : Nat) : Nat := 0x10010001 + 256 * i
/-- 10:0100–02FF.2 FEC_MODE, by index from the first. -/
abbrev oFecMode (i : Nat) : Nat := 0x10010002 + 256 * i
/-- 10:0100–02FF.3 PMD_TYPE, by index from the first. -/
abbrev oPmdType (i : Nat) : Nat := 0x10010003 + 256 * i
/-- 10:0100–02FF.4 AN_ENABLE, by index from the first. -/
abbrev oAnEnable (i : Nat) : Nat := 0x10010004 + 256 * i
/-- 10:0100–02FF.5 FEC_ADVERTISE, by index from the first. -/
abbrev oFecAdvertise (i : Nat) : Nat := 0x10010005 + 256 * i
/-- 10:0100–02FF.6 MAX_FRAME, by index from the first. -/
abbrev oMaxFrame (i : Nat) : Nat := 0x10010006 + 256 * i
/-- 10:0100–02FF.7 UP_HOLD, by index from the first. -/
abbrev oUpHold (i : Nat) : Nat := 0x10010007 + 256 * i
/-- 10:0100–02FF.8 DOWN_HOLD, by index from the first. -/
abbrev oDownHold (i : Nat) : Nat := 0x10010008 + 256 * i
/-- 10:0100–02FF.9 LINK_STATE, by index from the first. -/
abbrev oLinkState (i : Nat) : Nat := 0x10010009 + 256 * i
/-- 10:0100–02FF.10 RESOLVED_FEC, by index from the first. -/
abbrev oResolvedFec (i : Nat) : Nat := 0x1001000a + 256 * i
/-- 10:0100–02FF.11 EEE_ENABLE, by index from the first. -/
abbrev oEeeEnable (i : Nat) : Nat := 0x1001000b + 256 * i
/-- 10:0100–02FF.12 LOOPBACK, by index from the first. -/
abbrev oLoopback (i : Nat) : Nat := 0x1001000c + 256 * i
/-- 10:0100–02FF.13 FEC_DEGRADE_THRESHOLD, by index from the first. -/
abbrev oFecDegradeThreshold (i : Nat) : Nat := 0x1001000d + 256 * i
/-- 10:0100–02FF.14 PCP_CLASS, by index from the first. -/
abbrev oPcpClass (i : Nat) : Nat := 0x1001000e + 256 * i
/-- 10:0100–02FF.15 DSCP_CLASS, by index from the first. -/
abbrev oDscpClass (i : Nat) : Nat := 0x1001000f + 256 * i
/-- 10:0100–02FF.16 UNTAGGED_CLASS, by index from the first. -/
abbrev oUntaggedClass (i : Nat) : Nat := 0x10010010 + 256 * i
/-- 10:0100–02FF.17 EXPRESS_CLASSES, by index from the first. -/
abbrev oExpressClasses (i : Nat) : Nat := 0x10010011 + 256 * i
/-- 10:0100–02FF.18 QUEUE_MAP, by index from the first. -/
abbrev oQueueMap (i : Nat) : Nat := 0x10010012 + 256 * i
/-- 10:0300–0307.0 CHIPLET_STATE, by index from the first. -/
abbrev oChipletState (i : Nat) : Nat := 0x10030000 + 256 * i
/-- 10:0400.0 LANE_TX_EQ -/
abbrev oLaneTxEq : Nat := 0x10040000
/-- 10:0401.0 LANE_STATUS -/
abbrev oLaneStatus : Nat := 0x10040100
/-- 10:0500.0 PORT_COUNTERS -/
abbrev oPortCounters : Nat := 0x10050000
/-- 20:0000.0 CS_STATE -/
abbrev oCsState : Nat := 0x20000000
/-- 20:0000.1 CS_LOAD -/
abbrev oCsLoad : Nat := 0x20000001
/-- 20:0000.2 CS_LOAD_RESULT -/
abbrev oCsLoadResult : Nat := 0x20000002
/-- 20:0000.3 CS_IMAGE_ID -/
abbrev oCsImageId : Nat := 0x20000003
/-- 20:0000.4 CS_IMAGE_VERSION -/
abbrev oCsImageVersion : Nat := 0x20000004
/-- 20:0001.0 CS_STEP_LIMIT -/
abbrev oCsStepLimit : Nat := 0x20000100
/-- 20:0001.1 RECIRC_LIMIT -/
abbrev oRecircLimit : Nat := 0x20000101
/-- 20:0001.2 FAULT_ACTION -/
abbrev oFaultAction : Nat := 0x20000102
/-- 20:0001.3 PUNT_ROUTE -/
abbrev oPuntRoute : Nat := 0x20000103
/-- 20:0001.4 PUNT_QUEUE -/
abbrev oPuntQueue : Nat := 0x20000104
/-- 20:0001.5 PUNT_RATE_LIMIT -/
abbrev oPuntRateLimit : Nat := 0x20000105
/-- 20:0100.0 CS_STAGE -/
abbrev oCsStage : Nat := 0x20010000
/-- 20:0200.0 PATCH_TABLE -/
abbrev oPatchTable : Nat := 0x20020000
/-- 28:0000.0 LT_HASH_SEED -/
abbrev oLtHashSeed : Nat := 0x28000000
/-- 28:0000.1 LF6_SHIFT -/
abbrev oLf6Shift : Nat := 0x28000001
/-- 28:0000.2 LF_GROUP -/
abbrev oLfGroup : Nat := 0x28000002
/-- 28:0000.3 FILTER_REBUILD_THRESHOLD -/
abbrev oFilterRebuildThreshold : Nat := 0x28000003
/-- 28:0001.0 ECMP_FIELDS -/
abbrev oEcmpFields : Nat := 0x28000100
/-- 28:0002.0 LOCK_LIMIT -/
abbrev oLockLimit : Nat := 0x28000200
/-- 28:0003.0 LEARN_ENABLE -/
abbrev oLearnEnable : Nat := 0x28000300
/-- 28:0003.1 LEARN_QUEUE -/
abbrev oLearnQueue : Nat := 0x28000301
/-- 28:0003.2 LEARN_HOLDOFF -/
abbrev oLearnHoldoff : Nat := 0x28000302
/-- 28:0003.3 AGE_PERIOD -/
abbrev oAgePeriod : Nat := 0x28000303
/-- 28:0010.0 EM_USED -/
abbrev oEmUsed : Nat := 0x28001000
/-- 28:0010.1 EM_OVERFLOW_USED -/
abbrev oEmOverflowUsed : Nat := 0x28001001
/-- 28:0010.2 LPM_UNITS_USED -/
abbrev oLpmUnitsUsed : Nat := 0x28001002
/-- 28:0010.3 NH_USED -/
abbrev oNhUsed : Nat := 0x28001003
/-- 28:0010.4 RW_USED -/
abbrev oRwUsed : Nat := 0x28001004
/-- 28:0010.5 ECMP_SLOTS_USED -/
abbrev oEcmpSlotsUsed : Nat := 0x28001005
/-- 28:0010.6 LT_ECC_LAST -/
abbrev oLtEccLast : Nat := 0x28001006
/-- 30:0000.0 RB_LINK -/
abbrev oRbLink : Nat := 0x30000000
/-- 30:0001.0 SEARCH_PROFILE -/
abbrev oSearchProfile : Nat := 0x30000100
/-- 30:0002.0 SCAN_SET_MAP -/
abbrev oScanSetMap : Nat := 0x30000200
/-- 30:0010.0 RB_FAULT -/
abbrev oRbFault : Nat := 0x30001000
/-- 30:0010.1 RB_FAULT_LAST -/
abbrev oRbFaultLast : Nat := 0x30001001
/-- 30:0010.2 RULES_VALID -/
abbrev oRulesValid : Nat := 0x30001002
/-- 30:0010.3 MOVES_RUNNING -/
abbrev oMovesRunning : Nat := 0x30001003
/-- 30:0011.0 PAT_STATE -/
abbrev oPatState : Nat := 0x30001100
/-- 30:0011.1 PAT_LOAD_RESULT -/
abbrev oPatLoadResult : Nat := 0x30001101
/-- 30:0011.2 PAT_IMAGE_ID -/
abbrev oPatImageId : Nat := 0x30001102
/-- 30:0011.3 PAT_SETS -/
abbrev oPatSets : Nat := 0x30001103
/-- 30:0011.4 PAT_PATTERNS -/
abbrev oPatPatterns : Nat := 0x30001104
/-- 30:0011.5 PAT_ECC_LAST -/
abbrev oPatEccLast : Nat := 0x30001105
/-- 38:0000.0 LEDGER_STATE -/
abbrev oLedgerState : Nat := 0x38000000
/-- 38:0000.1 LEDGER_STACKS -/
abbrev oLedgerStacks : Nat := 0x38000001
/-- 38:0000.2 SLOTS_PER_SLICE -/
abbrev oSlotsPerSlice : Nat := 0x38000002
/-- 38:0000.3 RECORDS_HELD -/
abbrev oRecordsHeld : Nat := 0x38000003
/-- 38:0000.4 ALIASES_HELD -/
abbrev oAliasesHeld : Nat := 0x38000004
/-- 38:0000.5 PINNED_SLOTS -/
abbrev oPinnedSlots : Nat := 0x38000005
/-- 38:0001.0 WRITEBACK_DELAY -/
abbrev oWritebackDelay : Nat := 0x38000100
/-- 38:0001.1 PARK_CHAIN_LIMIT -/
abbrev oParkChainLimit : Nat := 0x38000101
/-- 38:0001.2 PARK_SLICE_LIMIT -/
abbrev oParkSliceLimit : Nat := 0x38000102
/-- 38:0001.3 SCRUB_ENABLE -/
abbrev oScrubEnable : Nat := 0x38000103
/-- 38:0002.0 LEDGER_UE_LAST -/
abbrev oLedgerUeLast : Nat := 0x38000200
/-- 38:0002.1 ORPHAN_RESOURCES -/
abbrev oOrphanResources : Nat := 0x38000201
/-- 38:0100–013F.0 ADM_ENABLE, by index from the first. -/
abbrev oAdmEnable (i : Nat) : Nat := 0x38010000 + 256 * i
/-- 38:0100–013F.1 ADM_FAMILY, by index from the first. -/
abbrev oAdmFamily (i : Nat) : Nat := 0x38010001 + 256 * i
/-- 38:0100–013F.2 ADM_FLAGS, by index from the first. -/
abbrev oAdmFlags (i : Nat) : Nat := 0x38010002 + 256 * i
/-- 38:0100–013F.3 ADM_SERVICES, by index from the first. -/
abbrev oAdmServices (i : Nat) : Nat := 0x38010003 + 256 * i
/-- 38:0100–013F.4 ADM_WHEN, by index from the first. -/
abbrev oAdmWhen (i : Nat) : Nat := 0x38010004 + 256 * i
/-- 38:0100–013F.5 ADM_NAT_POOL, by index from the first. -/
abbrev oAdmNatPool (i : Nat) : Nat := 0x38010005 + 256 * i
/-- 38:0100–013F.6 ADM_BACKEND_TABLE, by index from the first. -/
abbrev oAdmBackendTable (i : Nat) : Nat := 0x38010006 + 256 * i
/-- 38:0100–013F.7 ADM_RATE, by index from the first. -/
abbrev oAdmRate (i : Nat) : Nat := 0x38010007 + 256 * i
/-- 38:0100–013F.8 ADM_BURST, by index from the first. -/
abbrev oAdmBurst (i : Nat) : Nat := 0x38010008 + 256 * i
/-- 38:0100–013F.9 EXHAUST_ACTION, by index from the first. -/
abbrev oExhaustAction (i : Nat) : Nat := 0x38010009 + 256 * i
/-- 38:0100–013F.10 REFUSE_ACTION, by index from the first. -/
abbrev oRefuseAction (i : Nat) : Nat := 0x3801000a + 256 * i
/-- 38:0100–013F.11 AGE_CLASS, by index from the first. -/
abbrev oAgeClass (i : Nat) : Nat := 0x3801000b + 256 * i
/-- 40:0000.0 AGE_SWEEP_PERIOD -/
abbrev oAgeSweepPeriod : Nat := 0x40000000
/-- 40:0000.1 EXPORT_QUEUE -/
abbrev oExportQueue : Nat := 0x40000001
/-- 40:0000.2 EXPORT_EVERY -/
abbrev oExportEvery : Nat := 0x40000002
/-- 40:0000.3 EXPORT_RATE -/
abbrev oExportRate : Nat := 0x40000003
/-- 40:0000.4 AUDIT_PERIOD -/
abbrev oAuditPeriod : Nat := 0x40000004
/-- 40:0001.0 AGE_CLASSES -/
abbrev oAgeClasses : Nat := 0x40000100
/-- 40:0002.0 SERVICE_GEN -/
abbrev oServiceGen : Nat := 0x40000200
/-- 40:0100.0 NAT_POOLS -/
abbrev oNatPools : Nat := 0x40010000
/-- 40:0101.0 POOL_STATUS -/
abbrev oNatPoolStatus : Nat := 0x40010100
/-- 40:0200.0 BACKEND_TABLES -/
abbrev oBackendTables : Nat := 0x40020000
/-- 40:0201.0 BACKENDS -/
abbrev oBackends : Nat := 0x40020100
/-- 40:0202.0 BACKEND_STATE -/
abbrev oBackendState : Nat := 0x40020200
/-- 40:0203.0 BACKEND_STATUS -/
abbrev oBackendStatus : Nat := 0x40020300
/-- 40:0204.0 REBAL_PRESSURE -/
abbrev oRebalPressure : Nat := 0x40020400
/-- 48:0000.0 POOL_BUFFERS -/
abbrev oPoolBuffers : Nat := 0x48000000
/-- 48:0000.1 STORE_USED -/
abbrev oStoreUsed : Nat := 0x48000001
/-- 48:0001.0 BREAKWATER -/
abbrev oBreakwater : Nat := 0x48000100
/-- 48:0002.0 HOLD_WINDOW -/
abbrev oHoldWindow : Nat := 0x48000200
/-- 48:0003.0 UNDERTOW_PERIOD -/
abbrev oUndertowPeriod : Nat := 0x48000300
/-- 48:0010.0 POOL_STATUS -/
abbrev oPoolStatus : Nat := 0x48001000
/-- 48:0011.0 OWNER_HELD -/
abbrev oOwnerHeld : Nat := 0x48001100
/-- 48:0012.0 FREE_FAULT_LAST -/
abbrev oFreeFaultLast : Nat := 0x48001200
/-- 48:0012.1 LEAK_LAST -/
abbrev oLeakLast : Nat := 0x48001201
/-- 48:0013.0 MIDDLE_STATUS -/
abbrev oMiddleStatus : Nat := 0x48001300
/-- 50:0000.0 QUEUE_CONFIG -/
abbrev oQueueConfig : Nat := 0x50000000
/-- 50:0001.0 SHAPERS -/
abbrev oShapers : Nat := 0x50000100
/-- 50:0002.0 POLICERS -/
abbrev oPolicers : Nat := 0x50000200
/-- 50:0003.0 COLOUR_MAPS -/
abbrev oColourMaps : Nat := 0x50000300
/-- 50:0004.0 TM_PORT -/
abbrev oTmPort : Nat := 0x50000400
/-- 50:0005.0 GATE_CONTROL -/
abbrev oGateControl : Nat := 0x50000500
/-- 50:0006.0 GATE_LISTS -/
abbrev oGateLists : Nat := 0x50000600
/-- 50:0007.0 MC_GROUPS -/
abbrev oMcGroups : Nat := 0x50000700
/-- 50:0008.0 MIRROR_SESSIONS -/
abbrev oMirrorSessions : Nat := 0x50000800
/-- 50:0009.0 CAPTURE_MODE -/
abbrev oCaptureMode : Nat := 0x50000900
/-- 50:0009.1 CAP_WRITE_INDEX -/
abbrev oCapWriteIndex : Nat := 0x50000901
/-- 50:0009.2 CAP_READ_INDEX -/
abbrev oCapReadIndex : Nat := 0x50000902
/-- 50:0010.0 QUEUE_STATUS -/
abbrev oQueueStatus : Nat := 0x50001000
/-- 58:0000.0 DW_KIND -/
abbrev oDwKind : Nat := 0x58000000
/-- 58:0000.1 CLASS7_RESERVE -/
abbrev oClass7Reserve : Nat := 0x58000001
/-- 58:0000.2 REFILL_MARK -/
abbrev oRefillMark : Nat := 0x58000002
/-- 58:0000.3 SPILL_GRAIN -/
abbrev oSpillGrain : Nat := 0x58000003
/-- 58:0000.4 SPILL_RESERVE -/
abbrev oSpillReserve : Nat := 0x58000004
/-- 58:0000.5 LATE_THRESHOLD -/
abbrev oLateThreshold : Nat := 0x58000005
/-- 58:0010.0 ON_DIE_HELD -/
abbrev oOnDieHeld : Nat := 0x58001000
/-- 58:0010.1 SPILL_HELD -/
abbrev oSpillHeld : Nat := 0x58001001
/-- 58:0010.2 FAR_HELD -/
abbrev oFarHeld : Nat := 0x58001002
/-- 58:0010.3 LATE_LAST -/
abbrev oLateLast : Nat := 0x58001003
/-- 58:0011.0 LIST_STATUS -/
abbrev oListStatus : Nat := 0x58001100
/-- 60:0000.0 ADMIN_SQ_RING -/
abbrev oAdminSqRing : Nat := 0x60000000
/-- 60:0000.1 ADMIN_SQ_SIZE -/
abbrev oAdminSqSize : Nat := 0x60000001
/-- 60:0000.2 ADMIN_SQ_INDEX -/
abbrev oAdminSqIndex : Nat := 0x60000002
/-- 60:0000.3 ADMIN_CQ_RING -/
abbrev oAdminCqRing : Nat := 0x60000003
/-- 60:0000.4 ADMIN_CQ_SIZE -/
abbrev oAdminCqSize : Nat := 0x60000004
/-- 60:0000.5 ADMIN_CQ_INDEX -/
abbrev oAdminCqIndex : Nat := 0x60000005
/-- 60:0000.6 ADMIN_VECTOR -/
abbrev oAdminVector : Nat := 0x60000006
/-- 60:0000.7 ADMIN_ENABLE -/
abbrev oAdminEnable : Nat := 0x60000007
/-- 60:0001.0 MB_VECTOR -/
abbrev oMbVector : Nat := 0x60000100
/-- 60:0001.1 LTR_LATENCY -/
abbrev oLtrLatency : Nat := 0x60000101
/-- 60:0001.2 HOLD_LIMIT -/
abbrev oHoldLimit : Nat := 0x60000102
/-- 60:0002.0 QUEUE_GRANT -/
abbrev oQueueGrant : Nat := 0x60000200
/-- 60:0010.0 SQ_STATUS -/
abbrev oSqStatus : Nat := 0x60001000
/-- 60:0011.0 CQ_STATUS -/
abbrev oCqStatus : Nat := 0x60001100
/-- 60:0012.0 PCIE_STATUS -/
abbrev oPcieStatus : Nat := 0x60001200
/-- 18:0000.0 TIME_INCREMENT -/
abbrev oTimeIncrement : Nat := 0x18000000
/-- 18:0000.1 TIME_LATCH -/
abbrev oTimeLatch : Nat := 0x18000001
/-- 18:0000.2 TIME_LATCHED -/
abbrev oTimeLatched : Nat := 0x18000002
/-- 18:0000.3 TIME_LATCHED_FRAC -/
abbrev oTimeLatchedFrac : Nat := 0x18000003
/-- 18:0000.4 TIME_LATCHED_CCLK -/
abbrev oTimeLatchedCclk : Nat := 0x18000004
/-- 18:0001.0 TIME_SET -/
abbrev oTimeSet : Nat := 0x18000100
/-- 18:0001.1 TIME_STEP -/
abbrev oTimeStep : Nat := 0x18000101
/-- 18:0001.2 TIME_SLEW -/
abbrev oTimeSlew : Nat := 0x18000102
/-- 18:0001.3 SLEW_RATE -/
abbrev oSlewRate : Nat := 0x18000103
/-- 18:0001.4 SLEW_REMAIN -/
abbrev oSlewRemain : Nat := 0x18000104
/-- 18:0001.5 TIME_STATE -/
abbrev oTimeState : Nat := 0x18000105
/-- 18:0002.0 PPS_OUT_ENABLE -/
abbrev oPpsOutEnable : Nat := 0x18000200
/-- 18:0002.1 PPS_OUT_OFFSET -/
abbrev oPpsOutOffset : Nat := 0x18000201
/-- 18:0002.2 PPS_OUT_WIDTH -/
abbrev oPpsOutWidth : Nat := 0x18000202
/-- 18:0003.0 PPS_IN_ENABLE -/
abbrev oPpsInEnable : Nat := 0x18000300
/-- 18:0003.1 PPS_IN_ARM -/
abbrev oPpsInArm : Nat := 0x18000301
/-- 18:0003.2 PPS_IN_TIME -/
abbrev oPpsInTime : Nat := 0x18000302
/-- 18:0003.3 PPS_IN_FRAC -/
abbrev oPpsInFrac : Nat := 0x18000303
/-- 18:0003.4 PPS_IN_COUNT -/
abbrev oPpsInCount : Nat := 0x18000304
/-- 18:0004.0 SYNCE_FREQ -/
abbrev oSynceFreq : Nat := 0x18000400
/-- 18:0004.1 SYNCE_SOURCE -/
abbrev oSynceSource : Nat := 0x18000401
/-- 18:0004.2 SYNCE_STATE -/
abbrev oSynceState : Nat := 0x18000402
/-- 18:0010.0 TS_TRIM -/
abbrev oTsTrim : Nat := 0x18001000
/-- 18:0010.1 PEER_DELAY -/
abbrev oPeerDelay : Nat := 0x18001001
/-- 18:0011.0 TS_CAL -/
abbrev oTsCal : Nat := 0x18001100
/-- 18:0020.0 TXS_QUEUES -/
abbrev oTxsQueues : Nat := 0x18002000
/-- 18:0021.0 TXS_WRITE_INDEX -/
abbrev oTxsWriteIndex : Nat := 0x18002100
/-- 18:0021.1 TXS_READ_INDEX -/
abbrev oTxsReadIndex : Nat := 0x18002101
/-- 18:0030.0 CAL_TIME -/
abbrev oCalTime : Nat := 0x18003000
/-- 18:0030.1 CAL_SET -/
abbrev oCalSet : Nat := 0x18003001
/-- 18:0030.2 CAL_TRIM -/
abbrev oCalTrim : Nat := 0x18003002
/-- 18:0030.3 CAL_STATE -/
abbrev oCalState : Nat := 0x18003003
/-- 18:0030.4 CAL_SYNC -/
abbrev oCalSync : Nat := 0x18003004
/-- 18:0031.0 RETENTION_HOST -/
abbrev oRetentionHost : Nat := 0x18003100
/-- 68:0000.0 PAIR_ENABLE -/
abbrev oPairEnable : Nat := 0x68000000
/-- 68:0000.1 PAIR_CLAIM -/
abbrev oPairClaim : Nat := 0x68000001
/-- 68:0000.2 UNSYNCED_CLAIM -/
abbrev oUnsyncedClaim : Nat := 0x68000002
/-- 68:0000.3 PAIR_YIELD -/
abbrev oPairYield : Nat := 0x68000003
/-- 68:0000.4 PAIR_REJOIN -/
abbrev oPairRejoin : Nat := 0x68000004
/-- 68:0000.5 PAIR_ROLE -/
abbrev oPairRole : Nat := 0x68000005
/-- 68:0000.6 JOIN_RESULT -/
abbrev oJoinResult : Nat := 0x68000006
/-- 68:0000.7 PAIR_ENABLE_NEXT -/
abbrev oPairEnableNext : Nat := 0x68000007
/-- 68:0001.0 FLOW_HASH_SEED -/
abbrev oFlowHashSeed : Nat := 0x68000100
/-- 68:0001.1 ECMP_SEED -/
abbrev oEcmpSeed : Nat := 0x68000101
/-- 68:0001.2 SAMPLE_SEED -/
abbrev oSampleSeed : Nat := 0x68000102
/-- 68:0002.0 PL_PMD -/
abbrev oPlPmd : Nat := 0x68000200
/-- 68:0002.1 PL_RX_MAP -/
abbrev oPlRxMap : Nat := 0x68000201
/-- 68:0002.2 PL_TX_MAP -/
abbrev oPlTxMap : Nat := 0x68000202
/-- 68:0002.3 PL_POLARITY -/
abbrev oPlPolarity : Nat := 0x68000203
/-- 68:0002.4 PL_STATE -/
abbrev oPlState : Nat := 0x68000204
/-- 68:0002.5 PAIR_LINK_HOLD -/
abbrev oPairLinkHold : Nat := 0x68000205
/-- 68:0003.0 MIRROR_SETTLE -/
abbrev oMirrorSettle : Nat := 0x68000300
/-- 68:0003.1 DIGEST_SETTLE -/
abbrev oDigestSettle : Nat := 0x68000301
/-- 68:0003.2 PRIV_REPAIR_LIMIT -/
abbrev oPrivRepairLimit : Nat := 0x68000302
/-- 68:0003.3 PRIV_UE_LIMIT -/
abbrev oPrivUeLimit : Nat := 0x68000303
/-- 68:0003.4 SOUND_SNR_FLOOR -/
abbrev oSoundSnrFloor : Nat := 0x68000304
/-- 68:0010.0 HEALTH_REPORT -/
abbrev oHealthReport : Nat := 0x68001000
/-- 68:0010.1 PARTNER_HEALTH -/
abbrev oPartnerHealth : Nat := 0x68001001
/-- 70:0000.0 GOV_KNOBS -/
abbrev oGovKnobs : Nat := 0x70000000
/-- 70:0000.1 SLACK_TARGET -/
abbrev oSlackTarget : Nat := 0x70000001
/-- 70:0000.2 PMBUS_ADDR -/
abbrev oPmbusAddr : Nat := 0x70000002
/-- 70:0000.3 THERMAL_LIMIT -/
abbrev oThermalLimit : Nat := 0x70000003
/-- 70:0001.0 GOV_STATUS -/
abbrev oGovStatus : Nat := 0x70000100
/-- 70:0001.1 GOV_STATE -/
abbrev oGovState : Nat := 0x70000101
/-- 70:0001.2 SLOT_GATE_NOW -/
abbrev oSlotGateNow : Nat := 0x70000102
/-- 70:0001.3 TJ_MAX -/
abbrev oTjMax : Nat := 0x70000103
/-- 70:0001.4 VCORE_MEASURED -/
abbrev oVcoreMeasured : Nat := 0x70000104
/-- 70:0002.0 OVERRIDE_LOG -/
abbrev oOverrideLog : Nat := 0x70000200
/-- 70:0002.1 OVERRIDE_NEXT -/
abbrev oOverrideNext : Nat := 0x70000201
/-- 70:0003.0 ENERGY_CORE -/
abbrev oEnergyCore : Nat := 0x70000300
/-- 78:0000.0 PERF_SELECT -/
abbrev oPerfSelect : Nat := 0x78000000
/-- 78:0000.1 PERF_COUNTERS -/
abbrev oPerfCounters : Nat := 0x78000001
/-- 78:0000.2 PERF_USER -/
abbrev oPerfUser : Nat := 0x78000002
/-- 78:0001.0 SLOT_COUNTERS -/
abbrev oSlotCounters : Nat := 0x78000100
/-- 78:0001.1 EGRESS_LINE_BITS -/
abbrev oEgressLineBits : Nat := 0x78000101
/-- 78:0002.0 PRECISE_CONFIG -/
abbrev oPreciseConfig : Nat := 0x78000200
/-- 78:0002.1 PRECISE_BUFFER -/
abbrev oPreciseBuffer : Nat := 0x78000201
/-- 78:0002.2 PRECISE_WRITE_INDEX -/
abbrev oPreciseWriteIndex : Nat := 0x78000202
/-- 78:0002.3 PRECISE_READ_INDEX -/
abbrev oPreciseReadIndex : Nat := 0x78000203
/-- 08:0000.0 SERVICE_LEVEL -/
abbrev oServiceLevel : Nat := 0x08000000
/-- 08:0000.1 LOW_WATER_FLAGS -/
abbrev oLowWaterFlags : Nat := 0x08000001
/-- 08:0000.2 BOOT_STEP -/
abbrev oBootStep : Nat := 0x08000002
/-- 08:0000.3 RESET_CAUSE -/
abbrev oResetCause : Nat := 0x08000003
/-- 08:0000.4 RESET_REQUEST -/
abbrev oResetRequest : Nat := 0x08000004
/-- 08:0000.5 BOOT_CONTINUE -/
abbrev oBootContinue : Nat := 0x08000005
/-- 08:0001.0 BOOT_POLICY -/
abbrev oBootPolicy : Nat := 0x08000100
/-- 08:0001.1 BOOT_RESULT -/
abbrev oBootResult : Nat := 0x08000101
/-- 08:0001.2 BOOT_HISTORY -/
abbrev oBootHistory : Nat := 0x08000102
/-- 08:0002.0 STACK_STATE -/
abbrev oStackState : Nat := 0x08000200
/-- 7C:0000.0 EVENT_PENDING -/
abbrev oEventPending : Nat := 0x7c000000
/-- 7C:0000.1 EVENT_CLEAR -/
abbrev oEventClear : Nat := 0x7c000001
/-- 7C:0000.2 EVENT_ENABLE -/
abbrev oEventEnable : Nat := 0x7c000002
/-- 7C:0001.0 EVENT_ROUTE -/
abbrev oEventRoute : Nat := 0x7c000100
/-- 7C:0002.0 EVENT_LOG -/
abbrev oEventLog : Nat := 0x7c000200
/-- 7C:0003.0 NOTICE_DEST -/
abbrev oNoticeDest : Nat := 0x7c000300
/-- 7C:0003.1 NOTICE_RATE -/
abbrev oNoticeRate : Nat := 0x7c000301
/-- 7C:0010.0 EVENT_SUMMARY -/
abbrev oEventSummary : Nat := 0x7c001000

/-- The objects of area 00 (chapter 3). -/
def objs00 : List ObjDesc :=
  [⟨0x0, 0x0, 0x0, 0, 0, .octets 8, 0, none, .none, 0, (some 0), List.replicate 8 1, 0, .any, .none⟩,
   ⟨0x0, 0x0, 0x0, 1, 1, .octets 16, 0, none, .none, 0, (some 0), List.replicate 16 1, 0, .any, .none⟩,
   ⟨0x0, 0x0, 0x0, 2, 2, .octets 2, 0, none, .none, 0, (some 0), List.replicate 2 1, 0, .any, .none⟩,
   ⟨0x0, 0x0, 0x0, 3, 3, .octets 16, 0, none, .none, 0, (some 0), List.replicate 16 1, 0, .any, .none⟩,
   ⟨0x0, 0x0, 0x0, 4, 4, .u16, 0, none, .none, 0, (some 256), [2], 0, .any, .none⟩,
   ⟨0x0, 0x10, 0x10, 0, 0, .bits64, 0, none, .none, 0, (some 0), [8], 0, .any, .none⟩,
   ⟨0x0, 0x10, 0x10, 1, 1, .u8, 0, none, .none, 0, (some 0), [1], 0, .any, .none⟩,
   ⟨0x0, 0x10, 0x10, 2, 2, .u8, 0, none, .none, 0, (some 0), [1], 0, .any, .none⟩,
   ⟨0x0, 0x10, 0x10, 3, 3, .u8, 0, none, .none, 0, (some 0), [1], 0, .any, .none⟩,
   ⟨0x0, 0x10, 0x10, 4, 4, .u8, 0, none, .none, 0, (some 0), [1], 0, .any, .none⟩,
   ⟨0x0, 0x10, 0x10, 5, 5, .u8, 0, none, .none, 0, (some 0), [1], 0, .any, .none⟩,
   ⟨0x0, 0x10, 0x10, 6, 6, .octets 32, 0, none, .none, 0, (some 0), List.replicate 32 1, 0, .any, .none⟩] ++
  [⟨0x0, 0x10, 0x10, 7, 7, .u8, 0, none, .none, 0, (some 0), [1], 0, .any, .none⟩,
   ⟨0x0, 0x20, 0x20, 0, 3, .u8, 0, none, .none, 0, (some 0), [1], 0, .any, .none⟩,
   ⟨0x0, 0x21, 0x21, 0, 2, .u8, 0, (some 2), .live, 0, (some 0), [1], 0, .any, .none⟩,
   ⟨0x0, 0x21, 0x21, 3, 3, .u8, 0, (some 3), .live, 0, (some 0), [1], 0, .any, .none⟩,
   ⟨0x0, 0x22, 0x22, 0, 3, .octets 4, 0, none, .none, 0, (some 0), List.replicate 4 1, 0, .any, .none⟩,
   ⟨0x0, 0x100, 0x100, 0, 0, .u16, 0, (some 2), .live, 0, (some 34997), [2], 0, .rule, .none⟩,
   ⟨0x0, 0x100, 0x100, 1, 1, .bits32, 0, (some 2), .live, 0, (some 3), [4], 0xfffffffc, .any, .none⟩,
   ⟨0x0, 0x100, 0x100, 2, 2, .bits32, 0, (some 2), .live, 0, (some 0), [4], 0xfffffffc, .any, .none⟩,
   ⟨0x0, 0x100, 0x100, 3, 3, .octets 6, 0, none, .none, 0, (some 0), List.replicate 6 1, 0, .any, .none⟩,
   ⟨0x0, 0x100, 0x100, 4, 4, .octets 6, 0, none, .none, 0, (some 0), List.replicate 6 1, 0, .any, .none⟩,
   ⟨0x0, 0x100, 0x100, 5, 5, .octets 8, 0, none, .none, 0, (some 0), List.replicate 8 1, 0, .any, .none⟩,
   ⟨0x0, 0x100, 0x100, 6, 6, .bits32, 0, (some 1), .live, 0, (some 0), [4], 0xfffffffe, .any, .none⟩] ++
  [⟨0x0, 0x101, 0x101, 0, 0, .u64, 0, none, .none, 0, (some 0), [8], 0, .any, .none⟩,
   ⟨0x0, 0x101, 0x101, 1, 1, .u64, 0, none, .none, 0, (some 0), [8], 0, .any, .none⟩,
   ⟨0x0, 0x101, 0x101, 2, 2, .u64, 0, none, .none, 0, (some 0), [8], 0, .any, .none⟩,
   ⟨0x0, 0x101, 0x101, 3, 3, .u64, 0, none, .none, 0, (some 0), [8], 0, .any, .none⟩,
   ⟨0x0, 0x101, 0x101, 4, 4, .u64, 0, none, .none, 0, (some 0), [8], 0, .any, .none⟩,
   ⟨0x0, 0x101, 0x101, 5, 5, .u64, 0, none, .none, 0, (some 0), [8], 0, .any, .none⟩,
   ⟨0x0, 0x101, 0x101, 6, 6, .u64, 0, none, .none, 0, (some 0), [8], 0, .any, .none⟩]

/-- The objects of area 08 (chapter 17). -/
def objs08 : List ObjDesc :=
  [⟨0x8, 0x0, 0x0, 0, 0, .u8, 0, none, .none, 0, (some 0), [1], 0, .any, .none⟩,
   ⟨0x8, 0x0, 0x0, 1, 1, .bits32, 0, none, .none, 0, (some 0), [4], 0, .any, .none⟩,
   ⟨0x8, 0x0, 0x0, 2, 2, .u8, 0, none, .none, 0, (some 1), [1], 0, .any, .none⟩,
   ⟨0x8, 0x0, 0x0, 3, 3, .u8, 0, none, .none, 0, (some 1), [1], 0, .any, .none⟩,
   ⟨0x8, 0x0, 0x0, 4, 4, .u8, 0, (some 2), .live, 0, (some 0), [1], 0, (.within 165 165), .none⟩,
   ⟨0x8, 0x0, 0x0, 5, 5, .u8, 0, (some 2), .live, 0, (some 0), [1], 0, .any, .none⟩,
   ⟨0x8, 0x1, 0x1, 0, 0, .table 16 14, 0, (some 2), .live, 0, (some 0), [1, 1, 1, 1, 4, 8], 0xffffffffffffffff0000000000000000, .rule, .none⟩,
   ⟨0x8, 0x1, 0x1, 1, 1, .table 32 14, 0, none, .none, 0, (some 0), [1, 1, 1, 1, 4, 8, 4, 1, 1, 2, 8], 0, .any, .none⟩,
   ⟨0x8, 0x1, 0x1, 2, 2, .table 32 41, 0, none, .none, 0, (some 0), [4, 1, 1, 2, 2, 1, 1, 1, 1, 2, 8, 4, 4], 0, .any, .none⟩,
   ⟨0x8, 0x2, 0x2, 0, 0, .table 1 4, 0, none, .none, 0, (some 0), [1], 0, .any, .none⟩]

/-- The objects of area 10 (chapter 4). -/
def objs10 : List ObjDesc :=
  [⟨0x10, 0x0, 0x3f, 0, 0, .u8, 0, (some 2), .live, 0, (some 0), [1], 0, (.within 0 1), .none⟩,
   ⟨0x10, 0x0, 0x3f, 1, 1, .u8, 0, (some 2), .halt, 1, (some 3), [1], 0, (.within 0 10), .octet⟩,
   ⟨0x10, 0x0, 0x3f, 2, 2, .u8, 0, none, .none, 0, (some 0), [1], 0, .any, .none⟩,
   ⟨0x10, 0x0, 0x3f, 3, 3, .bits32, 0, (some 2), .halt, 0, (some 1985229328), [4], 0x88888888, .rule, .octet⟩,
   ⟨0x10, 0x0, 0x3f, 4, 4, .bits32, 0, (some 2), .halt, 0, (some 1985229328), [4], 0x88888888, .rule, .octet⟩,
   ⟨0x10, 0x0, 0x3f, 5, 5, .bits32, 0, (some 2), .halt, 0, (some 0), [4], 0xffff0000, .any, .octet⟩,
   ⟨0x10, 0x100, 0x2ff, 0, 0, .u8, 0, (some 1), .live, 0, (some 0), [1], 0, (.within 0 1), .none⟩,
   ⟨0x10, 0x100, 0x2ff, 1, 1, .u8, 0, (some 2), .halt, 1, (some 3), [1], 0, (.within 0 6), .octet⟩,
   ⟨0x10, 0x100, 0x2ff, 2, 2, .u8, 0, (some 2), .halt, 1, (some 3), [1], 0, (.within 0 4), .octet⟩,
   ⟨0x10, 0x100, 0x2ff, 3, 3, .u8, 0, (some 2), .halt, 0, (some 2), [1], 0, (.within 0 2), .octet⟩,
   ⟨0x10, 0x100, 0x2ff, 4, 4, .u8, 0, (some 2), .halt, 0, (some 1), [1], 0, (.within 0 1), .octet⟩,
   ⟨0x10, 0x100, 0x2ff, 5, 5, .bits32, 0, (some 2), .halt, 0, (some 7), [4], 0xfffffff8, .any, .octet⟩] ++
  [⟨0x10, 0x100, 0x2ff, 6, 6, .u16, 0, (some 1), .live, 0, (some 9728), [2], 0, (.within 64 9728), .none⟩,
   ⟨0x10, 0x100, 0x2ff, 7, 7, .u16, 0, (some 1), .live, 0, (some 10), [2], 0, (.within 0 10000), .none⟩,
   ⟨0x10, 0x100, 0x2ff, 8, 8, .u16, 0, (some 1), .live, 0, (some 0), [2], 0, (.within 0 1000), .none⟩,
   ⟨0x10, 0x100, 0x2ff, 9, 9, .u8, 0, none, .none, 0, (some 1), [1], 0, .any, .none⟩,
   ⟨0x10, 0x100, 0x2ff, 10, 10, .u8, 0, none, .none, 0, (some 0), [1], 0, .any, .none⟩,
   ⟨0x10, 0x100, 0x2ff, 11, 11, .u8, 0, (some 1), .halt, 0, (some 0), [1], 0, (.within 0 1), .octet⟩,
   ⟨0x10, 0x100, 0x2ff, 12, 12, .u8, 0, (some 2), .halt, 0, (some 0), [1], 0, (.within 0 2), .octet⟩,
   ⟨0x10, 0x100, 0x2ff, 13, 13, .u32, 0, (some 1), .live, 0, (some 1000000), [4], 0, .any, .none⟩,
   ⟨0x10, 0x100, 0x2ff, 14, 14, .bits32, 0, (some 1), .shadow, 0, (some 16434824), [4], 0xff000000, .any, .none⟩,
   ⟨0x10, 0x100, 0x2ff, 15, 15, .octets 24, 0, (some 1), .shadow, 0, (some 0xffffffdb6db6b6db6d9249246db6db492492249249000000), List.replicate 24 1, 0, .any, .none⟩,
   ⟨0x10, 0x100, 0x2ff, 16, 16, .u8, 0, (some 1), .shadow, 0, (some 0), [1], 0, (.within 0 7), .none⟩,
   ⟨0x10, 0x100, 0x2ff, 17, 17, .bits32, 0, (some 1), .shadow, 8, (some 128), [4], 0xffffff00, .any, .none⟩] ++
  [⟨0x10, 0x100, 0x2ff, 18, 18, .bits32, 0, (some 1), .shadow, 8, (some 4294624904), [4], 0, .any, .none⟩,
   ⟨0x10, 0x300, 0x307, 0, 0, .u8, 0, none, .none, 0, (some 0), [1], 0, .any, .none⟩,
   ⟨0x10, 0x400, 0x400, 0, 0, .table 8 512, 0, (some 2), .live, 0, (some 0), [1, 1, 1, 1, 1, 1, 1, 1], 0xffffffff00000000, .any, .none⟩,
   ⟨0x10, 0x401, 0x401, 0, 0, .table 8 512, 0, none, .none, 0, (some 0), [2, 1, 1, 1, 1, 1, 1], 0, .any, .none⟩,
   ⟨0x10, 0x500, 0x500, 0, 0, .table 256 516, 0, none, .none, 0, (some 0), [8, 8, 8, 8, 8, 8, 8, 8, 8, 8, 8, 8, 8, 8, 8, 8, 8, 8, 8, 8, 8, 8, 8, 8, 8, 8, 8, 8, 8, 8, 8, 8], 0, .any, .none⟩]

/-- The objects of area 18 (chapter 14). -/
def objs18 : List ObjDesc :=
  [⟨0x18, 0x0, 0x0, 0, 0, .u64, 0, (some 2), .live, 0, (some 5497558139), [8], 0xffffff0000000000, .rule, .none⟩,
   ⟨0x18, 0x0, 0x0, 1, 1, .u8, 0, (some 0), .live, 0, (some 0), [1], 0, .any, .none⟩,
   ⟨0x18, 0x0, 0x0, 2, 2, .time80, 0, none, .none, 0, (some 0), [10], 0, .any, .none⟩,
   ⟨0x18, 0x0, 0x0, 3, 3, .u16, 0, none, .none, 0, (some 0), [2], 0, .any, .none⟩,
   ⟨0x18, 0x0, 0x0, 4, 4, .u64, 0, none, .none, 0, (some 0), [8], 0, .any, .none⟩,
   ⟨0x18, 0x1, 0x1, 0, 0, .time80, 0, (some 2), .live, 0, (some 0), [10], 0, .time, .none⟩,
   ⟨0x18, 0x1, 0x1, 1, 1, .s64, 0, (some 2), .live, 0, (some 0), [8], 0, .any, .none⟩,
   ⟨0x18, 0x1, 0x1, 2, 2, .s32, 0, (some 2), .live, 0, (some 0), [4], 0, .any, .none⟩,
   ⟨0x18, 0x1, 0x1, 3, 3, .u16, 0, (some 2), .live, 0, (some 100), [2], 0, (.within 1 1000), .none⟩,
   ⟨0x18, 0x1, 0x1, 4, 4, .s32, 0, none, .none, 0, (some 0), [4], 0, .any, .none⟩,
   ⟨0x18, 0x1, 0x1, 5, 5, .bits32, 0, none, .none, 0, (some 0), [4], 0, .any, .none⟩,
   ⟨0x18, 0x2, 0x2, 0, 0, .u8, 0, (some 1), .live, 0, (some 0), [1], 0, (.within 0 1), .none⟩] ++
  [⟨0x18, 0x2, 0x2, 1, 1, .s32, 0, (some 1), .live, 0, (some 0), [4], 0, (.signed 32 (-500000000) 499999999), .none⟩,
   ⟨0x18, 0x2, 0x2, 2, 2, .u32, 0, (some 1), .live, 0, (some 100000), [4], 0, (.within 100 500000000), .none⟩,
   ⟨0x18, 0x3, 0x3, 0, 0, .u8, 0, (some 1), .live, 0, (some 0), [1], 0, (.within 0 1), .none⟩,
   ⟨0x18, 0x3, 0x3, 1, 1, .bits64, 0, (some 2), .live, 0, (some 0), [8], 0x7fff000000000000, .any, .none⟩,
   ⟨0x18, 0x3, 0x3, 2, 2, .time80, 0, none, .none, 0, (some 0), [10], 0, .any, .none⟩,
   ⟨0x18, 0x3, 0x3, 3, 3, .u16, 0, none, .none, 0, (some 0), [2], 0, .any, .none⟩,
   ⟨0x18, 0x3, 0x3, 4, 4, .u32, 0, none, .none, 0, (some 0), [4], 0, .any, .none⟩,
   ⟨0x18, 0x4, 0x4, 0, 0, .u8, 0, (some 1), .live, 0, (some 0), [1], 0, (.within 0 2), .none⟩,
   ⟨0x18, 0x4, 0x4, 1, 1, .u16, 0, (some 1), .live, 0, (some 65535), [2], 0, .rule, .none⟩,
   ⟨0x18, 0x4, 0x4, 2, 2, .u8, 0, none, .none, 0, (some 0), [1], 0, .any, .none⟩,
   ⟨0x18, 0x10, 0x10, 0, 0, .table 8 512, 0, (some 2), .live, 0, (some 0), [4, 4], 0, .rule, .none⟩,
   ⟨0x18, 0x10, 0x10, 1, 1, .table 4 512, 0, (some 1), .live, 0, (some 0), [4], 0, .any, .none⟩] ++
  [⟨0x18, 0x11, 0x11, 0, 0, .table 8 165, 0, none, .none, 0, (some 0), [4, 4], 0, .any, .none⟩,
   ⟨0x18, 0x20, 0x20, 0, 0, .table 16 1024, 0, none, .none, 0, (some 0), [2, 2, 10, 2], 0, .any, .none⟩,
   ⟨0x18, 0x21, 0x21, 0, 0, .table 4 16, 0, none, .none, 0, (some 0), [4], 0, .any, .none⟩,
   ⟨0x18, 0x21, 0x21, 1, 1, .table 4 16, 0, (some 1), .live, 0, (some 0), [4], 0, .any, .none⟩,
   ⟨0x18, 0x30, 0x30, 0, 0, .time80, 0, none, .none, 0, none, [10], 0, .any, .none⟩,
   ⟨0x18, 0x30, 0x30, 1, 1, .time80, 0, (some 2), .live, 0, (some 0), [10], 0, .time, .none⟩,
   ⟨0x18, 0x30, 0x30, 2, 2, .s32, 0, (some 2), .live, 0, (some 0), [4], 0, (.signed 32 (-2000) 2000), .none⟩,
   ⟨0x18, 0x30, 0x30, 3, 3, .bits32, 0, none, .none, 0, (some 0), [4], 0, .any, .none⟩,
   ⟨0x18, 0x30, 0x30, 4, 4, .u8, 0, (some 2), .live, 0, (some 0), [1], 0, .any, .none⟩,
   ⟨0x18, 0x31, 0x31, 0, 0, .table 32 64, 0, (some 2), .live, 0, (some 0), [1, 1, 1, 1, 1, 1, 1, 1, 1, 1, 1, 1, 1, 1, 1, 1, 1, 1, 1, 1, 1, 1, 1, 1, 1, 1, 1, 1, 1, 1, 1, 1], 0, .any, .none⟩]

/-- The objects of area 20 (chapter 5). -/
def objs20 : List ObjDesc :=
  [⟨0x20, 0x0, 0x0, 0, 0, .u8, 0, none, .none, 0, (some 0), [1], 0, .any, .none⟩,
   ⟨0x20, 0x0, 0x0, 1, 1, .u32, 0, (some 2), .live, 0, (some 0), [4], 0, .any, .none⟩,
   ⟨0x20, 0x0, 0x0, 2, 2, .u8, 0, none, .none, 0, (some 0), [1], 0, .any, .none⟩,
   ⟨0x20, 0x0, 0x0, 3, 3, .u32, 0, none, .none, 0, (some 0), [4], 0, .any, .none⟩,
   ⟨0x20, 0x0, 0x0, 4, 4, .u32, 0, none, .none, 0, (some 0), [4], 0, .any, .none⟩,
   ⟨0x20, 0x1, 0x1, 0, 0, .u8, 0, (some 2), .shadow, 0, (some 48), [1], 0, (.within 16 64), .none⟩,
   ⟨0x20, 0x1, 0x1, 1, 1, .u8, 0, (some 1), .shadow, 0, (some 4), [1], 0, (.within 1 7), .none⟩,
   ⟨0x20, 0x1, 0x1, 2, 2, .u8, 0, (some 1), .shadow, 0, (some 0), [1], 0, (.within 0 1), .none⟩,
   ⟨0x20, 0x1, 0x1, 3, 3, .u8, 0, (some 1), .live, 0, (some 0), [1], 0, (.within 0 2), .none⟩,
   ⟨0x20, 0x1, 0x1, 4, 4, .u16, 0, (some 1), .live, 0, (some 1), [2], 0, .any, .none⟩,
   ⟨0x20, 0x1, 0x1, 5, 5, .u32, 0, (some 1), .live, 0, (some 100000), [4], 0, .any, .none⟩,
   ⟨0x20, 0x100, 0x100, 0, 0, .table 256 4096, 2, (some 2), .live, 0, none, [1, 1, 1, 1, 1, 1, 1, 1, 1, 1, 1, 1, 1, 1, 1, 1, 1, 1, 1, 1, 1, 1, 1, 1, 1, 1, 1, 1, 1, 1, 1, 1, 1, 1, 1, 1, 1, 1, 1, 1, 1, 1, 1, 1, 1, 1, 1, 1, 1, 1, 1, 1, 1, 1, 1, 1, 1, 1, 1, 1, 1, 1, 1, 1, 1, 1, 1, 1, 1, 1, 1, 1, 1, 1, 1, 1, 1, 1, 1, 1, 1, 1, 1, 1, 1, 1, 1, 1, 1, 1, 1, 1, 1, 1, 1, 1, 1, 1, 1, 1, 1, 1, 1, 1, 1, 1, 1, 1, 1, 1, 1, 1, 1, 1, 1, 1, 1, 1, 1, 1, 1, 1, 1, 1, 1, 1, 1, 1, 1, 1, 1, 1, 1, 1, 1, 1, 1, 1, 1, 1, 1, 1, 1, 1, 1, 1, 1, 1, 1, 1, 1, 1, 1, 1, 1, 1, 1, 1, 1, 1, 1, 1, 1, 1, 1, 1, 1, 1, 1, 1, 1, 1, 1, 1, 1, 1, 1, 1, 1, 1, 1, 1, 1, 1, 1, 1, 1, 1, 1, 1, 1, 1, 1, 1, 1, 1, 1, 1, 1, 1, 1, 1, 1, 1, 1, 1, 1, 1, 1, 1, 1, 1, 1, 1, 1, 1, 1, 1, 1, 1, 1, 1, 1, 1, 1, 1, 1, 1, 1, 1, 1, 1, 1, 1, 1, 1, 1, 1, 1, 1, 1, 1, 1, 1, 1, 1, 1, 1, 1, 1, 1, 1, 1, 1, 1, 1], 0, .any, .none⟩] ++
  [⟨0x20, 0x200, 0x200, 0, 0, .table 48 64, 0, (some 2), .shadow, 0, (some 0), [1, 1, 2, 4, 16, 16, 8], 0xffffffffffffffff000000000000000000000000000000000000000000000000000000000000000000000000ffff0000, .rule, .none⟩]

/-- The objects of area 28 (chapter 6). -/
def objs28 : List ObjDesc :=
  [⟨0x28, 0x0, 0x0, 0, 0, .u32, 0, (some 2), .halt, 0, (some 0), [4], 0, .any, .bit 32⟩,
   ⟨0x28, 0x0, 0x0, 1, 1, .u8, 0, (some 2), .halt, 0, (some 64), [1], 0, .rule, .bit 32⟩,
   ⟨0x28, 0x0, 0x0, 2, 2, .table 1 4096, 0, (some 2), .halt, 0, (some 0), [1], 0, .any, .bit 32⟩,
   ⟨0x28, 0x0, 0x0, 3, 3, .u32, 0, (some 1), .live, 0, (some 1024), [4], 0, .any, .none⟩,
   ⟨0x28, 0x1, 0x1, 0, 0, .bits32, 0, (some 1), .shadow, 0, (some 15), [4], 0xffffffc0, .any, .none⟩,
   ⟨0x28, 0x2, 0x2, 0, 0, .u32, 0, (some 1), .live, 0, (some 100), [4], 0, (.within 10 100000), .none⟩,
   ⟨0x28, 0x3, 0x3, 0, 0, .u8, 0, (some 1), .live, 0, (some 1), [1], 0, (.within 0 1), .none⟩,
   ⟨0x28, 0x3, 0x3, 1, 1, .u16, 0, (some 1), .live, 0, (some 2), [2], 0, .any, .none⟩,
   ⟨0x28, 0x3, 0x3, 2, 2, .u16, 0, (some 1), .live, 0, (some 1000), [2], 0, (.within 10 60000), .none⟩,
   ⟨0x28, 0x3, 0x3, 3, 3, .u32, 0, (some 1), .live, 0, (some 150000), [4], 0, (.zeroOr 1000 1000000), .none⟩,
   ⟨0x28, 0x10, 0x10, 0, 0, .u32, 0, none, .none, 0, (some 0), [4], 0, .any, .none⟩,
   ⟨0x28, 0x10, 0x10, 1, 1, .u16, 0, none, .none, 0, (some 0), [2], 0, .any, .none⟩] ++
  [⟨0x28, 0x10, 0x10, 2, 2, .u32, 0, none, .none, 0, (some 0), [4], 0, .any, .none⟩,
   ⟨0x28, 0x10, 0x10, 3, 3, .u32, 0, none, .none, 0, (some 0), [4], 0, .any, .none⟩,
   ⟨0x28, 0x10, 0x10, 4, 4, .u32, 0, none, .none, 0, (some 0), [4], 0, .any, .none⟩,
   ⟨0x28, 0x10, 0x10, 5, 5, .u32, 0, none, .none, 0, (some 0), [4], 0, .any, .none⟩,
   ⟨0x28, 0x10, 0x10, 6, 6, .u32, 0, none, .none, 0, (some 0), [4], 0, .any, .none⟩]

/-- The objects of area 30 (chapter 7). -/
def objs30 : List ObjDesc :=
  [⟨0x30, 0x0, 0x0, 0, 0, .table 1 64, 0, (some 2), .shadow, 5, (some 0), [1], 0, (.within 0 2), .none⟩,
   ⟨0x30, 0x1, 0x1, 0, 0, .table 40 256, 0, (some 1), .shadow, 5, (some 0), [8, 8, 8, 8, 1, 1, 1, 1, 4], 0xffffffff000000000000000000000000000000000000000000000000000000000000000000000000, .rule, .none⟩,
   ⟨0x30, 0x2, 0x2, 0, 0, .table 1 1024, 0, (some 1), .shadow, 0, (some 0), [1], 0, (.within 0 7), .none⟩,
   ⟨0x30, 0x10, 0x10, 0, 0, .bits64, 0, none, .none, 0, (some 0), [8], 0, .any, .none⟩,
   ⟨0x30, 0x10, 0x10, 1, 1, .u32, 0, none, .none, 0, (some 0), [4], 0, .any, .none⟩,
   ⟨0x30, 0x10, 0x10, 2, 2, .u32, 0, none, .none, 0, (some 0), [4], 0, .any, .none⟩,
   ⟨0x30, 0x10, 0x10, 3, 3, .u8, 0, none, .none, 0, (some 0), [1], 0, .any, .none⟩,
   ⟨0x30, 0x11, 0x11, 0, 0, .u8, 0, none, .none, 0, (some 0), [1], 0, .any, .none⟩,
   ⟨0x30, 0x11, 0x11, 1, 1, .u8, 0, none, .none, 0, (some 0), [1], 0, .any, .none⟩,
   ⟨0x30, 0x11, 0x11, 2, 2, .u32, 0, none, .none, 0, (some 0), [4], 0, .any, .none⟩,
   ⟨0x30, 0x11, 0x11, 3, 3, .u8, 0, none, .none, 0, (some 0), [1], 0, .any, .none⟩,
   ⟨0x30, 0x11, 0x11, 4, 4, .u16, 0, none, .none, 0, (some 0), [2], 0, .any, .none⟩] ++
  [⟨0x30, 0x11, 0x11, 5, 5, .u32, 0, none, .none, 0, (some 0), [4], 0, .any, .none⟩]

/-- The objects of area 38 (chapter 8). -/
def objs38 : List ObjDesc :=
  [⟨0x38, 0x0, 0x0, 0, 0, .u8, 0, none, .none, 0, (some 0), [1], 0, .any, .none⟩,
   ⟨0x38, 0x0, 0x0, 1, 1, .u8, 0, none, .none, 0, (some 0), [1], 0, .any, .none⟩,
   ⟨0x38, 0x0, 0x0, 2, 2, .u32, 0, none, .none, 0, (some 131072), [4], 0, .any, .none⟩,
   ⟨0x38, 0x0, 0x0, 3, 3, .u32, 0, none, .none, 0, (some 0), [4], 0, .any, .none⟩,
   ⟨0x38, 0x0, 0x0, 4, 4, .u32, 0, none, .none, 0, (some 0), [4], 0, .any, .none⟩,
   ⟨0x38, 0x0, 0x0, 5, 5, .u32, 0, none, .none, 0, (some 0), [4], 0, .any, .none⟩,
   ⟨0x38, 0x1, 0x1, 0, 0, .u32, 0, (some 1), .live, 0, (some 100), [4], 0, (.within 10 100000), .none⟩,
   ⟨0x38, 0x1, 0x1, 1, 1, .u16, 0, (some 1), .live, 0, (some 2048), [2], 0, (.within 16 8192), .none⟩,
   ⟨0x38, 0x1, 0x1, 2, 2, .u16, 0, (some 1), .live, 0, (some 8192), [2], 0, (.within 1024 16384), .none⟩,
   ⟨0x38, 0x1, 0x1, 3, 3, .u8, 0, (some 2), .live, 0, (some 1), [1], 0, (.within 0 1), .none⟩,
   ⟨0x38, 0x2, 0x2, 0, 0, .u32, 0, none, .none, 0, (some 0), [4], 0, .any, .none⟩,
   ⟨0x38, 0x2, 0x2, 1, 1, .u32, 0, none, .none, 0, (some 0), [4], 0, .any, .none⟩] ++
  [⟨0x38, 0x100, 0x13f, 0, 0, .u8, 0, (some 1), .shadow, 6, (some 0), [1], 0, (.within 0 1), .none⟩,
   ⟨0x38, 0x100, 0x13f, 1, 1, .u8, 0, (some 1), .shadow, 6, (some 0), [1], 0, (.within 0 2), .none⟩,
   ⟨0x38, 0x100, 0x13f, 2, 2, .bits32, 0, (some 1), .shadow, 6, (some 0), [4], 0xfffffff8, .any, .none⟩,
   ⟨0x38, 0x100, 0x13f, 3, 3, .bits32, 0, (some 1), .shadow, 6, (some 0), [4], 0xfffffff0, .any, .none⟩,
   ⟨0x38, 0x100, 0x13f, 4, 4, .u8, 0, (some 1), .shadow, 6, (some 1), [1], 0, (.within 0 1), .none⟩,
   ⟨0x38, 0x100, 0x13f, 5, 5, .u16, 0, (some 1), .shadow, 6, (some 65535), [2], 0, .any, .none⟩,
   ⟨0x38, 0x100, 0x13f, 6, 6, .u16, 0, (some 1), .shadow, 6, (some 65535), [2], 0, .any, .none⟩,
   ⟨0x38, 0x100, 0x13f, 7, 7, .u32, 0, (some 1), .shadow, 6, (some 0), [4], 0, .any, .none⟩,
   ⟨0x38, 0x100, 0x13f, 8, 8, .u32, 0, (some 1), .shadow, 6, (some 1024), [4], 0, (.within 1 1048576), .none⟩,
   ⟨0x38, 0x100, 0x13f, 9, 9, .u8, 0, (some 1), .shadow, 6, (some 0), [1], 0, (.within 0 2), .none⟩,
   ⟨0x38, 0x100, 0x13f, 10, 10, .u8, 0, (some 1), .shadow, 6, (some 1), [1], 0, (.within 0 2), .none⟩,
   ⟨0x38, 0x100, 0x13f, 11, 11, .u8, 0, (some 1), .shadow, 6, (some 0), [1], 0, (.within 0 15), .none⟩]

/-- The objects of area 40 (chapter 9). -/
def objs40 : List ObjDesc :=
  [⟨0x40, 0x0, 0x0, 0, 0, .u32, 0, (some 1), .live, 0, (some 1000), [4], 0, (.within 1000 60000), .none⟩,
   ⟨0x40, 0x0, 0x0, 1, 1, .u16, 0, (some 1), .live, 0, (some 3), [2], 0, .any, .none⟩,
   ⟨0x40, 0x0, 0x0, 2, 2, .u16, 0, (some 1), .live, 0, (some 60), [2], 0, .any, .none⟩,
   ⟨0x40, 0x0, 0x0, 3, 3, .u32, 0, (some 1), .live, 0, (some 20000000), [4], 0, (.within 1000 50000000), .none⟩,
   ⟨0x40, 0x0, 0x0, 4, 4, .u32, 0, (some 2), .live, 0, (some 3600), [4], 0, (.zeroOr 60 86400), .none⟩,
   ⟨0x40, 0x1, 0x1, 0, 0, .table 32 16, 0, (some 1), .shadow, 0, (some 0x1d4c00000753000000fa00000ea600036ee8000004e200000ea60), [4, 4, 4, 4, 4, 4, 4, 4], 0xffffffff00000000000000000000000000000000000000000000000000000000, .rule, .none⟩,
   ⟨0x40, 0x2, 0x2, 0, 0, .table 1 64, 0, none, .none, 0, (some 1), [1], 0, .any, .none⟩,
   ⟨0x40, 0x100, 0x100, 0, 0, .table 64 256, 0, (some 1), .shadow, 6, (some 0), [1, 1, 2, 2, 2, 4, 4, 1, 1, 1, 1, 1, 1, 1, 1, 1, 1, 1, 1, 1, 1, 1, 1, 1, 1, 1, 1, 1, 1, 1, 1, 1, 1, 1, 1, 1, 1, 1, 1, 4, 2, 1, 1, 1, 1, 1, 1, 1, 1, 1, 1], 0xffffffffffffffffffff000000000000000000000000000000000000000000000000000000000000000000000000000000000000000000000000000000000000, .rule, .none⟩,
   ⟨0x40, 0x101, 0x101, 0, 0, .table 16 256, 0, none, .none, 0, (some 0), [4, 4, 4, 4], 0, .any, .none⟩,
   ⟨0x40, 0x200, 0x200, 0, 0, .table 48 256, 0, (some 1), .shadow, 6, (some 0), [1, 1, 1, 1, 2, 2, 1, 1, 2, 4, 1, 1, 1, 1, 1, 1, 1, 1, 1, 1, 1, 1, 1, 1, 1, 1, 1, 1, 1, 1, 1, 1, 1, 1, 1, 1, 1, 1, 1, 1, 1, 1], 0xffffffffffffffffffffffffffffffff00000000000000000000000000000000ffffffff000000000000000000000000, .rule, .none⟩,
   ⟨0x40, 0x201, 0x201, 0, 0, .table 32 4096, 0, (some 1), .shadow, 6, (some 0xffff), [2, 1, 1, 2, 1, 1, 1, 1, 1, 1, 1, 1, 1, 1, 1, 1, 1, 1, 1, 1, 1, 1, 1, 1, 1, 1, 1, 1, 1, 1], 0xffffffffffffffffffff0000fe000000, .rule, .none⟩,
   ⟨0x40, 0x202, 0x202, 0, 0, .table 1 4096, 0, (some 1), .live, 0, (some 0), [1], 0, (.within 0 3), .none⟩] ++
  [⟨0x40, 0x203, 0x203, 0, 0, .table 16 4096, 0, none, .none, 0, (some 0), [4, 2, 2, 8], 0, .any, .none⟩,
   ⟨0x40, 0x204, 0x204, 0, 0, .table 1 256, 0, none, .none, 0, (some 0), [1], 0, .any, .none⟩]

/-- The objects of area 48 (chapter 10). -/
def objs48 : List ObjDesc :=
  [⟨0x48, 0x0, 0x0, 0, 0, .table 4 8, 0, (some 2), .halt, 9, (some 0), [4], 0, .rule, .bit 35⟩,
   ⟨0x48, 0x0, 0x0, 1, 1, .u32, 0, none, .none, 0, (some 148367360), [4], 0, .any, .none⟩,
   ⟨0x48, 0x1, 0x1, 0, 0, .table 32 4134, 0, (some 1), .live, 9, (some 0), [4, 4, 4, 4, 4, 4, 4, 4], 0, .any, .none⟩,
   ⟨0x48, 0x2, 0x2, 0, 0, .table 4 516, 0, (some 1), .live, 0, (some 2000), [4], 0, (.within 0 100000), .none⟩,
   ⟨0x48, 0x3, 0x3, 0, 0, .u32, 0, (some 2), .live, 0, (some 10000), [4], 0, (.zeroOr 1000 3600000), .none⟩,
   ⟨0x48, 0x10, 0x10, 0, 0, .table 32 8, 0, none, .none, 0, (some 0), [4, 4, 4, 4, 4, 2, 1, 1, 1, 1, 1, 1, 1, 1, 1, 1], 0, .any, .none⟩,
   ⟨0x48, 0x11, 0x11, 0, 0, .table 32 4134, 0, none, .none, 0, (some 0), [4, 4, 4, 4, 4, 4, 4, 4], 0, .any, .none⟩,
   ⟨0x48, 0x12, 0x12, 0, 0, .u64, 0, none, .none, 0, (some 0), [8], 0, .any, .none⟩,
   ⟨0x48, 0x12, 0x12, 1, 1, .u32, 0, none, .none, 0, (some 0), [4], 0, .any, .none⟩,
   ⟨0x48, 0x13, 0x13, 0, 0, .table 8 32, 0, none, .none, 0, (some 0), [2, 2, 4], 0, .any, .none⟩]

/-- The objects of area 50 (chapter 11). -/
def objs50 : List ObjDesc :=
  [⟨0x50, 0x0, 0x0, 0, 0, .table 16 5120, 0, (some 1), .live, 0, (some 0x30000100008000000100000), [4, 4, 2, 1, 1, 4], 0xffffffff000000000000000000000000, .rule, .none⟩,
   ⟨0x50, 0x1, 0x1, 0, 0, .table 16 5632, 0, (some 1), .live, 2, (some 0x2614ffffffff0000261400000000), [4, 4, 4, 4], 0, .rule, .none⟩,
   ⟨0x50, 0x2, 0x2, 0, 0, .table 24 65536, 0, (some 1), .shadow, 3, (some 0x2614ffffffff00002614ffffffff00ffff00), [1, 1, 1, 1, 4, 4, 4, 4, 4], 0xffffffff00000000000000000000000000000000ff000000, .rule, .none⟩,
   ⟨0x50, 0x3, 0x3, 0, 0, .table 8 64, 0, (some 1), .shadow, 0, (some 0), [8], 0, .rule, .none⟩,
   ⟨0x50, 0x4, 0x4, 0, 0, .table 8 512, 0, (some 1), .shadow, 0, (some 0), [4, 1, 1, 1, 1], 0xffffff007fff0000, .any, .none⟩,
   ⟨0x50, 0x5, 0x5, 0, 0, .table 32 512, 0, (some 1), .shadow, 4, (some 0), [2, 1, 1, 4, 10, 1, 1, 1, 1, 1, 1, 1, 1, 1, 1, 1, 1, 1, 1], 0xffffffffffffffffffffffffffff0000000000000000000000000000ff000000, .rule, .none⟩,
   ⟨0x50, 0x6, 0x6, 0, 0, .table 8 131072, 0, (some 1), .shadow, 4, (some 0), [4, 2, 2], 0xfffffc0000000000, .rule, .none⟩,
   ⟨0x50, 0x7, 0x7, 0, 0, .table 64 16384, 0, (some 1), .live, 0, (some 0), [4, 4, 4, 4, 4, 4, 4, 4, 4, 4, 4, 4, 4, 4, 4, 4], 0, .any, .none⟩,
   ⟨0x50, 0x8, 0x8, 0, 0, .table 16 16, 0, (some 1), .shadow, 0, (some 0), [1, 1, 2, 2, 1, 1, 1, 1, 1, 1, 1, 1, 1, 1], 0xffffffffffffffffffff000000000000, .rule, .none⟩,
   ⟨0x50, 0x9, 0x9, 0, 0, .u8, 0, (some 1), .live, 0, (some 0), [1], 0, (.within 0 1), .none⟩,
   ⟨0x50, 0x9, 0x9, 1, 1, .u32, 0, none, .none, 0, (some 0), [4], 0, .any, .none⟩,
   ⟨0x50, 0x9, 0x9, 2, 2, .u32, 0, (some 1), .live, 0, (some 0), [4], 0, .any, .none⟩] ++
  [⟨0x50, 0x10, 0x10, 0, 0, .table 16 5120, 0, none, .none, 0, (some 0), [4, 4, 1, 1, 1, 1, 1, 1, 1, 1], 0, .any, .none⟩]

/-- The objects of area 58 (chapter 12). -/
def objs58 : List ObjDesc :=
  [⟨0x58, 0x0, 0x0, 0, 0, .table 8 16, 0, (some 2), .live, 0, (some 0), [1, 1, 1, 1, 4], 0xffffff00, .rule, .none⟩,
   ⟨0x58, 0x0, 0x0, 1, 1, .u16, 0, (some 2), .halt, 0, (some 1024), [2], 0, (.within 256 4096), .bit 38⟩,
   ⟨0x58, 0x0, 0x0, 2, 2, .u16, 0, (some 1), .live, 0, (some 6144), [2], 0, (.within 1024 7936), .none⟩,
   ⟨0x58, 0x0, 0x0, 3, 3, .u32, 0, (some 2), .halt, 0, (some 1000), [4], 0, (.within 100 100000), .bit 38⟩,
   ⟨0x58, 0x0, 0x0, 4, 4, .u32, 0, (some 2), .halt, 0, (some 65536), [4], 0, (.within 0 262144), .bit 38⟩,
   ⟨0x58, 0x0, 0x0, 5, 5, .u32, 0, (some 1), .live, 0, (some 1000), [4], 0, (.within 1 1000000), .none⟩,
   ⟨0x58, 0x10, 0x10, 0, 0, .u16, 0, none, .none, 0, (some 0), [2], 0, .any, .none⟩,
   ⟨0x58, 0x10, 0x10, 1, 1, .u32, 0, none, .none, 0, (some 0), [4], 0, .any, .none⟩,
   ⟨0x58, 0x10, 0x10, 2, 2, .u32, 0, none, .none, 0, (some 0), [4], 0, .any, .none⟩,
   ⟨0x58, 0x10, 0x10, 3, 3, .octets 64, 0, none, .none, 0, (some 0), List.replicate 64 1, 0, .any, .none⟩,
   ⟨0x58, 0x11, 0x11, 0, 0, .table 16 20, 0, none, .none, 0, (some 0), [2, 2, 4, 8], 0, .any, .none⟩]

/-- The objects of area 60 (chapter 13). -/
def objs60 : List ObjDesc :=
  [⟨0x60, 0x0, 0x0, 0, 0, .u64, 0, (some 1), .live, 0, none, [8], 0, .any, .none⟩,
   ⟨0x60, 0x0, 0x0, 1, 1, .u32, 0, (some 1), .live, 0, (some 4096), [4], 0, .any, .none⟩,
   ⟨0x60, 0x0, 0x0, 2, 2, .u64, 0, (some 1), .live, 0, none, [8], 0, .any, .none⟩,
   ⟨0x60, 0x0, 0x0, 3, 3, .u64, 0, (some 1), .live, 0, none, [8], 0, .any, .none⟩,
   ⟨0x60, 0x0, 0x0, 4, 4, .u32, 0, (some 1), .live, 0, (some 4096), [4], 0, .any, .none⟩,
   ⟨0x60, 0x0, 0x0, 5, 5, .u64, 0, (some 1), .live, 0, none, [8], 0, .any, .none⟩,
   ⟨0x60, 0x0, 0x0, 6, 6, .u16, 0, (some 1), .live, 0, (some 0), [2], 0, (.within 0 2047), .none⟩,
   ⟨0x60, 0x0, 0x0, 7, 7, .u8, 0, (some 1), .live, 0, (some 0), [1], 0, (.within 0 1), .none⟩,
   ⟨0x60, 0x1, 0x1, 0, 0, .u16, 0, (some 1), .live, 0, (some 1), [2], 0, (.within 0 2047), .none⟩,
   ⟨0x60, 0x1, 0x1, 1, 1, .u32, 0, (some 1), .live, 0, (some 100), [4], 0, (.within 1 10000), .none⟩,
   ⟨0x60, 0x1, 0x1, 2, 2, .u16, 0, (some 1), .live, 0, (some 256), [2], 0, (.within 0 512), .none⟩,
   ⟨0x60, 0x2, 0x2, 0, 0, .table 1 4096, 0, (some 2), .live, 0, (some 0), [1], 0, (.within 0 3), .none⟩] ++
  [⟨0x60, 0x10, 0x10, 0, 0, .table 16 4096, 0, none, .none, 0, (some 0), [1, 1, 1, 1, 2, 2, 4, 4], 0, .any, .none⟩,
   ⟨0x60, 0x11, 0x11, 0, 0, .table 16 4096, 0, none, .none, 0, (some 0), [1, 1, 2, 4, 4, 2, 2], 0, .any, .none⟩,
   ⟨0x60, 0x12, 0x12, 0, 0, .bits32, 0, none, .none, 0, (some 0), [4], 0, .any, .none⟩]

/-- The objects of area 68 (chapter 15). -/
def objs68 : List ObjDesc :=
  [⟨0x68, 0x0, 0x0, 0, 0, .u8, 0, (some 2), .halt, 0, (some 0), [1], 0, (.within 0 1), .pipelines⟩,
   ⟨0x68, 0x0, 0x0, 1, 1, .u8, 0, (some 2), .live, 0, (some 1), [1], 0, (.within 1 127), .none⟩,
   ⟨0x68, 0x0, 0x0, 2, 2, .u8, 0, (some 2), .live, 0, (some 1), [1], 0, (.within 0 1), .none⟩,
   ⟨0x68, 0x0, 0x0, 3, 3, .u8, 0, (some 2), .live, 0, (some 0), [1], 0, .any, .none⟩,
   ⟨0x68, 0x0, 0x0, 4, 4, .u8, 0, (some 2), .live, 0, (some 0), [1], 0, .any, .none⟩,
   ⟨0x68, 0x0, 0x0, 5, 5, .u8, 0, none, .none, 0, (some 0), [1], 0, .any, .none⟩,
   ⟨0x68, 0x0, 0x0, 6, 6, .u8, 0, none, .none, 0, (some 0), [1], 0, .any, .none⟩,
   ⟨0x68, 0x0, 0x0, 7, 7, .u8, 0, none, .none, 0, (some 0), [1], 0, .any, .none⟩,
   ⟨0x68, 0x1, 0x1, 0, 0, .octets 16, 0, (some 2), .live, 7, (some 0), List.replicate 16 1, 0, .any, .none⟩,
   ⟨0x68, 0x1, 0x1, 1, 1, .u32, 0, (some 2), .live, 7, (some 0), [4], 0, .any, .none⟩,
   ⟨0x68, 0x1, 0x1, 2, 2, .u32, 0, (some 2), .live, 7, (some 0), [4], 0, .any, .none⟩,
   ⟨0x68, 0x2, 0x2, 0, 0, .u8, 0, (some 2), .halt, 0, (some 1), [1], 0, (.within 0 1), .pipelines⟩] ++
  [⟨0x68, 0x2, 0x2, 1, 1, .bits32, 0, (some 2), .halt, 0, (some 1985229328), [4], 0x88888888, .rule, .pipelines⟩,
   ⟨0x68, 0x2, 0x2, 2, 2, .bits32, 0, (some 2), .halt, 0, (some 1985229328), [4], 0x88888888, .rule, .pipelines⟩,
   ⟨0x68, 0x2, 0x2, 3, 3, .bits32, 0, (some 2), .halt, 0, (some 0), [4], 0xffff0000, .any, .pipelines⟩,
   ⟨0x68, 0x2, 0x2, 4, 4, .u8, 0, none, .none, 0, (some 1), [1], 0, .any, .none⟩,
   ⟨0x68, 0x2, 0x2, 5, 5, .u32, 0, (some 2), .live, 0, (some 10000), [4], 0, (.within 100 1000000), .none⟩,
   ⟨0x68, 0x3, 0x3, 0, 0, .u32, 0, (some 2), .live, 0, (some 50), [4], 0, (.within 20 10000), .none⟩,
   ⟨0x68, 0x3, 0x3, 1, 1, .u32, 0, (some 2), .live, 0, (some 200), [4], 0, (.within 20 1000000), .none⟩,
   ⟨0x68, 0x3, 0x3, 2, 2, .u32, 0, (some 2), .live, 0, (some 100), [4], 0, .any, .none⟩,
   ⟨0x68, 0x3, 0x3, 3, 3, .u32, 0, (some 2), .live, 0, (some 1000), [4], 0, .any, .none⟩,
   ⟨0x68, 0x3, 0x3, 4, 4, .u16, 0, (some 2), .live, 0, (some 180), [2], 0, .any, .none⟩,
   ⟨0x68, 0x10, 0x10, 0, 0, .octets 32, 0, none, .none, 0, (some 0), List.replicate 32 1, 0, .any, .none⟩,
   ⟨0x68, 0x10, 0x10, 1, 1, .octets 32, 0, none, .none, 0, none, List.replicate 32 1, 0, .any, .none⟩]

/-- The objects of area 70 (chapter 16). -/
def objs70 : List ObjDesc :=
  [⟨0x70, 0x0, 0x0, 0, 0, .table 16 4, 0, (some 2), .live, 0, (some 0), [1, 1, 2, 4, 4, 4], 0xffff0000, .rule, .none⟩,
   ⟨0x70, 0x0, 0x0, 1, 1, .u16, 0, (some 3), .live, 0, (some 40), [2], 0, (.within 25 100), .none⟩,
   ⟨0x70, 0x0, 0x0, 2, 2, .u8, 0, (some 3), .live, 0, (some 64), [1], 0, (.within 0 127), .none⟩,
   ⟨0x70, 0x0, 0x0, 3, 3, .s16, 0, (some 2), .live, 0, (some 115), [2], 0, (.signed 16 (85) 120), .none⟩,
   ⟨0x70, 0x1, 0x1, 0, 0, .table 16 4, 0, none, .none, 0, (some 0), [4, 4, 1, 1, 1, 1, 1, 1, 1, 1], 0, .any, .none⟩,
   ⟨0x70, 0x1, 0x1, 1, 1, .bits32, 0, none, .none, 0, (some 0), [4], 0, .any, .none⟩,
   ⟨0x70, 0x1, 0x1, 2, 2, .table 1 16, 0, none, .none, 0, (some 0), [1], 0, .any, .none⟩,
   ⟨0x70, 0x1, 0x1, 3, 3, .s16, 0, none, .none, 0, (some 0), [2], 0, .any, .none⟩,
   ⟨0x70, 0x1, 0x1, 4, 4, .u16, 0, none, .none, 0, (some 0), [2], 0, .any, .none⟩,
   ⟨0x70, 0x2, 0x2, 0, 0, .table 32 16, 0, none, .none, 0, (some 0), [1, 1, 1, 1, 4, 4, 2, 2, 10, 1, 1, 1, 1, 1, 1], 0, .any, .none⟩,
   ⟨0x70, 0x2, 0x2, 1, 1, .u8, 0, none, .none, 0, (some 0), [1], 0, .any, .none⟩,
   ⟨0x70, 0x3, 0x3, 0, 0, .u64, 0, none, .none, 0, (some 0), [8], 0, .any, .none⟩]

/-- The objects of area 78 (chapter 16). -/
def objs78 : List ObjDesc :=
  [⟨0x78, 0x0, 0x0, 0, 0, .table 16 1056, 0, (some 1), .live, 0, (some 0), [2, 1, 1, 2, 1, 1, 2, 2, 4], 0xffffffff00000000ff000000fc000000, .rule, .none⟩,
   ⟨0x78, 0x0, 0x0, 1, 1, .table 8 1056, 2, none, .none, 0, (some 0), [8], 0, .any, .none⟩,
   ⟨0x78, 0x0, 0x0, 2, 2, .table 8 1056, 0, none, .none, 0, (some 0), [8], 0, .any, .none⟩,
   ⟨0x78, 0x1, 0x1, 0, 0, .table 80 16, 0, none, .none, 0, (some 0), [8, 8, 8, 8, 8, 8, 8, 8, 8, 8], 0, .any, .none⟩,
   ⟨0x78, 0x1, 0x1, 1, 1, .u64, 0, none, .none, 0, (some 0), [8], 0, .any, .none⟩,
   ⟨0x78, 0x2, 0x2, 0, 0, .table 16 1, 0, (some 1), .live, 0, (some 0), [1, 1, 2, 2, 1, 1, 4, 2, 2], 0, .rule, .none⟩,
   ⟨0x78, 0x2, 0x2, 1, 1, .table 64 4096, 0, none, .none, 0, (some 0), [1, 1, 2, 2, 2, 8, 2, 1, 1, 2, 1, 1, 4, 4, 4, 4, 4, 4, 4, 2, 1, 1, 1, 1, 1, 1, 1, 1, 1, 1], 0, .any, .none⟩,
   ⟨0x78, 0x2, 0x2, 2, 2, .u32, 0, none, .none, 0, (some 0), [4], 0, .any, .none⟩,
   ⟨0x78, 0x2, 0x2, 3, 3, .u32, 0, (some 1), .live, 0, (some 0), [4], 0, .any, .none⟩]

/-- The objects of area 7C (chapter 17). -/
def objs7C : List ObjDesc :=
  [⟨0x7c, 0x0, 0x0, 0, 0, .table 4 16, 0, none, .none, 0, (some 0), [4], 0, .any, .none⟩,
   ⟨0x7c, 0x0, 0x0, 1, 1, .table 4 16, 0, (some 1), .live, 0, (some 0), [4], 0, .any, .none⟩,
   ⟨0x7c, 0x0, 0x0, 2, 2, .table 4 16, 0, (some 1), .live, 0, (some 0), [4], 0, .any, .none⟩,
   ⟨0x7c, 0x1, 0x1, 0, 0, .table 4 16, 0, (some 1), .live, 0, (some 0), [4], 0xfff0, .rule, .none⟩,
   ⟨0x7c, 0x2, 0x2, 0, 0, .table 32 512, 0, none, .none, 0, (some 0), [4, 4, 10, 1, 1, 1, 1, 1, 1, 1, 1, 1, 1, 1, 1, 1, 1], 0, .any, .none⟩,
   ⟨0x7c, 0x3, 0x3, 0, 0, .table 8 2, 0, (some 1), .live, 0, (some 0xffffffffffff), [1, 1, 1, 1, 1, 1, 1, 1], 0xffff000000000000, .any, .none⟩,
   ⟨0x7c, 0x3, 0x3, 1, 1, .u32, 0, (some 1), .live, 0, (some 10000), [4], 0, (.within 1 100000), .none⟩,
   ⟨0x7c, 0x10, 0x10, 0, 0, .bits32, 0, none, .none, 0, (some 0), [4], 0, .any, .none⟩]

/-- The objects of area 7E (chapter 2). -/
def objs7E : List ObjDesc :=
  [⟨0x7e, 0x0, 0x0, 0, 0, .u16, 0, none, .none, 0, (some 1), [2], 0, .any, .none⟩,
   ⟨0x7e, 0x0, 0x0, 1, 1, .u8, 0, none, .none, 0, (some 0), [1], 0, .any, .none⟩,
   ⟨0x7e, 0x0, 0x0, 2, 2, .u8, 0, none, .none, 0, (some 0), [1], 0, .any, .none⟩,
   ⟨0x7e, 0x0, 0x0, 3, 3, .u16, 0, none, .none, 0, (some 0), [2], 0, .any, .none⟩,
   ⟨0x7e, 0x1, 0x1, 0, 0, .u16, 0, (some 1), .live, 0, (some 0), [2], 0, .any, .none⟩,
   ⟨0x7e, 0x1, 0x1, 1, 1, .u8, 0, none, .none, 0, (some 0), [1], 0, .any, .none⟩,
   ⟨0x7e, 0x1, 0x1, 2, 2, .u16, 0, none, .none, 0, (some 0), [2], 0, .any, .none⟩,
   ⟨0x7e, 0x1, 0x1, 3, 3, .u64, 0, none, .none, 0, (some 0), [8], 0, .any, .none⟩,
   ⟨0x7e, 0x1, 0x1, 4, 4, .time80, 0, none, .none, 0, (some 0), [10], 0, .any, .none⟩,
   ⟨0x7e, 0x1, 0x1, 5, 5, .u16, 0, (some 1), .live, 0, (some 0), [2], 0, .any, .none⟩,
   ⟨0x7e, 0x2, 0x2, 0, 0, .u32, 0, (some 2), .live, 0, (some 2000000), [4], 0, (.within 1000 4000000), .none⟩,
   ⟨0x7e, 0x2, 0x2, 1, 1, .u32, 0, none, .none, 0, (some 0), [4], 0, .any, .none⟩] ++
  [⟨0x7e, 0x2, 0x2, 2, 2, .u64, 0, none, .none, 0, (some 0), [8], 0, .any, .none⟩,
   ⟨0x7e, 0x3, 0x3, 0, 0, .u32, 0, (some 1), .live, 0, (some 50), [4], 0, .any, .none⟩,
   ⟨0x7e, 0x3, 0x3, 1, 1, .u32, 0, none, .none, 0, (some 0), [4], 0, .any, .none⟩,
   ⟨0x7e, 0x4, 0x4, 0, 0, .u8, 0, (some 1), .live, 0, (some 0), [1], 0, .any, .none⟩,
   ⟨0x7e, 0x4, 0x4, 1, 1, .bits32, 0, (some 1), .live, 0, (some 1), [4], 0xfffffffc, .any, .none⟩,
   ⟨0x7e, 0x4, 0x4, 2, 2, .u64, 0, none, .none, 0, (some 0), [8], 0, .any, .none⟩,
   ⟨0x7e, 0x10, 0x10, 0, 0, .bits64, 0, (some 2), .live, 0, (some 0), [8], 0xffffff8000000000, .any, .none⟩,
   ⟨0x7e, 0x10, 0x10, 1, 1, .bits64, 0, none, .none, 0, (some 0), [8], 0, .any, .none⟩]

/-- The objects of an area; an area that Table 3-3 does not give holds none (R96). -/
def objsOf (area : Nat) : List ObjDesc :=
  match area with
  | 0x00 => objs00
  | 0x08 => objs08
  | 0x10 => objs10
  | 0x18 => objs18
  | 0x20 => objs20
  | 0x28 => objs28
  | 0x30 => objs30
  | 0x38 => objs38
  | 0x40 => objs40
  | 0x48 => objs48
  | 0x50 => objs50
  | 0x58 => objs58
  | 0x60 => objs60
  | 0x68 => objs68
  | 0x70 => objs70
  | 0x78 => objs78
  | 0x7C => objs7C
  | 0x7E => objs7E
  | _ => []

/-- The areas of Table 3-3 with their positions in WRITE_FLOORS. -/
def areaPos (area : Nat) : Option Nat :=
  match area with
  | 0x00 => some 0
  | 0x08 => some 1
  | 0x10 => some 2
  | 0x18 => some 3
  | 0x20 => some 4
  | 0x28 => some 5
  | 0x30 => some 6
  | 0x38 => some 7
  | 0x40 => some 8
  | 0x48 => some 9
  | 0x50 => some 10
  | 0x58 => some 11
  | 0x60 => some 12
  | 0x68 => some 13
  | 0x70 => some 14
  | 0x78 => some 15
  | 0x7C => some 16
  | 0x7E => some 17
  | _ => none

/-- The row of the dictionary tables that gives an object, by packed number (R83). Nine U8 enables have no range in their
tables; the model gives each the range 0 to 1, so that 2 to 255 are out of range (DESIGN CHOICE, log entry 135). -/
def objDesc (obj : Nat) : Option ObjDesc :=
  (objsOf (obj >>> 24)).find? (fun d => d.lo ≤ (obj >>> 8) % 65536 && (obj >>> 8) % 65536 ≤ d.hi && d.e0 ≤ obj % 256 &&
    obj % 256 ≤ d.e1)

/-- Bytes of a value, or of one row of a TABLE. -/
def ObjType.size : ObjType → Nat
  | .u8 => 1 | .u16 => 2 | .u32 => 4 | .u64 => 8 | .s32 => 4 | .s64 => 8 | .bits32 => 4 | .bits64 => 8 | .time80 => 10
  | .s16 => 2 | .octets n => n | .table r _ => r

/-- Rows of a TABLE, 1 otherwise. -/
def ObjType.rows : ObjType → Nat
  | .table _ n => n
  | _ => 1

/-- The type codes of Table 3-1. -/
def ObjType.code : ObjType → Nat
  | .u8 => 1 | .u16 => 2 | .u32 => 3 | .u64 => 4 | .s32 => 5 | .s64 => 6 | .bits32 => 7 | .bits64 => 8 | .octets _ => 9
  | .time80 => 10 | .table _ _ => 11 | .s16 => 12

/-- Default rows of the tables whose rows differ (Tables 10-1, 10-4, 12-4 and 16-8). -/
def rowDefault (obj row : Nat) : Option Nat :=
  if obj = oPoolBuffers then
    some (nth 0 [262144, 65536, 32768, 16384, 8192, 4096, 2560, 65536] row)
  else if obj = oBreakwater then
    match row with
    | 4128 => some (16384 <<< 224)
    | 4129 => some (1024 <<< 128)
    | 4130 => some (128 <<< 192)
    | 4131 => some (64 <<< 192)
    | 4132 => some (8192 <<< 32)
    | 4133 => some (8192 <<< 224)
    | _ => some 0
  else if obj = oDwKind then
    let cls := nth 0 [0, 3, 3, 1, 6, 2, 0, 2, 1, 2, 1, 0, 1, 4, 7, 0] row
    let dl := nth 0 [0, 0, 100, 0, 1000, 0, 0, 1000, 10000, 1000, 0, 10000, 100000, 100, 10, 0] row
    some (cls + dl * 2 ^ 32)
  else if obj = oGovKnobs then
    match row with
    | 0 => some (1 + 680 * 2 ^ 32 + 820 * 2 ^ 64 + 820 * 2 ^ 96)
    | 1 => some (1 + 3 * 2 ^ 64)
    | 2 => some ((2 ^ 32 - 3) * 2 ^ 32 + 3 * 2 ^ 64)
    | _ => some 1
  else none

/-- What a row of an object holds after reset, and what an unlisted row reads as; none where it is unset (R16). -/
def dfltOf (obj row : Nat) : Option Nat :=
  match rowDefault obj row with
  | some v => some v
  | none => (objDesc obj).bind (·.dflt)

end Sys2Proof.Machine
end

