-- ==== Sys2Proof/Machine/StCore.lean ====
section
/-! DEFINITION. State of the Control Core, the configuration sets, the ports, the frames and the pipelines. Registers that are
dictionary objects live in State.dict under their object numbers; the structures here hold what has no object number. -/

namespace Sys2Proof.Machine
open Sys2Proof

/-- A PTP time: seconds, nanoseconds and 2^−16 ns (chapter 14). -/
structure Stamp where
  sec : Nat := 0
  ns : Nat := 0
  frac : Nat := 0
deriving DecidableEq, Repr

/-- The page a port advertises in Clause 73 auto-negotiation (R147, R143): technologies as speed code and -S ability, the FEC bits
of FEC_ADVERTISE, fast-wake EEE, the pause bits, and whether its next page is the null message page. -/
structure AnPage where
  techs : List (Nat × Bool)
  fec : Nat
  fastWake : Bool
  pause : Nat := 0
  nullNext : Bool := true
deriving DecidableEq, Repr

/-- What leaves the device, in the order in which it leaves. -/
inductive Output where
  /-- A frame without FCS on MGMT0 or MGMT1 (R108). -/
  | mgmt (port : Nat) (frame : Bytes)
  /-- A posted write to host memory (R449). -/
  | hostWrite (addr : Nat) (data : Bytes)
  /-- An MSI-X message (R487). -/
  | msix (vector : Nat)
  /-- A PME message (R492). -/
  | pme
  /-- An LTR message with its latency in µs (R489). -/
  | ltr (us : Nat)
  /-- A frame that a MAC starts to transmit, with its preamble, SFD and FCS (R140). -/
  | lane (port : Nat) (frame : Bytes)
  /-- The page a port sends in auto-negotiation (R147). -/
  | autoneg (port : Nat) (page : AnPage)
  /-- A physical lane transmits with an equaliser setting, inverted or not, in training or not (R149). -/
  | laneTx (lane eq : Nat) (inverted training : Bool)
  /-- A port begins or ends to send remote fault (R151). -/
  | remoteFault (port : Nat) (on : Bool)
  /-- A transmission ended with an error code group (R154). -/
  | laneAbort (port : Nat)
  /-- A pair-link frame without FCS (R539): its Ethernet header and the header of Table 15-3, then its payload. -/
  | pair (header : Bytes) (body : Bytes)
  /-- A byte driven on CLAIM_OUT (R530). -/
  | claim (byte : Nat)
  /-- A PMBus transaction: address, command code, data word (R638, R639). -/
  | pmbus (addr code data : Nat)
deriving DecidableEq, Repr

/-- The fuses (R92): kept through every reset, changed only by key revocation. -/
structure Fuse where
  serial : Nat := 0
  writeFloors : Nat := 0
  factoryDisabled : Nat := 0
  pcieCeiling : Nat := 2
  pcieAuth : Nat := 0
  claimMin : Nat := 1
  claimMax : Nat := 127
  csKeyHash : Nat := 0
  patchEnable : Nat := 1
  /-- The key roots of the four levels, 32 bytes each, byte 0 lowest (R95). -/
  roots : List Nat := [0, 0, 0, 0]
  /-- Blown generation fuses of the four levels (R129). -/
  gens : List Nat := [0, 0, 0, 0]
  mac0 : Nat := 0
  mac1 : Nat := 0
  /-- Rows of TS_CAL (R504), by row number. -/
  tsCal : Tab Nat := []
deriving DecidableEq, Repr

/-- The clocks: CCLK cycles since the release of reset; every other clock of Table 0-4 divides it. `lim` holds, for each
limit that a rule states per cycle (Table 1-2, R164, R380, R437, R439), the last cycle it was used in and how often in it. -/
structure Clk where
  cclk : Nat := 0
  lim : Tab (Nat × Nat) := []
deriving DecidableEq, Repr

/-- Event unit beside EVENT_PENDING and EVENT_LOG (R620 to R624, R664). -/
structure Ev where
  /-- MCLK cycle plus 1 of the last raise of a source (R621, R622). -/
  lastMclk : Tab Nat := []
  /-- How often each limit per second was used in the running window (R664), by limit key. -/
  window : Tab Nat := []
  /-- INT_N held low by a failed fixed boot step (R601). -/
  bootFail : Bool := false
deriving DecidableEq, Repr

/-- A dictionary request awaiting service (R125), and whether it is a turn or step the pair agreed on. -/
structure Req where
  origin : Origin
  msg : Msg
deriving DecidableEq, Repr

/-- One replay window (R113). -/
structure Window where
  high : Nat
  mask : Nat
deriving DecidableEq, Repr

/-- The PCIe dictionary mailbox (R118 to R122). -/
structure Mailbox where
  /-- 0 idle, 1 busy, 2 done -/
  state : Nat := 0
  overrun : Bool := false
  respLen : Nat := 0
  /-- The response area. -/
  response : Bytes := []
  /-- The response the engine has finished and MAILBOX_RESPONSE writes. -/
  finished : Option Bytes := none
deriving DecidableEq, Repr

/-- One MGMT port (R109, R115, R624). -/
structure Mgmt where
  linkUp : Bool := false
  /-- Step 06 has passed for the port (R624). -/
  ready : Bool := false
  /-- A MGMT_MODE change restarts the link 1 ms after its response (R127). -/
  restartDue : Bool := false
  /-- Next sequence number of notices and punts (R115, R661). -/
  seq : Nat := 1
deriving DecidableEq, Repr

/-- A request that waits in the dictionary engine, with the MCLK cycle in which it reaches it (R124). -/
structure Waiting where
  at_ : Nat
  req : Req
deriving DecidableEq, Repr

/-- The dictionary engine and its containers (chapter 3). -/
structure Eng where
  /-- The engine serves requests (step 06). -/
  opened : Bool := false
  /-- Requests that wait, in the order in which they are served (R50, R124). -/
  queue : List Waiting := []
  /-- MCLK cycle plus 1 in which the engine last took a request that reached it in that cycle, and its place in the order of
  R124. -/
  taken : Nat × Nat := (0, 0)
  mgmt0 : Mgmt := {}
  mgmt1 : Mgmt := {}
  mb : Mailbox := {}
  /-- Replay windows of the transport, by level × 16 + sender (R113). -/
  windows : Tab Window := []
  /-- Replay windows of the mailbox (R119). -/
  mbWindows : Tab Window := []
  nonce : Nat := 0
deriving DecidableEq, Repr

/-- One half of BAR2 (R78, R79): 0 empty, 1 being written, 2 complete. -/
structure Half where
  state : Nat := 0
  seq : Nat := 0
  epoch : Nat := 0
  cause : Nat := 0
  time : Nat := 0
  cclk : Nat := 0
  values : Tab Nat := []
deriving DecidableEq, Repr

/-- Configuration sets and snapshots beside the objects of area 7E (chapter 2). -/
structure Ep where
  /-- The turn that runs is an epoch step (R72). -/
  stepping : Bool := false
  /-- The cycle T (R65). -/
  turnT : Nat := 0
  /-- Validation has passed and waits for a free half (R81). -/
  passed : Bool := false
  /-- The turn or step request to be acknowledged (R67). -/
  request : Option Req := none
  /-- The EtherType under which it is answered, where its own message has changed MIRTY_ETHERTYPE (R127). -/
  oldType : Option Nat := none
  /-- The snapshot after slack water still waits for a half (R81). -/
  snapDue : Bool := false
  /-- The snapshot of the turn still waits for a half (R80). -/
  turnSnapDue : Bool := false
  /-- CCLK at the start of the last turn or step (R73). -/
  lastStart : Nat := 0
  /-- Number of the next snapshot (R79). The first after reset has number 1, one above SNAP_SEQ 0 (DESIGN CHOICE, log entry
  138). -/
  nextSnap : Nat := 1
  half0 : Half := {}
  half1 : Half := {}
  /-- Words of configuration sets marked corrupt (R626), by dictionary key. -/
  corrupt : List Nat := []
deriving DecidableEq, Repr

/-- What a port keeps beside its objects (chapter 4). -/
structure PortSt where
  /-- Auto-negotiation has resolved the attempt (R148). -/
  negotiated : Bool := false
  sTech : Bool := false
  fecPage : Nat := 0
  /-- Both ends agree on fast-wake EEE (R143). -/
  eee : Bool := false
  /-- The port signals low power idle. -/
  lpi : Bool := false
  /-- Consecutive failed bring-up attempts (R150). -/
  fails : Nat := 0
  /-- FEC_DEGRADED has been raised and no window at or below the threshold has followed (R152). -/
  degraded : Bool := false
  /-- The port sees local fault and sends remote fault (R151). -/
  localFault : Bool := false
  /-- A frame may have been in reception when the port ceased to carry (R155); it fails when it ends. -/
  cut : Bool := false
  /-- The frame or copy in transmission. -/
  sending : Option Nat := none
deriving DecidableEq, Repr

/-- Port Complex. -/
structure Prt where
  ports : Tab PortSt := []
deriving DecidableEq, Repr

/-- Where a frame or copy is. -/
inductive Phase where
  | staged | ingress | resolved | recirc | fabric | middle | mcFifo | replicating | queued | sending | internal
deriving DecidableEq, Repr

/-- The results of a frame's searches, as its ingress routine receives them. -/
inductive SearchResult where
  /-- Table 6-2 result of a lookup, or none on a miss; the member and next-hop when it names a group (R214). -/
  | lookup (table : Nat) (result : Option Nat) (member nextHop : Nat) (sourceOnPort : Bool)
  /-- Table 7-3 result of a group with its ACTION (R242). -/
  | rule (group : Nat) (word : Nat) (action : Nat)
  /-- Table 7-6 result (R259). -/
  | scan (word : Nat)
  /-- Table 8-5 ledger result (R288). -/
  | ledger (status flags cause record hot : Nat)
deriving DecidableEq, Repr

/-- The resolved action (Table 5-9), its fields apart; the 256-bit word is `raWord` of Ingress.lean. -/
structure Ra where
  destKind : Nat := 0
  dest : Nat := 0
  cls : Nat := 0
  colour : Nat := 0
  express : Nat := 0
  policerValid : Nat := 0
  policer : Nat := 0
  nhValid : Nat := 0
  nextHop : Nat := 0
  rwValid : Nat := 0
  rewrite : Nat := 0
  ecmpValid : Nat := 0
  ecmpGroup : Nat := 0
  ecmpMember : Nat := 0
  mirror : Nat := 0
  sample : Nat := 0
  puntCopy : Nat := 0
  reason : Nat := 0
  hairpin : Nat := 0
  digest : Nat := 0
  ttlDec : Nat := 0
  tsAction : Nat := 0
  tsId : Nat := 0
  tsOffset : Nat := 0
  template : Nat := 0
  ingressPort : Nat := 0
  recircCount : Nat := 0
  l3 : Nat := 0
  l4 : Nat := 0
  extKind : Nat := 0
  flowValid : Nat := 0
  flowRecord : Nat := 0
deriving DecidableEq, Repr

/-- What a copy of a frame is for: the frame itself, a punt copy, a mirror or sample copy, a multicast copy (R402, R423). -/
inductive CopyKind where
  | own | punt | mirror | sample | multicast | capture
deriving DecidableEq, Repr

/-- A frame or a copy of a frame, with everything its descriptor carries (R20, R28). -/
structure Frame where
  port : Nat := 0
  pipe : Nat := 0
  bytes : Bytes := []
  stamp : Stamp := {}
  express : Bool := false
  cls : Nat := 0
  epoch : Nat := 0
  phase : Phase := .staged
  kind : CopyKind := .own
  bytesRead : Nat := 0
  template : Nat := 0
  /-- The template's two words as the set of the frame's epoch gives them (R177). -/
  tmplWord : Nat := 0
  key : Bytes := []
  segs : List Nat := []
  proto : Nat := 0
  payload : Nat := 0
  h0 : Nat := 0
  sig : Nat := 0
  swapped : Bool := false
  /-- Buffer handle and the owner it is charged to (R371, R376); the bytes live in the buffer. -/
  handle : Option Nat := none
  owner : Nat := 0
  /-- CCLK at which a buffer was requested, while the request waits (R380). -/
  waiting : Option Nat := none
  ra : Ra := {}
  ext : Nat := 0
  results : List SearchResult := []
  /-- Searches of the template not yet issued, as bits: 0 exact, 1 IPv4, 2 IPv6, 3 MAC, 4 rule, 5 scan, 6 ledger;
  7: its ledger operation has entered its slice. -/
  due : Nat := 0
  /-- Instructions issued in this pass (R180), and the 128-bit word of the last one as its pipeline read it (R177). -/
  steps : Nat := 0
  ir : Nat := 0
  /-- The routine has ended. -/
  finished : Bool := false
  /-- A fault has ended the routine: the frame goes to the host whatever results are still due (R180). -/
  faulted : Bool := false
  /-- Punt reason of a fault to be delivered at the next boundary (R179). -/
  fault : Option Nat := none
  /-- One FLOW_SET per pass (R291). -/
  flowSetDone : Bool := false
  /-- The exhaustion or refusal action that replaces the routine's destination: 1 host, 2 drop, with its reason (R300). -/
  forced : Option (Nat × Nat) := none
  /-- CCLK at head acceptance, at the end of the ingress routine, at stage two, at queue admission and at selection (Table
  16-7); 0 where the stage has not been reached. -/
  tAccept : Nat := 0
  tResolved : Nat := 0
  tFabric : Nat := 0
  tEnqueue : Nat := 0
  tSelected : Nat := 0
  /-- STATUS of the ledger result, once delivered (Table 16-7). -/
  ledStatus : Option Nat := none
  /-- Home slots of the frame's ledger operation and the place of its result in the order of deliveries (R290). -/
  ledHome : List Nat := []
  ledSeq : Nat := 0
  /-- The frame a copy was made from. -/
  root : Option Nat := none
  /-- Order of entry into its middle buffer (R391). -/
  midSeq : Nat := 0
  /-- Row of MC_GROUPS as read at the head of the multicast FIFO (R421). -/
  mcRow : Nat := 0
  /-- Queue number in the Traffic Manager. -/
  queue : Nat := 0
  /-- Egress port of this copy. -/
  outPort : Nat := 0
  session : Nat := 0
  /-- Pipelines still to be struck at the head of a middle FIFO, and members still to be copied (R391, R422). -/
  todo : List Nat := []
  /-- The host asked for this frame by INJECT: its command, completed at head acceptance (R482). -/
  inject : Option SqCmd := none
  /-- CCLK of the ingress PCS stamp, for the residence time (R509). -/
  rxCclk : Nat := 0
  /-- Egress PCS stamp (R503), its cycle, and the frame as transmitted, with FCS. -/
  txStamp : Stamp := {}
  txCclk : Nat := 0
  txBytes : Bytes := []
deriving DecidableEq, Repr

/-- One pipeline (Table 5-1). -/
structure PipeSt where
  /-- Frames in staging, in order of arrival (R24). -/
  stage : List Nat := []
  /-- Frames from HOST and PAIR that wait for a head slot. -/
  inject : List Nat := []
  recirc : List Nat := []
  /-- Round-robin pointer over sources (R26), and heads taken since an internal port was served (R27). -/
  rr : Nat := 0
  sinceInternal : Nat := 0
  /-- The head cycle last used, the heads taken in it, and head slots owed to extra passes (R26, R211). -/
  headCycle : Nat := 0
  heads : Nat := 0
  owed : Nat := 0
  /-- MAX_STEPS of the heads accepted, less 32 for every pipeline cycle since (R164). -/
  debt : Nat := 0
  /-- Instructions issued in the running period of slot gating (R573). -/
  issued : Nat := 0
  /-- Scans waiting at the automaton engine (R257). -/
  scans : List Nat := []
deriving DecidableEq, Repr

/-- Pipelines and the frames in the device. -/
structure Pip where
  frames : Tab Frame := []
  nextFid : Nat := 0
  /-- Ledger results delivered so far (R290). -/
  nextSeq : Nat := 0
  pipes : Tab PipeSt := []
deriving DecidableEq, Repr

/-- Control store (chapter 5): the loaded words, the copies known bad, the load in progress. -/
structure Cs where
  /-- Loaded words by store × 65,536 + word; one content for all sixteen copies. -/
  words : Tab Nat := []
  /-- Pipeline × 2^20 + store × 2^16 + word of copies with an uncorrectable error (R183). -/
  bad : List Nat := []
  prevState : Nat := 0
  length : Nat := 0
  /-- HALT_REQUEST bits to return to service when the load ends (R172). -/
  release : Nat := 0
  /-- Pipelines that only a new load returns to service (R184). -/
  dead : Nat := 0
deriving DecidableEq, Repr

end Sys2Proof.Machine
end

