-- ==== Sys2Proof/Machine/StFlow.lean ====
section
/-! DEFINITION. State of the Flow Ledger and the flow services (chapters 8 and 9). -/

namespace Sys2Proof.Machine
open Sys2Proof

/-- A record slot: the hot part (Table 8-3, 256 bits) and the cold part (Table 8-4, 768 bits) as little-endian numbers. -/
structure Slot where
  hot : Nat := 0
  cold : Nat := 0
  /-- An uncorrectable error stands in the cold part (R322). -/
  coldBad : Bool := false
deriving DecidableEq, Repr

/-- A cache way (R293): dirty with the content HBM still holds, pinned by records, last use for the LRU choice. -/
structure Way where
  dirty : Bool := false
  clean : Nat := 0
  /-- How many pinned records pin this slot (R309). -/
  pins : Nat := 0
  used : Nat := 0
  /-- An uncorrectable error stands in it while it is clean: it is read from HBM again (R323). -/
  bad : Bool := false
deriving DecidableEq, Repr

/-- Who asked for a ledger operation (R286). -/
inductive LedWho where
  /-- A frame's lookup or lookup and admission, with the frame as it entered. -/
  | frame (fid : Nat) (f : Frame)
  /-- A FLOW_SET of a frame's routine: mask and values (R291). -/
  | set (mask conn addr port : Nat)
  /-- A flow command: opcode, arguments, image and the key block of its reply key, read by DMA. -/
  | cmd (c : SqCmd) (code : Nat) (a : FlowArgs) (image : Bytes) (replyKey : Bytes)
  /-- A reply-key admission for the record that operation `op` of slice `slice` is placing (R307). -/
  | reply (slice op record : Nat)
  /-- An aging visit (R360). -/
  | aging
  /-- A dispatched write-back, kind 1, or fold, kind 2 (R294, R279). -/
  | way (kind : Nat)
deriving DecidableEq, Repr

/-- Where an operation stands. -/
inductive LedStage where
  /-- It runs as soon as the slots it needs are on die. -/
  | reading
  /-- It waits behind an earlier operation, or a repair, of slot `on` (R298, R321). -/
  | parked (on : Nat)
  /-- A flow command that waits for a parking entry on slot `on` (R312). -/
  | waiting (on : Nat)
  /-- It has chosen slot `slot` and waits for its reply key to be placed (R307). -/
  | aliasing (slot : Nat)
  /-- It waits outside its slice, which takes no operation (R295, Table 2-2). -/
  | held
deriving DecidableEq, Repr

/-- The services an admission has allocated (Tables 9-1 and 9-2). -/
structure Alloc where
  svcAddr : Nat := 0
  svcPort : Nat := 0
  /-- SERVICE: POOL and BACKEND none. -/
  service : Nat := 0xFFFF + 0xFFFF * 2 ^ 80
  /-- The port-map entry taken, in the pool of SERVICE. -/
  entry : Nat := 0
deriving DecidableEq, Repr

/-- A ledger operation that has entered its slice and is not finished. -/
structure LedOp where
  id : Nat
  slice : Nat
  who : LedWho
  key : Bytes := []
  h0 : Nat := 0
  sig : Nat := 0
  home : Nat := 0
  /-- The record slot it is about, once known. -/
  slot : Option Nat := none
  stage : LedStage := .reading
  /-- It came through an alias (R308). -/
  viaAlias : Bool := false
  /-- Slots it has had read and still needs on die. -/
  touch : List Nat := []
  alloc : Alloc := {}
  /-- Home slots at which it was an operation of another slice before (R290, R308). -/
  homes : List Nat := []
  /-- Steps 1 to 5 of R671 are behind it. -/
  admitted : Bool := false
  /-- What the codes of the cold parts, or of the way, that it reads find, by record number (R319, R322, R323). -/
  ecc : List (Nat × Ecc) := []
  /-- The images a walk has taken so far. -/
  got : Bytes := []
deriving DecidableEq, Repr

/-- One flow slice. -/
structure SliceSt where
  /-- Slots whose hot part is being read from HBM: one outstanding-operation entry each (R297). -/
  reads : List Nat := []
  /-- Operations in order of arrival. -/
  ops : List LedOp := []
  /-- Slots of the write-buffer entries whose HBM write is under way, oldest first (R295). -/
  writes : List Nat := []
  /-- CCLK of the records created in the last 10 µs (R305). -/
  created : List Nat := []
  /-- Slots reserved by admissions (R306). -/
  reserved : List Nat := []
  /-- Slots under repair (R321). -/
  repairs : List Nat := []
  flushing : Bool := false
deriving DecidableEq, Repr

/-- Flow Ledger. -/
structure Led where
  /-- Record slots by record number (R274). -/
  slots : Tab Slot := []
  /-- Cached hot parts by record number. -/
  ways : Tab Way := []
  slices : Tab SliceSt := []
  nextOp : Nat := 0
  /-- Reply-key admissions and forwarded operations on their way between slices, oldest first (R307, R308). -/
  replies : List LedOp := []
  forwards : List LedOp := []
  /-- ADM_RATE buckets by template: tokens × 1,562,500,000, and the CCLK of the last refill (R305). -/
  tokens : Tab (Nat × Nat) := []
deriving DecidableEq, Repr

/-- A backend row's working values (R352 to R355). -/
structure BackendSt where
  records : Nat := 0
  /-- Effective weight in 1/16. -/
  eff : Nat := 0
  octets : Nat := 0
  /-- CCLK and octets of the frames of the last 100 ms (R352). -/
  recent : List (Nat × Nat) := []
  /-- Consecutive runs beyond a bound (R353). -/
  beyond : Nat := 0
  /-- Records counted by the running sweep (R355). -/
  count : Nat := 0
deriving DecidableEq, Repr

/-- Flow services. -/
structure Svc where
  /-- Port-map entries by pool × 2^32 + (subscriber × 3 + row) × BLOCK + offset (R339). -/
  ports : Tab Nat := []
  /-- PORTS_RECOVERED by pool. -/
  recovered : Tab Nat := []
  backends : Tab BackendSt := []
  /-- Slot tables by table × 4,096 + slot, each row plus 1; 0 none (R349). -/
  slotTab : Tab Nat := []
  /-- CCLK of each template's last generation change (R334). -/
  genAt : Tab Nat := []
  /-- Sweep number and the slices that have finished it (R355, R362). -/
  sweep : Nat := 0
  swept : Nat := 0
  /-- The slot-table rebuilds due (R354). -/
  rebuild : List Nat := []
  /-- Tables whose pressure stands (R353). -/
  pressed : List Nat := []
deriving DecidableEq, Repr

end Sys2Proof.Machine
end

