-- ==== Sys2Proof/Machine/StHost.lean ====
section
/-! DEFINITION. State of the Host Interface (chapter 13). -/

namespace Sys2Proof.Machine
open Sys2Proof

/-- A posted receive buffer (R480): TAG of its RX_POST, address, length, and the completion units still reserved for its punt. -/
structure Posted where
  tag : Nat
  addr : Nat
  len : Nat
  units : Nat
deriving DecidableEq, Repr

/-- A submission queue. `state`: 1 running, 2 stalled, 3 deleting; an absent queue has no entry. -/
structure Sq where
  state : Nat := 1
  level : Nat := 0
  kind : Nat := 0
  cq : Nat := 0
  push : Nat := 0xFFFF
  ring : Nat := 0
  units : Nat := 128
  index : Nat := 0
  poll : Nat := 0
  head : Nat := 0
  tail : Nat := 0
  /-- Index-block reads: one in flight, and one more asked for (R468). -/
  reading : Bool := false
  again : Bool := false
  /-- Units taken from the push window and not yet executed, with their first index (R473). -/
  pushed : Bytes := []
  /-- Posted receive buffers, oldest first (R480). -/
  posted : List Posted := []
  /-- The entry at HEAD, once its first unit has been read: the completion units it needs, and whether its FENCE holds it back
  (R471, R472). -/
  needs : Nat := 1
  fenced : Bool := false
  /-- The DELETE_SQ that waits for its commands in progress (R465). -/
  deleting : Option SqCmd := none
deriving DecidableEq, Repr

/-- An entry held on die: bytes of a completion, and whether it counts toward moderation. -/
structure HeldEntry where
  bytes : Bytes
  counts : Bool
  /-- The pool 4 buffer that holds it (R492). -/
  handle : Option Nat := none
deriving DecidableEq, Repr

/-- A completion queue. `state`: 1 running, 2 stalled. -/
structure Cq where
  state : Nat := 1
  vector : Nat := 0
  modCount : Nat := 1
  hold : Bool := false
  ring : Nat := 0
  units : Nat := 128
  modTimer : Nat := 0
  index : Nat := 0
  wakeCeiling : Nat := 1000
  tail : Nat := 0
  head : Nat := 0
  reading : Bool := false
  again : Bool := false
  /-- Completions pending a signal, and the CCLK of the oldest (R486). -/
  pending : Nat := 0
  oldest : Nat := 0
  /-- Entries held by R490 or R492 or R485, oldest first. -/
  held : List HeldEntry := []
  /-- A signal fell due while its vector or the function was asleep (R493). -/
  due : Bool := false
  /-- Units reserved for completions of commands in progress (R471). -/
  reserved : Nat := 0
deriving DecidableEq, Repr

/-- A command in progress (R471). -/
structure CmdSt where
  sq : Nat
  tag : Nat
  code : Nat
  fence : Bool
  quiet : Bool
  handle : Option Nat
  units : Nat
deriving DecidableEq, Repr

/-- The configuration space of the function, as Table 13-1 gives its features: BAR0/1 names 16 MiB and BAR2/3 64 MiB. The
table of commands has no write of it; what enumeration leaves does not change what the device answers (log entry 140). -/
structure PcieCfg where
  /-- Host addresses of BAR0/1 and BAR2/3. -/
  bar0 : Nat := 0
  bar2 : Nat := 0
  /-- Max_Payload_Size, 128, 256 or 512 B, and Max_Read_Request_Size, up to 4,096 B. -/
  maxPayload : Nat := 128
  maxRead : Nat := 512
  tenBitTags : Bool := false
  /-- The completion timeout's value, of ranges A to D, and its disable. -/
  timeout : Nat := 0
  timeoutOff : Bool := false
  /-- AER: the uncorrectable and the correctable error status. -/
  aerUncorrectable : Nat := 0
  aerCorrectable : Nat := 0
deriving DecidableEq, Repr

/-- Host Interface. -/
structure Hst where
  sqs : Tab Sq := []
  cqs : Tab Cq := []
  /-- Commands in progress, oldest first. -/
  cmds : List CmdSt := []
  /-- Queue last served (R471). -/
  lastSq : Nat := 0
  /-- MSI-X vectors that are unmasked and the pending bits (R487). -/
  unmasked : List Nat := []
  msixPending : List Nat := []
  functionMask : Bool := false
  /-- MCLK cycle plus 1 in which a vector was last sent for a signal (R486). -/
  sentAt : Tab Nat := []
  /-- The endpoint is absent until reset (step 05 skipped). -/
  absent : Bool := false
  /-- Link state: 0 L0, 1 L1, 2 L1.1, 3 L1.2; width; rate; PERST_N low. -/
  link : Nat := 0
  d3hot : Bool := false
  busMaster : Bool := true
  pmeEn : Bool := false
  pmeStatus : Bool := false
  perst : Bool := false
  /-- Configuration space (R449). -/
  cfg : PcieCfg := {}
  /-- CCLK at which the last TLP was sent (R489). -/
  lastTlp : Nat := 0
  /-- Writes to host memory that the function may not make now, oldest first (R451). -/
  heldWrites : List (Nat × Bytes) := []
deriving DecidableEq, Repr

end Sys2Proof.Machine
end

