-- ==== Sys2Proof/Machine/StRest.lean ====
section
/-! DEFINITION. State of the Time Unit, the calendar clock, the Pair Unit, the governor, the measurement unit, the boot
sequencer and the pins (chapters 14 to 18). -/

namespace Sys2Proof.Machine
open Sys2Proof

/-- Time Unit beside the objects of area 18 (R496 to R519). -/
structure Tun where
  /-- The PTP counter in units of 2^−32 ns since second 0. -/
  ptp : Nat := 0
  /-- A TIME_SET (seconds × 10^9 + nanoseconds) or TIME_STEP awaiting the next tick (R498). -/
  setDue : Option Nat := none
  stepDue : Option Int := none
  /-- What is left to slew, in 2^−32 ns (R499). -/
  slew : Int := 0
  /-- TCLK ticks since the release of reset. -/
  ticks : Nat := 0
  /-- CCLK of the last accepted 1PPS_IN edge plus 1 (R516). -/
  ppsAt : Nat := 0
  ppsOut : Bool := false
  /-- CAL_SYNC has been written and waits for the next whole second (R524). -/
  calSync : Bool := false
deriving DecidableEq, Repr

/-- Calendar clock and retention RAM: kept through a device reset (R520 to R525, R597). -/
structure Cal where
  seconds : Nat := 0
  sub : Nat := 0
  /-- Part of a crystal cycle that has passed, in 1/15,625,000,000,000,000 (R521). -/
  part : Nat := 0
  valid : Bool := false
  stopped : Bool := false
  vbatLow : Bool := false
  /-- CAL_INVALID is due at the next start-up (R522). -/
  invalidDue : Bool := false
  /-- Retention RAM, 4,096 bytes, byte o at bits 8o: 0x000–0x7FF boot record, 0x800–0xFFF RETENTION_HOST. -/
  retention : Nat := 0
  /-- Seconds and 32,768ths that a written CAL_SET loads at the next crystal cycle (R521). -/
  load : Option (Nat × Nat) := none
deriving DecidableEq, Repr

/-- A digest window (R552 to R554): sub-digests and counts by pipeline. -/
structure DigestWin where
  subs : List Nat
  counts : List Nat
deriving DecidableEq, Repr

/-- A WRITE or COMMAND received or given a later live point (R544, R545). -/
structure PairDue where
  at_ : Nat
  req : Option Req := none
  opcode : Nat := 0
  body : Bytes := []
  data : Bytes := []
  /-- On the active: the command of its own queue that commits at `at_` (R545). -/
  cmd : Option SqCmd := none
deriving DecidableEq, Repr

/-- Pair Unit (chapter 15). -/
structure Pair where
  /-- The byte and validity driven on the claim bus (R530). -/
  claimOut : Nat := 0
  claimVld : Bool := false
  /-- An unsynced unit claims (R536). -/
  claiming : Bool := false
  /-- The byte last sampled on CLAIM_IN. -/
  claimIn : Nat := 0
  /-- The cycle of R538 in which the yielding active drives 0x00. -/
  yielding : Bool := false
  /-- Last claim byte and role the partner has reported (R535, R538). -/
  partnerClaim : Nat := 0
  partnerRole : Nat := 0
  /-- The partner answers on the pair link (R541). -/
  partnerUp : Bool := false
  /-- An active whose partner is lost has stopped forwarding (R541). -/
  forwardOff : Bool := false
  /-- Next sequence numbers sent and expected, and the unacknowledged messages: number, kind, payload (R540). -/
  txSeq : Nat := 0
  rxSeq : Nat := 0
  replay : List (Nat × Nat × Bytes) := []
  /-- Messages of kinds 6 to 8 that wait for room, oldest first. -/
  waiting : List (Nat × Bytes) := []
  /-- Digest windows that run, by number. -/
  windows : Tab DigestWin := []
  /-- Own digests of closed windows, and the partner's, not yet compared. -/
  closed : Tab DigestWin := []
  received : Tab DigestWin := []
  /-- The first window that is compared (R560 step 6). -/
  compareFrom : Nat := 0
  /-- Consecutive mismatches and whether a self-check runs (R554, R555). -/
  mismatches : Nat := 0
  checking : Bool := false
  /-- The active's configuration sets have another hash than this unit's (R555). -/
  setsDiffer : Bool := false
  /-- Join: 0 none, 2 aligning, 4 configuration taken, 5 tables taken, 7 leaving the halt (R560). -/
  join : Nat := 0
  /-- What a MIRROR has set since step 5, which BULK no longer changes (R561), by `mirrorKey`. -/
  mirrored : List Nat := []
  bulkDone : Bool := false
  /-- Writes and commands with a later live point (R544, R545), in order of arrival. -/
  due : List PairDue := []
  /-- What this unit and the partner found of a turn or step in a pair: a failing group plus 1, 0 where it passed (R547). -/
  ownVerdict : Option Nat := none
  partnerVerdict : Option Nat := none
  lastFail : Nat := 0
  failTime : Nat := 0
  soundings : Nat := 0
  /-- Repairs and uncorrectable errors in the running second (R557). -/
  repairs : Nat := 0
  errors : Nat := 0
deriving DecidableEq, Repr

/-- Energy governor (chapter 16). -/
structure Gov where
  vcore : Int := 820
  vDemand : Int := 820
  slotGate : List Int := List.replicate 16 0
  slotDemand : List Int := List.replicate 16 0
  dtAdjust : Int := 0
  dtDemand : Int := 0
  /-- Periods without a step, and the direction of the last step (R571). -/
  steady : Nat := 0
  lastStep : Int := 0
  /-- Overrides in force on knobs 0 and 1 (R578, R579). -/
  voltOver : Bool := false
  heatOver : Bool := false
  /-- Consecutive periods in which a demand lay beyond its bounds or pin: VCORE, DT_ADJUST, then the pipelines (R582). -/
  beyond : List Nat := List.replicate 18 0
  /-- Pressure stands, by knob. -/
  pressed : List Bool := [false, false, false]
  /-- No VOUT_COMMAND is sent: the regulator does not answer (R639). -/
  noRegulator : Bool := false
  /-- VCORE is held by a regulator fault (R570). -/
  holding : Bool := false
  /-- Descriptors refused in the period for the reason R576 counts. -/
  refused : Nat := 0
  /-- STATUS_WORD is to be read in the next period (R639). -/
  statusDue : Bool := false
  /-- READ_VOUT mV and READ_IOUT mA sums below one microjoule are kept exactly here, in nanojoules. -/
  energy : Nat := 0
  /-- VCORE pinned at CEILING by step 12's alternative. -/
  bootPin : Bool := false
deriving DecidableEq, Repr

/-- Precise sampling and counters (R583 to R592). -/
structure Perf where
  /-- Occurrences counted since the last mark, and the distance to the next, by pipeline (R589). -/
  count : List Nat := List.replicate 16 0
  mark : List Nat := List.replicate 16 0
  /-- Samples in progress, KIND 3 by pipeline and KIND 1 by 16 + frame: the frame and the entry as far as it is known (R590). -/
  samples : Tab (Nat × Nat) := []
  /-- Complete samples not yet written, oldest first: pipeline and entry (R592). -/
  done : List (Nat × Nat) := []
  /-- Cycle and occurrences in it, by counter (MODE 1 and 2 of R584). -/
  cycle : Tab (Nat × Nat) := []
  lastCycle : Tab Nat := []
deriving DecidableEq, Repr

/-- Boot sequencer (R596 to R618). The step that runs is BOOT_STEP. -/
structure Boot where
  /-- Attempts made of the primary and of the alternative, and of either, in this run of the step. -/
  attempts : Nat := 0
  altAttempts : Nat := 0
  tried : Nat := 0
  /-- Resources that run the alternative; those of them whose failure counts as their primary's (R618). -/
  altRes : Nat := 0
  learnedRes : Nat := 0
  /-- Resources that have passed, and that are skipped. -/
  passed : Nat := 0
  skipped : Nat := 0
  /-- ALT_STREAK and FLAGS[0] of the step's result row. -/
  streak : Nat := 0
  learned : Bool := false
  stopped : Bool := false
  /-- CCLK and calendar time at the start of the step, and of the boot. -/
  startedAt : Nat := 0
  startCal : Nat := 0
  bootCal : Nat := 0
  /-- Milliseconds from the release of reset to the end of step 14. -/
  duration : Nat := 0
  /-- The device is held in reset: 1 TEST_MODE (R634), 2 a failed fixed step (R601), 3 a thermal trip (R653). -/
  held : Nat := 0
  /-- CCLK of the last Control Core restart plus 1 (R596). -/
  restartAt : Nat := 0
  /-- Highest SERVICE_LEVEL reached in this boot. -/
  highest : Nat := 0
  /-- Steps that took an alternative and that were skipped, as bits, and the step at which the boot stopped. -/
  altSteps : Nat := 0
  skipSteps : Nat := 0
  stopStep : Nat := 0
deriving DecidableEq, Repr

/-- Pins and test access port. -/
structure Pins where
  /-- TAP instruction loaded (R649). -/
  tap : TapInstr := .idcode
  /-- TEST_MODE (R634). -/
  testMode : Bool := false
  /-- High-speed mode of PMBus entered (R638). -/
  pmbusHs : Bool := false
deriving DecidableEq, Repr

end Sys2Proof.Machine
end

