-- ==== Sys2Proof/Machine/StTables.lean ====
section
/-! DEFINITION. State of the Lookup Tables, the Rule Banks and the Pattern Automata (chapters 6 and 7). -/

namespace Sys2Proof.Machine
open Sys2Proof

/-- An exact-match entry (Table 6-3) in its place. `key` is the 16-byte key block as a little-endian number. -/
structure EmEntry where
  key : Nat
  result : Nat
  static : Bool := false
  hit : Bool := false
  bad : Bool := false
deriving DecidableEq, Repr

/-- A prefix entry (Table 6-4) in its place; `addr` is the address as a number, most significant byte first. -/
structure PxEntry where
  family : Nat
  length : Nat
  vrf : Nat
  addr : Nat
  result : Nat
  bad : Bool := false
deriving DecidableEq, Repr

/-- A next-hop (Table 6-5); `retired` is its retire epoch (R75). -/
structure NhEntry where
  kind : Nat
  target : Nat
  rewrite : Nat
  mtu : Nat
  retired : Option Nat := none
  bad : Bool := false
deriving DecidableEq, Repr

/-- A rewrite (Table 6-6). -/
structure RwEntry where
  routine : Nat
  data : Nat
  retired : Option Nat := none
  bad : Bool := false
deriving DecidableEq, Repr

/-- An ECMP group in use (Table 6-7). -/
structure EcmpGroup where
  size : Nat
  base : Nat
  bad : Bool := false
deriving DecidableEq, Repr

/-- A member slot that is in use or retired. -/
structure EcmpSlot where
  nextHop : Nat
  retired : Option Nat := none
deriving DecidableEq, Repr

/-- A lock or a reserved key (R216 to R220): `hold` when TBL_LOCK took it, else a command in progress. -/
structure Lock where
  table : Nat
  key : Nat
  sq : Nat
  hold : Bool
deriving DecidableEq, Repr

/-- A changing table or rule command between its accept and its commit (R221). `code` is its opcode of Table 13-6. -/
structure TblCmd where
  cmd : SqCmd
  code : Nat
  table : Nat
  index : Nat
  size : Nat
  key : Nat
  /-- The command took the lock or reservation itself. -/
  own : Bool
deriving DecidableEq, Repr

/-- A table command that waits to start, with the MCLK cycle in which it arrives (R216). -/
structure TblWait where
  at_ : Nat
  cmd : SqCmd
  code : Nat
  args : TblArgs
  ecc : Ecc
deriving DecidableEq, Repr

/-- Lookup Tables. -/
structure Lt where
  /-- Exact-match entries by way (0 to 1,048,575) and overflow place (from 1,048,576). -/
  em : Tab EmEntry := []
  /-- Prefixes by the first unit they occupy. -/
  px : Tab PxEntry := []
  /-- Length filter rows by (group × 2 + (family 6)) × 256 + window (R209). -/
  filter : Tab Nat := []
  /-- Prefixes deleted in a filter group since its last rebuild (R209). -/
  deleted : Tab Nat := []
  /-- The whole filter must be rebuilt when the block leaves halt (R212). -/
  refill : Bool := false
  nh : Tab NhEntry := []
  rw : Tab RwEntry := []
  groups : Tab EcmpGroup := []
  slots : Tab EcmpSlot := []
  locks : List Lock := []
  /-- Locks that expired before their holder's next command (R220). -/
  expired : List Lock := []
  cmds : List TblCmd := []
  /-- Table commands that wait to start, in their order; and the MCLK cycle plus 1 in which one last started on its arrival, with
  its queue (R216). -/
  arrivals : List TblWait := []
  started : Nat × Nat := (0, 0)
  /-- The learning filter (R226): bridge domain × 2^48 + station. -/
  learn : List Nat := []
deriving DecidableEq, Repr

/-- One entry of a rule bank (R234). -/
structure RbEntry where
  data : Nat := 0
  care : Nat := 0
  valid : Bool := false
  action : Nat := 0
  /-- Parity failed and nothing has rewritten the entry (R252). -/
  bad : Bool := false
  /-- The ACTION word is unreadable (R254). -/
  badAction : Bool := false
deriving DecidableEq, Repr

/-- A block move (R247 to R251). `next` is the position the next copy takes. -/
structure RbMove where
  cmd : SqCmd
  head : Nat
  width : Nat
  lo : Nat
  hi : Nat
  lower : Bool
  next : Nat
deriving DecidableEq, Repr

/-- Rule Banks. -/
structure Rb where
  entries : Tab RbEntry := []
  moves : List RbMove := []
  cmds : List TblCmd := []
deriving DecidableEq, Repr

/-- Pattern Automata: the load in progress and the transition words known bad. -/
structure Pa where
  load : Option (SqCmd × Bytes) := none
  /-- The image in the store, header and body; its transition words are read by `Config.patternEnds`. -/
  image : Bytes := []
  /-- A transition word is uncorrectable until the next load (R264). -/
  bad : List Nat := []
deriving DecidableEq, Repr

end Sys2Proof.Machine
end

