-- ==== Sys2Proof/Machine/StTraffic.lean ====
section
/-! DEFINITION. State of the Buffer Pool Manager, the Fabric, the Traffic Manager, the capture unit and the Deferred Work
Scheduler (chapters 10 to 12). -/

namespace Sys2Proof.Machine
open Sys2Proof

/-- One pool (R371 to R381). -/
structure PoolSt where
  /-- Free handles in the cache, oldest first; buffers in neither list are on the free list in index order of `list`. -/
  cache : List Nat := []
  /-- Indices released to the list and not yet refilled, head first. -/
  list : List Nat := []
  /-- Buffers never granted since the pool was built: indices from here on are free. -/
  fresh : Nat := 0
  lastWinner : Nat := 0
  /-- FCLK cycle at which a rebuild of the list ends; no request is granted before (R373). -/
  rebuilt : Nat := 0
  /-- FCLK cycles for which the cache has taken from the list what it may (R374). -/
  refilled : Nat := 0
  quarantined : List Nat := []
deriving DecidableEq, Repr

/-- A release on its way to the Buffer Pool Manager (R384, R385, R675): the handle, the owner it presents, its rotation position,
and what the code of the header finds. -/
structure Release where
  handle : Nat
  owner : Nat
  position : Nat
  ecc : Ecc := .clean
deriving DecidableEq, Repr

/-- A request of an internal requester that waits, or a buffer it has been granted and not yet taken: its owner number, the
pool, and the CCLK of the request or the handle (R383). -/
structure Ask where
  owner : Nat
  pool : Nat
  value : Nat
deriving DecidableEq, Repr

/-- Buffer Pool Manager. -/
structure Buf where
  pools : Tab PoolSt := []
  /-- Headers of held buffers (Table 10-2) by handle. -/
  headers : Tab Nat := []
  /-- Buffers held, by owner × 8 + pool. -/
  held : Tab Nat := []
  /-- Frames that wait for a buffer, oldest first (R381). -/
  waiters : List Nat := []
  /-- Internal requests that wait, and buffers granted to internal requesters that have not taken them (R383). -/
  asking : List Ask := []
  granted : List Ask := []
  /-- Releases of the FCLK cycle that runs, in order of arrival (R385). -/
  releases : List Release := []
deriving DecidableEq, Repr

/-- Fabric: queues of descriptor ids. -/
structure Fab where
  /-- Stage-one queues by (pipeline × 32 + middle) × 2 + class 7, oldest first. -/
  stage1 : Tab (List Nat) := []
  /-- Middle FIFOs by (middle × 16 + egress pipeline) × 2 + class 7. -/
  fifo : Tab (List Nat) := []
  /-- Multicast FIFOs by middle × 2 + class 7. -/
  mc : Tab (List Nat) := []
  /-- Peak of entries held, by middle buffer. -/
  peak : Tab Nat := []
  /-- Multicast descriptors at a replicator, by egress pipeline, oldest first (R422). -/
  repl : Tab (List Nat) := []
  /-- Descriptors for internal ports delivered and not yet handed on, by egress pipeline (R403). -/
  internal : Tab (List Nat) := []
  /-- Descriptors that have entered a middle buffer so far. -/
  nextSeq : Nat := 0
  /-- CCLK cycle plus 1 in which stage two last sent, the sends of each middle buffer in it, and the multicast heads counted
  among them (R391, R392). -/
  sendCycle : Nat := 0
  sends : Tab Nat := []
  mcSent : List Nat := []
deriving DecidableEq, Repr

/-- A two-bucket meter, buckets in 2^−20 byte (R408, R414). -/
structure Meter where
  tc : Int
  tp : Int
  last : Nat
deriving DecidableEq, Repr

/-- Traffic Manager. -/
structure Tm where
  /-- Queues of descriptor ids by queue number. -/
  queues : Tab (List Nat) := []
  policers : Tab Meter := []
  shapers : Tab Meter := []
  /-- Deficits of deficit round robin, by queue. -/
  deficit : Tab Nat := []
  /-- Queue last served, by port; port last served, by pipeline. -/
  lastQueue : Tab Nat := []
  lastPort : Tab Nat := []
  /-- The selection a port holds beyond the frame it transmits. -/
  selected : Tab Nat := []
  /-- Heads counted in GATE_WAITS. -/
  waited : List Nat := []
deriving DecidableEq, Repr

/-- Capture unit. -/
structure Cap where
  /-- Copies waiting at its input, oldest first (R424). -/
  input : List Nat := []
  /-- Ring entries by slot (R425). -/
  ring : Tab Bytes := []
  /-- When the ring may next be written, in 1/32 CCLK (R39). -/
  next : Nat := 0
deriving DecidableEq, Repr

/-- A record operation of the Deferred Work Scheduler (Table 12-2). -/
structure DwOp where
  kind : Nat
  cls : Nat
  list : Nat
  notBefore : Nat
  deadline : Nat
  issued : Nat
  handle : Option Nat := none
  spilled : Bool := false
  /-- An uncorrectable error stands in its spilled entry (R445). -/
  bad : Bool := false
  /-- The payload of the kind: numbers, and bytes for a notice or an export. -/
  args : List Nat := []
  body : Bytes := []
deriving DecidableEq, Repr

/-- Deferred Work Scheduler. -/
structure Dw where
  /-- On die, in order of issue. -/
  onDie : List DwOp := []
  /-- In the deadline buckets and in the far list (R442). -/
  buckets : List DwOp := []
  far : List DwOp := []
  /-- Way-held operations (R431): kind, record number, not before, deadline, class. -/
  wayHeld : List DwOp := []
  /-- Start of each cursor's present pass, or of its re-paced rest with the step it began at; and the step due next. Cursors
  0–15 are the slices', 16 the audit, 17 MAC aging (R434). -/
  passStart : Tab (Nat × Nat) := []
  passStep : Tab Nat := []
  /-- Cycle from which the far-pass grid counts (R442). -/
  gridFrom : Nat := 0
  /-- Issuers that wait (R383), oldest first. -/
  waiting : List DwOp := []
  /-- SPILL_GRAIN has been written while the scheduler is halted. -/
  regrain : Bool := false
  /-- When the spill area may next be written and read, in 1/32 CCLK (R39); and whether a refill waits for that time. -/
  spillNext : Nat := 0
  refillNext : Nat := 0
  refillHeld : Bool := false
deriving DecidableEq, Repr

end Sys2Proof.Machine
end

