-- ==== Sys2Proof/Machine/State.lean ====
section
/-! DEFINITION. The state of the block, the reasons a step stops, and the state after reset. -/

namespace Sys2Proof.Machine
open Sys2Proof

/-- Why a step stops with a fault. -/
inductive Fault where
  /-- Raised by a meaning whose command names a unit the device does not have: a port, pipeline, slice, queue or the like
  beyond those of Table 1-1 (WellFormed.lean). Safe: the hardware has no such command, and the model goes no further. -/
  | noSuchUnit
deriving DecidableEq, Repr

/-- Why a step is refused. -/
inductive Refusal where
  /-- Raised by the dispatch for a command whose meaning is not written. Safe. -/
  | notModelled (mnemonic : String)
deriving DecidableEq, Repr

/-- The state of the block. -/
structure State where
  clk : Clk := {}
  cal : Cal := {}
  fuse : Fuse := {}
  /-- Every dictionary object that is a register, by set, object number and row (Ops.lean: `dictKey`); an object that is
  not listed holds its default. -/
  dict : Tab Nat := []
  /-- Every counter of BAR2, by its offset within a half. -/
  ctr : Tab Nat := []
  ev : Ev := {}
  eng : Eng := {}
  ep : Ep := {}
  prt : Prt := {}
  pip : Pip := {}
  cs : Cs := {}
  lt : Lt := {}
  rb : Rb := {}
  pa : Pa := {}
  led : Led := {}
  svc : Svc := {}
  buf : Buf := {}
  fab : Fab := {}
  tm : Tm := {}
  cap : Cap := {}
  dw : Dw := {}
  hst : Hst := {}
  tun : Tun := {}
  pair : Pair := {}
  gov : Gov := {}
  perf : Perf := {}
  boot : Boot := {}
  pins : Pins := {}
  /-- The model's own: how many free values have been drawn (log entry 1). -/
  free : Nat := 0
  /-- The model's own: what has left the device, oldest first. -/
  out : List Output := []
  /-- The commands that wait, first in first out. -/
  pending : List Instr := []
deriving DecidableEq, Repr

/-- The state right after the release of reset: step 01 is running (R642), every object at its default. -/
def State.reset : State := {}

end Sys2Proof.Machine
end

