-- ==== Sys2Proof/WellFormed.lean ====
section
/-! DEFINITION. Which units and operands the device has (Table 1-1 and the tables of the owning chapters), and the commands
that name only such units. -/

namespace Sys2Proof

/-- A front-panel port, numbered by its first lane (Table 1-1). -/
def isPort (p : Nat) : Bool := p < 512
/-- A port octet OCT0 to OCT63. -/
def isOctet (o : Nat) : Bool := o < 64
/-- A pipeline P0 to P15, an automaton engine, a transmit stamp queue. -/
def isPipe (n : Nat) : Bool := n < 16
/-- A flow slice F0 to F15. -/
def isSlice (n : Nat) : Bool := n < 16
/-- A slot of a slice (R274): 4 Mi in each. -/
def isSlot (n : Nat) : Bool := n < 4194304
/-- A buffer pool 0 to 7. -/
def isPool (n : Nat) : Bool := n < 8
/-- A middle buffer M0 to M31. -/
def isMiddle (n : Nat) : Bool := n < 32
/-- A management port MGMT0 or MGMT1. -/
def isMgmt (n : Nat) : Bool := n < 2
/-- A work queue (Table 1-1). -/
def isQueue (n : Nat) : Bool := n < 4096
/-- A rotation position of the Buffer Pool Manager (R675, Table 10-4). -/
def isRotation (n : Nat) : Bool := n < 22
/-- A NAT pool or a backend table (256 rows each: Tables 9-3 and 9-5). -/
def isService (n : Nat) : Bool := n < 256
/-- A control store 0 to 3 (Table 5-2). -/
def isStore (n : Nat) : Bool := n < 4
/-- An access level (Table 3-6). -/
def isLevel (n : Nat) : Bool := n < 4
/-- An HBM stack. -/
def isStack (n : Nat) : Bool := n < 4
/-- A byte. -/
def isByte (n : Nat) : Bool := n < 256

/-- An origin that names a path the device has. -/
def Origin.wf (o : Origin) : Bool :=
  isLevel o.keyLevel &&
    match o.path with
    | .mgmt n => isMgmt n
    | .queue q => isQueue q
    | .mailbox => true
    | .pairLink => true

/-- A command that came from a submission queue the device has. -/
def SqCmd.wf (c : SqCmd) : Bool := isQueue c.sq && c.tag < 2 ^ 32

/-- A message whose header fields fit their places (Table 3-4). -/
def Msg.wf (m : Msg) : Bool := isByte m.opcode && isByte m.level

/-- The units a command names are units the device has, and its operands fit their fields. -/
def Instr.wf : Instr → Bool
  | .secondWindowEnd => true
  | .frameReception p _ _ => isPort p
  | .headAcceptance n _ => isPipe n
  | .tableLookup _ _ _ => true
  | .ruleSearch _ _ a => a.all (· < 131072)
  | .patternScan n _ => isPipe n
  | .microInstruction _ _ _ _ _ => true
  | .csRepairComplete n st w => isPipe n && isStore st && w < 65536
  | .flowSet _ _ _ _ _ => true
  | .ingressResolution _ => true
  | .recircEnqueue _ _ => true
  | .ledgerOperation _ _ => true
  | .hbmReadReturn f n _ _ => isSlice f && isSlot n
  | .aliasAdmission f => isSlice f
  | .aliasForward f => isSlice f
  | .bufferGrant p _ _ _ _ => isPool p
  | .poolStarved _ => true
  | .bufferRelease _ _ k _ => isRotation k
  | .undertowPass => true
  | .fabricStageOne => true
  | .fabricDiscard n m _ => isPipe n && isMiddle m
  | .mcFifoHead m _ => isMiddle m
  | .mcPipelineStruck m _ n => isMiddle m && isPipe n
  | .fabricStageTwo n => isPipe n
  | .mcReplication n => isPipe n
  | .internalDelivery n => isPipe n
  | .captureCompose => true
  | .transmitSelection n => isPipe n
  | .gateEntryChange p => isPort p
  | .transmissionStart p _ _ => isPort p
  | .transmissionEnd p => isPort p
  | .read o m => o.wf && m.wf
  | .write o m => o.wf && m.wf
  | .compoundWrite o m => o.wf && m.wf
  | .describe o m => o.wf && m.wf
  | .enumerate o m => o.wf && m.wf
  | .echo o m => o.wf && m.wf
  | .turnRequest o l v => o.wf && isByte l && v < 2 ^ 16
  | .validationComplete => true
  | .turnCycle => true
  | .snapshotWritten => true
  | .slackWaterEnd => true
  | .slackTimeout => true
  | .reseedingComplete => true
  | .stepRequest o l v => o.wf && isByte l && v < 2 ^ 16
  | .autoEpochStep => true
  | .snapRequest o l v => o.wf && isByte l && isByte v
  | .haltRequest o l v => o.wf && isByte l && v < 2 ^ 64
  | .haltedSet b => b < 39
  | .mgmtFrameReceived n _ => isMgmt n
  | .nonceQuery n _ => isMgmt n
  | .injectFrame n _ => isMgmt n
  | .mbDoorbell n _ => n < 2 ^ 32
  | .mailboxResponse => true
  | .keyRevoke o l t v => o.wf && isByte l && isLevel t && isByte v
  | .mgmtMode o l v => o.wf && isByte l && v < 2 ^ 32
  | .mgmtLinkRestart n => isMgmt n
  | .octetEnable o l n v => o.wf && isByte l && isOctet n && isByte v
  | .octetDrained n => isOctet n
  | .portEnable o l p v => o.wf && isByte l && isPort p && isByte v
  | .autonegComplete p _ _ _ => isPort p
  | .trainingComplete p => isPort p
  | .alignmentComplete p => isPort p
  | .upHoldExpiry p => isPort p
  | .linkFault p _ _ => isPort p
  | .linkFaultCleared p => isPort p
  | .downHoldExpiry p => isPort p
  | .bringupTimeout p => isPort p
  | .retryWaitEnd p => isPort p
  | .fecDegraded p _ _ _ => isPort p
  | .eeeLpiEntry p => isPort p
  | .csLoad o l v => o.wf && isByte l && v < 2 ^ 32
  | .csLoadComplete => true
  | .tblRead c _ _ => c.wf
  | .tblInsert c _ => c.wf
  | .tblUpdate c _ => c.wf
  | .tblDelete c _ => c.wf
  | .tblLock c _ => c.wf
  | .tblUnlock c _ => c.wf
  | .ecmpSet c _ => c.wf
  | .tableCommit _ _ _ _ => true
  | .lockExpired _ _ => true
  | .learnHoldoffExpiry _ _ => true
  | .ruleRead c _ => c.wf
  | .ruleWrite c _ => c.wf
  | .ruleClear c _ => c.wf
  | .ruleMove c _ => c.wf
  | .ruleMoveCopy _ _ => true
  | .rbScrub bad => bad.all (· < 131072)
  | .patLoad c _ _ => c.wf
  | .patLoadComplete _ => true
  | .flowRead c _ _ => c.wf
  | .flowWalk c _ _ => c.wf
  | .flowInsert c _ _ _ => c.wf
  | .flowUpdate c _ _ => c.wf
  | .flowDelete c _ => c.wf
  | .flowPin c _ => c.wf
  | .flowUnpin c _ => c.wf
  | .writeback f n _ => isSlice f && isSlot n
  | .fold f n _ => isSlice f && isSlot n
  | .ledgerRepair f n _ _ => isSlice f && isSlot n
  | .ledgerAging f => isSlice f
  | .natRelease p _ => isService p
  | .portmapAudit p _ => isService p
  | .counterExport => true
  | .learnNotice => true
  | .macAging => true
  | .emReturn => true
  | .filterRebuild => true
  | .captureCopy => true
  | .pairMirror => true
  | .farPass _ => true
  | .rebalanceRun t => isService t
  | .slotTableRebuild t => isService t
  | .backendState o l r v => o.wf && isByte l && r < 2 ^ 32 && isByte v
  | .capRead c _ => c.wf
  | .functionLevelReset => true
  | .perstN _ => true
  | .adminEnable o l v => o.wf && isByte l && isByte v
  | .sqDoorbell q => isQueue q
  | .pushWindowDoorbell q _ _ => isQueue q
  | .sqPoll q => isQueue q
  | .entryFetch q _ _ => isQueue q
  | .cqDoorbell q => isQueue q
  | .createSq c _ => c.wf
  | .deleteSq c _ => c.wf
  | .createCq c _ => c.wf
  | .deleteCq c _ => c.wf
  | .modifyCq c _ => c.wf
  | .restart c _ _ _ => c.wf
  | .nop c => c.wf
  | .dict c _ _ _ => c.wf
  | .inject c _ _ _ => c.wf
  | .rxPost c _ => c.wf
  | .interruptSignal q _ => isQueue q
  | .msixUnmask v => v < 2048
  | .l1Entry k => 1 ≤ k && k ≤ 3
  | .l1Exit => true
  | .d3hotEntry _ _ => true
  | .d0Return => true
  | .timeSet o l sec ns => o.wf && isByte l && sec < 2 ^ 48 && ns < 2 ^ 32
  | .timeStep o l ns => o.wf && isByte l && -2 ^ 63 ≤ ns && ns < 2 ^ 63
  | .timeSlew o l ns => o.wf && isByte l && -2 ^ 31 ≤ ns && ns < 2 ^ 31
  | .timeLatch o l v => o.wf && isByte l && isByte v
  | .timeIncrement o l v => o.wf && isByte l && v < 2 ^ 64
  | .ppsOutEdge => true
  | .ppsIn => true
  | .synceLoss => true
  | .calSet o l sec ns => o.wf && isByte l && sec < 2 ^ 48 && ns < 2 ^ 32
  | .calSync o l v => o.wf && isByte l && isByte v
  | .calSyncLoad => true
  | .crystalStop => true
  | .vbatLow => true
  | .claimDecision c => isByte c
  | .firstClaim => true
  | .privilegedFault u => u < 3
  | .pairYield o l v => o.wf && isByte l && isByte v
  | .pairRejoin o l v => o.wf && isByte l && isByte v
  | .pairEnable o l v => o.wf && isByte l && isByte v
  | .health _ c => isByte c
  | .healthTimer => true
  | .digest _ _ _ => true
  | .digestWindowClose _ => true
  | .pairControl _ => true
  | .selfCheckComplete _ _ => true
  | .pairWrite m _ => m.wf
  | .pairCommand _ _ _ _ => true
  | .mirror _ => true
  | .pairFrame n _ _ => isPipe n
  | .bulk _ => true
  | .retransmitTimeout _ => true
  | .pairLost => true
  | .soundingTest t _ => 1 ≤ t && t ≤ 6
  | .joinStart c _ _ _ _ => isByte c
  | .joinFinish => true
  | .energySample _ _ => true
  | .voltageLoop _ _ => true
  | .vregCheck _ _ => true
  | .regulatorRetry _ => true
  | .slotGateLoop n => isPipe n
  | .engineWait n _ => isPipe n
  | .bufferThresholdLoop => true
  | .voltageProtection => true
  | .thermalProtection _ => true
  | .overrideEnd k => k < 2
  | .govKnobs o l r v => o.wf && isByte l && r < 2 ^ 32 && v < 2 ^ 128
  | .perfSelect o l r v => o.wf && isByte l && r < 2 ^ 32 && v < 2 ^ 128
  | .preciseSampleWrite n => isPipe n
  | .powerOn _ => true
  | .resetN _ => true
  | .resetRequest o l v => o.wf && isByte l && isByte v
  | .thermalTrip => true
  | .clockTreeFault c => c < 5
  | .railUndervoltage => true
  | .coreRestart r => r = 1 || r = 2
  | .bootStepComplete _ => true
  | .ledgerRebased => true
  | .bootAttemptTimeout _ => true
  | .bootContinue o l v => o.wf && isByte l && isByte v
  | .controlPathRetry _ _ => true
  | .hbmStackLost k => isStack k
  | .ledgerFault f _ => isSlice f
  | .eventClear o l g b => o.wf && isByte l && g < 2 ^ 32 && b < 2 ^ 32
  | .hbmWriteComplete f => isSlice f
  | .ledgerScrub f n _ _ => isSlice f && isSlot n
  | .sliceFlushComplete f _ => isSlice f
  | .indexReadComplete q _ _ => isQueue q
  | .mbOverrunClear => true
  | .ppsOutFall => true
  | .pmbAlert => true
  | .linkLeavesL1 => true
  | .mgmtLinkChange n _ => isMgmt n
  | .thermalTripCleared => true
  | .tapInstructionLoaded _ => true

end Sys2Proof
end

