-- ==== Sys2Proof/Machine/Ops.lean ====
section
/-! DEFINITION. The named operations over State that every block shares: registers of the dictionary, counters, free values,
time, limits per second, events with their routing, vectors and notices, frames and pipelines. -/

namespace Sys2Proof.Machine
open Sys2Proof

/-- The answer of a meaning: the next state where the command names units the device has. -/
def onUnits (c : Bool) (t : State) : Host.Outcome State Fault Refusal :=
  if c then .next t else .fault .noSuchUnit

/-- Apply `f` only while `c` holds; otherwise nothing happens. -/
def when (c : Bool) (f : State → State) (s : State) : State := if c then f s else s

/-- Apply a state change for every element of a list, in order. -/
def forEach {α : Type} (l : List α) (f : State → α → State) (s : State) : State := l.foldl f s

/-- Draw a free value. -/
def drawFree (s : State) : Nat × State := (Config.freeValue s.free, { s with free := s.free + 1 })

/-- Draw from the random source. -/
def drawRandom (s : State) : Nat × State := (Config.random s.free, { s with free := s.free + 1 })

/-- Let a free value decide. -/
def drawChoice (s : State) : Bool × State := (Config.freeChoice s.free, { s with free := s.free + 1 })

/-- The TAP takes the covered balls from the device's own logic (R649). -/
def tapTakes (s : State) : Bool :=
  match s.pins.tap with
  | .extest => true
  | .extestPulse => true
  | .extestTrain => true
  | .clamp => true
  | _ => false

/-- Something leaves the device; nothing does while the TAP has the balls (R649). -/
def emit (o : Output) (s : State) : State := if tapTakes s then s else { s with out := s.out ++ [o] }

/-! ### Registers of the dictionary -/

/-- Key of a row of an object in one configuration set; live and halted objects use set 0. -/
def dictKey (set obj row : Nat) : Nat := (set * 2 ^ 32 + obj) * 2 ^ 32 + row

/-- A row of an object, none where it is unset (R16). -/
def rdOpt (s : State) (set obj row : Nat) : Option Nat :=
  match tabFind s.dict (dictKey set obj row) with
  | some v => some v
  | none => dfltOf obj row

/-- A row of an object in one set. -/
def rdSet (s : State) (set obj row : Nat) : Nat := (rdOpt s set obj row).getD 0

/-- A row of a live or halted object. -/
def rd (s : State) (obj : Nat) (row : Nat := 0) : Nat := rdSet s 0 obj row

/-- The dictionary with a row holding `v`, in canonical form. -/
def dictPut (t : Tab Nat) (set obj row v : Nat) : Tab Nat :=
  match dfltOf obj row with
  | some d => tabPut d t (dictKey set obj row) v
  | none => tabInsert t (dictKey set obj row) v

/-- Write a row in one set. -/
def wrSet (set obj row v : Nat) (s : State) : State := { s with dict := dictPut s.dict set obj row v }

/-- Write a row of a live or halted object. -/
def wrRow (obj row v : Nat) (s : State) : State := wrSet 0 obj row v s

/-- Write a live or halted object that is no table. -/
def wr (obj v : Nat) (s : State) : State := wrSet 0 obj 0 v s

/-- Whether an object is held once per configuration set. -/
def isShadow (obj : Nat) : Bool :=
  match objDesc obj with
  | some d => d.change = .shadow
  | none => false

/-- ACTIVE_EPOCH. -/
def activeEpoch (s : State) : Nat := rd s oActiveEpoch

/-- ACTIVE_SET. -/
def activeSet (s : State) : Nat := rd s oActiveSet

/-- The shadow set. -/
def shadowSet (s : State) : Nat := 1 - activeSet s

/-- The set that governs frames of an epoch (R28, R66, R72): during slack water the old epoch keeps the former active set,
which after a turn is the shadow set and after a step is the active one. -/
def setFor (s : State) (epoch : Nat) : Nat :=
  if epoch = activeEpoch s || s.ep.stepping then activeSet s else shadowSet s

/-- A shadowed object as frames of an epoch see it. -/
def rdCfg (s : State) (epoch obj : Nat) (row : Nat := 0) : Nat := rdSet s (setFor s epoch) obj row

/-- A shadowed object in the active set, which deferred work uses. -/
def rdAct (s : State) (obj : Nat) (row : Nat := 0) : Nat := rdSet s (activeSet s) obj row

/-! ### Counters -/

/-- A counter. -/
def ctr (s : State) (off : Nat) : Nat := tabGet 0 s.ctr off

/-- Set a counter. -/
def ctrSet (off v : Nat) (s : State) : State := { s with ctr := tabPut 0 s.ctr off (v % 2 ^ 64) }

/-- Add to a counter, modulo 2^64. -/
def ctrAdd (off n : Nat) (s : State) : State := ctrSet off (ctr s off + n) s

/-- Count one. -/
def count (off : Nat) (s : State) : State := ctrAdd off 1 s

/-- Raise a counter that keeps a peak. -/
def ctrMax (off v : Nat) (s : State) : State := if ctr s off < v then ctrSet off v s else s

/-- Counter `o` of port `p` (Table 4-6). -/
def cPort (p o : Nat) : Nat := 0x10000 + 256 * p + o
/-- Counter `o` of pipeline `n` (Table 5-12). -/
def cPipe (n o : Nat) : Nat := 0x40000 + 128 * n + o
/-- Lookup counter `o` (Table 6-13). -/
def cLookup (o : Nat) : Nat := 0x48000 + o
/-- Rule and pattern counter `o` (Table 7-10). -/
def cRule (o : Nat) : Nat := 0x49000 + o
/-- Counter `o` of slice `f` (Table 8-11). -/
def cSlice (f o : Nat) : Nat := 0x4A000 + 256 * f + o
/-- Counter `o` of admission template `t` (Table 8-12). -/
def cTemplate (t o : Nat) : Nat := 0x4B000 + 64 * t + o
/-- Counter `o` of NAT pool `p` (Table 9-12). -/
def cPool (p o : Nat) : Nat := 0x4C000 + 64 * p + o
/-- Counter `o` of backend table `t` (Table 9-12). -/
def cBackend (t o : Nat) : Nat := 0x50000 + 64 * t + o
/-- Global flow service counter `o` (Table 9-12). -/
def cService (o : Nat) : Nat := 0x54000 + o
/-- Counter `o` of buffer pool `p` (Table 10-8). -/
def cBuf (p o : Nat) : Nat := 0x58000 + 128 * p + o
/-- Counter `o` of middle buffer `m` (Table 10-8). -/
def cMiddle (m o : Nat) : Nat := 0x58400 + 64 * m + o
/-- Counter `o` of egress pipeline `j` (Table 10-8). -/
def cEgress (j o : Nat) : Nat := 0x58C00 + 64 * j + o
/-- Counter `o` of the buffer row of port `n` (Table 10-8). -/
def cPortBuf (n o : Nat) : Nat := 0x60000 + 128 * n + o
/-- Counter `o` of queue `n` (Table 11-8). -/
def cQueue (n o : Nat) : Nat := 0x80000 + 32 * n + o
/-- Counter `o` of policer `n` (Table 11-8). -/
def cPolicer (n o : Nat) : Nat := 0xB0000 + 32 * n + o
/-- Counter `o` of the Traffic Manager row of port `p` (Table 11-8). -/
def cTmPort (p o : Nat) : Nat := 0x2B0000 + 64 * p + o
/-- Global Traffic Manager counter `o` (Table 11-8). -/
def cTm (o : Nat) : Nat := 0x2B8000 + o
/-- Counter `o` of deferred kind `k` (Table 12-5). -/
def cKind (k o : Nat) : Nat := 0x2C0000 + 64 * k + o
/-- Global deferred work counter `o` (Table 12-5). -/
def cWork (o : Nat) : Nat := 0x2C0400 + o
/-- Global Host Interface counter `o` (Table 13-10). -/
def cHost (o : Nat) : Nat := 0x2D0000 + o
/-- Counter `o` of SQ `q` (Table 13-10). -/
def cSq (q o : Nat) : Nat := 0x2D1000 + 32 * q + o
/-- Counter `o` of transmit stamp queue `n` (Table 14-3). -/
def cStamp (n o : Nat) : Nat := 0x300000 + 64 * n + o
/-- Global Time Unit counter `o` (Table 14-3). -/
def cTime (o : Nat) : Nat := 0x300400 + o
/-- Pair counter `o` (Table 15-10). -/
def cPair (o : Nat) : Nat := 0x310000 + o
/-- Counter `o` of the measurement row of pipeline `n` (Table 16-10). -/
def cPerf (n o : Nat) : Nat := 0x320000 + 1024 * n + o
/-- Global measurement counter `o` (Table 16-10). -/
def cGlobal (o : Nat) : Nat := 0x324000 + o
/-- Event counter `o` (R630). -/
def cEvent (o : Nat) : Nat := 0x330000 + o

/-! ### Time -/

/-- MCLK cycle number. -/
def mclk (s : State) : Nat := s.clk.cclk / 4

/-- TIME_INCREMENT in 2^−32 ns: nanoseconds in [39:32], fraction below. -/
def timeIncrement (s : State) : Nat := rd s oTimeIncrement

/-- The PTP time of this cycle in 2^−32 ns: the counter at the tick before, plus half an increment in the second CCLK cycle
of a tick (R503). -/
def ptpNow (s : State) : Nat := s.tun.ptp + (if s.clk.cclk % 2 = 1 then timeIncrement s / 2 else 0)

/-- 2^−32 ns in a second. -/
def perSecond : Nat := 1000000000 * 2 ^ 32

/-- A time in 2^−32 ns as seconds, nanoseconds and upper 16 bits of the fraction (R496). -/
def stampOf (t : Nat) : Stamp :=
  { sec := t / perSecond % 2 ^ 48, ns := t % perSecond / 2 ^ 32, frac := t % 2 ^ 32 / 2 ^ 16 }

/-- A time stamp in 2^−32 ns. -/
def stampNs (t : Stamp) : Nat := t.sec * perSecond + t.ns * 2 ^ 32 + t.frac * 2 ^ 16

/-- The PTP time now. -/
def nowStamp (s : State) : Stamp := stampOf (ptpNow s)

/-- TIME80 of a stamp: [79:32] seconds, [31:0] nanoseconds (Table 3-1). -/
def time80 (t : Stamp) : Nat := t.sec * 2 ^ 32 + t.ns

/-- TIME80 of now. -/
def nowTime80 (s : State) : Nat := time80 (nowStamp s)

/-- PTP time in milliseconds modulo 2^32 (Table 8-3, LAST_SEEN). -/
def stampMs (t : Stamp) : Nat := (t.sec * 1000 + t.ns / 1000000) % 2 ^ 32

/-- CCLK cycles in a number of microseconds. -/
def usCclk (us : Nat) : Nat := us * 3125 / 2

/-- CCLK cycles in a number of milliseconds. -/
def msCclk (ms : Nat) : Nat := ms * 1562500

/-! ### Low water and halts -/

/-- LOW_WATER_FLAGS[0]: the ledger is on die only (R607). -/
def lowLedger (s : State) : Bool := (rd s oLowWaterFlags).testBit 0

/-- LOW_WATER_FLAGS[1]: pipelines run at half CCLK (R31). -/
def halfClock (s : State) : Bool := (rd s oLowWaterFlags).testBit 1

/-- A bit of HALT_REQUEST. -/
def haltAsked (s : State) (n : Nat) : Bool := (rd s oHaltRequest).testBit n

/-- A bit of HALTED. -/
def halted (s : State) (n : Nat) : Bool := (rd s oHalted).testBit n

/-- HALTED[15:0] all set. -/
def pipesHalted (s : State) : Bool := rd s oHalted % 2 ^ 16 = 2 ^ 16 - 1

/-- Whether a block takes new work: neither halted nor asked to halt (R55, R57). -/
def inService (s : State) (n : Nat) : Bool := !haltAsked s n && !halted s n

/-! ### Limits per second (R664) -/

/-- How often a limit has been used in the running window. -/
def used (s : State) (key : Nat) : Nat := tabGet 0 s.ev.window key

/-- Use a limit once. -/
def useLimit (key : Nat) (s : State) : State :=
  { s with ev := { s.ev with window := tabPut 0 s.ev.window key (used s key + 1) } }

/-- Key of the once-a-second limit of an event source in a scope. -/
def onceKey (src scope : Nat) : Nat := (16 + src) * 2 ^ 32 + scope
/-- Key of the nonce-reply limit of a MGMT port (R112). -/
def nonceKey (n : Nat) : Nat := n
/-- Key of the notice limit of a MGMT port (R624). -/
def noticeKey (n : Nat) : Nat := 2 ^ 32 + n
/-- Key of the punt limit of a pipeline (R190). -/
def puntKey (n : Nat) : Nat := 2 * 2 ^ 32 + n
/-- Key of the export limit (R363). -/
def exportKey : Nat := 3 * 2 ^ 32

/-! ### Keys and transport frames -/

/-- Whether a level is disabled (R659). -/
def levelDisabled (s : State) (level : Nat) : Bool :=
  nth 0 s.fuse.roots level = 0 || (level = 3 && s.fuse.factoryDisabled = 1)

/-- The current key generation of a level (R129). -/
def keyGen (s : State) (level : Nat) : Nat := nth 0 s.fuse.gens level

/-- The working key of a level and generation: hmac(root, "MIRTY" || level || g) (chapter 3, Authentication). -/
def workingKey (s : State) (level gen : Nat) : Bytes :=
  hmacSha256 (leBytes 32 (nth 0 s.fuse.roots level))
    ([0x4D, 0x49, 0x52, 0x54, 0x59] ++ [BitVec.ofNat 8 level, BitVec.ofNat 8 gen])

/-- CODE of a header with its payload under a key (R111). -/
def codeOf (s : State) (level gen : Nat) (headerPayload : Bytes) : Bytes :=
  (hmacSha256 (workingKey s level gen) (leBytes 8 s.eng.nonce ++ headerPayload)).take 16

/-- A transport header in network byte order (Table 3-9). -/
def transportHeader (kind level gen sender seq len : Nat) : Bytes :=
  [0x01] ++ beBytes 1 kind ++ beBytes 1 (level * 64 + gen % 64) ++ beBytes 1 sender ++ beBytes 4 seq ++ beBytes 2 len ++
    beBytes 2 0

/-- The MAC address of MGMTn, byte 0 lowest. -/
def mgmtMac (s : State) (n : Nat) : Nat := if n = 0 then s.fuse.mac0 else s.fuse.mac1

/-- An authenticated transport frame from MGMTn to a MAC address. -/
def transportFrame (s : State) (n dest kind level gen sender seq : Nat) (payload : Bytes) : Bytes :=
  let hp := transportHeader kind level gen sender seq payload.length ++ payload
  leBytes 6 dest ++ leBytes 6 (mgmtMac s n) ++ beBytes 2 (rd s oMirtyEthertype) ++ hp ++ codeOf s level gen hp

/-- A MGMT port. -/
def mgmt (s : State) (n : Nat) : Mgmt := if n = 0 then s.eng.mgmt0 else s.eng.mgmt1

/-- Replace a MGMT port's state. -/
def setMgmt (n : Nat) (m : Mgmt) (s : State) : State :=
  if n = 0 then { s with eng := { s.eng with mgmt0 := m } } else { s with eng := { s.eng with mgmt1 := m } }

/-- Whether a MGMT port can send: step 06 passed, enabled, link up. -/
def mgmtSends (s : State) (n : Nat) : Bool :=
  (mgmt s n).ready && (rd s oMgmtEnable).testBit n && (mgmt s n).linkUp

/-- NOTICE_DEST row n: a MAC address, byte 0 lowest. -/
def noticeDest (s : State) (n : Nat) : Nat := rd s oNoticeDest n % 2 ^ 48

/-- Send a notice or a punt on MGMTn under the Observer key in the port's sequence (R115, R661). -/
def sendObserver (n kind : Nat) (payload : Bytes) (s : State) : State :=
  let m := mgmt s n
  let f := transportFrame s n (noticeDest s n) kind 0 (keyGen s 0) 0 m.seq payload
  setMgmt n { m with seq := (m.seq + 1) % 2 ^ 32 } (emit (.mgmt n f) s)

/-! ### Vectors -/

/-- The function can write to host memory (R451). -/
def busAwake (s : State) : Bool := !s.hst.d3hot && s.hst.busMaster && !s.hst.absent && !s.hst.perst

/-- A vector is masked, or under the Function Mask (R487). -/
def vectorMasked (s : State) (v : Nat) : Bool := s.hst.functionMask || !s.hst.unmasked.contains v

/-- The link leaves L1 when the device has something to send (R489); what R490 holds is then written by LINK_LEAVES_L1, before
the queue's next entry, or in the next cycle. -/
def sendTlp (o : Output) (s : State) : State :=
  let s := emit o s
  { s with hst := { s.hst with link := 0, lastTlp := s.clk.cclk } }

/-- Write to host memory; while the function may not (R451), the write is held (log entry 131). -/
def hostWrite (a : Nat) (b : Bytes) (s : State) : State :=
  if busAwake s then sendTlp (.hostWrite a b) s else { s with hst := { s.hst with heldWrites := s.hst.heldWrites ++ [(a, b)] } }

/-- Writes that were held are made, oldest first. -/
def flushWrites (s : State) : State :=
  if s.hst.heldWrites = [] || !busAwake s then s
  else forEach s.hst.heldWrites (fun t w => sendTlp (.hostWrite w.1 w.2) t) { s with hst := { s.hst with heldWrites := [] } }

/-- Set a pending bit of the MSI-X structures. -/
def pendVector (v : Nat) (s : State) : State :=
  if s.hst.msixPending.contains v then s else { s with hst := { s.hst with msixPending := s.hst.msixPending ++ [v] } }

/-- Send a vector, or set its pending bit while it is masked or the function cannot write to host memory (R487, R451). -/
def sendVector (v : Nat) (s : State) : State :=
  if vectorMasked s v || !busAwake s then pendVector v s else sendTlp (.msix v) s

/-! ### Events (R619 to R624) -/

/-- The routed pending sources of a group (R623). -/
def routedPending (s : State) (g : Nat) : Nat := rd s oEventPending g &&& rd s oEventEnable g

/-- INT_N is low: a routed pending source in a group with ROUTE[0], or a failed fixed boot step (R623, R601). -/
def intLow (s : State) : Bool :=
  s.ev.bootFail || (List.range 16).any (fun g => routedPending s g != 0 && (rd s oEventRoute g).testBit 0)

/-- Send the vector of each group of the list whose set of routed pending sources was empty before and is not now. -/
def sendGroupVectors (before : State) (groups : List Nat) (s : State) : State :=
  forEach groups (fun t g =>
    if routedPending before g = 0 && routedPending t g != 0 && (rd t oEventRoute g).testBit 1
    then sendVector (rd t oEventRoute g >>> 16) t else t) s

/-- The notice of a raise on MGMTn, sent or dropped (R115, R624). -/
def sendNotice (n src : Nat) (s : State) : State :=
  if rd s oNoticeRate ≤ used s (noticeKey n) || !mgmtSends s n || levelDisabled s 0 then count (cEvent 0x10) s
  else
    sendObserver n 2 (beBytes 2 src ++ beBytes 2 0 ++ beBytes 10 (nowTime80 s) ++ beBytes 2 0)
      (count (cEvent 0x08) (useLimit (noticeKey n) s))

/-- DETAIL of a source's log row after a raise: the lowest of the MCLK cycle's (R621). -/
def logDetail (src detail : Nat) (s : State) : Nat :=
  if tabGet 0 s.ev.lastMclk src = mclk s + 1 then min (byteFld (rd s oEventLog src) 4 4) (detail % 2 ^ 32) else detail % 2 ^ 32

/-- The EVENT_LOG row of a source after a raise (R620): COUNT, DETAIL, TIME. -/
def logRow (src detail : Nat) (s : State) : Nat :=
  (byteFld (rd s oEventLog src) 0 4 + 1) % 2 ^ 32 + logDetail src detail s * 2 ^ 32 + nowTime80 s * 2 ^ 64

/-- Raise a source (R620 to R623). -/
def raise (src detail : Nat) (s : State) : State :=
  let g := src / 32
  let m := mclk s
  let t := wrRow oEventLog src (logRow src detail s) (count (cEvent 0x00) s)
  let t := { t with ev := { t.ev with lastMclk := tabPut 0 t.ev.lastMclk src (m + 1) } }
  let t := wrRow oEventPending g (setBit (rd t oEventPending g) (src % 32)) t
  let t := sendGroupVectors s [g] t
  let routed := (rd t oEventEnable g).testBit (src % 32)
  let t := when (routed && (rd t oEventRoute g).testBit 2) (sendNotice 0 src) t
  when (routed && (rd t oEventRoute g).testBit 3) (sendNotice 1 src) t

/-- Raise a source at most once per second in a scope (R664). -/
def raiseOnce (src scope detail : Nat) (s : State) : State :=
  if used s (onceKey src scope) = 0 then raise src detail (useLimit (onceKey src scope) s) else s

/-- EVENT_SUMMARY (Table 17-10). -/
def eventSummary (s : State) : Nat :=
  (List.range 16).foldl (fun a g => if routedPending s g = 0 then a else setBit a g) 0

/-! ### Limits per cycle -/

/-- FCLK cycle number (Table 0-4). -/
def fclk (s : State) : Nat := s.clk.cclk / 2

/-- How often a limit has been used in cycle `c` of its clock. -/
def inCycle (s : State) (key c : Nat) : Nat :=
  match tabFind s.clk.lim key with
  | some e => if e.1 = c then e.2 else 0
  | none => 0

/-- Use a limit once in cycle `c` of its clock. -/
def useCycle (key c : Nat) (s : State) : State :=
  { s with clk := { s.clk with lim := tabInsert s.clk.lim key (c, inCycle s key c + 1) } }

/-- Key of the operations a flow slice takes from the crossbar in a CCLK cycle (R21). -/
def crossbarKey (f : Nat) : Nat := f
/-- Key of the deferred operations a flow slice takes in a CCLK cycle (R439). -/
def deferredKey (f : Nat) : Nat := 16 + f
/-- Key of the instructions a pipeline issues in one of its cycles (R164). -/
def issueKey (n : Nat) : Nat := 32 + n
/-- Key of the grants of a pool in an FCLK cycle (R380). -/
def grantKey (p : Nat) : Nat := 48 + p
/-- Key of the dispatches of a ready list in an FCLK cycle (R437). -/
def listKey (l : Nat) : Nat := 64 + l

/-! ### Frames and pipelines -/

/-- A frame or copy in the device. -/
def frame (s : State) (fid : Nat) : Option Frame := tabFind s.pip.frames fid

/-- Replace a frame. -/
def putFrame (fid : Nat) (f : Frame) (s : State) : State :=
  { s with pip := { s.pip with frames := tabInsert s.pip.frames fid f } }

/-- Change a frame where it is in the device. -/
def modFrame (fid : Nat) (g : Frame → Frame) (s : State) : State :=
  match frame s fid with
  | some f => putFrame fid (g f) s
  | none => s

/-- Take a frame out of the device. -/
def dropFrame (fid : Nat) (s : State) : State :=
  { s with pip := { s.pip with frames := tabErase s.pip.frames fid } }

/-- Bring a frame or copy into the device under the next number. -/
def newFrame (f : Frame) (s : State) : Nat × State :=
  (s.pip.nextFid, { s with pip := { s.pip with frames := tabInsert s.pip.frames s.pip.nextFid f,
                                               nextFid := s.pip.nextFid + 1 } })

/-- A pipeline. -/
def pipe (s : State) (n : Nat) : PipeSt := tabGet {} s.pip.pipes n

/-- Replace a pipeline's state. -/
def setPipe (n : Nat) (p : PipeSt) (s : State) : State :=
  { s with pip := { s.pip with pipes := tabPut {} s.pip.pipes n p } }

/-- Length of a frame from destination address through FCS. -/
def frameLen (f : Frame) : Nat := f.bytes.length

/-- A port's working state. -/
def port (s : State) (p : Nat) : PortSt := tabGet {} s.prt.ports p

/-- Replace a port's working state. -/
def setPort (p : Nat) (x : PortSt) (s : State) : State :=
  { s with prt := { s.prt with ports := tabPut {} s.prt.ports p x } }

/-- Frames and copies of an epoch in the device. -/
def framesOf (s : State) (epoch : Nat) : List Nat :=
  (s.pip.frames.filter (fun e => e.2.epoch = epoch && e.2.phase ≠ .staged)).map (·.1)

end Sys2Proof.Machine
end

