-- ==== Sys2Proof/Machine/Sources.lean ====
section
/-! DEFINITION. The numbers of the event sources (Table 17-7). -/

namespace Sys2Proof.Machine

/-- Source 0. -/
abbrev evBootStepAlt : Nat := 0
/-- Source 1. -/
abbrev evBootStepSkip : Nat := 1
/-- Source 2. -/
abbrev evBootStopped : Nat := 2
/-- Source 3. -/
abbrev evBootRecordReset : Nat := 3
/-- Source 4. -/
abbrev evServiceChange : Nat := 4
/-- Source 5. -/
abbrev evCalInvalid : Nat := 5
/-- Source 6. -/
abbrev evHbmStackLost : Nat := 6
/-- Source 7. -/
abbrev evClockFault : Nat := 7
/-- Source 32. -/
abbrev evCoreRestart : Nat := 32
/-- Source 33. -/
abbrev evDictFault : Nat := 33
/-- Source 34. -/
abbrev evAuthFail : Nat := 34
/-- Source 35. -/
abbrev evConfigEcc : Nat := 35
/-- Source 64. -/
abbrev evTideTurned : Nat := 64
/-- Source 65. -/
abbrev evTurnRejected : Nat := 65
/-- Source 66. -/
abbrev evSlackTimeout : Nat := 66
/-- Source 96. -/
abbrev evPortUp : Nat := 96
/-- Source 97. -/
abbrev evPortDown : Nat := 97
/-- Source 98. -/
abbrev evLinkFail : Nat := 98
/-- Source 99. -/
abbrev evFecDegraded : Nat := 99
/-- Source 128. -/
abbrev evCsLoaded : Nat := 128
/-- Source 129. -/
abbrev evCsLoadFail : Nat := 129
/-- Source 130. -/
abbrev evCsEcc : Nat := 130
/-- Source 160. -/
abbrev evLockExpired : Nat := 160
/-- Source 161. -/
abbrev evLearnLoss : Nat := 161
/-- Source 162. -/
abbrev evLtEcc : Nat := 162
/-- Source 192. -/
abbrev evRbParity : Nat := 192
/-- Source 193. -/
abbrev evPatLoaded : Nat := 193
/-- Source 194. -/
abbrev evPatLoadFail : Nat := 194
/-- Source 195. -/
abbrev evPaEcc : Nat := 195
/-- Source 224. -/
abbrev evLedgerExhaust : Nat := 224
/-- Source 225. -/
abbrev evLedgerEcc : Nat := 225
/-- Source 226. -/
abbrev evLedgerRebased : Nat := 226
/-- Source 227. -/
abbrev evLedgerFault : Nat := 227
/-- Source 256. -/
abbrev evPolicyPressure : Nat := 256
/-- Source 257. -/
abbrev evTelemLoss : Nat := 257
/-- Source 288. -/
abbrev evBadHandle : Nat := 288
/-- Source 289. -/
abbrev evFreeListBroken : Nat := 289
/-- Source 290. -/
abbrev evPoolStarved : Nat := 290
/-- Source 291. -/
abbrev evDoubleFree : Nat := 291
/-- Source 292. -/
abbrev evForeignFree : Nat := 292
/-- Source 293. -/
abbrev evBufferLeak : Nat := 293
/-- Source 294. -/
abbrev evPktEcc : Nat := 294
/-- Source 320. -/
abbrev evDwLate : Nat := 320
/-- Source 321. -/
abbrev evDwLoss : Nat := 321
/-- Source 322. -/
abbrev evDwWait : Nat := 322
/-- Source 352. -/
abbrev evWqStall : Nat := 352
/-- Source 353. -/
abbrev evPuntLoss : Nat := 353
/-- Source 384. -/
abbrev evTimeStepped : Nat := 384
/-- Source 385. -/
abbrev evTsOverflow : Nat := 385
/-- Source 386. -/
abbrev evTsAvailable : Nat := 386
/-- Source 387. -/
abbrev evPpsIn : Nat := 387
/-- Source 388. -/
abbrev evSynceLoss : Nat := 388
/-- Source 416. -/
abbrev evClaimFault : Nat := 416
/-- Source 417. -/
abbrev evPairLost : Nat := 417
/-- Source 418. -/
abbrev evPairDiverged : Nat := 418
/-- Source 419. -/
abbrev evSelfcheckFail : Nat := 419
/-- Source 420. -/
abbrev evDigestUnresolved : Nat := 420
/-- Source 421. -/
abbrev evJoinRefused : Nat := 421
/-- Source 448. -/
abbrev evGovPressure : Nat := 448
/-- Source 449. -/
abbrev evVregFault : Nat := 449
/-- Source 450. -/
abbrev evGovOverride : Nat := 450

end Sys2Proof.Machine
end

