-- ==== Sys2Proof/Machine/Measure.lean ====
section
/-! DEFINITION. Slot categories, programmable counters and precise sampling (R583 to R592). -/

namespace Sys2Proof.Machine
open Sys2Proof

/-- What a filter of a counter may look at. -/
structure Occ where
  cls : Nat := 0
  port : Nat := 0
  template : Nat := 0
  fid : Option Nat := none
deriving DecidableEq, Repr

/-- The occurrence a frame gives. -/
def occOf (fid : Nat) (f : Frame) : Occ := ⟨f.cls, f.port, f.template, some fid⟩

/-- R585: the filters of a selection let an occurrence through. -/
def filtersPass (classMask port template : Nat) (o : Occ) : Bool :=
  (classMask = 0xFF || classMask.testBit o.cls) && (port = 0xFFFF || port = o.port) &&
    (template = 0xFFFF || template = o.template)

/-- Rows of PERF_SELECT that have been written. -/
def perfRows (s : State) : List Nat :=
  (s.dict.filter (fun e => e.1 / 2 ^ 32 = oPerfSelect)).map (fun e => e.1 % 2 ^ 32)

/-- Counter of a PERF_SELECT row. -/
def perfCell (row : Nat) : Nat := if row < 1024 then cPerf (row / 64) (8 * (row % 64)) else cGlobal (8 * (row - 1024))

/-- Clock cycle an event counts in: FCLK for events 0x40, 0x41, 0x101, 0x102 and 0x110, CCLK otherwise (Table 16-6). -/
def eventCycle (s : State) (event : Nat) : Nat :=
  if event = 0x40 || event = 0x41 || event = 0x101 || event = 0x102 || event = 0x110 then s.clk.cclk / 2 else s.clk.cclk

/-- One counter meets `n` occurrences of its event in one cycle (Table 16-5, MODE). -/
def perfCount (row n : Nat) (s : State) : State :=
  let v := rd s oPerfSelect row
  let mode := byteFld v 2 1
  let threshold := byteFld v 4 2
  if mode = 0 then ctrAdd (perfCell row) n s
  else
    let cyc := eventCycle s (byteFld v 0 2)
    let seen := match tabFind s.perf.cycle row with
      | some (c, k) => if c = cyc then k else 0
      | none => 0
    let s := { s with perf := { s.perf with cycle := tabInsert s.perf.cycle row (cyc, seen + n) } }
    if seen < threshold && threshold ≤ seen + n then
      let last := tabFind s.perf.lastCycle row
      let s := { s with perf := { s.perf with lastCycle := tabInsert s.perf.lastCycle row cyc } }
      if mode = 2 && last.map (· + 1) = some cyc then s else count (perfCell row) s
    else s

/-- The counters of one scope count `n` occurrences (R584). -/
def perfOccur (scope : Nat → Bool) (event n : Nat) (o : Occ) (s : State) : State :=
  forEach ((perfRows s).filter scope) (fun t row =>
    let v := rd t oPerfSelect row
    if byteFld v 0 2 = event && (byteFld v 3 1).testBit 0 &&
        filtersPass (byteFld v 6 1) (byteFld v 8 2) (byteFld v 10 2) o then perfCount row n t else t) s

/-! ### Precise sampling -/

/-- PRECISE_CONFIG fields (R588). -/
def pcKind (v : Nat) : Nat := byteFld v 0 1
/-- PIPELINES mask. -/
def pcPipes (v : Nat) : Nat := byteFld v 2 2
/-- EVENT. -/
def pcEvent (v : Nat) : Nat := byteFld v 4 2
/-- JITTER. -/
def pcJitter (v : Nat) : Nat := byteFld v 7 1
/-- PERIOD. -/
def pcPeriod (v : Nat) : Nat := byteFld v 8 4

/-- Draw the distance to the next mark (R589). -/
def nextMark (v : Nat) (s : State) : Nat × State :=
  if pcJitter v = 0 then (pcPeriod v, s)
  else
    let (r, t) := drawRandom s
    (pcPeriod v - 2 ^ (pcJitter v - 1) + r % 2 ^ pcJitter v, t)

/-- Set the occurrences counted and the mark of a pipeline. -/
def setMark (n c m : Nat) (s : State) : State :=
  { s with perf := { s.perf with count := setNth s.perf.count n c, mark := setNth s.perf.mark n m } }

/-- A time of Table 16-7: from the ingress PCS stamp, in 1/16 of a TCLK tick, eight to a CCLK cycle. -/
def sampleTime (f : Frame) (t : Nat) : Nat := if t = 0 then 0 else (t - f.rxCclk) * 8 % 2 ^ 32

/-- The fields of a sample that a frame gives (Table 16-7). `egress` is the cycle of the egress PCS stamp. -/
def sampleEntry (s : State) (kind : Nat) (f : Frame) (pc egress : Nat) (discarded : Bool) : Nat :=
  leNat (leBytes 1 kind ++ leBytes 1 f.pipe ++ leBytes 2 f.template ++ leBytes 2 f.epoch ++ leBytes 2 f.port ++
    leBytes 8 s.clk.cclk ++ leBytes 2 pc ++ leBytes 1 f.steps ++ leBytes 1 (f.ledStatus.getD 0xFF) ++
    leBytes 2 (if f.tResolved = 0 then 0xFFFF else f.ra.dest) ++
    leBytes 1 (f.cls * 32 + b2n f.express * 16 + b2n discarded * 8) ++
    leBytes 1 (if (f.phase = .queued || f.phase = .sending) && f.queue < 4096 then f.queue % 8 else 0xFF) ++
    leBytes 4 (if kind = 1 then 0 else sampleTime f f.tAccept) ++ leBytes 4 (if kind = 1 then 0 else sampleTime f f.tResolved) ++
    leBytes 4 (if kind = 3 then sampleTime f f.tFabric else 0) ++ leBytes 4 (if kind = 3 then sampleTime f f.tEnqueue else 0) ++
    leBytes 4 (if kind = 3 then sampleTime f f.tSelected else 0) ++ leBytes 4 (if kind = 3 then sampleTime f egress else 0) ++
    leBytes 4 (f.ra.flowValid * 2 ^ 31 + f.ra.flowRecord % 2 ^ 26) ++ leBytes 2 f.bytes.length ++ zeros 10)

/-- A sample is complete and waits to be written. -/
def sampleDone (n entry : Nat) (s : State) : State :=
  { s with perf := { s.perf with done := s.perf.done ++ [(n, entry)] } }

/-- An occurrence is sampled (R590): KIND 2 is complete at once; KIND 1 completes at the next boundary, at once with
ROUTINE_PC 0xFFFF where the routine has ended; KIND 3 follows the frame, one at a time. -/
def beginSample (n kind fid : Nat) (f : Frame) (s : State) : State :=
  if kind = 2 then sampleDone n (sampleEntry s 2 f 0 0 false) s
  else if kind = 1 then
    if f.finished then sampleDone n (sampleEntry s 1 f 0xFFFF 0 false) s
    else { s with perf := { s.perf with samples := tabInsert s.perf.samples (16 + fid) (fid, sampleEntry s 1 f 0 0 false) } }
  else if (tabFind s.perf.samples n).isSome then count (cGlobal 0x130) s
  else { s with perf := { s.perf with samples := tabInsert s.perf.samples n (fid, sampleEntry s 3 f 0 0 false) } }

/-- R589: a pipeline's filtered occurrences of the sampled event move towards the mark. -/
def preciseOccur (n event : Nat) (o : Occ) (s : State) : State :=
  let v := rd s oPreciseConfig
  if pcKind v = 0 || pcEvent v ≠ event || !(pcPipes v).testBit n ||
      !filtersPass (byteFld v 6 1) (byteFld v 12 2) (byteFld v 14 2) o then s
  else
    let c := nth 0 s.perf.count n + 1
    if c < nth 0 s.perf.mark n then setMark n c (nth 0 s.perf.mark n) s
    else
      let (m, s) := nextMark v s
      let s := setMark n 0 m s
      match o.fid with
      | some fid => match frame s fid with
        | some f => beginSample n (pcKind v) fid f s
        | none => s
      | none => s

/-- `k` occurrences of a pipeline event. -/
def occur (n event k : Nat) (o : Occ) (s : State) : State :=
  preciseOccur n event o (perfOccur (fun row => row < 1024 && row / 64 = n) event k o s)

/-- `k` occurrences of a global event. -/
def occurGlobal (event k : Nat) (s : State) : State :=
  if k = 0 then s else perfOccur (fun row => 1024 ≤ row) event k {} s

/-- A head slot of a pipeline falls into a category of Table 16-4 (R583). -/
def slotCategory (n c : Nat) (o : Occ) (s : State) : State := occur n (0x10 + c) 1 o (count (cPerf n (0x200 + 8 * c)) s)

/-- KIND 1: the first instruction boundary after the occurrence (R590). -/
def sampleBoundary (fid word : Nat) (f : Frame) (s : State) : State :=
  match tabFind s.perf.samples (16 + fid) with
  | some (_, e) =>
    let e := setByteFld (setByteFld e 0x10 2 word) 0x12 1 f.steps
    sampleDone f.pipe e { s with perf := { s.perf with samples := tabErase s.perf.samples (16 + fid) } }
  | none => s

/-- KIND 1: a frame that leaves without another boundary (R590). -/
def sampleEnds (fid : Nat) (f : Frame) (s : State) : State :=
  match tabFind s.perf.samples (16 + fid) with
  | some (_, e) =>
    sampleDone f.pipe (setByteFld e 0x10 2 0xFFFF) { s with perf := { s.perf with samples := tabErase s.perf.samples (16 + fid) } }
  | none => s

/-- KIND 3: the frame, or its first copy to complete, leaves or is discarded (R590). -/
def sampleLeave (fid : Nat) (f : Frame) (egress : Nat) (discarded : Bool) (s : State) : State :=
  let s := sampleEnds fid f s
  match tabFind s.perf.samples f.pipe with
  | some (g, e) =>
    if g = fid || f.root = some g then
      let done := setByteFld (sampleEntry s 3 f 0 egress discarded) 8 8 (byteFld e 8 8)
      sampleDone f.pipe done { s with perf := { s.perf with samples := tabErase s.perf.samples f.pipe } }
    else s
  | none => s

/-- R592: write a complete sample into the buffer. -/
def writeSample (entry : Nat) (s : State) : State :=
  let w := rd s oPreciseWriteIndex
  let r := rd s oPreciseReadIndex
  let full := (w + 2 ^ 32 - r) % 2 ^ 32 = 4096
  if full && byteFld (rd s oPreciseConfig) 1 1 = 0 then count (cGlobal 0x128) s
  else
    let s := if full then wr oPreciseReadIndex ((r + 1) % 2 ^ 32) s else s
    count (cGlobal 0x120) (wr oPreciseWriteIndex ((w + 1) % 2 ^ 32) (wrRow oPreciseBuffer (w % 4096) entry s))

/-- PRECISE_SAMPLE_WRITE (R592): the oldest complete sample of a pipeline is written. -/
def execPreciseSampleWrite (n : Nat) (s : State) : Host.Outcome State Fault Refusal :=
  onUnits (isPipe n)
    (match s.perf.done.find? (fun e => e.1 = n) with
     | some e => writeSample e.2 { s with perf := { s.perf with done := s.perf.done.erase e } }
     | none => s)

/-- A write of PRECISE_CONFIG: counting starts anew, each pipeline towards a fresh mark. -/
def writePreciseConfig (v : Nat) (s : State) : State :=
  forEach (List.range 16) (fun t n => let (m, u) := nextMark v t; setMark n 0 m u) (wr oPreciseConfig v s)

/-- R592: PRECISE_READ_INDEX lies after the write index or more than 4,096 before it. -/
def preciseReadOk (s : State) (v : Nat) : Bool := (rd s oPreciseWriteIndex + 2 ^ 32 - v) % 2 ^ 32 ≤ 4096

/-- A write of a PERF_SELECT row clears its counter (R586). -/
def writePerfSelect (row v : Nat) (s : State) : State :=
  let s := ctrSet (perfCell row) 0 (wrRow oPerfSelect row v s)
  { s with perf := { s.perf with cycle := tabErase s.perf.cycle row, lastCycle := tabErase s.perf.lastCycle row } }

/-- Scope (0 pipeline, 1 global, 2 both), filters allowed ([0] class, [1] port, [2] template) and maximum of an event (Table
16-6). -/
def eventInfo (e : Nat) : Option (Nat × Nat × Nat) :=
  if e = 1 then some (2, 0, 1)
  else if e = 2 then some (0, 7, 2)
  else if 0x10 ≤ e && e ≤ 0x19 then some (0, 0, 2)
  else if e = 0x20 then some (0, 4, 32)
  else if 0x30 ≤ e && e ≤ 0x35 then some (0, 7, 2)
  else if e = 0x40 then some (0, 3, 4)
  else if e = 0x41 then some (0, 3, 256)
  else if e = 0x50 then some (0, 3, 2)
  else if e = 0x100 || e = 0x101 || e = 0x102 then some (1, 0, 64)
  else if e = 0x110 then some (1, 0, 20)
  else if e = 0x120 then some (1, 0, 48)
  else if e = 0x121 then some (1, 0, 32)
  else none

/-- R585: the filters named are allowed for the event. -/
def filtersAllowed (allowed classMask port template : Nat) : Bool :=
  (allowed.testBit 0 || classMask = 0xFF) && (allowed.testBit 1 || port = 0xFFFF) && (allowed.testBit 2 || template = 0xFFFF)

/-- R585: a PERF_SELECT row that the device accepts. -/
def perfSelectOk (row v : Nat) : Bool :=
  match eventInfo (byteFld v 0 2) with
  | none => false
  | some (scope, filters, top) =>
    (scope = 2 || (scope = 0 && row < 1024) || (scope = 1 && 1024 ≤ row)) && byteFld v 2 1 ≤ 2 &&
      1 ≤ byteFld v 4 2 && byteFld v 4 2 ≤ top &&
      (byteFld v 8 2 ≤ 515 || byteFld v 8 2 = 0xFFFF) && (byteFld v 10 2 ≤ 1023 || byteFld v 10 2 = 0xFFFF) &&
      filtersAllowed filters (byteFld v 6 1) (byteFld v 8 2) (byteFld v 10 2)

/-- R588: a PRECISE_CONFIG value that the device accepts (log entry 121). -/
def preciseConfigOk (v : Nat) : Bool :=
  pcKind v ≤ 3 && byteFld v 1 1 ≤ 1 && pcJitter v ≤ 12 &&
    match eventInfo (pcEvent v) with
    | none => false
    | some (scope, filters, _) =>
      scope ≠ 1 && 2 ^ pcJitter v + 1 ≤ pcPeriod v && pcPeriod v ≤ 16777216 &&
        filtersAllowed filters (byteFld v 6 1) (byteFld v 12 2) (byteFld v 14 2)

end Sys2Proof.Machine
end

