-- ==== Sys2Proof/Machine/Buffers.lean ====
section
/-! DEFINITION. Buffer Pool Manager (chapter 10): pools, handles, owners, grants, releases and the undertow. -/

namespace Sys2Proof.Machine
open Sys2Proof

/-- Buffer sizes of pools 0 to 7 (Table 10-1). -/
def poolSize (p : Nat) : Nat := nth 64 [128, 256, 512, 1024, 2048, 4096, 9728, 64] p

/-- POOL_BUFFERS of a pool. -/
def poolBuffers (s : State) (p : Nat) : Nat := rd s oPoolBuffers p

/-- Bytes of a pool's region: header area rounded up to 64, then the buffers (R367). -/
def regionBytes (p n : Nat) : Nat := ceilDiv (4 * n) 64 * 64 + n * poolSize p

/-- Bytes of the pool area given to regions. -/
def storeUsed (s : State) : Nat := (List.range 8).foldl (fun a p => a + regionBytes p (poolBuffers s p)) 0

/-- The smallest of pools 0 to 6 whose size holds a frame of `len` bytes (R369). -/
def poolFor (len : Nat) : Nat := (firstFrom (fun p => len ≤ poolSize p) 0 7).getD 6

/-- A handle: [23:21] pool, [20:0] index. -/
def mkHandle (p i : Nat) : Nat := p * 2 ^ 21 + i
/-- Pool of a handle. -/
def hPool (h : Nat) : Nat := h / 2 ^ 21 % 8
/-- Index of a handle. -/
def hIndex (h : Nat) : Nat := h % 2 ^ 21

/-- R371: the handle names a buffer. -/
def handleOk (s : State) (h : Nat) : Bool := h < 2 ^ 24 && hIndex h < poolBuffers s (hPool h)

/-- A pool's lists. -/
def pool (s : State) (p : Nat) : PoolSt := tabGet {} s.buf.pools p

/-- Replace a pool's lists. -/
def setPool (p : Nat) (x : PoolSt) (s : State) : State :=
  { s with buf := { s.buf with pools := tabPut {} s.buf.pools p x } }

/-- Header of a buffer (Table 10-2); a free buffer's is 0. -/
def header (s : State) (h : Nat) : Nat := tabGet 0 s.buf.headers h

/-- A header in the layout of Table 10-2. -/
def mkHeader (owner refs : Nat) : Nat := 2 ^ 31 + owner * 2 ^ 16 + refs

/-- STATE of a header. -/
def hdrHeld (w : Nat) : Bool := w.testBit 31
/-- OWNER of a header. -/
def hdrOwner (w : Nat) : Nat := fld w 16 13
/-- REFS of a header. -/
def hdrRefs (w : Nat) : Nat := fld w 0 10

/-- Set a header. -/
def setHeader (h w : Nat) (s : State) : State :=
  { s with buf := { s.buf with headers := tabPut 0 s.buf.headers h w } }

/-- OWNER_HELD of an owner in a pool. -/
def heldBy (s : State) (owner p : Nat) : Nat := tabGet 0 s.buf.held (owner * 8 + p)

/-- Set OWNER_HELD. -/
def setHeld (owner p n : Nat) (s : State) : State :=
  { s with buf := { s.buf with held := tabPut 0 s.buf.held (owner * 8 + p) n } }

/-- Buffers of a pool that are held. -/
def heldIn (s : State) (p : Nat) : Nat := (s.buf.headers.filter (fun e => hPool e.1 = p)).length

/-- Buffers of a pool with STATE 0 that may be granted. -/
def freeIn (s : State) (p : Nat) : Nat := poolBuffers s p - heldIn s p - (pool s p).quarantined.length

/-- BREAKWATER minimum of an owner in a pool. -/
def minOf (s : State) (owner p : Nat) : Nat := byteFld (rd s oBreakwater owner) (4 * p) 4

/-- Rows of a live object that the dictionary lists. -/
def rowsListed (s : State) (obj : Nat) : List Nat :=
  (s.dict.filter (fun e => e.1 / 2 ^ 32 = obj)).map (fun e => e.1 % 2 ^ 32)

/-- Every owner whose minimum can be above 0: the internal requesters, and the owners whose row has been written. -/
def minOwners (s : State) : List Nat :=
  [4128, 4129, 4130, 4131, 4132, 4133] ++ (rowsListed s oBreakwater).filter (· < 4128)

/-- Unmet minimum of an owner in a pool. -/
def unmet (s : State) (owner p : Nat) : Nat := minOf s owner p - heldBy s owner p

/-- Sum of the unmet minima of a pool. -/
def unmetIn (s : State) (p : Nat) : Nat := (minOwners s).foldl (fun a o => a + unmet s o p) 0

/-- The shared free buffers of a pool. -/
def sharedIn (s : State) (p : Nat) : Nat := freeIn s p - unmetIn s p

/-- A request by an owner is within its minimum. -/
def withinMin (s : State) (owner p : Nat) : Bool := heldBy s owner p < minOf s owner p

/-- R378: whether a request by an owner can be granted. -/
def grantable (s : State) (owner p : Nat) : Bool :=
  if withinMin s owner p then 0 < freeIn s p else 0 < sharedIn s p

/-! ### Free lists -/

/-- The cache takes `n` handles from the list: released indices first, then buffers never granted, in ascending order. -/
def takeFromList (s : State) (p n : Nat) (x : PoolSt) : PoolSt :=
  let a := x.list.take n
  let k := min (n - a.length) (poolBuffers s p - x.fresh)
  { x with cache := x.cache ++ a ++ (List.range k).map (x.fresh + ·), list := x.list.drop n, fresh := x.fresh + k }

/-- A pool's cache now (R374): since it was last looked at it has moved 8 handles in every FCLK cycle, in from the list while it
held fewer than 64, out to the list while it held more than 1,016 (log entry 129). -/
def poolNow (s : State) (p : Nat) : PoolSt :=
  let x := pool s p
  let n := 8 * (fclk s + 1 - x.refilled)
  let x := { x with refilled := fclk s + 1 }
  if x.cache.length < 64 then takeFromList s p (min n (64 - x.cache.length)) x
  else if 1016 < x.cache.length then
    let k := min n (x.cache.length - 1016)
    { x with cache := x.cache.take (x.cache.length - k), list := x.cache.drop (x.cache.length - k) ++ x.list }
  else x

/-- The link word of a free buffer (Table 10-3): MARK, SELF and NEXT. -/
def linkWord (p i next : Nat) : Nat := 0x5A * 2 ^ 56 + mkHandle p i * 2 ^ 24 + next

/-- R373: a link word found in the buffer with index `i` of pool `p` keeps the list. -/
def linkOk (s : State) (p i w : Nat) : Bool :=
  fld w 56 8 = 0x5A && fld w 24 24 = mkHandle p i && (fld w 0 24 = 0xFFFFFF || handleOk s (fld w 0 24))

/-- The list after a link has been followed to the word `w` of its first buffer: it goes on where NEXT leads. None where the
link is broken, here or at the next buffer, which does not name itself. -/
def followLink (s : State) (p w : Nat) (x : PoolSt) : Option PoolSt :=
  match x.list with
  | [] => some x
  | i :: rest =>
    let next := fld w 0 24
    if !linkOk s p i w then none
    else if next = 0xFFFFFF then some { x with list := [i], fresh := poolBuffers s p }
    else if next = (rest.head?.map (mkHandle p)).getD next then some x
    else if hPool next = p && rest.contains (hIndex next) then
      some { x with list := i :: rest.dropWhile (fun j => j ≠ hIndex next) }
    else none

/-- R373: rebuild a pool's list from the header area: every free buffer that is not in the cache, in ascending order. -/
def rebuildList (s : State) (p : Nat) : PoolSt :=
  let x := poolNow s p
  let free := (List.range x.fresh).filter (fun i =>
    !hdrHeld (header s (mkHandle p i)) && !x.cache.contains i && !x.quarantined.contains i)
  { x with list := free }

/-- A break of a pool's list (R373): counted, raised, and rebuilt at 64 headers per FCLK; requests for the pool wait meanwhile. -/
def breakList (p : Nat) (s : State) : State :=
  let s := setPool p { rebuildList s p with rebuilt := fclk s + ceilDiv (poolBuffers s p) 64 } s
  raise evFreeListBroken p (count (cBuf p 0x48) s)

/-- R370, R674: when the block leaves halt, each pool's lists keep the indices of its new region. -/
def rebuildPools (s : State) : State :=
  forEach (List.range 8) (fun t p =>
    let x := pool t p
    let n := poolBuffers t p
    setPool p { x with cache := x.cache.filter (· < n), list := x.list.filter (· < n), fresh := min x.fresh n,
                       quarantined := x.quarantined.filter (· < n) } t) s

/-- A buffer goes back: into the cache, or to the head of the list when the cache holds 1,024 (R374). -/
def returnBuffer (h : Nat) (s : State) : State :=
  let p := hPool h
  let x := poolNow s p
  setPool p (if x.cache.length < 1024 then { x with cache := x.cache ++ [hIndex h] }
             else { x with list := hIndex h :: x.list }) s

/-- Take the next free buffer of a pool for an owner with REFS 1 (R380); `position` is the rotation position, which becomes
LAST_WINNER of a shared grant (R379). None where the pool has no free buffer. -/
def takeBuffer (p owner position : Nat) (s : State) : Option (Nat × State) :=
  let x := poolNow s p
  match x.cache with
  | [] => none
  | i :: rest =>
    let within := withinMin s owner p
    let x := { x with cache := rest, lastWinner := if within then x.lastWinner else position }
    let h := mkHandle p i
    let t := setHeld owner p (heldBy s owner p + 1) (setHeader h (mkHeader owner 1) (setPool p x s))
    let t := useCycle (grantKey p) (fclk t) (count (cBuf p 0x00) t)
    some (h, when within (count (cBuf p 0x08)) t)

/-- A pool grants (R373, R380, R446): the block is in service, no rebuild of the list runs, and fewer than 64 buffers have been
granted in this FCLK cycle. -/
def grantsNow (s : State) (p : Nat) : Bool :=
  inService s 35 && (pool s p).rebuilt ≤ fclk s && inCycle s (grantKey p) (fclk s) < 64

/-! ### Releasing -/

/-- FREE_FAULT_LAST of a fault. -/
def freeFault (kind owner h : Nat) : Nat := kind * 2 ^ 56 + owner % 2 ^ 13 * 2 ^ 32 + h % 2 ^ 24

/-- R371: a handle that names no buffer. The count goes to the row of the pool the handle names. -/
def badHandle (h owner : Nat) (s : State) : State :=
  raiseOnce evBadHandle 0 h (wr oFreeFaultLast (freeFault 3 owner h) (count (cBuf (hPool h) 0x38) s))

/-- A header that cannot be read (R387): the buffer is held by no owner, and is never granted again before reset. -/
def quarantine (h : Nat) (s : State) : State :=
  let p := hPool h
  let w := header s h
  let s := when (hdrHeld w) (fun t => setHeader h 0 (setHeld (hdrOwner w) p (heldBy t (hdrOwner w) p - 1) t)) s
  let x := pool s p
  let s := setPool p { x with cache := x.cache.filter (· ≠ hIndex h), list := x.list.filter (· ≠ hIndex h),
                              quarantined := x.quarantined ++ [hIndex h] } s
  raise evPktEcc p (count (cBuf p 0x60) s)

/-- A word of the packet store that is corrected as it is read (R387). -/
def correctedWord (p : Nat) (s : State) : State := raise evPktEcc p (count (cBuf p 0x50) s)

/-- R384: one reference of a buffer is given up, once its header has been read. -/
def giveUp (h owner : Nat) (s : State) : State :=
  if !handleOk s h then badHandle h owner s
  else
    let w := header s h
    let p := hPool h
    if !hdrHeld w then
      raiseOnce evDoubleFree 0 h (wr oFreeFaultLast (freeFault 1 owner h) (count (cBuf p 0x28) s))
    else if hdrOwner w ≠ owner then
      raiseOnce evForeignFree 0 h (wr oFreeFaultLast (freeFault 2 owner h) (count (cBuf p 0x30) s))
    else if 1 < hdrRefs w then setHeader h (mkHeader owner (hdrRefs w - 1)) s
    else count (cBuf p 0x20) (returnBuffer h (setHeld owner p (heldBy s owner p - 1) (setHeader h 0 s)))

/-- R384, R387: a release is applied. -/
def applyRelease (r : Release) (s : State) : State :=
  if !handleOk s r.handle then badHandle r.handle r.owner s
  else
    match r.ecc with
    | .clean => giveUp r.handle r.owner s
    | .corrected => giveUp r.handle r.owner (correctedWord (hPool r.handle) s)
    | .uncorrectable => quarantine r.handle s

/-- The releases of an FCLK cycle in the order of R385: by rotation position, and within one in order of arrival. -/
def releaseOrder (l : List Release) : List Release := (List.range 22).flatMap (fun k => l.filter (fun r => r.position = k))

/-- An FCLK cycle ends: its releases are applied, each to the state that the ones before it left (R385). -/
def applyReleases (s : State) : State :=
  let l := releaseOrder s.buf.releases
  forEach l (fun t r => applyRelease r t) { s with buf := { s.buf with releases := [] } }

/-- A release reaches the Buffer Pool Manager. -/
def sendRelease (r : Release) (s : State) : State := { s with buf := { s.buf with releases := s.buf.releases ++ [r] } }

/-- Rotation position of an internal requester (Table 10-4). -/
def requesterPos (owner : Nat) : Nat := 16 + (owner - 4128)

/-- An internal requester gives up a buffer of its own. -/
def releaseBuffer (h owner : Nat) (s : State) : State := sendRelease { handle := h, owner := owner, position := requesterPos owner } s

/-- R395: raise REFS of a held buffer by `n`. -/
def raiseRefs (h n : Nat) (s : State) : State :=
  let w := header s h
  if hdrHeld w then setHeader h (mkHeader (hdrOwner w) (hdrRefs w + n)) s else s

/-- R376: move the charge of a held buffer with REFS 1 to another owner. -/
def moveCharge (h owner : Nat) (s : State) : State :=
  let w := header s h
  let p := hPool h
  if hdrHeld w && hdrRefs w = 1 then
    let s := setHeld (hdrOwner w) p (heldBy s (hdrOwner w) p - 1) s
    setHeader h (mkHeader owner 1) (setHeld owner p (heldBy s owner p + 1) s)
  else s

/-- The rotation position from which a frame's reference is released (R675): its egress pipeline once it has left stage one, the
internal requester that took it over, else its ingress pipeline. R675 names no position for a multicast FIFO, which serves every
egress pipeline: the model takes the ingress pipeline's (log entry 133). -/
def releasePos (f : Frame) : Nat :=
  match f.phase with
  | .internal => if f.outPort = 515 then 20 else if f.outPort = 514 then 18 else 17
  | .middle | .replicating | .queued | .sending => if f.outPort < 512 then f.outPort / 32 else f.pipe
  | _ => f.pipe

/-- A frame's reference goes, from a rotation position: its buffer is released under the owner tag of its descriptor. -/
def releaseFrameAt (position : Nat) (f : Frame) (s : State) : State :=
  match f.handle with
  | some h => sendRelease { handle := h, owner := f.owner, position := position } s
  | none => s

/-- A frame's reference goes. -/
def releaseFrame (f : Frame) (s : State) : State := releaseFrameAt (releasePos f) f s

/-! ### Grants to frames -/

/-- The pool a waiting frame asks for. -/
def framePool (f : Frame) : Nat := poolFor (frameLen f)

/-- The distance of a rotation position behind LAST_WINNER, counting from the one after it (R379); 22 positions. -/
def rotation (last pos : Nat) : Nat := (pos + 21 - last % 22) % 22

/-- A request for a buffer of a pool (R379): a frame's, or an internal requester's. -/
inductive Request where
  | frame (fid : Nat) (f : Frame)
  | internal (a : Ask)
deriving DecidableEq, Repr

/-- Owner that a request is charged to. -/
def Request.owner : Request → Nat
  | .frame _ f => f.owner
  | .internal a => a.owner

/-- Rotation position of a request. -/
def Request.position : Request → Nat
  | .frame _ f => f.pipe
  | .internal a => requesterPos a.owner

/-- A frame's request is express. -/
def Request.express : Request → Bool
  | .frame _ f => f.express
  | .internal _ => false

/-- CCLK of a request. -/
def Request.since : Request → Nat
  | .frame _ f => f.waiting.getD 0
  | .internal a => a.value

/-- The order of R379 as one number: rank, express, rotation, age. Smaller goes first. -/
def grantOrder (s : State) (p : Nat) (r : Request) : Nat × Nat × Nat × Nat :=
  (b2n (!withinMin s r.owner p), b2n (!r.express), rotation (pool s p).lastWinner r.position, r.since)

/-- Lexicographic order of `grantOrder`. -/
def orderLt (a b : Nat × Nat × Nat × Nat) : Bool :=
  a.1 < b.1 || (a.1 = b.1 && (a.2.1 < b.2.1 || (a.2.1 = b.2.1 && (a.2.2.1 < b.2.2.1 ||
    (a.2.2.1 = b.2.2.1 && a.2.2.2 < b.2.2.2)))))

/-- The requests for a buffer of a pool: the frames' that wait, oldest first, then the internal requesters'. -/
def requests (s : State) (p : Nat) : List Request :=
  s.buf.waiters.filterMap (fun fid =>
    match frame s fid with
    | some f => if framePool f = p then some (.frame fid f) else none
    | none => none) ++ (s.buf.asking.filter (fun a => a.pool = p)).map .internal

/-- The requests that could be granted one now. -/
def candidates (s : State) (p : Nat) : List Request := (requests s p).filter (fun r => grantable s r.owner p)

/-- The candidate that R379 puts first. -/
def winner (s : State) (p : Nat) : Option Request :=
  (candidates s p).foldl (fun best c =>
    match best with
    | none => some c
    | some b => if orderLt (grantOrder s p c) (grantOrder s p b) then some c else some b) none

/-- The frame receives the buffer: its body leaves staging. -/
def deliverGrant (fid h : Nat) (s : State) : State :=
  let s := { s with buf := { s.buf with waiters := s.buf.waiters.filter (· != fid) } }
  match frame s fid with
  | some f => occur f.pipe 0x40 1 (occOf fid f) (putFrame fid { f with handle := some h, waiting := none } s)
  | none => s

/-- An internal request waits no longer. -/
def unask (owner p : Nat) (s : State) : State :=
  { s with buf := { s.buf with asking := s.buf.asking.filter (fun a => !(a.owner = owner && a.pool = p)) } }

/-- A granted buffer is delivered to its requester: a frame, or an internal requester, which takes it with its next action. -/
def deliver (r : Request) (h : Nat) (s : State) : State :=
  match r with
  | .frame fid _ => deliverGrant fid h s
  | .internal a =>
    let s := unask a.owner a.pool s
    { s with buf := { s.buf with granted := s.buf.granted ++ [⟨a.owner, a.pool, h⟩] } }

/-- The next buffer's header cannot be read (R387): it is quarantined. -/
def quarantineNext (p : Nat) (s : State) : State :=
  let x := poolNow s p
  match x.cache with
  | [] => s
  | i :: _ => quarantine (mkHandle p i) (setPool p x s)

/-- The request that R379 puts first is granted (R378 to R380). -/
def grantWinner (p : Nat) (s : State) : State :=
  match winner s p with
  | none => s
  | some r =>
    match takeBuffer p r.owner r.position s with
    | none => s
    | some (h, t) => deliver r h t

/-- The header of the next buffer is read, and one request is granted. -/
def grantRead (p : Nat) (hdr : Ecc) (s : State) : State :=
  match hdr with
  | .clean => grantWinner p s
  | .corrected => grantWinner p (correctedWord p s)
  | .uncorrectable => quarantineNext p s

/-- One grant of a pool (R373, R378 to R380, R387). -/
def grantOne (p : Nat) (hdr link : Ecc) (word : Option Nat) (s : State) : State :=
  if !grantsNow s p then s
  else if link = .uncorrectable then raise evPktEcc p (breakList p s)
  else
    let s := when (link = .corrected) (correctedWord p) s
    match word with
    | none => grantRead p hdr s
    | some w =>
      match followLink s p w (poolNow s p) with
      | none => breakList p s
      | some x => grantRead p hdr (setPool p x s)

/-- R370, R371: a request that names a handle outside its pool, or pool 7 for a frame, is a bad handle. -/
def strayRequest (r : Option (Nat × Nat)) (s : State) : State :=
  match r with
  | some (h, owner) => if !handleOk s h || (hPool h = 7 && owner < 4128) then badHandle h owner s else s
  | none => s

/-- BUFFER_GRANT (R380): one request is granted. -/
def execBufferGrant (p : Nat) (hdr link : Ecc) (word : Option Nat) (stray : Option (Nat × Nat)) (s : State) :
    Host.Outcome State Fault Refusal :=
  onUnits (isPool p) (grantOne p hdr link word (strayRequest stray s))

/-- The buffer an internal requester has been granted and not yet taken. -/
def grantedTo (s : State) (owner p : Nat) : Option Nat :=
  (s.buf.granted.find? (fun a => a.owner = owner && a.pool = p)).map (·.value)

/-- It takes that buffer. -/
def takeGranted (owner p : Nat) (s : State) : State :=
  { s with buf := { s.buf with granted := s.buf.granted.eraseP (fun a => a.owner = owner && a.pool = p) } }

/-- An internal request joins those that wait (R383). -/
def ask (owner p : Nat) (s : State) : State :=
  if s.buf.asking.any (fun a => a.owner = owner && a.pool = p) then s
  else { s with buf := { s.buf with asking := s.buf.asking ++ [⟨owner, p, s.clk.cclk⟩] } }

/-- An internal requester's request (R379, R383): a buffer granted before is taken; otherwise the request is granted at once
where the arbitration puts it first, and waits where it does not. -/
def grantInternal (owner p : Nat) (s : State) : Option Nat × State :=
  match grantedTo s owner p with
  | some h => (some h, takeGranted owner p s)
  | none =>
    let s := ask owner p s
    if grantsNow s p && (winner s p).map (·.position) = some (requesterPos owner) then
      match takeBuffer p owner (requesterPos owner) s with
      | some (h, t) => (some h, unask owner p t)
      | none => (none, s)
    else (none, s)

/-- BUFFER_RELEASE (R384, R385): the release is applied at the end of its FCLK cycle. -/
def execBufferRelease (h owner position : Nat) (hdr : Ecc) (s : State) : Host.Outcome State Fault Refusal :=
  onUnits (isRotation position) (sendRelease ⟨h, owner, position, hdr⟩ s)

/-- A request of the FCLK cycle that ends is still not granted (Table 10-8: WAITS, POOL_WAITS). -/
def countWait (s : State) (p : Nat) (r : Request) : State :=
  if r.since / 2 ≠ fclk s then s
  else
    let s := count (cBuf p 0x10) s
    match r with
    | .frame _ f => count (cPortBuf f.port 0x40) s
    | .internal _ => s

/-- Requests of an FCLK cycle that ends ungranted are counted. -/
def countWaits (s : State) : State :=
  forEach (List.range 8) (fun t p => forEach (requests t p) (fun u r => countWait u p r) t) s

end Sys2Proof.Machine
end

