-- ==== Sys2Proof/Machine/HostOps.lean ====
section
/-! DEFINITION. Work queues: rings, completions, signals, holding, and the end of a command (chapter 13). -/

namespace Sys2Proof.Machine
open Sys2Proof

/-- A submission queue, none where it is absent. -/
def sq (s : State) (q : Nat) : Option Sq := tabFind s.hst.sqs q

/-- A completion queue, none where it is absent. -/
def cq (s : State) (q : Nat) : Option Cq := tabFind s.hst.cqs q

/-- Put a submission queue. -/
def setSq (q : Nat) (x : Sq) (s : State) : State := { s with hst := { s.hst with sqs := tabInsert s.hst.sqs q x } }

/-- Put a completion queue. -/
def setCq (q : Nat) (x : Cq) (s : State) : State := { s with hst := { s.hst with cqs := tabInsert s.hst.cqs q x } }

/-- R454: a ring's address and size. -/
def ringOk (ring size : Nat) : Bool :=
  ring % 4096 = 0 && ring < 2 ^ 64 && 4096 ≤ size && size ≤ 4194304 && (List.range 23).any (fun k => size = 2 ^ k)

/-- R456: an index block's address. -/
def indexOk (addr : Nat) : Bool := addr % 16 = 0 && addr < 2 ^ 64

/-- R455: an index block's TAIL against its HEAD, over `units` units, is valid. -/
def indexValid (head tail units : Nat) : Bool := (tail + 2 ^ 32 - head % 2 ^ 32) % 2 ^ 32 ≤ units

/-- Units from `a` up to `b`. -/
def unitsTo (a b : Nat) : Nat := (b + 2 ^ 32 - a % 2 ^ 32) % 2 ^ 32

/-- A completion header (Table 13-7). -/
def completionHeader (kind status len area tag queue skipped result : Nat) : Bytes :=
  leBytes 1 kind ++ leBytes 1 status ++ leBytes 1 len ++ leBytes 1 area ++ leBytes 4 tag ++ leBytes 2 queue ++
    leBytes 2 skipped ++ leBytes 4 result

/-- Units of an entry. -/
def entryUnits (b : Bytes) : Nat := ceilDiv b.length 32

/-- Units of completions held on die. -/
def heldUnits (x : Cq) : Nat := x.held.foldl (fun a e => a + entryUnits e.bytes) 0

/-- R471, R438: the queue has room for `n` more units beyond the completions reserved and held, 31 units spare for a pad. -/
def roomFor (x : Cq) (n : Nat) : Bool :=
  x.state = 1 && unitsTo x.head x.tail + x.reserved + heldUnits x + n + 31 ≤ x.units

/-- Entries held on die in all queues. -/
def heldEntries (s : State) : Nat := s.hst.cqs.foldl (fun a e => a + e.2.held.length) 0

/-- A completion queue that can take a notice or an export of `n` units now (R438, R492). -/
def cqTakes (s : State) (q n : Nat) : Bool :=
  match cq s q with
  | some x => roomFor x n && (busAwake s || heldEntries s < rd s oHoldLimit)
  | none => false

/-- Write one entry at the queue's TAIL, a pad first where it would cross the end of the ring (R458). -/
def writeEntry (q : Nat) (b : Bytes) (s : State) : State :=
  match cq s q with
  | none => s
  | some x =>
    let n := entryUnits b
    let at_ := x.tail % x.units
    let pad := if at_ + n ≤ x.units then 0 else x.units - at_
    let s := when (pad ≠ 0) (hostWrite (x.ring + 32 * at_)
      (completionHeader 5 0 pad 0 0 0xFFFF 0 0 ++ zeros (32 * pad - 16))) (flushWrites s)
    let t := (x.tail + pad) % 2 ^ 32
    setCq q { x with tail := (t + n) % 2 ^ 32 } (hostWrite (x.ring + 32 * (t % x.units)) b s)

/-- Give back the pool 4 buffer of a command or a held entry. -/
def releaseStaging (h : Option Nat) (s : State) : State :=
  match h with
  | some h => releaseBuffer h 4129 s
  | none => s

/-- Write every held entry of a queue, oldest first. -/
def writeHeld (q : Nat) (s : State) : State :=
  match cq s q with
  | none => s
  | some x =>
    let s := setCq q { x with held := [] } s
    forEach x.held (fun t e => releaseStaging e.handle (writeEntry q e.bytes t)) s

/-- Write a queue's TAIL into its index block (R457). -/
def writeTail (q : Nat) (s : State) : State :=
  match cq s q with
  | none => s
  | some x => hostWrite (x.index + 8) (leBytes 4 x.tail) s

/-- Completion queues that hold entries. -/
def holders (s : State) : List Nat := (s.hst.cqs.filter (fun e => e.2.held ≠ [] && e.2.state = 1)).map (·.1)

/-- R491: the link leaves L1: every entry held is written, then each TAIL concerned; no message for a masked vector. -/
def leaveL1 (s : State) : State :=
  let s := { s with hst := { s.hst with link := 0 } }
  if !busAwake s then s
  else
    let qs := holders s
    forEach qs (fun t q => writeTail q t) (forEach qs (fun t q => writeHeld q t) s)

/-- R491: entries still held once the link has left L1 are written. -/
def flushHeld (s : State) : State := if s.hst.link = 0 && holders s ≠ [] then leaveL1 s else s

/-- Send a queue's vector for a signal: once per MCLK cycle (R486), or its pending bit (R487). -/
def sendSignalVector (v : Nat) (s : State) : State :=
  if vectorMasked s v then pendVector v s
  else if tabGet 0 s.hst.sentAt v = mclk s + 1 then s
  else sendTlp (.msix v) { s with hst := { s.hst with sentAt := tabPut 0 s.hst.sentAt v (mclk s + 1) } }

/-- A signal of a running queue (R486, R487, R491, R492). -/
def signalCq (q : Nat) (ceiling : Bool) (s : State) : State :=
  match cq s q with
  | none => s
  | some x =>
    let s := count (cHost 0x40) s
    let s := when ceiling (count (cHost 0x48)) s
    let masked := vectorMasked s x.vector
    if !busAwake s then
      let s := setCq q { x with pending := 0, due := true } s
      if masked then pendVector x.vector s
      else if s.hst.d3hot && s.hst.pmeEn then
        let s := { s with hst := { s.hst with pmeStatus := true } }
        sendTlp .pme (count (cHost 0x50) s)
      else s
    else if masked && s.hst.link ≠ 0 && x.hold && x.held ≠ [] then
      pendVector x.vector (setCq q { x with pending := 0 } s)
    else
      let s := setCq q { x with pending := 0 } s
      sendSignalVector x.vector (writeTail q (writeHeld q s))

/-- A signal falls due by the count of pending completions (R486). -/
def signalByCount (q : Nat) (s : State) : State :=
  match cq s q with
  | some x => if x.state = 1 && x.modCount ≤ x.pending then signalCq q false s else s
  | none => s

/-- Post one entry to a queue: written behind what is still held, or held by R485, R490 or R492; then the count of pending completions is looked at.
`h` is the pool 4 buffer that would hold it. An entry for an absent queue is lost. -/
def postEntry (q : Nat) (b : Bytes) (counts : Bool) (h : Option Nat) (s : State) : State :=
  match cq s q with
  | none => releaseStaging h s
  | some x =>
    let first := x.pending = 0
    let x := if counts then { x with pending := x.pending + 1, oldest := if first then s.clk.cclk else x.oldest } else x
    let hold := { x with held := x.held ++ [⟨b, counts, h⟩] }
    if x.state ≠ 1 then setCq q hold s
    else if !busAwake s then signalByCount q (setCq q hold s)
    else if s.hst.link ≠ 0 && x.hold then
      if x.held.length < 64 then signalByCount q (setCq q hold s)
      else signalByCount q (leaveL1 (setCq q hold s))
    else signalByCount q (releaseStaging h (writeEntry q b (when (x.held ≠ []) (writeHeld q) (setCq q x s))))

/-- The command in progress with a queue and TAG, the oldest. -/
def cmdOf (s : State) (q tag : Nat) : Option CmdSt := s.hst.cmds.find? (fun c => c.sq = q && c.tag = tag)

/-- Remove the oldest command in progress with a queue and TAG. -/
def dropCmd (q tag : Nat) : List CmdSt → List CmdSt
  | [] => []
  | c :: t => if c.sq = q && c.tag = tag then t else c :: dropCmd q tag t

/-- R465: a queue being deleted has no command left: its locks and its push window go, and the deletion is due. -/
def commandsLeft (s : State) (q : Nat) : Bool := s.hst.cmds.any (fun c => c.sq = q)

/-- Units reserved for a completion go. -/
def unreserve (q n : Nat) (s : State) : State :=
  match cq s q with
  | some x => setCq q { x with reserved := x.reserved - n } s
  | none => s

/-- R220: the locks a queue holds end with it. -/
def releaseLocks (q : Nat) (s : State) : State :=
  { s with lt := { s.lt with locks := s.lt.locks.filter (fun l => !(l.hold && l.sq = q)),
                             expired := s.lt.expired.filter (fun l => l.sq ≠ q) } }

/-- A submission queue leaves (R465): posted buffers, locks and push window go with it. -/
def removeSq (q : Nat) (s : State) : State :=
  let s := match sq s q with
    | some x => unreserve x.cq (x.posted.foldl (fun a (e : Posted) => a + e.units) 0) s
    | none => s
  releaseLocks q { s with hst := { s.hst with sqs := tabErase s.hst.sqs q } }

/-- The completion of a command as its bytes: 32 bytes, or the header with a DICT response. -/
def completionBytes (c : SqCmd) (status area skipped result : Nat) (extra : Bytes) : Bytes :=
  let units := ceilDiv (16 + extra.length) 32
  completionHeader 1 status units (if 0x80 ≤ status && status ≤ 0xFE then area else 0) c.tag c.sq skipped result ++ extra ++
    zeros (32 * units - 16 - extra.length)

/-- Counter of a fault of Table 13-8: CHAIN_TOO_LONG, HOST_MEM_FAULTS or MALFORMED (Table 13-10). -/
def hostFaultCounter (status : Nat) : Nat := cHost (if status = 0x80 then 0x28 else if status = 0x81 then 0x30 else 0x20)

/-- End a command: its place, its buffer and its reservation go, and its completion is posted unless R478 keeps it back.
A command that no entry announced (one that stands alone in the queue of commands) reserves nothing. -/
def endCommand (c : SqCmd) (status area skipped result : Nat) (extra : Bytes) (s : State) : State :=
  match sq s c.sq with
  | none => s
  | some x =>
    let st := cmdOf s c.sq c.tag
    let h := st.bind (·.handle)
    let s := { s with hst := { s.hst with cmds := dropCmd c.sq c.tag s.hst.cmds } }
    let s := match st with
      | some st => unreserve x.cq st.units s
      | none => s
    if c.quiet && status = 0 then releaseStaging h s
    else
      let s := when (status ≠ 0) (count (cSq c.sq 0x08)) s
      let s := when (area = 0x60 && 0x80 ≤ status && status ≤ 0x82) (count (hostFaultCounter status)) s
      postEntry x.cq (completionBytes c status area skipped result extra) true h s

/-- R465: the deletion of a queue whose last command has ended is completed. -/
def finishDeletion (q : Nat) (s : State) : State :=
  match sq s q with
  | some x =>
    match x.deleting with
    | some d => if commandsLeft s q then s else endCommand d 0 0 0 0 [] (removeSq q s)
    | none => s
  | none => s

/-- Complete a command with a status of an area and a result, then what waits for it. -/
def complete (c : SqCmd) (status area result : Nat) (s : State) : State :=
  finishDeletion c.sq (endCommand c status area 0 result [] s)

/-- Complete a command with success. -/
def completeOk (c : SqCmd) (s : State) : State := complete c 0 0 0 s

/-- The number of a queue that stands for the partner's commands on this unit (R545), and for those of queues that are gone. -/
def partnerSq : Nat := 65536

/-- LEVEL of a queue; an absent queue has none above Observer. -/
def sqLevel (s : State) (q : Nat) : Nat := match sq s q with
  | some x => x.level
  | none => 0

/-- R461, R476, R480: a command of SQ 0 or of a receive queue that it does not serve completes with "wrong queue", and one whose
queue's level is below the lowest with "access denied". A command of an absent queue does not run. -/
def atLevel (c : SqCmd) (lowest : Nat) (f : State → State) (s : State) : State :=
  match sq s c.sq with
  | none => s
  | some x =>
    if c.sq = 0 || x.kind = 1 then complete c 0x89 0x60 0 s
    else if x.level < lowest then complete c 0x07 0 0 s else f s

/-- Data moved across the segments of a chain, in link order (R475). -/
def writeSegs : List (Nat × Nat) → Bytes → State → State
  | [], _, s => s
  | (a, n) :: t, b, s => if b = [] then s else writeSegs t (b.drop n) (hostWrite a (b.take n) s)

/-- Where a result is written to host memory: the command's DATA address, or its chain. -/
def writeData (c : SqCmd) (b : Bytes) (s : State) : State :=
  match c.links with
  | .segs l => writeSegs l b s
  | _ => if c.addr = 0 then s else hostWrite c.addr b s

/-- The segments of a command's chain hold `n` bytes (Table 13-8). -/
def linksHold (c : SqCmd) (n : Nat) : Bool :=
  match c.links with
  | .segs l => n ≤ (l.map (·.2)).sum
  | _ => true

/-- A command that writes its result to host memory ends: with a chain too short for it, as a malformed entry (Table 13-8). -/
def finishWrite (c : SqCmd) (b : Bytes) (result : Nat) (s : State) : State :=
  if linksHold c b.length then complete c 0 0 result (writeData c b s) else complete c 0x82 0x60 0 s

end Sys2Proof.Machine
end

