-- ==== Sys2Proof/Machine/Frames.lean ====
section
/-! DEFINITION. How a frame or copy leaves the device, and the undertow, which looks for buffers no frame names. -/

namespace Sys2Proof.Machine
open Sys2Proof

/-- The queues of a table without one number; a queue that becomes empty leaves the table. -/
def unlist (fid : Nat) (t : Tab (List Nat)) : Tab (List Nat) :=
  (t.map (fun e => (e.1, e.2.filter (· != fid)))).filter (fun e => e.2 ≠ [])

/-- A pipeline without a frame. -/
def unpipe (fid : Nat) (p : PipeSt) : PipeSt :=
  { p with stage := p.stage.filter (· != fid), inject := p.inject.filter (· != fid), recirc := p.recirc.filter (· != fid),
           scans := p.scans.filter (· != fid) }

/-- Take a frame out of every queue that names it. -/
def unlink (fid : Nat) (s : State) : State :=
  { s with
    pip := { s.pip with pipes := (s.pip.pipes.map (fun e => (e.1, unpipe fid e.2))).filter (fun e => e.2 ≠ {}) }
    buf := { s.buf with waiters := s.buf.waiters.filter (· != fid) }
    fab := { s.fab with stage1 := unlist fid s.fab.stage1, fifo := unlist fid s.fab.fifo, mc := unlist fid s.fab.mc,
                        repl := unlist fid s.fab.repl, internal := unlist fid s.fab.internal }
    tm := { s.tm with queues := unlist fid s.tm.queues, selected := s.tm.selected.filter (fun e => e.2 ≠ fid),
                      waited := s.tm.waited.filter (· != fid) }
    cap := { s.cap with input := s.cap.input.filter (· != fid) } }

/-- An INJECT command completes when its frame is accepted as a head or discarded (R482). -/
def finishInject (f : Frame) (s : State) : State :=
  match f.inject with
  | some c => completeOk c s
  | none => s

/-- The rotation positions from which the references of a frame or copy go: one for each pipeline that a multicast head still
waits for (R395), else the frame's own. -/
def owedFrom (f : Frame) : List Nat := if f.phase = .middle && f.todo ≠ [] then f.todo else [releasePos f]

/-- Every reference of a frame or copy goes. -/
def releaseOwed (f : Frame) (s : State) : State := forEach (owedFrom f) (fun t j => releaseFrameAt j f t) s

/-- A frame or copy leaves the device, transmitted, delivered or discarded: its reference goes with it. -/
def leave (fid : Nat) (s : State) : State :=
  match frame s fid with
  | none => s
  | some f => finishInject f (releaseOwed f (dropFrame fid (unlink fid (sampleLeave fid f 0 true s))))

/-- A multicast copy that fails is counted in its port's MC_FAIL row (R397); other copies, and a descriptor whose copies are not
made yet, are not. -/
def mcFail (f : Frame) (reason : Nat) (s : State) : State :=
  when (f.kind = .multicast && f.phase ≠ .replicating) (count (cPortBuf f.outPort (8 * reason))) s

/-- A copy is discarded for a reason of Table 10-6. -/
def discardCopy (fid reason : Nat) (s : State) : State :=
  match frame s fid with
  | none => s
  | some f => leave fid (mcFail f reason s)

/-- A frame or copy whose transmission is under way ends with an error code group (R154, R387). -/
def abortSending (p : Nat) (s : State) : State :=
  match (port s p).sending with
  | some _ => emit (.laneAbort p) (setPort p { port s p with sending := none } s)
  | none => s

/-- A frame, not a copy, is discarded by its pipeline: its first head slot is wasted (Table 16-4); the slots of later
passes have been counted as RECIRC. -/
def wasteSlot (fid : Nat) (f : Frame) (s : State) : State :=
  if f.kind = .own then slotCategory f.pipe 1 (occOf fid f) s else s

/-- A frame is discarded by its pipeline. -/
def discardFrame (fid : Nat) (s : State) : State :=
  match frame s fid with
  | some f => leave fid (wasteSlot fid f s)
  | none => s

/-- POOL_STARVED (R381): a frame that has waited its hold window is discarded. -/
def starve (fid : Nat) (s : State) : State :=
  match frame s fid with
  | some f =>
    if f.waiting.isSome && f.handle = none then
      let p := framePool f
      let s := count (cBuf p 0x18) (count (cPortBuf f.port 0x38) s)
      discardFrame fid (raiseOnce evPoolStarved p p s)
    else s
  | none => s

/-- POOL_STARVED (R381). -/
def execPoolStarved (fid : Nat) (s : State) : Host.Outcome State Fault Refusal := .next (starve fid s)

/-! ### The undertow (R386) -/

/-- Every handle that a frame, copy, command, held entry, deferred operation, internal requester or release of the device
names. -/
def namedHandles (s : State) : List Nat :=
  s.buf.granted.map (·.value) ++ s.buf.releases.map (·.handle) ++
  s.pip.frames.filterMap (·.2.handle) ++ s.hst.cmds.filterMap (·.handle) ++
    (s.hst.cqs.map (fun e => e.2.held.filterMap (·.handle))).flatten ++
    (s.dw.onDie ++ s.dw.buckets ++ s.dw.far ++ s.dw.wayHeld ++ s.dw.waiting).filterMap (·.handle)

/-- Reclaim a buffer that nothing names, as if its last reference were released. -/
def reclaim (h : Nat) (s : State) : State :=
  let s := count (cBuf (hPool h) 0x40) s
  let s := wr oLeakLast h (raiseOnce evBufferLeak 0 h s)
  giveUp h (hdrOwner (header s h)) (setHeader h (mkHeader (hdrOwner (header s h)) 1) s)

/-- Buffers of a pool that its cache and list hold. -/
def listedFree (s : State) (p : Nat) : Nat :=
  let x := poolNow s p
  x.cache.length + x.list.length + (poolBuffers s p - x.fresh)

/-- One undertow pass. -/
def undertow (s : State) : State :=
  let named := namedHandles s
  let leaked := (s.buf.headers.map (·.1)).filter (fun h => !named.contains h)
  let s := forEach leaked (fun t h => reclaim h t) s
  forEach (List.range 8) (fun t p => if listedFree t p = freeIn t p then t else breakList p t) s

/-- UNDERTOW_PASS (R386); UNDERTOW_PERIOD 0 disables it. -/
def execUndertowPass (s : State) : Host.Outcome State Fault Refusal :=
  .next (if rd s oUndertowPeriod = 0 then s else undertow s)

end Sys2Proof.Machine
end

