-- ==== Sys2Proof/Machine/PairLink.lean ====
section
/-! DEFINITION. What every block needs of the Pair Unit (chapter 15): the role, the claim it drives, the messages to the
partner, and the later commit of a command in a pair. -/

namespace Sys2Proof.Machine
open Sys2Proof

/-- PAIR_ROLE (Table 15-1): 0 alone, 1 unsynced, 2 joining, 3 standby, 4 active, 5 failed. -/
def role (s : State) : Nat := rd s oPairRole

/-- Set the Pair Unit. -/
def setPair (p : Pair) (s : State) : State := { s with pair := p }

/-- CLAIM_VLD and CLAIM_OUT of a role (Table 15-1, R530, R534, R536, R538). -/
def claimOf (s : State) : Bool × Nat :=
  let c := rd s oPairClaim
  if s.pair.yielding then (true, 0) else
  match role s with
  | 0 => (false, 0)
  | 1 => (true, if s.pair.claiming then c else 0)
  | 3 => (true, c)
  | 4 => (true, 0x80 + c)
  | _ => (true, 0)

/-- Drive the claim of the role. -/
def driveClaim (s : State) : State :=
  let (v, b) := claimOf s
  if s.pair.claimVld = v && s.pair.claimOut = b then s
  else emit (.claim b) (setPair { s.pair with claimVld := v, claimOut := b } s)

/-- Take a role (R528); a claim of R536 ends with it. -/
def setRole (r : Nat) (s : State) : State :=
  driveClaim (setPair { s.pair with claiming := false } (wr oPairRole r s))

/-- A joining unit leaves its join: role 1; the halt of its blocks ends at the next tick (R560). -/
def leaveJoin (s : State) : State :=
  setPair { s.pair with join := if s.pair.join = 0 then 0 else 7, bulkDone := false, mirrored := [] } s

/-- A join is refused with a code (R560). -/
def refuseJoin (code : Nat) (s : State) : State :=
  setRole 1 (leaveJoin (raise evJoinRefused code (wr oJoinResult code s)))

/-- R541: the partner is lost: raised and counted; an active stops forwarding, a standby or joining unit takes role 1. -/
def pairLost (s : State) : State :=
  let s := raise evPairLost 0 (count (cPair 0x40) s)
  let s := setPair { s.pair with partnerUp := false, partnerRole := 0, replay := [], waiting := [] } s
  if role s = 4 then setPair { s.pair with forwardOff := true } s
  else if role s = 2 then refuseJoin 6 s
  else if role s = 3 then setRole 1 s
  else s

/-- R546: the standby's state differs from the active's. -/
def pairDiverged (s : State) : State := setRole 1 (leaveJoin (raise evPairDiverged 0 s))

/-- The active has a partner that follows it (R544, R545). -/
def partnerFollows (s : State) : Bool :=
  role s = 4 && !s.pair.forwardOff && (s.pair.partnerRole = 2 || s.pair.partnerRole = 3)

/-- The unit follows an active: it takes changes from the pair link alone (R543). -/
def follows (s : State) : Bool := role s = 2 || role s = 3

/-- Bytes of the replay buffer in use by messages of the kinds of `q`. -/
def replayBytes (s : State) (q : Nat → Bool) : Nat :=
  s.pair.replay.foldl (fun a e => if q e.2.1 then a + 16 + e.2.2.length else a) 0

/-- Replay buffer (R540). -/
def replaySize : Nat := 2097152

/-- R540: a message of a kind may be sent now: kinds 6 to 8 take no more than half of the replay buffer. -/
def pairRoom (s : State) (kind n : Nat) : Bool :=
  kind < 6 || replayBytes s (6 ≤ ·) + 16 + n ≤ replaySize / 2

/-- The header of a pair message (Table 15-3). -/
def pairHeader (s : State) (kind flags seq len : Nat) : Bytes :=
  beBytes 1 kind ++ beBytes 1 flags ++ beBytes 2 len ++ beBytes 4 seq ++ beBytes 4 s.pair.rxSeq ++ beBytes 4 0

/-- What stands before a message's payload in its frame: the Ethernet header from unit to unit (R539), and the message's own. -/
def pairFront (s : State) (kind flags seq len : Nat) : Bytes :=
  leBytes 6 Config.partnerMac.toNat ++ leBytes 6 (mgmtMac s 0) ++ beBytes 2 0x88B6 ++ pairHeader s kind flags seq len

/-- A message goes out under the next number (R540); it is kept for a partner that answers. -/
def transmitPair (kind : Nat) (body : Bytes) (s : State) : State :=
  let n := s.pair.txSeq
  let keep := if s.pair.partnerUp then s.pair.replay ++ [(n, kind, body)] else s.pair.replay
  setPair { s.pair with txSeq := (n + 1) % 2 ^ 32, replay := keep } (emit (.pair (pairFront s kind 0 n body.length) body) s)

/-- Send a message to the partner (R540): one of kinds 6 to 8 waits while they have half of the replay buffer. An overflow of
the buffer loses the partner (R541). -/
def sendPair (kind : Nat) (body : Bytes) (s : State) : State :=
  if !pairRoom s kind body.length then setPair { s.pair with waiting := s.pair.waiting ++ [(kind, body)] } s
  else
    let s := transmitPair kind body s
    if replaySize < replayBytes s (fun _ => true) then pairLost s else s

/-- The message sent next of those that wait: of the highest priority, the oldest (R540). -/
def nextWaiting (s : State) : Option (Nat × Bytes) :=
  [6, 7, 8].findSome? (fun k => s.pair.waiting.find? (fun e => e.1 = k))

/-- Messages that wait go out while there is room, at most `fuel` of them. -/
def sendWaiting : Nat → State → State
  | 0, s => s
  | fuel + 1, s =>
    match nextWaiting s with
    | none => s
    | some e =>
      if pairRoom s e.1 e.2.length then
        sendWaiting fuel (transmitPair e.1 e.2 (setPair { s.pair with waiting := s.pair.waiting.erase e } s))
      else s

/-- The payload of a CONTROL message: a step number, then its values (log entry 40). -/
def controlBytes : ControlMsg → Bytes
  | .joinRequest c i v n => beBytes 1 1 ++ beBytes 1 c ++ beBytes 4 i ++ beBytes 4 v ++ beBytes 4 n
  | .joinAccept => beBytes 1 2
  | .joinRefuse c => beBytes 1 3 ++ beBytes 1 c
  | .align c sec ns => beBytes 1 4 ++ beBytes 8 c ++ beBytes 6 sec ++ beBytes 4 ns
  | .configDone => beBytes 1 5
  | .tablesDone => beBytes 1 6
  | .bulkDone => beBytes 1 7
  | .selfCheck h => beBytes 1 8 ++ beBytes 8 h
  | .turnAsk e step => beBytes 1 9 ++ beBytes 2 e ++ beBytes 1 (b2n step)
  | .turnPass => beBytes 1 10
  | .turnAt c => beBytes 1 11 ++ beBytes 8 c
  | .turnFail g => beBytes 1 12 ++ beBytes 2 g

/-- Send a CONTROL message. -/
def sendControl (m : ControlMsg) (s : State) : State := sendPair 3 (controlBytes m) s

/-- A turn or step is decided with the partner: a standby in role 3 takes part (R547). -/
def turnsTogether (s : State) : Bool := role s = 3 || (partnerFollows s && s.pair.partnerRole = 3)

/-- The status of a command and the area of the status (Table 3-8). -/
abbrev Verdict := Nat × Nat

/-- What a command came to: its verdict, its RESULT and the state it leaves. -/
structure Done where
  verdict : Verdict
  result : Nat := 0
  state : State
  /-- The command stays in progress: something later completes it. -/
  stays : Bool := false

/-- A command that fails with a code and changes nothing. -/
def failed (code area : Nat) (s : State) : Done := ⟨(code, area), 0, s, false⟩

/-- A command that has succeeded. -/
def succeeded (s : State) : Done := ⟨(0, 0), 0, s, false⟩

/-- Complete a command by what it came to. -/
def finish (c : SqCmd) (d : Done) : State :=
  if d.stays then d.state else complete c d.verdict.1 d.verdict.2 d.result d.state

/-- Apply a command and complete it. With a partner that follows, a command that would succeed is forwarded with its data
and commits 4,096 CCLK later (R545); one that fails does so at once. -/
def commitCmd (c : SqCmd) (opcode : Nat) (body data : Bytes) (f : State → Done) (s : State) : State :=
  if partnerFollows s && (f s).verdict.1 = 0 then
    let at_ := s.clk.cclk + 4096
    let due : PairDue := { at_ := at_, opcode := opcode, body := body, data := data, cmd := some c }
    sendPair 5 (beBytes 8 at_ ++ leBytes 1 opcode ++ body ++ zeros (72 - body.length) ++ data)
      (setPair { s.pair with due := s.pair.due ++ [due] } s)
  else finish c (f s)

/-- R475, Table 13-8: the links of a command's chain have been read. -/
def withLinks (c : SqCmd) (f : State → State) (s : State) : State :=
  match c.links with
  | .fault => complete c 0x81 0x60 0 s
  | .tooLong => complete c 0x80 0x60 0 s
  | _ => f s

/-- R476, R480, R543: a table, rule, flow, capture or inject command starts: its queue has the level, the unit follows no active,
and the links of its chain have been read. -/
def startCmd (c : SqCmd) (lowest : Nat) (f : State → State) (s : State) : State :=
  atLevel c lowest (fun s => if follows s then complete c 0x07 0 0 s else withLinks c f s) s

end Sys2Proof.Machine
end

