-- ==== Sys2Proof/Machine/Operands.lean ====
section
/-! DEFINITION. How messages, transport frames and work-queue entries are read from bytes and written as bytes (R9, R97, R98,
R108, R118, R474): the operand forms of the block's requests. -/

namespace Sys2Proof.Machine
open Sys2Proof

/-- A number of `n` bytes in the byte order of a container (R9): big-endian in frames, little-endian in host memory. -/
def num (be : Bool) (n v : Nat) : Bytes := if be then beBytes n v else leBytes n v

/-- A number of `n` bytes read at offset `o`. -/
def numAt (be : Bool) (b : Bytes) (o n : Nat) : Nat := if be then beAt b o n else leAt b o n

/-- Reverse each field of a value in turn, the layout repeating for the rows of a table; used in both directions. -/
def swapFields : List Nat → Bytes → Bytes
  | [], b => b
  | n :: t, b => (b.take n).reverse ++ swapFields t (b.drop n)

/-- The layout of a value of `len` bytes: the object's fields, once for each row. -/
def layoutFor (layout : List Nat) (size len : Nat) : List Nat :=
  (List.replicate (if size = 0 then 0 else len / size) layout).flatten

/-- A value between the container's byte order and little-endian (R9, R86). -/
def orient (be : Bool) (opcode obj : Nat) (v : Bytes) : Bytes :=
  if !be then v
  else if opcode = 4 then swapFields [1, 1, 1, 1, 4, 4] v
  else if opcode = 5 then swapFields (List.replicate (v.length / 4) 4) v
  else
    match objDesc obj with
    | some d => swapFields (layoutFor d.layout d.type.size v.length) v
    | none => v

/-- Packed object number of an item. -/
def Item.obj (i : Item) : Nat := i.area <<< 24 + i.index <<< 8 + i.element

/-- Bytes of padding after a value (R98). -/
def padOf (n : Nat) : Nat := (4 - n % 4) % 4

/-- Read up to `n` items; `withValue` says that each carries its value. The flag says that every item was whole and its
padding zero; what is left over follows. R98 gives no code for padding that is not zero: such a message is not exact, and R100
rejects it (DESIGN CHOICE, log entry 134). -/
def readItems (be withValue : Bool) (opcode : Nat) : Nat → Bytes → List Item × Bool × Bytes
  | 0, b => ([], true, b)
  | n + 1, b =>
    if b.length < 12 then ([], false, b)
    else
      let vlen := numAt be b 8 2
      let area := leAt b 0 1
      let index := numAt be b 1 2
      let element := leAt b 3 1
      let obj := area <<< 24 + index <<< 8 + element
      let body := b.drop 12
      let take := if withValue then vlen + padOf vlen else 0
      let whole := take ≤ body.length
      let value := if withValue then body.take vlen else []
      let padZero := (slice body vlen (take - vlen)).all (· = 0)
      let it : Item := ⟨area, index, element, numAt be b 4 4, vlen, leAt b 10 1, leAt b 11 1, orient be opcode obj value⟩
      let r := readItems be withValue opcode n (body.drop take)
      (it :: r.1, whole && padZero && r.2.1, r.2.2)

/-- Read a Mirty message (R97, R98). None where it is shorter than its header. -/
def readMsg (be : Bool) (b : Bytes) : Option Msg :=
  if b.length < 16 then none
  else
    let opcode := leAt b 0 1
    let cnt := leAt b 3 1
    let body := b.drop 16
    let r := readItems be (opcode = 2 || opcode = 3) opcode cnt body
    some ⟨opcode, leAt b 1 1, leAt b 2 1, cnt, numAt be b 4 4, numAt be b 8 2, leAt b 10 1, leAt b 11 1, numAt be b 12 2,
      numAt be b 14 2, r.2.1 && r.2.2.isEmpty && numAt be b 8 2 = body.length, r.1⟩

/-- Write one item of a response. -/
def writeItem (be : Bool) (opcode : Nat) (i : Item) : Bytes :=
  leBytes 1 i.area ++ num be 2 i.index ++ leBytes 1 i.element ++ num be 4 i.row ++ num be 2 i.vlen ++ leBytes 1 i.istatus ++
    [0] ++ orient be opcode (Item.obj i) i.value ++ zeros (padOf i.value.length)

/-- Bytes of an item as written. -/
def itemBytes (i : Item) : Nat := 12 + i.value.length + padOf i.value.length

/-- Write a message (R97). -/
def writeMsg (be : Bool) (m : Msg) : Bytes :=
  leBytes 1 m.opcode ++ leBytes 1 m.flags ++ leBytes 1 m.level ++ leBytes 1 m.count ++ num be 4 m.tag ++ num be 2 m.length ++
    leBytes 1 m.status ++ leBytes 1 m.failItem ++ num be 2 m.detail ++ num be 2 m.reserved ++
    (m.items.map (writeItem be m.opcode)).flatten

/-- The answer to a message (R97, R103, R104): TAG, COUNT, LEVEL and SET echoed, bit 7 of FLAGS set (log entry 8), its reserved
bits 0. -/
def answer (m : Msg) (status failItem detail : Nat) (items : List Item) : Msg :=
  { m with flags := 128 + 4 * fld m.flags 2 2, length := items.foldl (fun a i => a + itemBytes i) 0, status := status,
           failItem := failItem, detail := detail, reserved := 0, exact := true, items := items }

/-- The WRITE of one object at a level (Table 3-6), as a requester would send it. -/
def writeOne (level obj row : Nat) (value : Bytes) : Msg :=
  let i : Item := ⟨obj / 2 ^ 24, obj / 2 ^ 8 % 2 ^ 16, obj % 2 ^ 8, row, value.length, 0, 0, value⟩
  ⟨2, 0, level, 1, 0, itemBytes i, 0, 0, 0, 0, true, [i]⟩

/-- A transport header as read (R108). -/
structure THeader where
  version : Nat
  kind : Nat
  level : Nat
  gen : Nat
  sender : Nat
  senderHigh : Nat
  seq : Nat
  len : Nat
  reserved : Nat
deriving DecidableEq, Repr

/-- Read a transport header in the container's byte order. -/
def readTHeader (be : Bool) (b : Bytes) : THeader :=
  let key := leAt b 2 1
  let snd := leAt b 3 1
  ⟨leAt b 0 1, leAt b 1 1, key / 64, key % 64, snd % 16, snd / 16, numAt be b 4 4, numAt be b 8 2, numAt be b 10 2⟩

/-! ### Work-queue entries (Tables 13-4 and 13-6) -/

/-- A command's payload, by its fields. -/
def readTblArgs (e : Bytes) : TblArgs := ⟨leAt e 0x10 1, leAt e 0x14 4, leAt e 0x18 2, slice e 0x20 32⟩
/-- Payload of a rule command. -/
def readRuleArgs (e : Bytes) : RuleArgs :=
  ⟨leAt e 0x10 1, leAt e 0x11 1, leAt e 0x12 2, leAt e 0x14 1 = 1, leAt e 0x18 4, leAt e 0x1C 4⟩
/-- Payload of a flow command. -/
def readFlowArgs (e : Bytes) : FlowArgs :=
  ⟨leAt e 0x10 1 = 1, leAt e 0x11 1, leAt e 0x12 1, leAt e 0x14 4, leAt e 0x18 2, leAt e 0x20 8, slice e 0x28 48⟩
/-- Payload of CREATE_SQ; DATA names the ring. -/
def readSqArgs (e : Bytes) : SqArgs :=
  ⟨leAt e 0x10 2, leAt e 0x12 2, leAt e 0x14 1, leAt e 0x15 1, leAt e 0x16 2, leAt e 0x18 4, leAt e 0x1C 4, leAt e 0x20 8,
    leAt e 0x08 8⟩
/-- Payload of CREATE_CQ and MODIFY_CQ. -/
def readCqArgs (e : Bytes) : CqArgs :=
  ⟨leAt e 0x10 2, leAt e 0x12 2, leAt e 0x14 2, leAt e 0x16 1, leAt e 0x18 4, leAt e 0x1C 4, leAt e 0x20 8, leAt e 0x28 4,
    leAt e 0x08 8⟩

/-- Bytes of payload from offset 0x10 that a command's opcode needs, none for an unknown opcode (Table 13-6). -/
def payloadBytes (code : Nat) : Option Nat :=
  if code = 1 then some 24
  else if code = 3 || code = 5 then some 28
  else if code = 2 || code = 4 then some 2
  else if code = 6 then some 3
  else if code = 0x10 then some 0
  else if code = 0x11 then some 16
  else if 0x20 ≤ code && code ≤ 0x26 then some 48
  else if 0x30 ≤ code && code ≤ 0x33 then some 16
  else if code = 0x34 then some 4
  else if 0x40 ≤ code && code ≤ 0x46 then some 72
  else if code = 0x50 then some 2
  else if code = 0x60 then some 4
  else if code = 0x61 then some 4
  else none

/-- The reserved bytes of each payload (Table 13-6), as offset and length. -/
def payloadReserved (code : Nat) : List (Nat × Nat) :=
  if code = 3 || code = 5 then [(0x17, 1)]
  else if code = 0x11 then [(0x14, 4)]
  else if 0x20 ≤ code && code ≤ 0x26 then [(0x11, 3), (0x1A, 6)]
  else if 0x30 ≤ code && code ≤ 0x33 then [(0x15, 3)]
  else if 0x40 ≤ code && code ≤ 0x46 then [(0x13, 1), (0x1A, 6)]
  else []

/-- R483: a reserved field of an entry is not zero. -/
def entryReservedSet (e : Bytes) : Bool :=
  let code := leAt e 0 1
  leAt e 1 1 / 8 ≠ 0 || leAt e 3 1 ≠ 0 || ((code = 3 || code = 5) && leAt e 0x16 1 / 2 ≠ 0) ||
    (payloadReserved code).any (fun r => (slice e r.1 r.2).any (· ≠ 0))

/-- Completion units of Table 13-6. -/
def completionUnits (code : Nat) : Nat := if code = 0x11 then 32 else if code = 0x61 then 2 else 1

/-- Lowest level of Table 13-6; the admin commands are for queue 0. -/
def lowestLevel (code : Nat) : Nat :=
  if code = 0x20 || code = 0x30 || code = 0x40 || code = 0x41 || code ≤ 0x11 then 0
  else if code = 0x34 then 2
  else 1

end Sys2Proof.Machine
end

