-- ==== Sys2Proof/Machine/Respond.lean ====
section
/-! DEFINITION. How the dictionary engine answers a request on the path it came by (R114, R122, R477). -/

namespace Sys2Proof.Machine
open Sys2Proof

/-- PCIE_AUTH is 1. -/
def pcieAuth (s : State) : Bool := s.fuse.pcieAuth = 1

/-- A transport header in the mailbox's byte order (R118). -/
def mailboxHeader (kind level gen sender seq len : Nat) : Bytes :=
  [0x01] ++ leBytes 1 kind ++ leBytes 1 (level * 64 + gen % 64) ++ leBytes 1 sender ++ leBytes 4 seq ++ leBytes 2 len ++
    leBytes 2 0

/-- The response area of the mailbox for a response message (R122). -/
def mailboxResponse (s : State) (o : Origin) (r : Msg) : Bytes :=
  let m := writeMsg false r
  let hp := mailboxHeader 1 o.keyLevel o.keyGen o.sender o.seq m.length ++ m
  if pcieAuth s then hp ++ codeOf s o.keyLevel o.keyGen hp else hp

/-- Set the mailbox. -/
def setMb (m : Mailbox) (s : State) : State := { s with eng := { s.eng with mb := m } }

/-- Answer a request: a transport frame (R114), the mailbox's finished response (R122), a completion (R477), or nothing on
the pair link. `area` is the area of the failing item. -/
def respond (o : Origin) (r : Msg) (area : Nat) (s : State) : State :=
  match o.path with
  | .mgmt n =>
    emit (.mgmt n (transportFrame s n o.srcMac 1 o.keyLevel o.keyGen o.sender o.seq (writeMsg true r))) s
  | .mailbox => setMb { s.eng.mb with finished := some (mailboxResponse s o r) } s
  | .queue q =>
    let b := writeMsg false r
    let c : SqCmd := { sq := q, tag := o.tag, fence := false, quiet := o.quiet, addr := 0 }
    if b.length ≤ 1008 then finishDeletion q (endCommand c r.status area 0 0 b s)
    else finishDeletion q (endCommand c r.status area 0 0 (b.take 16) (hostWrite o.respAddr b s))
  | .pairLink => s

/-- Answer a request under the transport settings that stood before its own writes (R127). -/
def respondAs (before : State) (o : Origin) (r : Msg) (s : State) : State :=
  match o.path with
  | .mgmt n => emit (.mgmt n (transportFrame before n o.srcMac 1 o.keyLevel o.keyGen o.sender o.seq (writeMsg true r))) s
  | _ => respond o r 0 s

/-- The area of the item a status belongs to. -/
def areaOf (m : Msg) (failItem : Nat) : Nat := ((m.items[failItem]?).map (·.area)).getD 0

end Sys2Proof.Machine
end

