-- ==== Sys2Proof/Machine/Epochs.lean ====
section
/-! DEFINITION. Snapshots, epochs, slack water and reseeding (chapter 2). Validation, the turn cycle and halts, which touch
every block, are in Sets.lean. -/

namespace Sys2Proof.Machine
open Sys2Proof

/-- SET_STATE: 0 OPEN, 1 VALIDATING, 2 TURNING, 3 SLACK, 4 RESEEDING. -/
def setState (s : State) : Nat := rd s oSetState

/-- The epoch before the active one: the one that drains. -/
def oldEpoch (s : State) : Nat := (activeEpoch s + 2 ^ 16 - 1) % 2 ^ 16

/-! ### Snapshots (R78 to R82) -/

/-- A half of BAR2. -/
def half (s : State) (n : Nat) : Half := if n % 2 = 0 then s.ep.half0 else s.ep.half1

/-- Replace a half. -/
def setHalf (n : Nat) (h : Half) (s : State) : State :=
  if n % 2 = 0 then { s with ep := { s.ep with half0 := h } } else { s with ep := { s.ep with half1 := h } }

/-- The half that the next snapshot takes is not being written. -/
def halfFree (s : State) : Bool := (half s s.ep.nextSnap).state ≠ 1

/-- R78, R79: every counter is captured at cycle `c`, and writing into the half of the snapshot's number begins. -/
def captureAt (c cause : Nat) (s : State) : State :=
  let n := s.ep.nextSnap
  let s := setHalf n { state := 1, seq := n, epoch := activeEpoch s, cause := cause, time := nowTime80 s,
                       cclk := c, values := s.ctr } s
  { s with ep := { s.ep with nextSnap := n + 1 } }

/-- A snapshot whose cycle is this one. -/
def capture (cause : Nat) (s : State) : State := captureAt s.clk.cclk cause s

/-- A snapshot is asked for at T of turns and steps (R80). -/
def snapAtT (s : State) : Bool := (rd s oSnapOnTurn).testBit 0

/-- A snapshot is asked for at the end of slack water (R80). -/
def snapAtSlackEnd (s : State) : Bool := (rd s oSnapOnTurn).testBit 1

/-- R82: a software snapshot is refused. -/
def snapBusy (s : State) : Bool :=
  (s.ep.half0.state = 1 && s.ep.half1.state = 1) || (setState s = 2 && snapAtT s)

/-- The step or reseeding that follows slack water begins (R71, R72, R81). -/
def afterSlack (s : State) : State :=
  if s.ep.stepping then
    { wr oTurnResult 1 (wr oSetState 0 s) with ep := { s.ep with stepping := false } }
  else wr oSetState 4 s

/-- The EtherType under which the request of a turn or step is answered: where its own message has changed it, the one in force
before (R127). -/
def answerType (s : State) : Nat := s.ep.oldType.getD (rd s oMirtyEthertype)

/-- A turn or step request is acknowledged (R64, R67) with STATUS 0. -/
def acknowledge (s : State) : State :=
  match s.ep.request with
  | some r =>
    respondAs (wr oMirtyEthertype (answerType s) s) r.origin (answer r.msg 0 0xFF 0 [])
      { s with ep := { s.ep with request := none, oldType := none } }
  | none => s

/-- R64: a turn fails with a group. -/
def rejectTurn (g : Nat) (s : State) : State :=
  let s := setPair { s.pair with ownVerdict := none, partnerVerdict := none } s
  acknowledge (raise evTurnRejected g (wr oFailedGroup g (wr oTurnResult 2 (wr oSetState 0 { s with ep := { s.ep with passed := false } }))))

/-- T is set, and the turn leaves VALIDATING (R65, R547). -/
def setTurnT (c : Nat) (s : State) : State :=
  let s := setPair { s.pair with ownVerdict := none, partnerVerdict := none } s
  wr oSetState 2 { s with ep := { s.ep with turnT := c, passed := false } }

/-- R547: what both units have found of a turn or step. The active sets T when both have passed; any failure ends the turn
in both, and one at the standby alone also raises PAIR_DIVERGED. -/
def decideTurn (s : State) : State :=
  match s.pair.ownVerdict, s.pair.partnerVerdict with
  | some 0, some 0 =>
    if role s = 4 then
      let c := s.clk.cclk + 4096
      sendControl (.turnAt c) (setTurnT c s)
    else s
  | some (g + 1), some p => rejectTurn g (when (role s = 3 && p = 0) (raise evPairDiverged 0) s)
  | some 0, some (g + 1) => rejectTurn g s
  | _, _ => s

/-- What this unit found of a turn or step in a pair, told to the partner. -/
def tellVerdict (v : Nat) (s : State) : State :=
  let s := setPair { s.pair with ownVerdict := some v } s
  decideTurn (sendControl (if v = 0 then .turnPass else .turnFail (v - 1)) s)

/-- R65: T is set 1,024 cycles ahead, and the turn leaves VALIDATING; in a pair both units decide (R547). -/
def startTurn (s : State) : State :=
  if turnsTogether s then tellVerdict 0 s else setTurnT (s.clk.cclk + 1024) s

/-- R81: a turn or step that has passed leaves VALIDATING once a half is free for the snapshot it needs. -/
def leaveValidating (s : State) : State :=
  if snapAtT s && !halfFree s then { s with ep := { s.ep with passed := true } } else startTurn s

/-- What waits for a half takes it when one frees: the turn, its late snapshot, the snapshot after slack water. -/
def halfFreed (s : State) : State :=
  let s := if setState s = 1 && s.ep.passed then leaveValidating s else s
  let s := if s.ep.turnSnapDue && halfFree s then
    capture 1 { s with ep := { s.ep with turnSnapDue := false } } else s
  if s.ep.snapDue && halfFree s then
    afterSlack (capture 2 { s with ep := { s.ep with snapDue := false } }) else s

/-- The half being written whose snapshot number is the lower. -/
def writingHalf (s : State) : Option Nat :=
  let a := s.ep.half0
  let b := s.ep.half1
  if a.state = 1 && (b.state ≠ 1 || a.seq < b.seq) then some 0
  else if b.state = 1 then some 1
  else none

/-- The writing of a snapshot ends: header first, trailer last; SNAP_SEQ names it (R79). -/
def snapshotDone (s : State) : State :=
  match writingHalf s with
  | none => s
  | some n =>
    let h := half s n
    halfFreed (wr oSnapSeq h.seq (setHalf n { h with state := 2 } s))

/-- SNAPSHOT_WRITTEN (R79). -/
def execSnapshotWritten (s : State) : Host.Outcome State Fault Refusal := .next (snapshotDone s)

/-! ### Retired entries (R75 to R77) -/

/-- R77: a retire epoch that DRAINED_EPOCH has reached. -/
def drained (s : State) (e : Nat) : Bool := !later 16 e (rd s oDrainedEpoch)

/-- Keep an entry that is not retired, or whose retire epoch has not drained. -/
def keepRetired (s : State) (r : Option Nat) : Bool :=
  match r with
  | none => true
  | some e => !drained s e

/-- Retired next-hops, rewrites and ECMP members whose epoch has drained become free. -/
def freeRetired (s : State) : State :=
  { s with lt := { s.lt with nh := s.lt.nh.filter (fun e => keepRetired s e.2.retired),
                             rw := s.lt.rw.filter (fun e => keepRetired s e.2.retired),
                             slots := s.lt.slots.filter (fun e => keepRetired s e.2.retired) } }

/-- RETIRED_COUNT. -/
def retiredCount (s : State) : Nat :=
  (s.lt.nh.filter (·.2.retired.isSome)).length + (s.lt.rw.filter (·.2.retired.isSome)).length +
    (s.lt.slots.filter (·.2.retired.isSome)).length

/-! ### Slack water -/

/-- The drain of an epoch (R70, R77, R80, R81). -/
def endSlack (s : State) : State :=
  let s := freeRetired (wr oDrainedEpoch (oldEpoch s) s)
  if snapAtSlackEnd s then
    if halfFree s then afterSlack (capture 2 s) else { s with ep := { s.ep with snapDue := true } }
  else afterSlack s

/-- Slack water still runs: state SLACK, and its drain has not happened. -/
def slackRuns (s : State) : Bool := setState s = 3 && !s.ep.snapDue

/-- SLACK_WATER_END (R68): no frame or copy of the old epoch remains. -/
def execSlackWaterEnd (s : State) : Host.Outcome State Fault Refusal :=
  .next (if slackRuns s && (framesOf s (oldEpoch s)).isEmpty then endSlack s else s)

/-- R69: discard what remains of the old epoch. A frame in transmission ends with an error code group. -/
def discardOld (s : State) : State :=
  let old := framesOf s (oldEpoch s)
  let ports := (s.prt.ports.filter (fun e => (e.2.sending.map old.contains).getD false)).map (·.1)
  let s := forEach ports (fun t p => abortSending p t) s
  let s := forEach old (fun t fid => discardCopy fid 3 t) s
  wr oSlackDiscards (rd s oSlackDiscards + old.length) (raise evSlackTimeout (old.length % 2 ^ 32) s)

/-- SLACK_TIMEOUT (R69): SLACK_LIMIT has passed with frames of the old epoch still in the device. -/
def execSlackTimeout (s : State) : Host.Outcome State Fault Refusal :=
  .next (if slackRuns s && !(framesOf s (oldEpoch s)).isEmpty then endSlack (discardOld s) else s)

/-! ### Reseeding (R71) -/

/-- Set and object number of a dictionary key. -/
def keySet (k : Nat) : Nat := k / 2 ^ 64
/-- Object number of a dictionary key. -/
def keyObj (k : Nat) : Nat := k / 2 ^ 32 % 2 ^ 32
/-- Row of a dictionary key. -/
def keyRow (k : Nat) : Nat := k % 2 ^ 32

/-- The dictionary with the shadow set equal to the active one. -/
def reseed (active : Nat) (t : Tab Nat) : Tab Nat :=
  let shadow := 1 - active
  let kept := t.filter (fun e => !(keySet e.1 = shadow && isShadow (keyObj e.1)))
  (kept.filter (fun e => keySet e.1 = active && isShadow (keyObj e.1))).foldl
    (fun a e => tabInsert a (dictKey shadow (keyObj e.1) (keyRow e.1)) e.2) kept

/-- RESEEDING_COMPLETE (R71): both sets are identical and the set state is OPEN. A corrupt word of the shadow set is
rewritten by the copy of its active word, unless that word is corrupt too (R626). -/
def reseedingDone (s : State) : State :=
  let a := activeSet s
  let corrupt := (s.ep.corrupt.filter (fun k => keySet k = a)).foldl
    (fun l k => l ++ [k, dictKey (1 - a) (keyObj k) (keyRow k)]) []
  wr oTurnResult 1 (wr oSetState 0 { s with dict := reseed a s.dict, ep := { s.ep with corrupt := corrupt } })

/-- RESEEDING_COMPLETE (R71). -/
def execReseedingComplete (s : State) : Host.Outcome State Fault Refusal :=
  .next (if setState s = 4 then reseedingDone s else s)

/-! ### Requests for a turn or a step (R62, R72, R73) -/

/-- R62: the code a turn or step request meets: set busy, stale epoch, or none. -/
def turnCode (s : State) (value : Nat) : Nat :=
  if setState s ≠ 0 then 0x12 else if value ≠ activeEpoch s then 0x13 else 0

/-- R547: the active orders a turn or step of the standby. -/
def askPartner (step : Bool) (s : State) : State :=
  let s := setPair { s.pair with ownVerdict := none, partnerVerdict := none } s
  when (role s = 4 && turnsTogether s) (sendControl (.turnAsk (activeEpoch s) step)) s

/-- A turn starts: the shadow set is validated. -/
def beginTurn (r : Option Req) (s : State) : State :=
  let s := askPartner false s
  wr oSetState 1 { s with ep := { s.ep with stepping := false, passed := false, request := r, lastStart := s.clk.cclk } }

/-- A step starts: validation is omitted (R72). -/
def beginStep (r : Option Req) (s : State) : State :=
  let s := askPartner true s
  let s := wr oSetState 1
    { s with ep := { s.ep with stepping := true, passed := false, request := r, lastStart := s.clk.cclk } }
  leaveValidating s

/-- R73: an automatic step is due. -/
def autoStepDue (s : State) : Bool :=
  0 < retiredCount s && rd s oAutoDrainInterval ≠ 0 && setState s = 0

end Sys2Proof.Machine
end

