-- ==== Sys2Proof/Machine/Ports.lean ====
section
/-! DEFINITION. Port Complex (chapter 4): octets, ports and the link state machine. -/

namespace Sys2Proof.Machine
open Sys2Proof

/-- The octet of a lane (R130). -/
def octetOf (p : Nat) : Nat := p / 8
/-- The pipeline of a lane (Table 1-1). -/
def pipeOf (p : Nat) : Nat := p / 32
/-- The chiplet of an octet (R130). -/
def chipletOf (o : Nat) : Nat := o / 8

/-- OCTET_MODE of a port's octet. -/
def modeOf (s : State) (p : Nat) : Nat := rd s (oOctetMode (octetOf p))

/-- Lanes per port of a mode (Table 4-1). -/
def modeLanes (m : Nat) : Nat := nth 1 [1, 1, 1, 1, 2, 4, 8, 1, 2, 4, 8] m
/-- Speed code of a mode (Table 4-1). -/
def modeSpeed (m : Nat) : Nat := nth 0 [0, 1, 2, 3, 4, 5, 6, 3, 4, 5, 6] m
/-- FEC modes that a mode allows (Table 4-1). -/
def modeFecs (m : Nat) : List Nat :=
  nth [] [[0, 1], [0, 1, 2], [3], [3], [3], [3], [3], [4], [4], [4], [4]] m
/-- An extended-rate mode. -/
def modeExtended (m : Nat) : Bool := 7 ≤ m

/-- Rate of a speed code in Gbit/s. -/
def speedGbps (c : Nat) : Nat := nth 10 [10, 25, 50, 100, 200, 400, 800] c

/-- Rate of the port at a lane, in Gbit/s. -/
def portGbps (s : State) (p : Nat) : Nat := speedGbps (modeSpeed (modeOf s p))

/-- OCTET_STATE of an octet: 0 disabled, 1 disabling, 2 enabled, 3 unavailable, as its chiplet is mapped out. -/
def octetState (s : State) (o : Nat) : Nat := if rd s (oChipletState (chipletOf o)) = 2 then 3 else rd s (oOctetState o)

/-- R135: the lane number begins a port in its octet's current mode. -/
def present (s : State) (p : Nat) : Bool := p % modeLanes (modeOf s p) = 0 && octetState s (octetOf p) ≠ 3

/-- LINK_STATE (Table 4-4): 0 for an absent port (R135, R159). -/
def linkState (s : State) (p : Nat) : Nat := if present s p then rd s (oLinkState p) else 0

/-- Up or in down-hold: the port transmits and receives (R151, R153). -/
def linkCarries (s : State) (p : Nat) : Bool := linkState s p = 6 || linkState s p = 7

/-- Enter a link state. -/
def setLink (p st : Nat) (s : State) : State := wr (oLinkState p) st s

/-- R146: a 10G port with a CR interface counts as C2M. -/
def backplane (s : State) (p : Nat) : Bool :=
  let pmd := rd s (oPmdType p)
  pmd = 0 || (pmd = 1 && modeSpeed (modeOf s p) ≠ 0)

/-- R146: the port runs Clause 73 auto-negotiation. -/
def negotiates (s : State) (p : Nat) : Bool :=
  backplane s p && !modeExtended (modeOf s p) && rd s (oAnEnable p) = 1

/-- RESOLVED_FEC (R148): FEC_MODE of a port that has not negotiated. For a resolved technology without -S the rules of 802.3 are
not in the spec; the model asks both pages for the ability of BASE-R FEC there as well (PRESUMED, log entry 137). -/
def resolveFec (s : State) (p : Nat) : Nat :=
  let x := port s p
  let own := rd s (oFecAdvertise p)
  if modeSpeed (modeOf s p) = 1 && x.negotiated then
    let requested (bit : Nat) := own.testBit bit || x.fecPage.testBit bit
    let both := own.testBit 0 && x.fecPage.testBit 0
    if x.sTech then (if both && (requested 1 || requested 2) then 1 else 0)
    else if requested 2 then 2
    else if both && requested 1 then 1
    else 0
  else rd s (oFecMode p)

/-- The technologies a port advertises (R147): that of its octet's mode, and for 25G the -S one as well. -/
def advertised (s : State) (p : Nat) : List (Nat × Bool) :=
  let c := modeSpeed (modeOf s p)
  if c = 1 then [(1, false), (1, true)] else [(c, false)]

/-- The page a port sends (R143, R147). -/
def anPage (s : State) (p : Nat) : AnPage where
  techs := advertised s p
  fec := if modeSpeed (modeOf s p) = 1 then rd s (oFecAdvertise p) else 0
  fastWake := rd s (oEeeEnable p) = 1 && modeSpeed (modeOf s p) ≤ 1

/-- The port that a lane belongs to in its octet's mode. -/
def portOfLane (s : State) (lane : Nat) : Nat := lane - lane % modeLanes (modeOf s lane)

/-- A logical lane transmits with its LANE_TX_EQ, on the physical lane that TX_LANE_MAP names, inverted as LANE_POLARITY says
(R149, Table 4-5). -/
def driveLane (training : Bool) (lane : Nat) (s : State) : State :=
  let o := octetOf lane
  let phys := fld (rd s (oTxLaneMap o)) (4 * (lane % 8)) 3
  emit (.laneTx (8 * o + phys) (rd s oLaneTxEq lane % 2 ^ 32) ((rd s (oLanePolarity o)).testBit (8 + phys)) training) s

/-- Every lane of a port transmits (R149): in training, or with the settings themselves. -/
def driveLanes (training : Bool) (p : Nat) (s : State) : State :=
  forEach (List.range (modeLanes (modeOf s p))) (fun t k => driveLane training (p + k) t) s

/-- The port sees local fault, or no longer: it begins or ends to send remote fault (R151). -/
def setLocalFault (p : Nat) (on : Bool) (s : State) : State :=
  if (port s p).localFault = on then s
  else emit (.remoteFault p on) (setPort p { port s p with localFault := on } s)

/-- A bring-up attempt starts in negotiating, training or aligning (Table 4-4, R146, R147, R149). -/
def startAttempt (p : Nat) (s : State) : State :=
  let s := setPort p { port s p with negotiated := false, sTech := false, fecPage := 0, eee := false, lpi := false, cut := false } s
  let s := wr (oResolvedFec p) (resolveFec s p) s
  if negotiates s p then emit (.autoneg p (anPage s p)) (setLink p 2 s)
  else if backplane s p then driveLanes true p (setLink p 3 s)
  else driveLanes false p (setLink p 4 s)

/-- R150: an attempt fails and the port waits; LINK_FAIL at the third consecutive failure and at every 100th after it. -/
def failAttempt (p : Nat) (s : State) : State :=
  let n := (port s p).fails + 1
  let s := setLink p 8 (count (cPort p 0x80) (setPort p { port s p with fails := n } s))
  when (n = 3 || (3 < n && (n - 3) % 100 = 0)) (raise evLinkFail p) s

/-- R154: a frame in transmission is ended with an error code group, counted, and its buffer freed. -/
def abortTransmission (p : Nat) (s : State) : State :=
  match (port s p).sending with
  | some fid => discardCopy fid 5 (count (cPort p 0x58) (abortSending p s))
  | none => s

/-- The port leaves state 7 for state 8 (R151). -/
def portDown (p : Nat) (s : State) : State :=
  let s := setPort p { port s p with cut := true } s
  abortTransmission p (raise evPortDown p (count (cPort p 0x78) (setLink p 8 s)))

/-- R155: a port is taken to state 1. A frame partly received fails when it ends. RESOLVED_FEC keeps the value of the last
attempt, which R148 does not say of a port that is disabled or absent (DESIGN CHOICE, log entry 137). -/
def disablePort (p : Nat) (s : State) : State :=
  let was := linkState s p
  let s := setLocalFault p false s
  let s := setLink p 1 (setPort p { port s p with lpi := false, cut := was = 6 || was = 7 || (port s p).cut } s)
  if was = 6 || was = 7 then abortTransmission p (raise evPortDown p (count (cPort p 0x78) s)) else s

/-- The lane numbers of an octet. -/
def octetPorts (o : Nat) : List Nat := (List.range 8).map (8 * o + ·)

/-- A write of PORT_ENABLE at its live point (R155, R158): 0 disables, 1 starts an attempt of a present port of an enabled
octet that is disabled. -/
def writePortEnable (p v : Nat) (s : State) : State :=
  let s := wr (oPortEnable p) v s
  if v = 0 then (if present s p then disablePort p s else s)
  else if present s p && octetState s (octetOf p) = 2 && linkState s p = 1 then startAttempt p s
  else s

/-- A write of OCTET_ENABLE at its live point (R156, R158). -/
def writeOctetEnable (o v : Nat) (s : State) : State :=
  let s := wr (oOctetEnable o) v s
  if v = 0 then
    let s := forEach (octetPorts o) (fun t p => if present t p then disablePort p t else t) s
    if octetState s o = 2 then wr (oOctetState o) 1 s else s
  else if octetState s o = 0 then
    let s := wr (oOctetState o) 2 s
    forEach (octetPorts o) (fun t p => if present t p && rd t (oPortEnable p) = 1 then startAttempt p t else t) s
  else s

/-- A write of a LANE_TX_EQ row: the lane of an enabled C2M port takes it at the live point, another in its next training. -/
def writeLaneTxEq (lane v : Nat) (s : State) : State :=
  let s := wrRow oLaneTxEq lane v s
  let p := portOfLane s lane
  if 2 ≤ linkState s p && !backplane s p then driveLane false lane s else s

/-- Where a resolved descriptor goes, as DEST_KIND and DEST: a capture or sample copy keeps the frame's resolved action and
goes to CAPTURE (R423). -/
def destOf (f : Frame) : Nat × Nat :=
  if f.kind = .sample || f.kind = .capture then (1, 515) else (f.ra.destKind, f.ra.dest)

/-- A frame, descriptor or copy whose destination is a port of the octet (R156): a resolved unicast descriptor, or a copy
that replication has made for it. A descriptor that waits for replication is neither. -/
def boundFor (o : Nat) (f : Frame) : Bool :=
  match f.phase with
  | .staged => false
  | .ingress => false
  | .recirc => false
  | .replicating => false
  | _ => (f.kind = .multicast && f.outPort < 512 && octetOf f.outPort = o) ||
         (f.kind ≠ .multicast && (destOf f).1 = 1 && (destOf f).2 < 512 && octetOf (destOf f).2 = o)

/-- OCTET_DRAINED (R156). -/
def execOctetDrained (o : Nat) (s : State) : Host.Outcome State Fault Refusal :=
  onUnits (isOctet o)
    (if octetState s o = 1 && !s.pip.frames.any (fun e => boundFor o e.2) then wr (oOctetState o) 0 s else s)

/-- The technology is resolved (R148), and training starts. -/
def negotiatedPort (p : Nat) (sTech : Bool) (fecPage : Nat) (eee : Bool) (s : State) : State :=
  let s := setPort p { port s p with negotiated := true, sTech := sTech, fecPage := fecPage, eee := eee } s
  driveLanes true p (setLink p 3 (wr (oResolvedFec p) (resolveFec s p) s))

/-- AUTONEG_COMPLETE (R147, R148): an attempt whose highest common technology is not one the port advertised fails. -/
def execAutonegComplete (p : Nat) (tech : Option (Nat × Bool)) (fecPage : Nat) (eee : Bool) (s : State) :
    Host.Outcome State Fault Refusal :=
  onUnits (isPort p)
    (if linkState s p ≠ 2 then s
     else
       match tech with
       | some t => if (advertised s p).contains t then negotiatedPort p t.2 fecPage eee s else failAttempt p s
       | none => failAttempt p s)

/-- TRAINING_COMPLETE (R149): training has completed on every lane. -/
def execTrainingComplete (p : Nat) (s : State) : Host.Outcome State Fault Refusal :=
  onUnits (isPort p) (if linkState s p = 3 then setLink p 4 s else s)

/-- ALIGNMENT_COMPLETE (Table 4-4): the conditions of state 4 hold. -/
def execAlignmentComplete (p : Nat) (s : State) : Host.Outcome State Fault Refusal :=
  onUnits (isPort p) (if linkState s p = 4 then setLink p 5 (setLocalFault p false s) else s)

/-! ### SYNCE_REF (R519) -/

/-- SYNCE_STATE: off, the chosen lane, REFCLK, or lost while the lane's port does not carry (its receiver is locked in link
states 5 to 7). -/
def synceState (s : State) : Nat :=
  let src := rd s oSynceSource
  if rd s oSynceFreq = 0 then 0
  else if src = 0xFFFF then 2
  else if (List.range 8).any (fun k => linkCarries s (src - k) && src < src - k + modeLanes (modeOf s (src - k)) && k ≤ src)
  then 1 else 3

/-- The stored state, in which a loss has been announced or not, follows when the lane is there again. -/
def synceFollow (s : State) : State := if synceState s = 3 then s else wr oSynceState (synceState s) s

/-- UP_HOLD_EXPIRY (R151). -/
def execUpHoldExpiry (p : Nat) (s : State) : Host.Outcome State Fault Refusal :=
  onUnits (isPort p)
    (if linkState s p = 5 then
       synceFollow (raise evPortUp p (setLink p 6 (setPort p { port s p with fails := 0 } s)))
     else s)

/-- A fault of the link, local or received as remote fault. With DOWN_HOLD 0 it has persisted at once. -/
def linkFault (p : Nat) (late : Bool) (s : State) : State :=
  if linkState s p = 6 then
    let s := setLink p 7 s
    if rd s (oDownHold p) = 0 then portDown p s else s
  else if linkState s p = 5 then (if late then failAttempt p s else setLink p 4 s)
  else s

/-- LINK_FAULT (R150, R151): a fault appears; a port that sees local fault sends remote fault. -/
def execLinkFault (p : Nat) (late local_ : Bool) (s : State) : Host.Outcome State Fault Refusal :=
  onUnits (isPort p)
    (if 2 ≤ linkState s p then linkFault p late (when local_ (setLocalFault p true) s) else s)

/-- LINK_FAULT_CLEARED (R151). -/
def execLinkFaultCleared (p : Nat) (s : State) : Host.Outcome State Fault Refusal :=
  onUnits (isPort p)
    (let s := setLocalFault p false s
     if linkState s p = 7 then synceFollow (setLink p 6 s) else s)

/-- DOWN_HOLD_EXPIRY (R151). -/
def execDownHoldExpiry (p : Nat) (s : State) : Host.Outcome State Fault Refusal :=
  onUnits (isPort p) (if linkState s p = 7 then portDown p s else s)

/-- BRINGUP_TIMEOUT (R150): 500 ms have passed in state 2, 3 or 4. -/
def execBringupTimeout (p : Nat) (s : State) : Host.Outcome State Fault Refusal :=
  onUnits (isPort p) (if 2 ≤ linkState s p && linkState s p ≤ 4 then failAttempt p s else s)

/-- RETRY_WAIT_END (R150). -/
def execRetryWaitEnd (p : Nat) (s : State) : Host.Outcome State Fault Refusal :=
  onUnits (isPort p) (if linkState s p = 8 then startAttempt p s else s)

/-- FEC_DEGRADED (R152): a 1 s window ends. -/
def execFecDegraded (p symbols codewords uncorrected : Nat) (s : State) : Host.Outcome State Fault Refusal :=
  onUnits (isPort p)
    (if !present s p then s
     else
       let s := ctrAdd (cPort p 0x60) codewords (ctrAdd (cPort p 0x68) uncorrected (ctrAdd (cPort p 0x70) symbols s))
       let limit := rd s (oFecDegradeThreshold p)
       let bad := limit ≠ 0 && limit < symbols
       let was := (port s p).degraded
       let s := setPort p { port s p with degraded := bad } s
       if bad && !was then raise evFecDegraded p s else s)

/-- The port has a frame to transmit: one in transmission or one in a queue. -/
def hasFrame (s : State) (p : Nat) : Bool :=
  (port s p).sending.isSome || (tabFind s.tm.selected p).isSome ||
    (List.range 8).any (fun q => (tabFind s.tm.queues (8 * p + q)).isSome) ||
    (List.range 2).any (fun k => (tabFind s.tm.queues (4096 + 2 * p + k)).isSome)

/-- R143: fast-wake EEE is agreed on a port that may run it. -/
def eeeAgreed (s : State) (p : Nat) : Bool :=
  (port s p).eee && rd s (oEeeEnable p) = 1 && backplane s p && modeSpeed (modeOf s p) ≤ 1

/-- EEE_LPI_ENTRY (R143): 10 µs have passed with no frame to transmit. -/
def execEeeLpiEntry (p : Nat) (s : State) : Host.Outcome State Fault Refusal :=
  onUnits (isPort p)
    (if linkCarries s p && eeeAgreed s p && !hasFrame s p && !(port s p).lpi then
       count (cPort p 0x88) (setPort p { port s p with lpi := true } s)
     else s)

/-! ### Checks of writes -/

/-- R133: agreement group G1 of an octet on the values that stand. -/
def g1Ok (s : State) (o : Nat) : Bool :=
  let m := rd s (oOctetMode o)
  (octetPorts o).all (fun p => p % modeLanes m ≠ 0 ||
    (rd s (oSpeed p) = modeSpeed m && (modeFecs m).contains (rd s (oFecMode p))))

/-- R136: eight 3-bit fields that are a permutation of 0 to 7. -/
def laneMapOk (v : Nat) : Bool := (List.range 8).all (fun x => (List.range 8).any (fun k => fld v (4 * k) 3 = x))

/-- Agreement group G8 of a port in one set: every express class maps to a queue in use. -/
def g8Ok (s : State) (set p : Nat) : Bool :=
  let ex := rdSet s set (oExpressClasses p) 0
  let qm := rdSet s set (oQueueMap p) 0
  (List.range 8).all (fun c => !ex.testBit c || qm.testBit (24 + fld qm (3 * c) 3))

/-- R131, R157: the code a write of OCTET_ENABLE or OCTET_MODE meets. -/
def octetWriteCode (s : State) (obj v : Nat) : Nat :=
  let o := obj / 256 % 64
  let chip := rd s (oChipletState (chipletOf o))
  if obj = oOctetMode o then (if 1 ≤ chip && modeExtended v then 0x80 else 0)
  else if obj = oOctetEnable o && v = 1 then
    (if chip = 2 then 0x81 else if octetState s o = 1 then 0x82 else 0)
  else 0

end Sys2Proof.Machine
end

