-- ==== Sys2Proof/Machine/Time.lean ====
section
/-! DEFINITION. Time Unit and calendar clock (chapter 14): the counter, port constants, PTP rewrites, stamp queues, pins. -/

namespace Sys2Proof.Machine
open Sys2Proof

/-! ### Port constants and stamps (R503 to R505) -/

/-- A stamp in 2^−16 ns. -/
def stamp16 (t : Stamp) : Nat := (t.sec * 1000000000 + t.ns) * 65536 + t.frac

/-- A time in 2^−16 ns as a stamp. -/
def stampFrom16 (v : Int) : Stamp :=
  let n := v.toNat
  ⟨n / 65536 / 1000000000 % 2 ^ 48, n / 65536 % 1000000000, n % 65536⟩

/-- TS_CAL row of a port: 15 × mode + 5 × PMD_TYPE + RESOLVED_FEC (R504). -/
def tsCalRow (s : State) (p : Nat) : Nat := 15 * modeOf s p + 5 * rd s (oPmdType p) + rd s (oResolvedFec p)

/-- RXC of a port in 2^−16 ns. -/
def rxConst (s : State) (p : Nat) : Int :=
  (byteFld (tabGet 0 s.fuse.tsCal (tsCalRow s p)) 0 4 : Nat) + toSigned 32 (byteFld (rd s oTsTrim p) 0 4)

/-- TXC of a port in 2^−16 ns. -/
def txConst (s : State) (p : Nat) : Int :=
  (byteFld (tabGet 0 s.fuse.tsCal (tsCalRow s p)) 4 4 : Nat) + toSigned 32 (byteFld (rd s oTsTrim p) 4 4)

/-- An ingress PCS stamp referred to the balls (R505); frames of internal ports have no port constant. -/
def ballsIn (s : State) (p : Nat) (t : Stamp) : Stamp :=
  if p < 512 then stampFrom16 ((stamp16 t : Nat) - rxConst s p) else t

/-- An egress PCS stamp referred to the balls (R505). -/
def ballsOut (s : State) (p : Nat) (t : Stamp) : Stamp :=
  if p < 512 then stampFrom16 ((stamp16 t : Nat) + txConst s p) else t

/-- The ingress time of a frame as it is written into entries (R505). -/
def frameTime (s : State) (f : Frame) : Stamp := ballsIn s f.port f.stamp

/-! ### The counter (R496 to R502) -/

/-- One slew change of a tick: SLEW_RATE ppm of the increment, never past the remainder (R499). -/
def slewChange (s : State) : Int :=
  let d : Int := (timeIncrement s * rd s oSlewRate / 1000000 : Nat)
  if 0 < s.tun.slew then min d s.tun.slew else if s.tun.slew < 0 then max (-d) s.tun.slew else 0

/-- The range of the counter: 2^48 seconds. -/
def ptpRange : Nat := 2 ^ 48 * perSecond

/-- A change of the counter by software or an armed edge: SLEW_REMAIN cleared, counted, raised (R498, R517). -/
def stepped (detail : Nat) (s : State) : State :=
  raise evTimeStepped detail (count (cTime 0x00) { s with tun := { s.tun with slew := 0 } })

/-- TIME_STATE[1:0], the last load. -/
def setLoad (v : Nat) (s : State) : State := wr oTimeState (setFld (rd s oTimeState) 0 2 v) s

/-- The counter loaded at this tick by TIME_SET. -/
def applySet (ns : Nat) (s : State) : State :=
  stepped 0 (setLoad 2 { s with tun := { s.tun with ptp := ns * 2 ^ 32, setDue := none } })

/-- The counter changed at this tick by TIME_STEP. -/
def applyStep (ns : Int) (s : State) : State :=
  stepped 0 { s with tun := { s.tun with ptp := ((s.tun.ptp : Int) + ns * 2 ^ 32).toNat, stepDue := none } }

/-- One TCLK tick (R496, R498, R499). -/
def timeTick (s : State) : State :=
  let s := { s with tun := { s.tun with ticks := s.tun.ticks + 1 } }
  match s.tun.setDue, s.tun.stepDue with
  | some n, some d => applyStep d (applySet n s)
  | some n, none => applySet n s
  | none, some d => applyStep d s
  | none, none =>
    let d := slewChange s
    { s with tun := { s.tun with ptp := (((s.tun.ptp + timeIncrement s : Nat) : Int) + d).toNat % ptpRange, slew := s.tun.slew - d } }

/-- A crystal cycle (R520, R521): a written CAL_SET is loaded; else the clock counts. A clock whose crystal has stopped stands
until it is loaded again. -/
def crystalCycle (c : Cal) : Cal :=
  match c.load with
  | some (sec, sub) => { c with seconds := sec, sub := sub, valid := true, load := none }
  | none =>
    if c.stopped && !c.valid then c
    else if c.sub + 1 < 32768 then { c with sub := c.sub + 1 }
    else { c with sub := 0, seconds := (c.seconds + 1) % 2 ^ 48 }

/-- Parts of a crystal cycle in one. -/
def crystalParts : Nat := 15625000000000000

/-- One CCLK cycle of the crystal-driven calendar clock (R520, R521): 32,768 cycles a second, changed by CAL_TRIM. -/
def calTick (s : State) : State :=
  let p := s.cal.part + (32768 * (10000000 + toSigned 32 (rd s oCalTrim))).toNat
  if p < crystalParts then { s with cal := { s.cal with part := p } }
  else { s with cal := crystalCycle { s.cal with part := p - crystalParts } }

/-- SLEW_REMAIN in nanoseconds. -/
def slewRemain (s : State) : Int := s.tun.slew.tdiv (2 ^ 32)

/-- R497: TIME_INCREMENT within 1,000 ppm of 1.28 ns. -/
def incrementOk (v : Nat) : Bool :=
  128 * 2 ^ 32 * 999 ≤ v * 100000 && v * 100000 ≤ 128 * 2 ^ 32 * 1001

/-- R498: a TIME_STEP that the counter can take. -/
def stepOk (s : State) (ns : Int) : Bool :=
  let t : Int := s.tun.ptp + ns * 2 ^ 32
  0 ≤ t && t < (ptpRange : Int)

/-- A write of TIME_SET (R498). -/
def writeTimeSet (v : Nat) (s : State) : State :=
  wr oTimeSet v { s with tun := { s.tun with setDue := some (v / 2 ^ 32 * 1000000000 + v % 2 ^ 32), stepDue := none } }

/-- A write of TIME_STEP (R498). -/
def writeTimeStep (v : Nat) (s : State) : State :=
  wr oTimeStep v { s with tun := { s.tun with stepDue := some (s.tun.stepDue.getD 0 + toSigned 64 v) } }

/-- A write of TIME_SLEW (R499). -/
def writeTimeSlew (v : Nat) (s : State) : State :=
  wr oTimeSlew v { s with tun := { s.tun with slew := toSigned 32 v * 2 ^ 32 } }

/-- A write of TIME_LATCH (R500): 1 captures the counter of one tick and the CCLK count of that tick. -/
def writeTimeLatch (v : Nat) (s : State) : State :=
  let t := stampOf s.tun.ptp
  let s := wr oTimeLatch v s
  if v = 1 then
    wr oTimeLatched (time80 t) (wr oTimeLatchedFrac t.frac (wr oTimeLatchedCclk (s.clk.cclk - s.clk.cclk % 2) s))
  else s

/-! ### Time pins (R515 to R519) -/

/-- PPS_OUT_EDGE (R515). -/
def execPpsOutEdge (s : State) : Host.Outcome State Fault Refusal :=
  .next (if rd s oPpsOutEnable = 1 then { s with tun := { s.tun with ppsOut := true } } else s)

/-- PPS_OUT_FALL (R515). -/
def execPpsOutFall (s : State) : Host.Outcome State Fault Refusal :=
  .next { s with tun := { s.tun with ppsOut := false } }

/-- A write of PPS_OUT_ENABLE: while it is not 1 the pin is held low (R515). -/
def writePpsOutEnable (v : Nat) (s : State) : State :=
  wr oPpsOutEnable v (if v = 1 then s else { s with tun := { s.tun with ppsOut := false } })

/-- R516: an edge within 100 ms of the previous accepted one. -/
def ppsGlitch (s : State) : Bool := s.tun.ppsAt ≠ 0 && s.clk.cclk + 1 < s.tun.ppsAt + msCclk 100

/-- An armed edge loads the counter (R517), unless software writes the counter on the same tick (R518). -/
def ppsLoad (s : State) : State :=
  let arm := rd s oPpsInArm
  if !arm.testBit 63 || s.tun.setDue.isSome || s.tun.stepDue.isSome then s
  else
    let s := wr oPpsInArm (clearBit arm 63) { s with tun := { s.tun with ptp := fld arm 0 48 * perSecond } }
    stepped 1 (setLoad 3 s)

/-- An accepted edge of 1PPS_IN (R516). -/
def ppsAccept (s : State) : State :=
  let t := stampOf s.tun.ptp
  let s := wr oPpsInTime (time80 t) (wr oPpsInFrac t.frac (wr oPpsInCount ((rd s oPpsInCount + 1) % 2 ^ 32) s))
  let s := { s with tun := { s.tun with ppsAt := s.clk.cclk + 1 } }
  ppsLoad (raise evPpsIn (t.sec % 2 ^ 32) (count (cTime 0x08) s))

/-- PPS_IN (R516, R517): a rising edge of 1PPS_IN. -/
def execPpsIn (s : State) : Host.Outcome State Fault Refusal :=
  .next (if rd s oPpsInEnable ≠ 1 then s else if ppsGlitch s then count (cTime 0x10) s else ppsAccept s)

/-- A write of SYNCE_FREQ or SYNCE_SOURCE: a loss found then is announced as well. -/
def synceEval (s : State) : State :=
  let st := synceState s
  if st = 3 && rd s oSynceState ≠ 3 then
    raise evSynceLoss (rd s oSynceSource) (count (cTime 0x18) (wr oSynceState 3 s))
  else wr oSynceState st s

/-- SYNCE_LOSS (R519): the chosen lane is lost; raised once per loss. -/
def execSynceLoss (s : State) : Host.Outcome State Fault Refusal := .next (synceEval s)

/-! ### Calendar clock (R520 to R525) -/

/-- CAL_STATE. -/
def calState (s : State) : Nat := b2n s.cal.valid + 2 * b2n s.cal.stopped + 4 * b2n s.cal.vbatLow

/-- CAL_TIME (R520): nanoseconds are the sub-second count × 30,517.578125, truncated. -/
def calTime (s : State) : Nat := s.cal.seconds * 2 ^ 32 + s.cal.sub * 30517578125 / 1000000

/-- A write of CAL_SET: its time waits for the next crystal cycle (R521). -/
def writeCalSet (v : Nat) (s : State) : State :=
  wr oCalSet v { s with cal := { s.cal with load := some (v / 2 ^ 32 % 2 ^ 48, v % 2 ^ 32 * 32768 / 1000000000) } }

/-- A write of CAL_SYNC (R524): 1 asks for a load at the next whole second. -/
def writeCalSync (v : Nat) (s : State) : State :=
  let s := wr oCalSync v s
  if v = 1 then { s with tun := { s.tun with calSync := true } } else s

/-- Load the calendar clock with a whole second of PTP time (R524); a time that still waits is older. -/
def calSecond (sec : Nat) (s : State) : State :=
  { s with cal := { s.cal with seconds := sec % 2 ^ 48, sub := 0, part := 0, valid := true, load := none } }

/-- CAL_SYNC_LOAD (R524): the whole second of PTP time that a written CAL_SYNC waits for. -/
def execCalSyncLoad (s : State) : Host.Outcome State Fault Refusal :=
  .next (if s.tun.calSync then calSecond (nowStamp s).sec { s with tun := { s.tun with calSync := false } } else s)

/-- CRYSTAL_STOP (R522). -/
def execCrystalStop (s : State) : Host.Outcome State Fault Refusal :=
  .next { s with cal := { s.cal with valid := false, stopped := true, invalidDue := true } }

/-- VBAT_LOW (R522). -/
def execVbatLow (s : State) : Host.Outcome State Fault Refusal :=
  .next { s with cal := { s.cal with valid := false, vbatLow := true, invalidDue := true } }

/-! ### PTP on egress (R507 to R513) -/

/-- The EtherType of a frame after its VLAN tags, and the offset of what follows it. -/
def etherAfterTags : Nat → Bytes → Nat → Nat × Nat
  | 0, b, o => (beAt b o 2, o + 2)
  | n + 1, b, o =>
    let t := beAt b o 2
    if t = 0x8100 || t = 0x88A8 then etherAfterTags n b (o + 4) else (t, o + 2)

/-- EtherType of a frame after up to four tags. -/
def etherType (b : Bytes) : Nat := (etherAfterTags 4 b 12).1

/-- Ones' complement sum of 16-bit words. -/
def onesSum : Nat → Bytes → Nat
  | acc, [] => acc
  | acc, [a] => let v := acc + a.toNat * 256; v % 65536 + v / 65536
  | acc, a :: b :: t => let v := acc + a.toNat * 256 + b.toNat; onesSum (v % 65536 + v / 65536) t

/-- R510: after a rewrite, the UDP checksum of an IPv4 frame becomes 0; in an IPv6 frame the last two bytes of the UDP payload
take up the change. `o` is the offset of the PTP header, `before` the frame before the rewrite. -/
def fixChecksum (before after : Bytes) (o : Nat) : Bytes :=
  let et := etherType after
  if et = 0x0800 then overwrite after (o - 2) (zeros 2)
  else if et = 0x86DD then
    let udp := o - 8
    let len := beAt after (o - 4) 2
    let pos := udp + len - 2
    if len < 10 || after.length < udp + len then after
    else
      let a := onesSum 0 (slice before udp len)
      let b := onesSum 0 (slice (overwrite after pos (zeros 2)) udp len)
      let x := (a + 65535 - b % 65536) % 65535
      let w := beBytes 2 x
      overwrite after pos (if len % 2 = 0 then w else w.reverse)
  else after

/-- R507: the PTP header with its originTimestamp lies in the frame and not beyond byte 510. -/
def ptpInside (b : Bytes) (o : Nat) : Bool := o + 44 ≤ b.length && o + 43 ≤ 510

/-- Add to correctionField, modulo 2^64. -/
def addCorrection (b : Bytes) (o : Nat) (v : Int) : Bytes :=
  overwrite b (o + 8) (beBytes 8 (ofSigned 64 ((beAt b (o + 8) 8 : Nat) + v)))

/-- R508: the one-step rewrite of a frame without FCS that crosses the PCS point at `t`. -/
def oneStep (s : State) (p : Nat) (t : Stamp) (b : Bytes) (o : Nat) : Bytes :=
  let e := ballsOut s p t
  let r := addCorrection (overwrite b (o + 34) (beBytes 6 e.sec ++ beBytes 4 e.ns)) o (e.frac : Nat)
  fixChecksum b r o

/-- Residence of a frame in 2^−16 ns by R509: CCLK cycles between the PCS stamps, two to a tick, times TIME_INCREMENT, plus
the port constants and the peer delay. -/
def residence (s : State) (f : Frame) (p : Nat) : Int :=
  (((s.clk.cclk - f.rxCclk) * timeIncrement s / 2 / 65536 : Nat) : Int) + txConst s p +
    (if f.port < 512 then rxConst s f.port + (byteFld (rd s oPeerDelay f.port) 0 4 : Nat) else 0)

/-- R509: the transparent-clock rewrite. -/
def tcCorrect (s : State) (f : Frame) (p : Nat) (b : Bytes) (o : Nat) : Bytes :=
  fixChecksum b (addCorrection b o (residence s f p)) o

/-- TS_ACTION at the MAC (R507 to R510): the frame as transmitted, without FCS, and the state with the counters of the
egress pipeline's queue. -/
def ptpEgress (f : Frame) (p : Nat) (b : Bytes) (s : State) : Bytes × State :=
  let o := 2 * f.ra.tsOffset
  let q := pipeOf p
  if f.ra.tsAction = 0 || 3 < f.ra.tsAction then (b, s)
  else if !ptpInside b o then (b, count (cStamp q 0x20) s)
  else if f.ra.tsAction = 1 then (oneStep s p (nowStamp s) b o, count (cStamp q 0x10) s)
  else if f.ra.tsAction = 3 then (tcCorrect s f p b o, count (cStamp q 0x18) s)
  else (b, s)

/-- R511 to R513: post a transmit stamp entry. -/
def postStamp (p tsId : Nat) (t : Stamp) (s : State) : State :=
  let q := pipeOf p
  let w := rd s oTxsWriteIndex q
  let r := rd s oTxsReadIndex q
  let n := (w + 2 ^ 32 - r) % 2 ^ 32
  if n = 64 then raiseOnce evTsOverflow q q (count (cStamp q 0x08) s)
  else
    let e := ballsOut s p t
    let row := tsId % 65536 + p * 2 ^ 16 + time80 e * 2 ^ 32 + e.frac * 2 ^ 112
    let s := wrRow oTxsQueues (64 * q + w % 64) row (wrRow oTxsWriteIndex q ((w + 1) % 2 ^ 32) s)
    let s := count (cStamp q 0x00) s
    if n = 0 then raise evTsAvailable q s else s

/-- R514: TXS_READ_INDEX lies after the write index or more than 64 before it. -/
def txsReadOk (s : State) (q v : Nat) : Bool := (rd s oTxsWriteIndex q + 2 ^ 32 - v) % 2 ^ 32 ≤ 64

/-- R523: at step 04 the counter is loaded from the calendar clock, or with zero. -/
def startTime (s : State) : State :=
  let s := wr oTimeIncrement 0x147AE147B s
  if s.cal.valid then
    setLoad 1 { s with tun := { s.tun with ptp := s.cal.seconds * perSecond + s.cal.sub * 30517578125 / 1000000 * 2 ^ 32 } }
  else setLoad 0 { s with tun := { s.tun with ptp := 0 } }

end Sys2Proof.Machine
end

