-- ==== Sys2Proof/Machine/ControlStore.lean ====
section
/-! DEFINITION. The control store (chapter 5): words, patches, the image and its load. -/

namespace Sys2Proof.Machine
open Sys2Proof

/-- Words of a store (Table 5-2). -/
def storeWords (st : Nat) : Nat := nth 0 [4096, 2048, 16384, 2048] st

/-- A loaded word of 128 bits. -/
def loadedWord (s : State) (st w : Nat) : Nat := tabGet 0 s.cs.words (st * 65536 + w)

/-- A PATCH_TABLE row of a set (Table 5-6). -/
def patchRow (s : State) (set r : Nat) : Nat := rdSet s set oPatchTable r

/-- Whether a row is valid and names a store and a word. -/
def patchNames (v st w : Nat) : Bool := byteFld v 0 1 = 1 && byteFld v 1 1 = st && byteFld v 4 4 = w

/-- The word a frame of an epoch reads (R177). -/
def csWord (s : State) (epoch st w : Nat) : Nat :=
  match (List.range 64).find? (fun r => patchNames (patchRow s (setFor s epoch) r) st w) with
  | some r => byteFld (patchRow s (setFor s epoch) r) 0x18 16
  | none => loadedWord s st w

/-- R175: the code a PATCH_TABLE row meets in a set. -/
def patchCode (s : State) (set r v : Nat) : Nat :=
  if byteFld v 0 1 ≠ 1 then 0
  else
    let st := byteFld v 1 1
    let w := byteFld v 4 4
    if storeWords st ≤ w then 0x0B
    else if byteFld v 8 16 ≠ loadedWord s st w then 0x81
    else if (List.range 64).any (fun q => q ≠ r && patchNames (patchRow s set q) st w) then 0x20
    else 0

/-- R176: every valid row of a set passes R175. -/
def patchesOk (s : State) (set : Nat) : Bool :=
  (List.range 64).all (fun r => patchCode s set r (patchRow s set r) = 0)

/-! ### Templates (Table 5-3) -/

/-- The two words of a template as a frame of an epoch reads them. -/
def templateWord (s : State) (epoch t : Nat) : Nat := csWord s epoch 1 (2 * t) + csWord s epoch 1 (2 * t + 1) * 2 ^ 128

/-- ROUTINE. -/
def tmRoutine (w : Nat) : Nat := byteFld w 0 2
/-- LOOKUPS. -/
def tmLookups (w : Nat) : Nat := byteFld w 2 1 % 16
/-- PROFILE. -/
def tmProfile (w : Nat) : Nat := byteFld w 3 1
/-- SEARCH. -/
def tmSearch (w : Nat) : Bool := (byteFld w 4 1).testBit 0
/-- SCAN. -/
def tmScan (w : Nat) : Bool := (byteFld w 4 1).testBit 1
/-- LEDGER mode: 0 none, 1 lookup, 2 lookup and admission. -/
def tmLedger (w : Nat) : Nat := byteFld w 5 1 / 64
/-- Admission template. -/
def tmAdmission (w : Nat) : Nat := byteFld w 5 1 % 64
/-- SCAN_LEN. -/
def tmScanLen (w : Nat) : Nat := byteFld w 6 2
/-- KEY_KIND. -/
def tmKeyKind (w : Nat) : Nat := byteFld w 8 1
/-- MAX_STEPS. -/
def tmMaxSteps (w : Nat) : Nat := byteFld w 9 1

/-! ### The image (Table 5-4, R166) -/

/-- The staged bytes: rows of CS_STAGE in order, `n` bytes. A row never written counts as zeros (log entry 9). -/
def stagedBytes (s : State) (n : Nat) : Bytes :=
  ((List.range (ceilDiv n 256)).map (fun r => leBytes 256 (rd s oCsStage r))).flatten.take n

/-- ORDER_CODE, zero-padded to 16 bytes: "ULS5120-HB4". -/
def orderCode : Bytes := [0x55, 0x4C, 0x53, 0x35, 0x31, 0x32, 0x30, 0x2D, 0x48, 0x42, 0x34, 0, 0, 0, 0, 0]

/-- STEPPING: "B0". -/
def stepping : Bytes := [0x42, 0x30]

/-- Word counts of the four sections. -/
def sectionWords (b : Bytes) : List Nat := [leAt b 0x24 4, leAt b 0x28 4, leAt b 0x2C 4, leAt b 0x30 4]

/-- R166 step 1. -/
def imageFormatOk (b : Bytes) (length : Nat) : Bool :=
  let w := sectionWords b
  length = b.length && 352 ≤ length && slice b 0 4 = [0x55, 0x4C, 0x43, 0x53] && leAt b 4 2 = 1 && leAt b 6 2 = 0 &&
    leAt b 0x1A 2 = 0 && leAt b 0x34 12 = 0 && leAt b 0xA1 95 = 0 &&
    nth 0 w 0 ≤ 4096 && nth 0 w 1 ≤ 2048 && nth 0 w 1 % 2 = 0 && nth 0 w 2 ≤ 16384 && nth 0 w 3 ≤ 2048 &&
    length = 256 + 16 * (nth 0 w 0 + nth 0 w 1 + nth 0 w 2 + nth 0 w 3) + 96

/-- R166 step 4: SIGNATURE, r ‖ s, verifies over every byte before it under PUBLIC_KEY, an uncompressed point. -/
def signatureOk (b : Bytes) : Bool :=
  let n := b.length - 96
  leAt b 0x40 1 = 4 && ecdsaOk (beAt b 0x41 48, beAt b 0x71 48) (beAt b n 48) (beAt b (n + 48) 48) (b.take n)

/-- R166 step 5: a word of the egress section encodes a backward branch. -/
def branchesBack (b : Bytes) : Bool :=
  let w := sectionWords b
  let o := 256 + 16 * (nth 0 w 0 + nth 0 w 1 + nth 0 w 2)
  (List.range (nth 0 w 3)).any (fun i => Config.backwardBranch i (leAt b (o + 16 * i) 16))

/-- R166 in its order, R167: the result code of Table 5-5. -/
def imageResult (s : State) (b : Bytes) (length : Nat) : Nat :=
  if !imageFormatOk b length then 2
  else if slice b 8 16 ≠ orderCode || slice b 0x18 2 ≠ stepping then 3
  else if s.fuse.csKeyHash = 0 || leNat (sha256 (slice b 0x40 97)) ≠ s.fuse.csKeyHash then 4
  else if !signatureOk b then 5
  else if branchesBack b then 6
  else 1

/-- Write one section's words into a store; words beyond the count are zero. -/
def loadSection (st n : Nat) (b : Bytes) (t : Tab Nat) : Tab Nat :=
  (List.range n).foldl (fun a i => tabPut 0 a (st * 65536 + i) (leAt b (16 * i) 16)) t

/-- The words of all four sections. -/
def imageWords (b : Bytes) : Tab Nat :=
  let w := sectionWords b
  let o1 := 256 + 16 * nth 0 w 0
  let o2 := o1 + 16 * nth 0 w 1
  let o3 := o2 + 16 * nth 0 w 2
  loadSection 3 (nth 0 w 3) (b.drop o3) (loadSection 2 (nth 0 w 2) (b.drop o2)
    (loadSection 1 (nth 0 w 1) (b.drop o1) (loadSection 0 (nth 0 w 0) (b.drop 256) [])))

/-- R170: every row of PATCH_TABLE invalid in both sets. -/
def clearPatches (s : State) : State :=
  forEach [0, 1] (fun t set => forEach (List.range 64) (fun u r =>
    wrSet set oPatchTable r (setByteFld (patchRow u set r) 0 1 0) u) t) s

/-- R172, R184: halts that were to end during a load end with it, but for pipelines that only a load that succeeds returns. -/
def endCsHalts (s : State) : State :=
  { wr oHalted (andNot (rd s oHalted) (andNot s.cs.release s.cs.dead)) s with
    cs := { s.cs with release := s.cs.release &&& s.cs.dead } }

/-- R170: a load succeeds. -/
def csLoaded (b : Bytes) (s : State) : State :=
  let s := clearPatches { s with cs := { s.cs with words := imageWords b, bad := [], dead := 0 } }
  let s := wr oCsImageId (leAt b 0x1C 4) (wr oCsImageVersion (leAt b 0x20 4) s)
  raise evCsLoaded (leAt b 0x1C 4) (wr oCsState 2 (wr oCsLoadResult 1 s))

/-- R171: a load fails. -/
def csFailed (code : Nat) (s : State) : State :=
  raise evCsLoadFail code (wr oCsState s.cs.prevState (wr oCsLoadResult code s))

/-- R168: the code a write of CS_LOAD meets. -/
def csLoadCode (s : State) : Nat :=
  if rd s oCsState ≠ 0 && !pipesHalted s then 0x82
  else if setState s ≠ 0 then 0x12
  else if rd s oCsState = 1 then 0x83
  else 0

/-- An accepted write of CS_LOAD (R169). -/
def writeCsLoad (v : Nat) (s : State) : State :=
  wr oCsLoad v (wr oCsState 1 { s with cs := { s.cs with prevState := rd s oCsState, length := v } })

/-- CS_LOAD_COMPLETE (R170, R171): the check ends. -/
def execCsLoadComplete (s : State) : Host.Outcome State Fault Refusal :=
  .next (if rd s oCsState ≠ 1 then s
    else
      let b := stagedBytes s (min s.cs.length 1048576)
      let r := imageResult s b s.cs.length
      endCsHalts (if r = 1 then csLoaded b s else csFailed r s))

/-! ### Errors of the store (R182 to R184) -/

/-- A copy of a word, as it is held in the list of bad copies. -/
def badWord (n st w : Nat) : Nat := n * 2 ^ 20 + st * 2 ^ 16 + w

/-- DETAIL of CS_ECC: [31:28] pipeline, [27:26] store, [15:0] word. -/
def csEccDetail (n st w : Nat) : Nat := n * 2 ^ 28 + st * 2 ^ 26 + w % 2 ^ 16

/-- R183: an uncorrectable error of a pipeline's copy: counted, raised, and its repair starts. -/
def csUncorrectable (n st w : Nat) (s : State) : State :=
  let b := badWord n st w
  let s := if s.cs.bad.contains b then s else { s with cs := { s.cs with bad := s.cs.bad ++ [b] } }
  raise evCsEcc (csEccDetail n st w) (count (cPipe n 0x48) s)

/-- R177: a valid row of PATCH_TABLE gives the word that a frame of an epoch reads. -/
def patched (s : State) (epoch st w : Nat) : Bool :=
  (List.range 64).any (fun r => patchNames (patchRow s (setFor s epoch) r) st w)

/-- One word of pipeline `n`'s copy is read for a frame of an epoch, with what its code found: a patched word comes from
PATCH_TABLE, a single-bit error is corrected and counted, an uncorrectable one starts its repair (R177, R182, R183). -/
def readStore (n epoch st w : Nat) (e : Ecc) (s : State) : State :=
  if patched s epoch st w then s
  else
    match e with
    | .clean => s
    | .corrected => count (cPipe n 0x40) s
    | .uncorrectable => csUncorrectable n st w s

/-- R183: a word whose copy in pipeline `n` is bad gives the store-error fault to a frame that reads it. -/
def storeFault (s : State) (n epoch st w : Nat) : Bool := !patched s epoch st w && s.cs.bad.contains (badWord n st w)

/-- Several words of one store are read. -/
def readStores (n epoch st : Nat) (l : List (Nat × Ecc)) (s : State) : State :=
  forEach l (fun t r => readStore n epoch st r.1 r.2 t) s

/-- Pipelines whose copy of a word is bad. -/
def badPipes (s : State) (st w : Nat) : List Nat := (List.range 16).filter (fun n => s.cs.bad.contains (badWord n st w))

/-- CS_REPAIR_COMPLETE (R183, R184): the copy is made from the lowest-numbered intact one, or the affected pipelines are
halted, CS_ECC raised once for each, and only a new load returns them. -/
def execCsRepairComplete (n st w : Nat) (s : State) : Host.Outcome State Fault Refusal :=
  onUnits (isPipe n && isStore st && w < 65536)
    (let bad := badPipes s st w
     if !bad.contains n then s
     else if bad.length < 16 then { s with cs := { s.cs with bad := s.cs.bad.erase (badWord n st w) } }
     else
       let fresh := bad.filter (fun k => !s.cs.dead.testBit k)
       let s := wr oHaltRequest (bad.foldl setBit (rd s oHaltRequest)) s
       let s := { s with cs := { s.cs with dead := bad.foldl setBit s.cs.dead } }
       forEach fresh (fun t k => raise evCsEcc (csEccDetail k st w) t) s)

end Sys2Proof.Machine
end

