-- ==== Sys2Proof/Machine/Deferred.lean ====
section
/-! DEFINITION. Deferred Work Scheduler (chapter 12): issue, spill, refill, dispatch and cursors. -/

namespace Sys2Proof.Machine
open Sys2Proof

/-- CLASS of a kind in DW_KIND. -/
def kindClass (s : State) (k : Nat) : Nat := byteFld (rd s oDwKind k) 0 1 % 8
/-- DEADLINE of a kind in DW_KIND, in CCLK. -/
def kindDeadline (s : State) (k : Nat) : Nat := usCclk (byteFld (rd s oDwKind k) 4 4)

/-- Kinds 7, 8 and 11 are lost when there is no room (Table 12-1). -/
def lostKind (k : Nat) : Bool := k = 7 || k = 8 || k = 11

/-- Set the scheduler's state. -/
def setDw (d : Dw) (s : State) : State := { s with dw := d }

/-- R438: operation `a` goes before `b`. -/
def opBefore (a b : DwOp) : Bool :=
  a.deadline < b.deadline || (a.deadline = b.deadline && (b.cls < a.cls || (a.cls = b.cls && (a.issued < b.issued ||
    (a.issued = b.issued && a.kind < b.kind)))))

/-- The operation that R438 puts first among those that satisfy `p`. -/
def firstOp (p : DwOp → Bool) (l : List DwOp) : Option DwOp :=
  l.foldl (fun best o => if !p o then best else match best with
    | none => some o
    | some b => if opBefore o b then some o else some b) none

/-- The operation of class 0 to 6 with the latest DEADLINE. -/
def latestOp (l : List DwOp) : Option DwOp :=
  l.foldl (fun best o => if o.cls = 7 then best else match best with
    | none => some o
    | some b => if b.deadline < o.deadline then some o else some b) none

/-- The 64-byte image of an operation (Table 12-2). -/
def opImage (o : DwOp) : Bytes :=
  let pay := (if o.body ≠ [] then o.body else (o.args.map (leBytes 4)).flatten)
  leBytes 1 o.kind ++ leBytes 1 o.cls ++ leBytes 1 (b2n o.handle.isSome * 2 + b2n o.spilled) ++ leBytes 1 o.list ++ zeros 4 ++
    leBytes 8 o.notBefore ++ leBytes 8 o.deadline ++ leBytes 8 o.issued ++ leBytes 4 (o.handle.getD 0) ++ (pay ++ zeros 28).take 28

/-! ### The spill area (R39, R441 to R445) -/

/-- Entries of the spill area in use. -/
def spillUsed (s : State) : Nat := s.dw.buckets.length + s.dw.far.length

/-- R441, R444, R608: the spill area takes an operation of a kind; at low water it takes none. -/
def spillRoom (s : State) (k : Nat) : Bool :=
  !lowLedger s && spillUsed s < 1048576 - (if lostKind k then rd s oSpillReserve else 0)

/-- One operation at 250 M/s, in 1/32 CCLK: 6.25 CCLK (R39). -/
def spillGap : Nat := 200

/-- R39: the spill area may be written now, or read now. -/
def mayWriteSpill (s : State) : Bool := s.dw.spillNext ≤ 32 * s.clk.cclk
/-- It may be read now. -/
def mayReadSpill (s : State) : Bool := s.dw.refillNext ≤ 32 * s.clk.cclk

/-- `n` operations written to the spill area count toward the limit of R39. -/
def wroteSpill (n : Nat) (s : State) : State :=
  setDw { s.dw with spillNext := max s.dw.spillNext (32 * s.clk.cclk) + n * spillGap } s

/-- `n` operations read from it. -/
def readSpill (n : Nat) (s : State) : State :=
  setDw { s.dw with refillNext := max s.dw.refillNext (32 * s.clk.cclk) + n * spillGap } s

/-- R442: an operation's deadline lies within the range of the buckets. -/
def inRange (s : State) (o : DwOp) : Bool := o.deadline < s.clk.cclk + 1024 * usCclk (rd s oSpillGrain)

/-- Write an operation to the spill area. -/
def spillOp (o : DwOp) (s : State) : State :=
  let o := { o with spilled := true, handle := none }
  let s := wroteSpill 1 (count (cWork 0x00) (count (cKind o.kind 0x20) s))
  if inRange s o then setDw { s.dw with buckets := s.dw.buckets ++ [o] } s
  else setDw { s.dw with far := s.dw.far ++ [o] } s

/-- An operation is lost (R444, R445): counted, and DW_LOSS at most once per second. -/
def loseOp (o : DwOp) (s : State) : State :=
  let s := count (cKind o.kind 0x28) s
  let s := when (o.kind = 7) (count (cLookup 0x68)) s
  let s := when (o.kind = 8) (count (cService 0x28)) s
  raiseOnce evDwLoss 0 o.kind s

/-- R445: an operation lost from the spill area; the port-map entry of a NAT_RELEASE stays HELD until reset. -/
def loseEntry (o : DwOp) (s : State) : State :=
  let s := when (o.kind = 5) (fun t => wr oOrphanResources ((rd t oOrphanResources + 1) % 2 ^ 32) t) s
  loseOp o s

/-- R435: an on-die entry is free for an operation of a class. -/
def dieFree (s : State) (cls : Nat) : Bool :=
  s.dw.onDie.length < 8192 &&
    (cls = 7 || (s.dw.onDie.filter (fun o => o.cls ≠ 7)).length < 8192 - rd s oClass7Reserve)

/-- Take an on-die entry: a pool 7 buffer of owner 4,133, if the arbitration of this cycle grants it (R435). -/
def putOnDie (o : DwOp) (s : State) : Option State :=
  if !dieFree s o.cls then none
  else
    match grantInternal 4133 7 s with
    | (none, _) => none
    | (some h, t) => some (setDw { t.dw with onDie := t.dw.onDie ++ [{ o with handle := some h }] } t)

/-- The new operation is spilled, where it may be. -/
def spillNew (o : DwOp) (s : State) : Option State :=
  if o.cls ≠ 7 && spillRoom s o.kind && mayWriteSpill s then some (spillOp o s) else none

/-- An operation takes the on-die entry of operation `v`, which is spilled. -/
def takeEntry (v o : DwOp) (s : State) : State :=
  spillOp v (setDw { s.dw with onDie := s.dw.onDie.erase v ++ [{ o with handle := v.handle }] } s)

/-- R441: the new operation, or the latest on die, is spilled; none where neither can be. -/
def spillFor (o : DwOp) (s : State) : Option State :=
  match latestOp s.dw.onDie with
  | some v =>
    if (o.cls = 7 || o.deadline < v.deadline) && spillRoom s v.kind && mayWriteSpill s then some (takeEntry v o s)
    else spillNew o s
  | none => spillNew o s

/-- An operation is held on die or spilled, where there is room for it. -/
def placeOp (o : DwOp) (s : State) : Option State :=
  match putOnDie o s with
  | some t => some t
  | none => spillFor o s

/-- R444: an operation that can be neither held nor spilled: lost, or its issuer waits. A spill that only the rate of R39 keeps
back is counted in RATE_HELD. -/
def noRoom (o : DwOp) (s : State) : State :=
  let s := when (spillRoom s o.kind && !mayWriteSpill s) (count (cWork 0x18)) s
  if lostKind o.kind then loseOp o s
  else raise evDwWait o.kind (count (cKind o.kind 0x30) (setDw { s.dw with waiting := s.dw.waiting ++ [o] } s))

/-- The block that issues an operation: a flow slice for a LEDGER_REPAIR, and for the NAT_RELEASE of a record that it removes;
else the one block that issues its kind. -/
def issuer (o : DwOp) : Nat × Nat :=
  if o.kind = 4 then (0, o.list) else if o.kind = 5 then (0, nth 0 o.args 2 / 4194304) else (o.kind, 0)

/-- The issuer of an operation waits already (R383). -/
def issuerWaits (s : State) (o : DwOp) : Bool := s.dw.waiting.any (fun w => issuer w = issuer o)

/-- R444: a flow slice waits, and takes no operation. -/
def sliceWaits (s : State) (f : Nat) : Bool := s.dw.waiting.any (fun w => issuer w = (0, f))

/-- Hold a record operation: on die, spilled, lost or waiting; behind an operation of its issuer that waits, it waits too. -/
def holdOp (o : DwOp) (s : State) : State :=
  if issuerWaits s o && !lostKind o.kind then setDw { s.dw with waiting := s.dw.waiting ++ [o] } s
  else
    match placeOp o s with
    | some t => t
    | none => noRoom o s

/-- Issue a record operation with explicit times (R432). -/
def issueAt (kind list notBefore deadline : Nat) (args : List Nat) (body : Bytes) (s : State) : State :=
  let o : DwOp := { kind := kind, cls := kindClass s kind, list := list, notBefore := notBefore, deadline := deadline,
                    issued := s.clk.cclk, args := args, body := body }
  holdOp o (count (cKind kind 0x00) s)

/-- Issue a record operation whose times are its issue and DW_KIND. -/
def issue (kind list : Nat) (args : List Nat) (body : Bytes) (s : State) : State :=
  issueAt kind list s.clk.cclk (s.clk.cclk + kindDeadline s kind) args body s

/-- Start a way-held operation (R432, R433). -/
def issueWay (kind rec cls notBefore deadline : Nat) (s : State) : State :=
  let o : DwOp := { kind := kind, cls := cls, list := rec / 4194304, notBefore := notBefore, deadline := deadline,
                    issued := s.clk.cclk, args := [rec] }
  count (cKind kind 0x00) (setDw { s.dw with wayHeld := s.dw.wayHeld ++ [o] } s)

/-- A way-held operation of a kind on a record. -/
def wayOp (s : State) (kind rec : Nat) : Option DwOp := s.dw.wayHeld.find? (fun o => o.kind = kind && o.args = [rec])

/-- The way-held operations of a record end (R433). -/
def endWay (kind rec : Nat) (s : State) : State :=
  setDw { s.dw with wayHeld := s.dw.wayHeld.filter (fun o => !(o.kind = kind && o.args = [rec])) } s

/-! ### Refill (R443) -/

/-- End of the bucket an operation lies in. -/
def bucketEnd (s : State) (o : DwOp) : Nat :=
  let g := usCclk (rd s oSpillGrain)
  (o.deadline / g + 1) * g

/-- The operations of the earliest non-empty bucket. -/
def earliestBucket (s : State) : List DwOp :=
  match firstOp (fun _ => true) s.dw.buckets with
  | some o => s.dw.buckets.filter (fun x => bucketEnd s x = bucketEnd s o)
  | none => []

/-- Read one operation of the earliest bucket; which one is left open, so a free value chooses. -/
def readBucket (s : State) : Option (DwOp × State) :=
  let l := earliestBucket s
  let (r, t) := drawFree s
  match l[r % l.length]? with
  | some o => some (o, readSpill 1 (count (cWork 0x08) (setDw { t.dw with buckets := t.dw.buckets.erase o } t)))
  | none => none

/-- The latest DEADLINE held on die. -/
def latestDeadline (s : State) : Nat := s.dw.onDie.foldl (fun m o => max m o.deadline) 0

/-- R443: the scheduler refills to REFILL_MARK. -/
def wantsRefill (s : State) : Bool := s.dw.onDie.length < rd s oRefillMark && dieFree s 0

/-- R443: the operation that an exchange would spill: the earliest bucket ends no later than the latest DEADLINE on die. -/
def wantsExchange (s : State) : Option DwOp :=
  match latestOp s.dw.onDie, (earliestBucket s).head? with
  | some v, some e => if bucketEnd s e ≤ latestDeadline s then some v else none
  | _, _ => none

/-- A refilled operation takes its place; one whose entry is in error is lost (R445). -/
def refillOne (s : State) : Option State :=
  match readBucket s with
  | some (o, t) => if o.bad then some (loseEntry o t) else putOnDie o t
  | none => none

/-- One exchange (R443). -/
def exchange (v : DwOp) (s : State) : Option State :=
  match readBucket s with
  | some (o, t) => if o.bad then some (loseEntry o t) else some (count (cWork 0x20) (takeEntry v o t))
  | none => none

/-- The rate of R39 keeps a refill back; it is counted once. -/
def holdRefill (s : State) : State :=
  if s.dw.refillHeld then s else count (cWork 0x18) (setDw { s.dw with refillHeld := true } s)

/-- One refill or exchange, if R443 asks for one and R39 allows it. -/
def refillStep (s : State) : Option State :=
  if s.dw.buckets.isEmpty then none
  else if wantsRefill s then (if mayReadSpill s then refillOne s else some (holdRefill s))
  else
    match wantsExchange s with
    | some v => if mayReadSpill s && mayWriteSpill s then exchange v s else some (holdRefill s)
    | none => none

/-- Refill or exchange as far as R443 and R39 allow: at most one operation at a time. -/
def refill (s : State) : State :=
  match refillStep s with
  | some t => if mayReadSpill s then setDw { t.dw with refillHeld := false } t else t
  | none => s

/-- Operations that wait are held as soon as there is room (R383, R441, R444), oldest first. -/
def retryWaiting (s : State) : State :=
  let l := s.dw.waiting
  forEach l (fun t o =>
    match (if t.dw.waiting.any (fun w => issuer w = issuer o) then none else placeOp o t) with
    | some u => u
    | none => setDw { t.dw with waiting := t.dw.waiting ++ [o] } t) (setDw { s.dw with waiting := [] } s)

/-! ### Cursors (R434) -/

/-- Start of a cursor's pass and the step it counts from. -/
def cursorBase (s : State) (c : Nat) : Nat × Nat := tabGet (0, 0) s.dw.passStart c
/-- The step a cursor takes next. -/
def cursorStep (s : State) (c : Nat) : Nat := tabGet 0 s.dw.passStep c

/-- When the next step of a cursor of `n` steps and a period of `p` CCLK is due. -/
def cursorDue (s : State) (c n p : Nat) : Nat :=
  let b := cursorBase s c
  b.1 + (cursorStep s c - b.2) * p / (n - b.2)

/-- Port-map entries of a pool of the active set (R339): IN_COUNT × 3 × BLOCK where VALID is 1. -/
def poolEntries (s : State) (p : Nat) : Nat :=
  let b := rdSet s (activeSet s) oNatPools p
  if byteFld b 0 1 = 1 then byteFld b 8 4 * 3 * byteFld b 2 2 else 0

/-- All port-map entries of the valid pools. -/
def auditEntries (s : State) : Nat := (List.range 256).foldl (fun a p => a + poolEntries s p) 0

/-- Steps of a MAC_AGING pass: buckets, then overflow entries. -/
def agingSteps : Nat := 278528

/-- Kind, list, steps and period of a cursor (Table 12-1): 0–15 the slices' aging, 16 the port-map audit, 17 MAC aging. None
where a period of 0 disables it, or there is nothing to step through. -/
def cursorOf (s : State) (c : Nat) : Option (Nat × Nat × Nat × Nat) :=
  if c < 16 then some (3, c, rd s oSlotsPerSlice, msCclk (rd s oAgeSweepPeriod))
  else if c = 16 then
    let p := rd s oAuditPeriod * 1562500000
    if p = 0 || auditEntries s = 0 then none else some (6, 16, auditEntries s, p)
  else
    let p := msCclk (rd s oAgePeriod)
    if p = 0 then none else some (10, 17, agingSteps, p)

/-- The next step of a cursor as an operation: both its times are the step's, and it counts as issued at that time (log entry
130). -/
def cursorOp (s : State) (c : Nat) : Option DwOp :=
  (cursorOf s c).map (fun x =>
    let due := cursorDue s c x.2.2.1 x.2.2.2
    { kind := x.1, cls := kindClass s x.1, list := x.2.1, notBefore := due, deadline := due, issued := due })

/-! ### Dispatch (R437 to R440) -/

/-- The operations of a ready list that may run now (R431, R438). -/
def readyOps (s : State) (l : Nat) : List DwOp :=
  ((s.dw.onDie ++ s.dw.wayHeld).filter (fun o => o.list = l) ++ (if l < 18 then (cursorOp s l).toList else [])).filter
    (fun o => o.notBefore ≤ s.clk.cclk)

/-- Dispatches of a list per FCLK (Table 12-3). -/
def listRate (l : Nat) : Nat := if l = 16 then 4 else if l = 17 || l = 18 then 1 else 2

/-- Nothing is dispatched while the scheduler is halted (R446). -/
def dispatches (s : State) : Bool := inService s 38

/-- The operation a list dispatches next (R437, R438), while the scheduler runs and the list's limit for this FCLK holds. -/
def listFirst (s : State) (l : Nat) : Option DwOp :=
  if dispatches s && inCycle s (listKey l) (fclk s) < listRate l then firstOp (fun _ => true) (readyOps s l) else none

/-- An operation dispatched after its deadline (R440). -/
def countLate (o : DwOp) (s : State) : State :=
  if s.clk.cclk ≤ o.deadline then s
  else
    let d := s.clk.cclk - o.deadline
    let s := ctrMax (cKind o.kind 0x18) d (count (cKind o.kind 0x10) s)
    if usCclk (rd s oLateThreshold) < d then raiseOnce evDwLate 0 o.kind (wr oLateLast (leNat (opImage o)) s) else s

/-- What every dispatch counts. -/
def countDispatch (o : DwOp) (s : State) : State :=
  useCycle (listKey o.list) (fclk s) (countLate o (count (cKind o.kind 0x08) (occurGlobal 0x110 1 s)))

/-- The record operation of a kind that its list dispatches next, if it satisfies `p`: the target takes it. -/
def nextOp (s : State) (list kind : Nat) (p : DwOp → Bool) : Option DwOp :=
  match listFirst s list with
  | some o => if o.kind = kind && s.dw.onDie.contains o && p o then some o else none
  | none => none

/-- A dispatched record operation leaves the scheduler; what waits takes its entry, and spilled operations come back. -/
def dispatched (o : DwOp) (s : State) : State :=
  let s := countDispatch o (setDw { s.dw with onDie := s.dw.onDie.erase o } s)
  let s := match o.handle with
    | some h => releaseBuffer h 4133 s
    | none => s
  refill (retryWaiting s)

/-- The way-held operation of a record that its slice's list dispatches next. -/
def nextWay (s : State) (kind rec : Nat) : Option DwOp :=
  match wayOp s kind rec with
  | some o => if listFirst s o.list = some o then some o else none
  | none => none

/-- The step of cursor `c` that its list dispatches next. -/
def nextStep (s : State) (c : Nat) : Option DwOp :=
  match cursorOp s c with
  | some o => if listFirst s o.list = some o then some o else none
  | none => none

/-- One step of a cursor: counted, re-paced when it is late by more than a quarter of its period, and moved on. -/
def stepCursor (c : Nat) (o : DwOp) (s : State) : State :=
  match cursorOf s c with
  | none => s
  | some (kind, _, n, p) =>
    let k := cursorStep s c
    let due := o.notBefore
    let s := countDispatch o (count (cKind kind 0x00) s)
    let s := if due + p / 4 < s.clk.cclk then
        count (cWork 0x28) (setDw { s.dw with passStart := tabPut (0, 0) s.dw.passStart c (s.clk.cclk, k) } s)
      else s
    if k + 1 < n then setDw { s.dw with passStep := tabPut 0 s.dw.passStep c (k + 1) } s
    else setDw { s.dw with passStep := tabPut 0 s.dw.passStep c 0,
                           passStart := tabPut (0, 0) s.dw.passStart c (s.clk.cclk, 0) } s

/-! ### Far passes and the halt (R442, R445, R446) -/

/-- The entries at the listed places are in error. -/
def markSpilled (bad : List Nat) (from_ : Nat) (l : List DwOp) : List DwOp :=
  (l.zipIdx from_).map (fun x => if bad.contains x.2 then { x.1 with bad := true } else x.1)

/-- R442: a far pass starts at the whole multiples of 256 × SPILL_GRAIN of the grid. -/
def farDue (s : State) : Bool := (s.clk.cclk - s.dw.gridFrom) % (256 * usCclk (rd s oSpillGrain)) = 0

/-- The far list is read, what is in error is lost, and what has come within range moves into buckets. An error in a bucket
shows when the entry is read back (R445). -/
def farPass (bad : List Nat) (s : State) : State :=
  let far := markSpilled bad 0 s.dw.far
  let s := setDw { s.dw with buckets := markSpilled bad far.length s.dw.buckets, far := far.filter (fun o => !o.bad) } s
  let s := forEach (far.filter (·.bad)) (fun t o => loseEntry o t) s
  let near := s.dw.far.filter (inRange s)
  readSpill near.length (wroteSpill near.length (ctrAdd (cWork 0x10) near.length
    (setDw { s.dw with buckets := s.dw.buckets ++ near, far := s.dw.far.filter (fun o => !inRange s o) } s)))

/-- FAR_PASS (R442). -/
def execFarPass (bad : List Nat) (s : State) : Host.Outcome State Fault Refusal :=
  .next (if farDue s then refill (farPass bad s) else s)

/-- A write of SPILL_GRAIN is made while the scheduler is halted; the buckets are emptied before it leaves the halt. -/
def writeSpillGrain (v : Nat) (s : State) : State := wr oSpillGrain v (setDw { s.dw with regrain := true } s)

/-- The scheduler leaves its halt (R442). -/
def dwReturn (s : State) : State :=
  if s.dw.regrain then
    setDw { s.dw with far := s.dw.far ++ s.dw.buckets, buckets := [], regrain := false, gridFrom := s.clk.cclk } s
  else s

/-- R447: the code a DW_KIND row meets on its own: CLASS 7 of a lost kind, CLASS beyond 7, or a DEADLINE out of range. -/
def dwKindOk (row v : Nat) : Bool :=
  let cls := byteFld v 0 1
  let dl := byteFld v 4 4
  let uses := row = 2 || row = 4 || (7 ≤ row && row ≤ 9) || (11 ≤ row && row ≤ 14)
  cls ≤ 7 && !(cls = 7 && lostKind row) && (!uses || (1 ≤ dl && dl ≤ 10000000))

/-- R447: REFILL_MARK against CLASS7_RESERVE. -/
def refillMarkOk (s : State) (v : Nat) : Bool := v ≤ 8192 - rd s oClass7Reserve

end Sys2Proof.Machine
end

