-- ==== Sys2Proof/Machine/Ingress.lean ====
section
/-! DEFINITION. From the lane to the end of the ingress routine: reception, staging, head acceptance and instructions
(chapters 1, 4 and 5). -/

namespace Sys2Proof.Machine
open Sys2Proof

/-! ### Pre-classification (R144, R145) -/

/-- DSCP of an untagged IP frame, none for any other frame. -/
def dscpOf (b : Bytes) : Option Nat :=
  let et := beAt b 12 2
  if et = 0x0800 then some (beAt b 15 1 / 4)
  else if et = 0x86DD then some (beAt b 14 2 / 64 % 64)
  else none

/-- The ingress class of a frame under the maps of a port in one set. -/
def ingressClass (s : State) (set p : Nat) (b : Bytes) : Nat :=
  let et := beAt b 12 2
  if et = 0x8100 || et = 0x88A8 then fld (rdSet s set (oPcpClass p) 0) (3 * (beAt b 14 1 / 32)) 3
  else
    match dscpOf b with
    | some d => fld (rdSet s set (oDscpClass p) 0) (3 * d) 3
    | none => rdSet s set (oUntaggedClass p) 0

/-- R144: the class is express on the port. -/
def isExpress (s : State) (set p cls : Nat) : Bool := (rdSet s set (oExpressClasses p) 0).testBit cls

/-! ### Staging (R24, R25) -/

/-- Bytes of ingress staging of a pipeline, and the part kept for express frames (R24). -/
def stagingBytes : Nat := 1048576
/-- The part of staging kept for express frames. -/
def expressBytes : Nat := 65536

/-- A frame's body is in staging: it waits for acceptance or, accepted, for its buffer (R381). -/
def inStaging (n : Nat) (f : Frame) : Bool :=
  f.pipe = n && f.port < 512 && f.kind = .own && f.handle = none

/-- Bytes of staging in use, by frames that satisfy `q`. -/
def stagedSum (s : State) (n : Nat) (q : Frame → Bool) : Nat :=
  s.pip.frames.foldl (fun a e => if inStaging n e.2 && q e.2 then a + frameLen e.2 else a) 0

/-- R24, R25: the pipeline's staging holds a frame of `len` bytes more. -/
def stagingHolds (s : State) (n len : Nat) (express : Bool) : Bool :=
  stagedSum s n (fun _ => true) + len ≤ stagingBytes &&
    (express || stagedSum s n (fun f => !f.express) + len ≤ stagingBytes - expressBytes)

/-- The whole frame enters staging (R23, R144, R145). -/
def stageFrame (p : Nat) (b : Bytes) (s : State) : State :=
  let n := pipeOf p
  let cls := ingressClass s (activeSet s) p b
  let ex := isExpress s (activeSet s) p cls
  if !stagingHolds s n b.length ex then count (cPort p 0x30) s
  else
    let f : Frame := { port := p, pipe := n, bytes := b, stamp := nowStamp s, rxCclk := s.clk.cclk, express := ex, cls := cls,
                       owner := 8 * p + cls }
    let (fid, s) := newFrame f s
    let s := setPipe n { pipe s n with stage := (pipe s n).stage ++ [fid] } s
    let s := count (cPort p 0x00) (ctrAdd (cPort p 0x08) b.length s)
    when ex (count (cPort p 0x38)) s

/-- A frame has arrived whole on a port that carries (R22, R141, R142). -/
def receive (p : Nat) (b : Bytes) (fcsOk : Bool) (s : State) : State :=
  if b.length < 64 then count (cPort p 0x18) s
  else if rd s (oMaxFrame p) < b.length then count (cPort p 0x20) s
  else if !fcsOk then count (cPort p 0x10) s
  else if beAt b 12 2 = 0x8808 then count (cPort p 0x28) s
  else stageFrame p b s

/-- The 7-byte preamble and the SFD that go before each frame (R140), in the codes of 802.3 (PRESUMED, log entry 137). -/
def preamble : Bytes := List.replicate 7 0x55 ++ [0xD5]

/-- The MAC transmits a frame, or what it has sent of one. -/
def transmit (p : Nat) (b : Bytes) (s : State) : State := emit (.lane p (preamble ++ b)) s

/-- LOOPBACK 2, far-end (Table 4-5): what the lanes receive is transmitted again. -/
def loopFar (p : Nat) (b : Bytes) (s : State) : State := when (rd s (oLoopback p) = 2) (transmit p b) s

/-- LOOPBACK 1, near-end (Table 4-5): what the port transmits reaches its own receiver. -/
def loopNear (p : Nat) (b : Bytes) (s : State) : State :=
  if rd s (oLoopback p) = 1 && linkCarries s p then receive p b true s else s

/-- FRAME_RECEPTION (R141): on a port in link state 6 or 7. What ends on a port that has ceased to carry in the middle of a frame
is that frame, which fails its FCS check (R22, R155). -/
def execFrameReception (p : Nat) (b : Bytes) (fcsOk : Bool) (s : State) : Host.Outcome State Fault Refusal :=
  onUnits (isPort p)
    (if linkCarries s p then receive p b fcsOk (loopFar p b s)
     else if (port s p).cut then receive p b false (setPort p { port s p with cut := false } s)
     else s)

/-! ### Flow hash (R269, R270) -/

/-- A key block with its two ends exchanged (R269). -/
def exchangedKey (k : Bytes) : Bytes :=
  slice k 0 8 ++ slice k 0x18 16 ++ slice k 0x08 16 ++ slice k 0x2A 2 ++ slice k 0x28 2 ++ slice k 0x2C 4

/-- The canonical form of a key block, and whether it was swapped (R269). -/
def canonicalKey (k : Bytes) : Bytes × Bool :=
  let a := beAt k 0x08 16 * 65536 + leAt k 0x28 2
  let b := beAt k 0x18 16 * 65536 + leAt k 0x2A 2
  if b < a then (exchangedKey k, true) else (k, false)

/-- A key block is 48 bytes: cut, or filled with zeros. -/
def keyBlock (b : Bytes) : Bytes := (b ++ zeros 48).take 48

/-- h0 of a key block. -/
def hashH0 (s : State) (k : Bytes) : Nat := sipHash (rd s oFlowHashSeed) (0x00 :: k)
/-- sig of a key block. -/
def hashSig (s : State) (k : Bytes) : Nat := sipHash (rd s oFlowHashSeed) (0x01 :: k)
/-- Slice of a flow hash. -/
def hashSlice (h : Nat) : Nat := fld h 60 4
/-- Home slot of a flow hash. -/
def hashHome (s : State) (h : Nat) : Nat := fld h 0 32 * rd s oSlotsPerSlice / 2 ^ 32
/-- Fingerprint. -/
def hashFp (h : Nat) : Nat := fld h 32 11
/-- First probe step, 0 to 14. -/
def hashStart (h : Nat) : Nat := fld h 43 4 % 15

/-- The admission template asks for symmetric keys (ADM_FLAGS[0]) in the set of an epoch. -/
def symmetric (s : State) (epoch tmpl : Nat) : Bool :=
  tmLedger tmpl ≠ 0 && (rdCfg s epoch (oAdmFlags (tmAdmission tmpl))).testBit 0

/-! ### Head acceptance (R26 to R28, R163, R165, R186) -/

/-- Ledger operations of a pipeline that wait for a slice's crossbar input (R21). -/
def crossbarQueue (s : State) (n f : Nat) : Nat :=
  (s.pip.frames.filter (fun e => e.2.pipe = n && e.2.phase = .ingress && e.2.due.testBit 6 && hashSlice e.2.h0 = f)).length

/-- Entries of the 1,024 stage-one entries in use by a descriptor: one, or two with an extension (R676). -/
def stage1Cost (f : Frame) : Nat := if f.ra.extKind = 0 then 1 else 2

/-- Stage-one entries of a pipeline in use. -/
def stage1Used (s : State) (n : Nat) : Nat :=
  s.fab.stage1.foldl (fun a e => if e.1 / 64 = n then
    a + e.2.foldl (fun b fid => b + ((frame s fid).map stage1Cost).getD 0) 0 else a) 0

/-- Frames of a pipeline that wait for a buffer. -/
def pipeWaiters (s : State) (n : Nat) : Nat :=
  (s.buf.waiters.filter (fun fid => ((frame s fid).map (·.pipe)) = some n)).length

/-- Why a pipeline accepts no head, as a category of Table 16-4 (R21, R172, R184, R382, R676, Table 2-2). -/
def headStall (s : State) (n : Nat) : Option Nat :=
  if rd s oCsState ≠ 2 || rd s oServiceLevel = 0 || !inService s n || s.cs.dead.testBit n then some 9
  else if (List.range 16).any (fun f => 256 ≤ crossbarQueue s n f) then some 6
  else if 256 ≤ pipeWaiters s n then some 7
  else if 1024 < stage1Used s n + 2 then some 8
  else none

/-- The pipeline's cycle: every CCLK, or every other one at low water (R31). -/
def pipeCycle (s : State) : Nat := if halfClock s then s.clk.cclk / 2 else s.clk.cclk

/-- Head slots used in this cycle, with the extra passes owed to it (R26, R211), and what is still owed. -/
def slotsUsed (s : State) (n : Nat) : Nat × Nat :=
  let p := pipe s n
  let c := pipeCycle s
  if p.headCycle = c then (p.heads, p.owed)
  else
    let owed := p.owed - 2 * (c - p.headCycle - 1)
    (min 2 owed, owed - 2)

/-- R164: instructions that the heads accepted so far may still need, at 32 in each pipeline cycle. While their mean MAX_STEPS
is 16 or less no head waits for it; with a higher mean `m` the pipeline takes 32 / m heads in a cycle. -/
def stepDebt (s : State) (n : Nat) : Nat := (pipe s n).debt - 32 * (pipeCycle s - (pipe s n).headCycle)

/-- Round-robin source of a frame: lanes 0 to 31 of the pipeline, HOST 32, RECIRC 33, PAIR 34. -/
def sourceOf (s : State) (n fid : Nat) : Nat :=
  match frame s fid with
  | some f => if (pipe s n).recirc.contains fid then 33 else if f.port < 512 then f.port % 32 else if f.port = 512 then 32 else 34
  | none => 34

/-- The oldest waiting frame of a source. -/
def sourceHead (s : State) (n src : Nat) : Option Nat :=
  let p := pipe s n
  if src < 32 then
    p.stage.find? (fun fid => ((frame s fid).map (fun f => f.port % 32 = src && !f.express)).getD false)
  else if src = 33 then p.recirc.head?
  else p.inject.find? (fun fid => ((frame s fid).map (·.port)) = some (if src = 32 then 512 else 514))

/-- The oldest express head of the pipeline's lanes. R26 puts express heads first and does not say in which order the lanes
come among them; the model takes them in order of arrival (DESIGN CHOICE, log entry 53). -/
def expressHead (s : State) (n : Nat) : Option Nat :=
  (pipe s n).stage.find? (fun fid => ((frame s fid).map (·.express)).getD false)

/-- The next source with a waiting frame after `rr`, among sources `lo` to 34. -/
def nextSource (s : State) (n lo rr : Nat) : Option Nat :=
  let order := (List.range 35).map (fun k => (rr + 1 + k) % 35)
  order.find? (fun src => lo ≤ src && (sourceHead s n src).isSome)

/-- The head a pipeline takes next (R26, R27). -/
def pickHead (s : State) (n : Nat) : Option Nat :=
  let p := pipe s n
  let internal := (nextSource s n 32 p.rr).bind (sourceHead s n)
  if 63 ≤ p.sinceInternal && internal.isSome then internal
  else
    match expressHead s n with
    | some fid => some fid
    | none => (nextSource s n 0 p.rr).bind (sourceHead s n)

/-- The head slot is used: the frame leaves the queue it waited in, and the round robin moves on. -/
def takeHead (n fid : Nat) (s : State) : State :=
  let src := sourceOf s n fid
  let ex := (pipe s n).stage.contains fid && ((frame s fid).map (·.express)).getD false
  let (used, owed) := slotsUsed s n
  let waits := (nextSource s n 32 34).isSome
  let p := unpipe fid (pipe s n)
  setPipe n { p with rr := if ex then p.rr else src, headCycle := pipeCycle s, heads := used + 1, owed := owed,
                     debt := stepDebt s n, sinceInternal := if 32 ≤ src then 0 else if waits then p.sinceInternal + 1 else 0 } s

/-- Extra head slots a frame costs its pipeline (R211); they count among the 64 of R27. -/
def oweSlots (n k : Nat) (s : State) : State :=
  let p := pipe s n
  let waits := (nextSource s n 32 34).isSome
  setPipe n { p with owed := p.owed + k, sinceInternal := if waits then p.sinceInternal + k else p.sinceInternal } s

/-- R163: the parse went beyond a limit. -/
def parseOver (r : Parse) : Bool := 256 < r.bytesRead || 16 < r.nodes

/-- A scan result of Table 7-6. -/
def scanWord (found : Bool) (status pattern endOffset : Nat) : Nat :=
  b2n found * 2 ^ 31 + status * 2 ^ 28 + pattern % 4096 * 2 ^ 9 + endOffset % 512

/-- Length of a frame's scan window (R255): SCAN_LEN bytes from the payload, or up to the last byte before the FCS. -/
def windowLen (f : Frame) : Nat := min (tmScanLen f.tmplWord) (frameLen f - 4 - f.payload)

/-- What a template asks for, as bits of `due` (Table 5-3): 0 exact match, 1 IPv4, 2 IPv6, 3 MAC, 4 rule search, 6 ledger. -/
def dueBits (w : Nat) : Nat :=
  tmLookups w + (if tmSearch w then 16 else 0) + (if tmLedger w = 1 || tmLedger w = 2 then 64 else 0)

/-- Start the scan the template asks for (R255, R258, R261): an empty window and a full queue answer at once. -/
def startScan (fid : Nat) (s : State) : State :=
  match frame s fid with
  | none => s
  | some f =>
    if !tmScan f.tmplWord then s
    else
      let p := pipe s f.pipe
      let give (w : Nat) (t : State) := modFrame fid (fun g => { g with results := g.results ++ [.scan w] }) t
      if windowLen f = 0 then give (scanWord false 0 0 0) s
      else if 64 ≤ p.scans.length then give (scanWord false 4 0 0) (count (cRule 0x58) s)
      else
        let s := setPipe f.pipe { p with scans := p.scans ++ [fid] } s
        modFrame fid (fun g => { g with due := setBit g.due 5 }) s

/-- The frame as the parser and the template stage hand it to the microengines; KEY_KIND of the template is the first byte of
the key block (R165, Table 8-1). -/
def parsed (s : State) (r : Parse) (f : Frame) : Frame :=
  let tnum := if parseOver r then 0 else r.template % 1024
  let w := templateWord s f.epoch tnum
  let kb := BitVec.ofNat 8 (tmKeyKind w) :: (keyBlock r.key).drop 1
  let (key, swapped) := if symmetric s f.epoch w then canonicalKey kb else (kb, false)
  let ra : Ra := { template := tnum, ingressPort := f.port, express := b2n f.express, recircCount := f.ra.recircCount,
                   cls := f.cls, l3 := r.l3 % 256, l4 := r.l4 % 256 }
  { f with phase := .ingress, template := tnum, tmplWord := w, key := key, segs := r.segs, proto := r.proto,
           payload := r.payload, bytesRead := r.bytesRead, h0 := hashH0 s key, sig := hashSig s key, swapped := swapped, ra := ra,
           results := [], due := dueBits w, steps := 0, finished := false, faulted := false, fault := none, flowSetDone := false, forced := none,
           ledStatus := none, tAccept := s.clk.cclk, tResolved := 0 }

/-- A head from a lane, HOST or PAIR: the epoch is stamped, the class of a lane's frame computed again, and a buffer
requested (R28, R145, R369). -/
def acceptNew (fid : Nat) (f : Frame) (s : State) : State :=
  let cls := if f.port < 512 then ingressClass s (activeSet s) f.port f.bytes else f.cls
  let f := { f with epoch := activeEpoch s, cls := cls, owner := 8 * f.port + cls, waiting := some s.clk.cclk }
  let s := { s with buf := { s.buf with waiters := s.buf.waiters ++ [fid] } }
  let s := putFrame fid f s
  if f.port < 512 then s else count (cPort f.port 0x00) (ctrAdd (cPort f.port 0x08) (frameLen f) s)

/-- A head from RECIRC keeps its buffer, epoch, port and stamp, and carries one pass more (R186). It keeps its ingress class as
well: R145 computes the class at head acceptance by the maps of the ingress port, and R186 names no new class (DEDUCED, log
entry 128). -/
def acceptAgain (fid : Nat) (f : Frame) (s : State) : State :=
  let f := { f with ra := { f.ra with recircCount := (f.ra.recircCount + 1) % 8 } }
  let s := count (cPort 513 0x00) (ctrAdd (cPort 513 0x08) (frameLen f) s)
  slotCategory f.pipe 3 (occOf fid f) (count (cPipe f.pipe 0x08) (putFrame fid f s))

/-- The words of the parser store and of the template that a frame's parse reads (R177, R182, R183). -/
def parseReads (n epoch tnum : Nat) (r : Parse) (s : State) : State :=
  readStores n epoch 1 [(2 * tnum, r.template0), (2 * tnum + 1, r.template1)] (readStores n epoch 0 r.reads s)

/-- One of these words gives the frame the store-error fault. -/
def parseFault (s : State) (n epoch tnum : Nat) (r : Parse) : Bool :=
  r.reads.any (fun x => storeFault s n epoch 0 x.1) || storeFault s n epoch 1 (2 * tnum) || storeFault s n epoch 1 (2 * tnum + 1)

/-- The head slot's engines are taken for the routine's worst case (R164). -/
def oweSteps (n k : Nat) (s : State) : State := setPipe n { pipe s n with debt := (pipe s n).debt + k } s

/-! ### Instructions (R177 to R183, R626) -/

/-- Deliver a result to a frame's routine; a result with an error flag delivers the result-error fault (Table 5-7). -/
def deliverResult (fid : Nat) (r : SearchResult) (error : Bool) (s : State) : State :=
  modFrame fid (fun f => { f with results := f.results ++ [r], fault := if error then some 0x000A else f.fault }) s

/-- R29: two frames of one flow that entered on one port with one pre-classification, neither of which has passed RECIRC. -/
def oneFlow (f x : Frame) : Bool :=
  f.pipe = x.pipe && f.port = x.port && f.express = x.express && f.key = x.key && f.ra.recircCount = 0 && x.ra.recircCount = 0

/-- The frames of its flow that were accepted before a frame and have not resolved. -/
def earlierOfFlow (s : State) (fid : Nat) (f : Frame) : List Frame :=
  (s.pip.frames.filter (fun e => e.2.phase = .ingress && e.2.kind = .own && oneFlow f e.2 &&
    (e.2.tAccept < f.tAccept || (e.2.tAccept = f.tAccept && e.1 < fid)))).map (·.2)

/-- Write one field of the resolved action under construction (Table 5-9). -/
def setRa (a : Ra) (fl : RaField) (v : Nat) : Ra :=
  match fl with
  | .destKind => { a with destKind := v % 4 }
  | .dest => { a with dest := v % 2 ^ 16 }
  | .cls => { a with cls := v % 8 }
  | .colour => { a with colour := v % 4 }
  | .policerValid => { a with policerValid := v % 2 }
  | .policer => { a with policer := v % 2 ^ 16 }
  | .nhValid => { a with nhValid := v % 2 }
  | .nextHop => { a with nextHop := v % 2 ^ 18 }
  | .rwValid => { a with rwValid := v % 2 }
  | .rewrite => { a with rewrite := v % 2 ^ 18 }
  | .ecmpValid => { a with ecmpValid := v % 2 }
  | .ecmpGroup => { a with ecmpGroup := v % 2 ^ 14 }
  | .ecmpMember => { a with ecmpMember := v % 2 ^ 9 }
  | .mirror => { a with mirror := v % 16 }
  | .sample => { a with sample := v % 2 }
  | .puntCopy => { a with puntCopy := v % 2 }
  | .reason => { a with reason := v % 2 ^ 16 }
  | .hairpin => { a with hairpin := v % 2 }
  | .digest => { a with digest := v % 2 }
  | .ttlDec => { a with ttlDec := v % 2 }
  | .tsAction => { a with tsAction := v % 4 }
  | .tsId => { a with tsId := v % 2 ^ 16 }
  | .tsOffset => { a with tsOffset := v % 2 ^ 8 }
  | .extKind => { a with extKind := v % 8 }

/-- The fields of Table 5-9 with their widths, from the lowest bit that has a meaning, bit 33, up. -/
def raFields (a : Ra) : List (Nat × Nat) :=
  [(26, a.flowRecord), (1, a.flowValid), (3, a.extKind), (8, a.l4), (8, a.l3), (3, a.recircCount), (10, a.ingressPort),
   (10, a.template), (8, a.tsOffset), (16, a.tsId), (2, a.tsAction), (1, a.ttlDec), (1, a.digest), (1, a.hairpin),
   (16, a.reason), (1, a.puntCopy), (1, a.sample), (4, a.mirror)] ++
  [(9, a.ecmpMember), (14, a.ecmpGroup), (1, a.ecmpValid), (18, a.rewrite), (1, a.rwValid), (18, a.nextHop), (1, a.nhValid),
   (16, a.policer), (1, a.policerValid), (1, a.express), (2, a.colour), (3, a.cls), (16, a.dest), (2, a.destKind)]

/-- The 256-bit resolved action of Table 5-9; bits [32:0] are reserved and 0. -/
def raWord (a : Ra) : Nat := (raFields a).foldr (fun f w => w * 2 ^ f.1 + f.2 % 2 ^ f.1) 0 * 2 ^ 33

/-- The fields of a 256-bit resolved action, by the bits of Table 5-9. -/
def raOf (w : Nat) : Ra where
  destKind := fld w 254 2
  dest := fld w 238 16
  cls := fld w 235 3
  colour := fld w 233 2
  express := fld w 232 1
  policerValid := fld w 231 1
  policer := fld w 215 16
  nhValid := fld w 214 1
  nextHop := fld w 196 18
  rwValid := fld w 195 1
  rewrite := fld w 177 18
  ecmpValid := fld w 176 1
  ecmpGroup := fld w 162 14
  ecmpMember := fld w 153 9
  mirror := fld w 149 4
  sample := fld w 148 1
  puntCopy := fld w 147 1
  reason := fld w 131 16
  hairpin := fld w 130 1
  digest := fld w 129 1
  ttlDec := fld w 128 1
  tsAction := fld w 126 2
  tsId := fld w 110 16
  tsOffset := fld w 102 8
  template := fld w 92 10
  ingressPort := fld w 82 10
  recircCount := fld w 79 3
  l3 := fld w 71 8
  l4 := fld w 63 8
  extKind := fld w 60 3
  flowValid := fld w 59 1
  flowRecord := fld w 33 26

/-- The fault's counter and its action (R180): discard, or punt with the fault's reason; the resolved action under
construction is abandoned, and what completed instructions have issued stands. -/
def pipelineFault (fid reason : Nat) (s : State) : State :=
  match frame s fid with
  | none => s
  | some f =>
    let s := when (reason = 6) (count (cPipe f.pipe 0x38)) s
    if rdCfg s f.epoch oFaultAction = 1 then
      let ra : Ra := { template := f.ra.template, ingressPort := f.ra.ingressPort, express := f.ra.express,
                       recircCount := f.ra.recircCount, cls := f.cls, l3 := f.ra.l3, l4 := f.ra.l4,
                       destKind := 1, dest := 512, reason := reason,
                       flowValid := f.ra.flowValid, flowRecord := f.ra.flowRecord }
      putFrame fid { f with ra := ra, finished := true, faulted := true, fault := none, forced := none, due := f.due &&& 192 } s
    else discardFrame fid (count (cPipe f.pipe 0x30) s)

/-! ### A head is accepted -/

/-- A parsed head goes on: its searches are named and its scan is started, or the store-error fault ends it (R183). -/
def startRoutine (n fid : Nat) (faulty : Bool) (s : State) : State :=
  if faulty then pipelineFault fid 7 (modFrame fid (fun g => { g with due := 0 }) s) else startScan fid s

/-- A head is accepted: parsed, counted, its routine started; an INJECT completes (R482). -/
def acceptHead (n fid : Nat) (r : Parse) (s : State) : State :=
  match frame s fid with
  | none => s
  | some f =>
    let again := f.phase = .recirc
    let s := takeHead n fid s
    let s := if again then acceptAgain fid f s else acceptNew fid f s
    let s := when (parseOver r) (count (cPipe n 0x50)) s
    let s := modFrame fid (parsed s r) s
    let s := count (cPipe n 0x00) s
    let s := finishInject f (modFrame fid (fun g => { g with inject := none }) s)
    match frame s fid with
    | some g =>
      let s := oweSteps n (tmMaxSteps g.tmplWord) (parseReads n g.epoch g.template r s)
      startRoutine n fid (parseFault s n g.epoch g.template r) (occur n 0x02 1 (occOf fid g) s)
    | none => s

/-- HEAD_ACCEPTANCE (R26, R164): at most two heads in a pipeline cycle. -/
def execHeadAcceptance (n : Nat) (r : Parse) (s : State) : Host.Outcome State Fault Refusal :=
  onUnits (isPipe n)
    (if (headStall s n).isSome || 2 ≤ (slotsUsed s n).1 || 32 ≤ stepDebt s n then s
     else
       match pickHead s n with
       | some fid => acceptHead n fid r s
       | none => s)

/-! ### One instruction (R164, R178, R626) -/

/-- What the instruction does to the frame (R178). -/
def microEffect (op : MicroOp) (f : Frame) : Frame :=
  match op with
  | .set fl v => { f with ra := setRa f.ra fl v }
  | .setExt v => { f with ext := v % 2 ^ 256 }
  | .useResult => f
  | .compute => f
  | .finish => { f with finished := true }

/-- R626: a corrupt word of the active configuration set: raised and marked. -/
def configCorrupt (obj : Nat) (s : State) : State :=
  let k := dictKey (activeSet s) obj 0
  let s := if s.ep.corrupt.contains k then s else { s with ep := { s.ep with corrupt := s.ep.corrupt ++ [k] } }
  raise evConfigEcc obj s

/-- The ingress word that the frame's next instruction is: ROUTINE of its template for the first one (Table 5-3). -/
def nextWord (f : Frame) (word : Nat) : Nat := (if f.steps = 0 then tmRoutine f.tmplWord else word) % 16384

/-- An instruction of a frame has issued: counted for slot gating (R573) and as an event (Table 16-6). -/
def noteIssue (fid : Nat) (f : Frame) (s : State) : State :=
  occur f.pipe 0x20 1 (occOf fid f) (setPipe f.pipe { pipe s f.pipe with issued := (pipe s f.pipe).issued + 1 } s)

/-- One instruction of a routine that has not ended. -/
def microStep (fid : Nat) (f : Frame) (word : Nat) (op : MicroOp) (ecc : Ecc) (config : Option Nat) (s : State) : State :=
  if rdCfg s f.epoch oCsStepLimit ≤ f.steps then pipelineFault fid 6 s
  else
    let w := nextWord f word
    let s := readStore f.pipe f.epoch 2 w ecc (useCycle (issueKey f.pipe) (pipeCycle s) s)
    if storeFault s f.pipe f.epoch 2 w then pipelineFault fid 7 s
    else
      match config with
      | some obj => pipelineFault fid 7 (configCorrupt obj s)
      | none =>
        let g := microEffect op { f with steps := f.steps + 1, ir := csWord s f.epoch 2 w }
        let s := putFrame fid g s
        let s := when (g.finished) (modFrame fid (fun x => { x with tResolved := s.clk.cclk })) s
        let s := sampleBoundary fid w g (noteIssue fid g s)
        match g.fault with
        | some reason => pipelineFault fid reason s
        | none => s

/-- A frame's next instruction may issue: its routine has not ended, and fewer than 32 have issued in the pipeline's cycle
(R164). -/
def mayIssue (s : State) (f : Frame) : Bool :=
  f.phase = .ingress && !f.finished && inCycle s (issueKey f.pipe) (pipeCycle s) < 32

/-- MICRO_INSTRUCTION (R178). -/
def execMicroInstruction (fid word : Nat) (op : MicroOp) (ecc : Ecc) (config : Option Nat) (s : State) :
    Host.Outcome State Fault Refusal :=
  .next (match frame s fid with
    | some f => if mayIssue s f then microStep fid f word op ecc config s else s
    | none => s)

end Sys2Proof.Machine
end

