-- ==== Sys2Proof/Machine/Lookup.lean ====
section
/-! DEFINITION. Lookup Tables (chapter 6): placement, the length filter, lookups, learning and table commands. -/

namespace Sys2Proof.Machine
open Sys2Proof

/-- Set the Lookup Tables. -/
def setLt (l : Lt) (s : State) : State := { s with lt := l }

/-! ### Results and entries (Tables 6-2 to 6-7) -/

/-- RKIND of a result. -/
def rKind (r : Nat) : Nat := byteFld r 0 1
/-- CODE of a result. -/
def rCode (r : Nat) : Nat := byteFld r 2 2
/-- INDEX of a result. -/
def rIndex (r : Nat) : Nat := byteFld r 4 4

/-- Kind of an exact-match key block: 1 MAC, 2 IPv4 host, 3 generic. -/
def ekKind (k : Nat) : Nat := byteFld k 0 1
/-- Scope of a key block. -/
def ekScope (k : Nat) : Nat := byteFld k 2 2
/-- Station of a MAC key block, byte 0 the first on the wire, most significant. -/
def ekMac (k : Nat) : Nat := beNat (leBytes 6 (k / 2 ^ 32))

/-- Key block of a station in a bridge domain. -/
def macKey (bd : Nat) (mac : Bytes) : Nat := leNat ([1, 0] ++ leBytes 2 bd ++ mac.take 6)

/-- Units a prefix of a family occupies (R666). -/
def pxUnits (family : Nat) : Nat := if family = 6 then 2 else 1
/-- Address width of a family. -/
def pxWidth (family : Nat) : Nat := if family = 6 then 128 else 32

/-- Address bytes of a prefix in network order: 4 or 16. -/
def pxAddr (e : PxEntry) : Bytes := beBytes (pxWidth e.family / 8) e.addr

/-- The probe key of R666. -/
def pxProbe (e : PxEntry) : Bytes :=
  [BitVec.ofNat 8 e.family, BitVec.ofNat 8 e.length] ++ leBytes 2 e.vrf ++ (pxAddr e ++ zeros 12).take 16

/-- Bytes 0x00 to 0x1F of Table 6-4 as a number: what names a prefix in a command. -/
def pxKey (e : PxEntry) : Nat :=
  leNat ([BitVec.ofNat 8 e.family, BitVec.ofNat 8 e.length] ++ leBytes 2 e.vrf ++ zeros 12 ++ pxAddr e)

/-- The prefix that bytes 0x00 to 0x1F of Table 6-4 name. -/
def readPx (key : Nat) : PxEntry :=
  let b := leBytes 32 key
  let fam := leAt b 0 1
  ⟨fam, leAt b 1 1, leAt b 2 2, beAt b 0x10 (pxWidth fam / 8), 0, false⟩

/-- What names an entry in a command: the key block, the prefix's bytes, or the index. -/
def tblKey (a : TblArgs) : Nat :=
  if a.table = 0 then leNat (a.key.take 16) else if a.table ≤ 2 then leNat (a.key.take 32) else a.index

/-! ### Locks (R216 to R220) -/

/-- The lock or reservation of an entry. -/
def lockOf (s : State) (t k : Nat) : Option Lock := s.lt.locks.find? (fun l => l.table = t && l.key = k)

/-- A changing command is in progress on an entry (R217, Table 6-9). -/
def inProgress (s : State) (t k : Nat) : Bool := s.lt.cmds.any (fun x => x.table = t && x.key = k)

/-- LOCK of an entry: held by a queue, or set for the duration of a changing command. -/
def isLocked (s : State) (t k : Nat) : Bool := (lockOf s t k).isSome || inProgress s t k

/-- Take an entry's lock away. -/
def unlockEntry (t k : Nat) (s : State) : State :=
  setLt { s.lt with locks := s.lt.locks.filter (fun l => !(l.table = t && l.key = k)) } s

/-! ### Placement (R195, R201 to R205, R666) -/

/-- The two candidate buckets of a key. -/
def twoBuckets (s : State) (k : Bytes) : Nat × Nat :=
  let seed := leBytes 4 (rd s oLtHashSeed)
  let b0 := crc32c (seed ++ [0x00] ++ k) % 2 ^ 18
  let b1 := crc32c (seed ++ [0x01] ++ k) % 2 ^ 18
  (b0, if b1 = b0 then b0 ^^^ 1 else b1)

/-- The candidate that is not `b`. -/
def otherBucket (c : Nat × Nat) (b : Nat) : Nat := if c.1 = b then c.2 else c.1

/-- An entry in its bucket: place of its first unit, units, its other bucket, and whether it may be moved (R203, R219, R231). -/
structure Cell where
  place : Nat
  size : Nat
  other : Nat
  movable : Bool
deriving DecidableEq, Repr

/-- The first offset of a bucket at which `n` units are free. -/
def roomIn (l : List Cell) (n : Nat) : Option Nat :=
  firstFrom (fun o => l.all (fun c => c.place % 4 + c.size ≤ o || o + n ≤ c.place % 4)) 0 (5 - n)

/-- Move an entry into its other bucket (R204). -/
def relocate {α : Type} (cells : Tab α → Nat → List Cell) (t : Tab α) (c : Cell) : Tab α :=
  match tabFind t c.place, roomIn (cells t c.other) c.size with
  | some e, some o => tabInsert (tabErase t c.place) (4 * c.other + o) e
  | _, _ => t

/-- Every way to make room for `n` units in bucket `b` by at most `left` moves of unlocked entries (R203): the table after them,
and the moves that are left. An entry leaves the bucket once there is room for it in its other one. `fuel` bounds the depth. -/
def makeRoom {α : Type} (cells : Tab α → Nat → List Cell) : Nat → Nat → Nat → Nat → Tab α → List (Tab α × Nat)
  | 0, _, _, _, _ => []
  | fuel + 1, left, b, n, t =>
    if (roomIn (cells t b) n).isSome then [(t, left)]
    else if left = 0 then []
    else
      ((cells t b).filter (·.movable)).flatMap (fun c =>
        (makeRoom cells fuel (left - 1) c.other c.size t).flatMap (fun x =>
          if (cells x.1 b).contains c then makeRoom cells fuel x.2 b n (relocate cells x.1 c) else []))

/-- The place for an entry of `n` units in the first of its buckets, or the second, in which at most `k` moves make room. -/
def placeWith {α : Type} (cells : Tab α → Nat → List Cell) (t : Tab α) (c : Nat × Nat) (n k : Nat) : Option (Nat × Tab α × Nat) :=
  [c.1, c.2].findSome? (fun b =>
    match makeRoom cells 9 k b n t with
    | [] => none
    | x :: _ => (roomIn (cells x.1 b) n).map (fun o => (4 * b + o, x.1, k - x.2)))

/-- R203 within the buckets: the place for an entry of `n` units, the table after the moves, and their number, which is the least
that makes room; which entries move is left open (log entry 12). -/
def placeFor {α : Type} (cells : Tab α → Nat → List Cell) (t : Tab α) (c : Nat × Nat) (n : Nat) : Option (Nat × Tab α × Nat) :=
  (List.range 9).findSome? (placeWith cells t c n)

/-- First overflow place of the exact-match table. -/
def overflowBase : Nat := 1048576

/-- The entries of an exact-match bucket. -/
def emCells (s : State) (t : Tab EmEntry) (b : Nat) : List Cell :=
  (t.filter (fun e => e.1 < overflowBase && e.1 / 4 = b)).map (fun e =>
    ⟨e.1, 1, otherBucket (twoBuckets s (leBytes 16 e.2.key)) b, !e.2.bad && !isLocked s 0 e.2.key⟩)

/-- Table id of a prefix. -/
def pxTable (e : PxEntry) : Nat := if e.family = 6 then 2 else 1

/-- The entries of a prefix bucket. -/
def pxCells (s : State) (t : Tab PxEntry) (b : Nat) : List Cell :=
  (t.filter (fun e => e.1 / 4 = b)).map (fun e =>
    ⟨e.1, pxUnits e.2.family, otherBucket (twoBuckets s (pxProbe e.2)) b, !e.2.bad && !isLocked s (pxTable e.2) (pxKey e.2)⟩)

/-- An exact-match entry by its key block, with its place. -/
def emFind (s : State) (k : Nat) : Option (Nat × EmEntry) := s.lt.em.find? (fun e => e.2.key = k)

/-- A prefix by its key, with its place. -/
def pxFind (s : State) (k : Nat) : Option (Nat × PxEntry) := s.lt.px.find? (fun e => pxKey e.2 = k)

/-- Put an exact-match entry into a place. -/
def putEm (p : Nat) (e : EmEntry) (s : State) : State := setLt { s.lt with em := tabInsert s.lt.em p e } s

/-- Put a prefix into a place. -/
def putPx (p : Nat) (e : PxEntry) (s : State) : State := setLt { s.lt with px := tabInsert s.lt.px p e } s

/-- R203: insert an exact-match entry; none when there is no room. -/
def insertEm (e : EmEntry) (s : State) : Option State :=
  match placeFor (emCells s) s.lt.em (twoBuckets s (leBytes 16 e.key)) 1 with
  | some (p, t, n) => some (ctrAdd (cLookup 0x48) n (setLt { s.lt with em := tabInsert t p e } s))
  | none => (firstFrom (fun p => (tabFind s.lt.em p).isNone) overflowBase 16384).map (fun p => putEm p e s)

/-- Units of the prefix store in use. -/
def unitsUsed (s : State) : Nat := s.lt.px.foldl (fun a e => a + pxUnits e.2.family) 0

/-! ### The length filter (R208 to R212) -/

/-- LF_GROUP of a VRF. -/
def lfGroup (s : State) (vrf : Nat) : Nat := rd s oLfGroup vrf

/-- s of a family's window. -/
def lfShift (s : State) (family : Nat) : Nat := if family = 6 then rd s oLf6Shift else 24

/-- Key of a filter row. -/
def filterRow (group family row : Nat) : Nat := (group * 2 + b2n (family = 6)) * 256 + row

/-- Mark a prefix's length in every row it can cover. -/
def markPrefix (s : State) (e : PxEntry) (t : Tab Nat) : Tab Nat :=
  let sh := lfShift s e.family
  let free := min 8 (pxWidth e.family - e.length - sh)
  let fixed := (e.addr >>> (sh + free)) % 2 ^ (8 - free)
  (List.range (2 ^ free)).foldl (fun a i =>
    let k := filterRow (lfGroup s e.vrf) e.family (fixed * 2 ^ free + i)
    tabPut 0 a k (setBit (tabGet 0 a k) e.length)) t

/-- R209: the recomputed rows of a group are installed. -/
def rebuildGroup (g : Nat) (s : State) : State :=
  let kept := s.lt.filter.filter (fun e => e.1 / 512 ≠ g)
  let t := s.lt.px.foldl (fun a e => if lfGroup s e.2.vrf = g then markPrefix s e.2 a else a) kept
  setLt { s.lt with filter := t, deleted := tabErase s.lt.deleted g } s

/-- R212: the whole filter is rebuilt where its rebuild is due: the block has left halt. -/
def refillFilter (s : State) : State :=
  if s.lt.refill then
    setLt { s.lt with filter := s.lt.px.foldl (fun a e => markPrefix s e.2 a) [], deleted := [], refill := false } s
  else s

/-- A write of LF_GROUP or LF6_SHIFT makes the rebuild of R212 due. -/
def filterStale (s : State) : State := setLt { s.lt with refill := true } s

/-- The operations of a kind that the scheduler holds. -/
def opsHeld (s : State) (kind : Nat) : List DwOp :=
  (s.dw.onDie ++ s.dw.buckets ++ s.dw.far ++ s.dw.waiting).filter (fun o => o.kind = kind)

/-- A prefix of a group has been deleted: its rebuild starts at the threshold (R209). -/
def countDeletion (g : Nat) (s : State) : State :=
  let n := tabGet 0 s.lt.deleted g + 1
  let s := setLt { s.lt with deleted := tabInsert s.lt.deleted g n } s
  let limit := rd s oFilterRebuildThreshold
  if limit ≠ 0 && limit ≤ n && !(opsHeld s 12).any (fun o => o.args = [g]) then issue 12 17 [g] [] s else s

/-- FILTER_REBUILD (R209): the dispatched rebuild of a group. -/
def execFilterRebuild (s : State) : Host.Outcome State Fault Refusal :=
  .next (match nextOp s 17 12 (fun _ => true) with
    | some o => count (cLookup 0x50) (rebuildGroup (nth 0 o.args 0) (dispatched o s))
    | none => s)

/-! ### Groups of next-hops (R213 to R215, R667) -/

/-- Results in use. -/
def allResults (s : State) : List Nat := s.lt.em.map (·.2.result) ++ s.lt.px.map (·.2.result)

/-- REFS of a next-hop. -/
def nhRefs (s : State) (i : Nat) : Nat :=
  ((allResults s).filter (fun r => rKind r = 1 && rIndex r = i)).length +
    (s.lt.slots.filter (fun e => e.2.nextHop = i && e.2.retired.isNone)).length

/-- REWRITE names a rewrite. -/
def nhRewrite (e : NhEntry) : Option Nat := if e.rewrite.testBit 31 then some (e.rewrite % 2 ^ 18) else none

/-- REFS of a rewrite. -/
def rwRefs (s : State) (i : Nat) : Nat :=
  (s.lt.nh.filter (fun e => e.2.retired.isNone && nhRewrite e.2 = some i)).length

/-- References of an ECMP group. -/
def groupRefs (s : State) (g : Nat) : Nat := ((allResults s).filter (fun r => rKind r = 2 && rIndex r = g)).length

/-- EtherType behind the tags at offset `o`, at most `fuel` tags. -/
def innerType (b : Bytes) : Nat → Nat → Nat
  | 0, o => beAt b o 2
  | fuel + 1, o => if beAt b o 2 = 0x8100 || beAt b o 2 = 0x88A8 then innerType b fuel (o + 4) else beAt b o 2

/-- Protocols whose first four bytes are a source and a destination port: TCP, UDP, DCCP, SCTP, UDP-Lite. -/
def hasPorts (proto : Nat) : Bool := proto = 6 || proto = 17 || proto = 33 || proto = 132 || proto = 136

/-- The hashed string of R667, from the fields the parse has located. -/
def ecmpString (s : State) (f : Frame) : Bytes :=
  let bits := rdCfg s f.epoch oEcmpFields
  let b := f.bytes
  let l3 := f.ra.l3
  let ver := if l3 = 0 then 0 else beAt b l3 1 / 16
  let pick (n : Nat) (x : Bytes) : Bytes := if bits.testBit n then x else []
  let ports := if hasPorts f.proto && f.ra.l4 ≠ 0 && !(ver = 4 && beAt b (l3 + 6) 2 % 8192 ≠ 0) then slice b f.ra.l4 4 else []
  let head :=
    if ver = 4 then
      pick 0 (slice b (l3 + 12) 4) ++ pick 1 (slice b (l3 + 16) 4) ++ pick 2 (beBytes 1 f.proto) ++ pick 3 ports
    else if ver = 6 then
      pick 0 (slice b (l3 + 8) 16) ++ pick 1 (slice b (l3 + 24) 16) ++ pick 2 (beBytes 1 f.proto) ++ pick 3 ports ++
        pick 4 (beBytes 3 (beAt b (l3 + 1) 3 % 2 ^ 20))
    else if bits % 32 ≠ 0 then slice b 6 6 ++ slice b 0 6 ++ beBytes 2 (innerType b 8 12)
    else []
  head ++ pick 5 (beBytes 2 f.port)

/-- The member of a group and its next-hop for a frame (R214). -/
def chooseMember (s : State) (f : Frame) (g : EcmpGroup) : Nat × Nat :=
  let h := crc32c (leBytes 4 (rd s oEcmpSeed) ++ ecmpString s f)
  let m := (h % 2 ^ 16 * g.size) / 2 ^ 16
  (m, ((tabFind s.lt.slots (g.base + m)).map (·.nextHop)).getD 0)

/-! ### Errors (R230, R231) -/

/-- An uncorrectable error at a location of a table: recorded and raised. -/
def ltEcc (t loc : Nat) (s : State) : State :=
  let v := t * 2 ^ 28 + loc % 2 ^ 28
  raise evLtEcc v (wr oLtEccLast v s)

/-! ### Learning (R225 to R229) -/

/-- A learning notice (Table 6-11). -/
def noticeBytes (kind bd mac ingress entry epoch time : Nat) : Bytes :=
  leBytes 1 kind ++ [0] ++ leBytes 2 bd ++ beBytes 6 mac ++ leBytes 2 ingress ++ leBytes 2 entry ++ leBytes 2 epoch ++
    leBytes 10 time ++ zeros 6

/-- Raise a NEW, MOVE or CONFLICT notice for a station (R226, R227). -/
def learn (kind bd mac ingress entry epoch time : Nat) (s : State) : State :=
  let k := bd * 2 ^ 48 + mac
  if s.lt.learn.contains k then count (cLookup 0x60) s
  else if 4096 ≤ s.lt.learn.length then raiseOnce evLearnLoss 0 0 (count (cLookup 0x68) s)
  else
    issue 7 18 [] (noticeBytes kind bd mac ingress entry epoch time)
      (count (cLookup 0x58) (setLt { s.lt with learn := s.lt.learn ++ [k] } s))

/-- Port of a MAC entry, none where its result names no port. -/
def entryPort (e : EmEntry) : Option Nat := if rKind e.result = 3 then some (rCode e.result) else none

/-- The source search of a MAC lookup (R225): nothing where the station is on its port. A notice carries the ingress time at the
balls (R505). -/
def sourceSearch (f : Frame) (bd : Nat) (e : Option EmEntry) (s : State) : State :=
  let mac := beAt f.bytes 6 6
  let note (kind entry : Nat) := learn kind bd mac f.port entry f.epoch (time80 (frameTime s f))
  if rd s oLearnEnable ≠ 1 then s
  else
    match e with
    | none => note 1 0xFFFF s
    | some e =>
      if entryPort e = some f.port then s
      else note (if e.static then 3 else 2) ((entryPort e).getD 0xFFFF) s

/-- LEARN_HOLDOFF_EXPIRY (R226). -/
def execLearnHoldoffExpiry (bd mac : Nat) (s : State) : Host.Outcome State Fault Refusal :=
  .next (setLt { s.lt with learn := s.lt.learn.filter (· ≠ bd * 2 ^ 48 + mac) } s)

/-- Post an entry that no command announced: one that is held takes a pool 4 buffer of its own (R492). -/
def postSystem (q : Nat) (b : Bytes) (s : State) : State :=
  match cq s q with
  | none => s
  | some x =>
    if x.state ≠ 1 || !busAwake s || (s.hst.link ≠ 0 && x.hold) then
      let g := grantInternal 4129 4 s
      postEntry q b true g.1 (if g.1.isSome then g.2 else s)
    else postEntry q b true none s

/-- LEARN_NOTICE (R229, R438, R466): the dispatched notice waits for room in LEARN_QUEUE, and is lost when that is absent. -/
def execLearnNotice (s : State) : Host.Outcome State Fault Refusal :=
  let q := rd s oLearnQueue
  .next (match nextOp s 18 7 (fun _ => (cq s q).isNone || cqTakes s q 2) with
    | some o =>
      let t := dispatched o s
      if (cq t q).isNone then count (cLookup 0x68) t
      else postSystem q (completionHeader 2 0 2 0 0 0xFFFF 0 0 ++ o.body ++ zeros 16) t
    | none => s)

/-- A visited entry: an AGED notice when it is idle, then HIT is cleared (R228). -/
def ageEntry (p : Nat) (e : EmEntry) (s : State) : State :=
  if ekKind e.key ≠ 1 || e.static then s
  else
    let s := if e.hit then s
      else
        issue 7 18 [] (noticeBytes 4 (ekScope e.key) (ekMac e.key) 0xFFFF ((entryPort e).getD 0xFFFF) 0 (nowTime80 s))
          (count (cLookup 0x70) s)
    putEm p { e with hit := false } s

/-- MAC_AGING (R228): one step of the sweep. -/
def execMacAging (s : State) : Host.Outcome State Fault Refusal :=
  .next (match nextStep s 17 with
    | none => s
    | some o =>
      let k := cursorStep s 17
      let visited := s.lt.em.filter (fun e => if e.1 < overflowBase then e.1 / 4 = k else e.1 - overflowBase + 262144 = k)
      forEach visited (fun t e => ageEntry e.1 e.2 t) (stepCursor 17 o s))

/-- The return of R205: the lowest overflow entry that may move into the bucket. -/
def returnTo (b : Nat) (s : State) : State :=
  match roomIn (emCells s s.lt.em b) 1,
      s.lt.em.find? (fun e => overflowBase ≤ e.1 && !e.2.bad && !isLocked s 0 e.2.key &&
        ((twoBuckets s (leBytes 16 e.2.key)).1 = b || (twoBuckets s (leBytes 16 e.2.key)).2 = b)) with
  | some o, some e => count (cLookup 0x48) (setLt { s.lt with em := tabInsert (tabErase s.lt.em e.1) (4 * b + o) e.2 } s)
  | _, _ => s

/-- EM_RETURN (R205). -/
def execEmReturn (s : State) : Host.Outcome State Fault Refusal :=
  .next (match nextOp s 17 11 (fun _ => true) with
    | some o => returnTo (nth 0 o.args 0) (dispatched o s)
    | none => s)

/-! ### Lookups (R201, R210, R211, R214, R224) -/

/-- Lengths set in a filter row, longest first. -/
def rowLengths (row w : Nat) : List Nat := (List.range (w + 1)).reverse.filter row.testBit

/-- The prefix of an exact length that covers an address. -/
def probe (s : State) (family vrf l addr : Nat) : Option (Nat × PxEntry) :=
  let host := pxWidth family - l
  s.lt.px.find? (fun e => e.2.family = family && e.2.vrf = vrf && e.2.length = l && e.2.addr = addr / 2 ^ host * 2 ^ host)

/-- The first length of a list with a match: its place in the list and the entry. -/
def probeAll (s : State) (family vrf addr : Nat) : Nat → List Nat → Option (Nat × Nat × PxEntry)
  | _, [] => none
  | i, l :: t =>
    match probe s family vrf l addr with
    | some e => some (i, e)
    | none => probeAll s family vrf addr (i + 1) t

/-- The lengths a prefix lookup probes. -/
def lookupLengths (s : State) (family vrf addr : Nat) : List Nat :=
  let row := filterRow (lfGroup s vrf) family (addr >>> lfShift s family % 256)
  rowLengths (tabGet 0 s.lt.filter row) (pxWidth family)

/-- R211: passes of a prefix lookup. -/
def passesOf (lengths : List Nat) (hit : Option (Nat × Nat × PxEntry)) : Nat :=
  match hit with
  | some (i, _) => i / 8 + 1
  | none => max 1 (ceilDiv lengths.length 8)

/-- Bit of a lookup in a frame's `due`. -/
def lookupBit : LookupKey → Nat
  | .exact _ => 0
  | .prefix4 _ _ => 1
  | .prefix6 _ _ => 2
  | .mac _ => 3

/-- A group that a result names is read: its error, if it has one (R231). -/
def readGroup (r : Option Nat) (bad : List (Nat × Nat)) (s : State) : Option EcmpGroup × State :=
  match r.bind (fun r => if rKind r = 2 then (tabFind s.lt.groups (rIndex r)).map (fun g => (rIndex r, g)) else none) with
  | none => (none, s)
  | some (i, g) =>
    let g := { g with bad := g.bad || bad.contains (5, i) }
    (some g, when g.bad (ltEcc 5 i) (setLt { s.lt with groups := tabInsert s.lt.groups i g } s))

/-- The result goes to the routine, with member and next-hop where it names a group (R199, R214). -/
def giveResult (fid bit : Nat) (f : Frame) (r : Option Nat) (sourceOnPort error : Bool) (bad : List (Nat × Nat)) (s : State) :
    State :=
  let (g, s) := readGroup r bad s
  let (m, n) := (g.map (chooseMember s f)).getD (0, 0)
  modFrame fid (fun x => { x with due := clearBit x.due bit })
    (deliverResult fid (.lookup bit r m n sourceOnPort) (error || (g.map (·.bad)).getD false) s)

/-- The exact-match entry in a place is, or is found, uncorrectable. -/
def emBad (p : Nat) (e : EmEntry) (bad : List (Nat × Nat)) : Bool := e.bad || bad.contains (0, p)

/-- A matched exact-match entry: HIT, and the error of its word if it has one (R228, R231). -/
def hitEm (p : Nat) (e : EmEntry) (bad : List (Nat × Nat)) (s : State) : State :=
  when (emBad p e bad) (ltEcc 0 p) (putEm p { e with hit := true, bad := emBad p e bad } s)

/-- An exact-match lookup (R201). -/
def lookupExact (fid : Nat) (f : Frame) (k : Nat) (bad : List (Nat × Nat)) (s : State) : State :=
  let s := count (cLookup 0x00) s
  match emFind s k with
  | none => giveResult fid 0 f none false false bad s
  | some (p, e) =>
    let s := count (cLookup 0x08) (when (overflowBase ≤ p) (count (cLookup 0x10)) s)
    giveResult fid 0 f (some e.result) false (emBad p e bad) bad (hitEm p e bad s)

/-- A prefix lookup (R210, R211). -/
def lookupPrefix (fid : Nat) (f : Frame) (family vrf addr : Nat) (bad : List (Nat × Nat)) (s : State) : State :=
  let bit := if family = 6 then 2 else 1
  let lengths := lookupLengths s family vrf addr
  let hit := probeAll s family vrf addr 0 lengths
  let extra := passesOf lengths hit - 1
  let s := count (cLookup (if family = 6 then 0x30 else 0x20)) s
  let s := ctrAdd (cLookup 0x40) extra (oweSlots f.pipe extra s)
  let s := forEach (List.range extra) (fun t _ => slotCategory f.pipe 2 (occOf fid f) t) s
  match hit with
  | none => giveResult fid bit f none false false bad s
  | some (_, p, e) =>
    let wrong := e.bad || bad.contains (bit, p)
    let s := count (cLookup (if family = 6 then 0x38 else 0x28)) s
    let s := when wrong (ltEcc bit p) (putPx p { e with bad := wrong } s)
    giveResult fid bit f (some e.result) false wrong bad s

/-- A MAC lookup: the source search and the destination search (R224, R225). An uncorrectable source entry gives the result its
error flag; R225 does not say what such a search raises, and the model raises no notice (DESIGN CHOICE, log entry 139). -/
def lookupMac (fid : Nat) (f : Frame) (bd : Nat) (bad : List (Nat × Nat)) (s : State) : State :=
  let s := count (cLookup 0x18) s
  let src := emFind s (macKey bd (slice f.bytes 6 6))
  let wrong := (src.map (fun x => emBad x.1 x.2 bad)).getD false
  let s := match src with
    | some (p, e) => hitEm p e bad s
    | none => s
  let on := (src.map (fun x => decide (entryPort x.2 = some f.port))).getD false
  let s := if wrong then s else sourceSearch f bd (src.map (·.2)) s
  match emFind s (macKey bd (slice f.bytes 0 6)) with
  | none => giveResult fid 3 f none on wrong bad s
  | some (p, e) => giveResult fid 3 f (some e.result) on (wrong || emBad p e bad) bad (hitEm p e bad s)

/-- A lookup the frame's template asks for, at its read cycle. -/
def tableLookup (fid : Nat) (f : Frame) (k : LookupKey) (bad : List (Nat × Nat)) (s : State) : State :=
  match k with
  | .exact b => lookupExact fid f (leNat (b.take 16)) bad s
  | .prefix4 vrf a => lookupPrefix fid f 4 (vrf % 4096) (a % 2 ^ 32) bad s
  | .prefix6 vrf a => lookupPrefix fid f 6 (vrf % 4096) (a % 2 ^ 128) bad s
  | .mac bd => lookupMac fid f (bd % 16384) bad s

/-- TABLE_LOOKUP (R210): a halted block starts none (Table 2-2). -/
def execTableLookup (fid : Nat) (k : LookupKey) (bad : List (Nat × Nat)) (s : State) : Host.Outcome State Fault Refusal :=
  .next (match frame s fid with
    | some f => if f.phase = .ingress && f.due.testBit (lookupBit k) && inService s 32 then tableLookup fid f k bad s else s
    | none => s)

/-! ### Checks of an entry (R197, R200, R207, Tables 6-2 to 6-7) -/

/-- A code of area 28, or a code common to all areas, as a verdict. -/
def ltVerdict (code : Nat) : Verdict := (code, if 0x80 ≤ code then 0x28 else 0)

/-- A next-hop that may be named (R200): 0, "not found" or "retired". -/
def nhUsable (s : State) (i : Nat) : Nat :=
  match tabFind s.lt.nh i with
  | none => 0x23
  | some e => if e.retired.isSome then 0x17 else 0

/-- A result of Table 6-2: its fields, then what it names. -/
def resultCode (s : State) (r : Nat) : Nat :=
  let k := rKind r
  if 5 < k || byteFld r 1 1 ≠ 0 || (k = 3 && 515 < rCode r) || (k ≠ 0 && k ≠ 3 && k ≠ 4 && rCode r ≠ 0) ||
      (k = 1 && 262143 < rIndex r) || (k = 2 && 16383 < rIndex r) || (k ≠ 1 && k ≠ 2 && rIndex r ≠ 0) then 0x0B
  else if k = 1 then nhUsable s (rIndex r)
  else if k = 2 && (tabFind s.lt.groups (rIndex r)).isNone then 0x23
  else 0

/-- The key block of an exact-match entry (Table 6-3, R197). -/
def emKeyCode (k : Nat) : Nat :=
  let kind := ekKind k
  let len := if kind = 1 then 6 else if kind = 2 then 4 else 8
  if kind = 0 || 3 < kind || (kind ≠ 3 && byteFld k 1 1 ≠ 0) || (if kind = 1 then 16383 else 4095) < ekScope k ||
      k / 2 ^ (8 * (4 + len)) ≠ 0 then 0x0B else 0

/-- The key of a prefix (Table 6-4, R197, R207). -/
def pxKeyCode (t k : Nat) : Nat :=
  let e := readPx k
  if e.family ≠ (if t = 1 then 4 else 6) || pxWidth e.family < e.length || 4095 < e.vrf || pxKey e ≠ k then 0x0B
  else if e.addr % 2 ^ (pxWidth e.family - e.length) ≠ 0 then 0x81
  else 0

/-- A next-hop entry (Table 6-5, R200). -/
def nhCode (s : State) (b : Bytes) : Nat :=
  let kind := leAt b 0 1
  let target := leAt b 2 2
  let rw := leAt b 4 4
  let mtu := leAt b 8 2
  if kind = 0 || 4 < kind || leAt b 1 1 / 2 % 64 ≠ 0 || (kind = 1 && 515 < target) || (kind = 2 && 16383 < target) ||
      rw / 2 ^ 18 % 2 ^ 13 ≠ 0 || (mtu ≠ 0 && (mtu < 64 || 9728 < mtu)) || leAt b 0x0A 2 ≠ 0 then 0x0B
  else if rw.testBit 31 then
    match tabFind s.lt.rw (rw % 2 ^ 18) with
    | none => 0x23
    | some e => if e.retired.isSome then 0x17 else 0
  else 0

/-- A rewrite entry (Table 6-6). -/
def rwCode (b : Bytes) : Nat :=
  if 2047 < leAt b 0 2 || leAt b 2 1 / 2 % 64 ≠ 0 || leAt b 3 1 ≠ 0 then 0x0B else 0

/-- Entry sizes of the tables. -/
def entrySize (t : Nat) : Nat := nth 0 [32, 48, 48, 16, 32, 8] t

/-! ### Commits (R75, R203, R208, R215, R221) -/

/-- What an attempt comes to: its code, or the state it leaves. -/
def attempt (code : Nat) (t : State) (s : State) : Done :=
  if code ≠ 0 then ⟨ltVerdict code, 0, s, false⟩ else succeeded t

/-- The first code of a list that is not 0. -/
def firstCode (l : List Nat) : Nat := (l.find? (· ≠ 0)).getD 0

/-- Insert into the exact-match table. -/
def commitEm (k : Nat) (b : Bytes) (s : State) : Done :=
  let r := leAt b 0x10 12
  let form := if leNat (b.take 16) ≠ k || leAt b 0x1C 1 / 8 ≠ 0 || leAt b 0x1D 3 ≠ 0 then 0x0B else 0
  let code := firstCode [if (emFind s k).isSome then 0x20 else 0, emKeyCode k, form, resultCode s r]
  if code ≠ 0 then ⟨ltVerdict code, 0, s, false⟩
  else
    match insertEm { key := k, result := r, static := (leAt b 0x1C 1).testBit 2 } s with
    | some t => succeeded t
    | none => failed 0x21 0 s

/-- Insert a prefix: its length is marked in the same cycle (R208). -/
def commitPx (t k : Nat) (b : Bytes) (s : State) : Done :=
  let r := leAt b 0x20 12
  let e := { readPx k with result := r }
  let form := if leNat (b.take 32) ≠ k || leAt b 0x2C 1 / 2 ≠ 0 || leAt b 0x2D 3 ≠ 0 then 0x0B else 0
  let code := firstCode [if (pxFind s k).isSome then 0x20 else 0, pxKeyCode t k, form, resultCode s r,
    if 1048576 < unitsUsed s + pxUnits e.family then 0x21 else 0]
  if code ≠ 0 then ⟨ltVerdict code, 0, s, false⟩
  else
    match placeFor (pxCells s) s.lt.px (twoBuckets s (pxProbe e)) (pxUnits e.family) with
    | some (p, x, n) =>
      succeeded (ctrAdd (cLookup 0x48) n
        (setLt { s.lt with px := tabInsert x p e, filter := markPrefix s e s.lt.filter } s))
    | none => failed 0x21 0 s

/-- The next-hop an entry's bytes hold. -/
def readNh (b : Bytes) : NhEntry := { kind := leAt b 0 1, target := leAt b 2 2, rewrite := leAt b 4 4, mtu := leAt b 8 2 }

/-- The rewrite an entry's bytes hold. -/
def readRw (b : Bytes) : RwEntry := { routine := leAt b 0 2, data := leAt b 8 24 }

/-- Put a next-hop. -/
def putNh (i : Nat) (e : NhEntry) (s : State) : State := setLt { s.lt with nh := tabInsert s.lt.nh i e } s

/-- Put a rewrite. -/
def putRw (i : Nat) (e : RwEntry) (s : State) : State := setLt { s.lt with rw := tabInsert s.lt.rw i e } s

/-- Why an insertion at an index is rejected: "retired" (R76), "duplicate". -/
def takenCode (present retired : Bool) : Nat := if retired then 0x17 else if present then 0x20 else 0

/-- The entry of an index is in use, or retired. -/
def indexState (s : State) (t k : Nat) : Bool × Bool :=
  if t = 3 then
    match tabFind s.lt.nh k with
    | some e => (true, e.retired.isSome)
    | none => (false, false)
  else if t = 4 then
    match tabFind s.lt.rw k with
    | some e => (true, e.retired.isSome)
    | none => (false, false)
  else ((tabFind s.lt.groups k).isSome, false)

/-- Whether an insertion finds its entry present (R202, R207, R76). -/
def presentCode (s : State) (t k : Nat) : Nat :=
  if t = 0 then (if (emFind s k).isSome then 0x20 else 0)
  else if t ≤ 2 then (if (pxFind s k).isSome then 0x20 else 0)
  else takenCode (indexState s t k).1 (indexState s t k).2

/-- TBL_INSERT at its check and commit. -/
def commitInsert (t k : Nat) (b : Bytes) (s : State) : Done :=
  if t = 0 then commitEm k b s
  else if t ≤ 2 then commitPx t k b s
  else if t = 3 then attempt (firstCode [presentCode s t k, nhCode s b]) (putNh k (readNh b) s) s
  else attempt (firstCode [presentCode s t k, rwCode b]) (putRw k (readRw b) s) s

/-- TBL_UPDATE at its check and commit: result, FLAGS[2] and data; a corrupt entry is whole again (R231). -/
def commitUpdate (t k : Nat) (b : Bytes) (s : State) : Done :=
  if t = 0 then
    match emFind s k with
    | none => failed 0x23 0 s
    | some (p, e) =>
      let r := leAt b 0x10 12
      let form := if leAt b 0x1C 1 / 8 ≠ 0 || leAt b 0x1D 3 ≠ 0 then 0x0B else 0
      attempt (firstCode [form, resultCode s r]) (putEm p { e with result := r, static := (leAt b 0x1C 1).testBit 2, bad := false } s) s
  else if t ≤ 2 then
    match pxFind s k with
    | none => failed 0x23 0 s
    | some (p, e) =>
      let r := leAt b 0x20 12
      let form := if leAt b 0x2C 1 / 2 ≠ 0 || leAt b 0x2D 3 ≠ 0 then 0x0B else 0
      attempt (firstCode [form, resultCode s r]) (putPx p { e with result := r, bad := false } s) s
  else if t = 5 then failed 0x0B 0 s
  else
    let st := indexState s t k
    if st.2 then failed 0x17 0 s
    else if !st.1 then failed 0x23 0 s
    else if t = 3 then attempt (nhCode s b) (putNh k (readNh b) s) s
    else attempt (rwCode b) (putRw k (readRw b) s) s

/-- The lowest run of `n` free member slots (R215). -/
def freeRun (n : Nat) : Nat → List Nat → Option Nat
  | pos, [] => if pos + n ≤ 262144 then some pos else none
  | pos, k :: t => if pos + n ≤ k then some pos else freeRun n (k + 1) t

/-- The member slots of a group are retired (R75, R215). -/
def retireSlots (g : EcmpGroup) (s : State) : State :=
  setLt { s.lt with slots := s.lt.slots.map (fun e =>
    if g.base ≤ e.1 && e.1 < g.base + g.size then (e.1, { e.2 with retired := some (activeEpoch s) }) else e) } s

/-- ECMP_SET at its check and commit (R215); a fault of the group's entry stays (R231). -/
def commitEcmp (g n : Nat) (b : Bytes) (s : State) : Done :=
  let members := (List.range n).map (fun i => leAt b (4 * i) 4)
  let code := firstCode (members.map (fun m => if 262143 < m then 0x0B else nhUsable s m))
  if code ≠ 0 then failed code 0 s
  else
    match freeRun n 0 (s.lt.slots.map (·.1)) with
    | none => failed 0x21 0 s
    | some base =>
      let old := tabFind s.lt.groups g
      let s := match old with
        | some o => retireSlots o s
        | none => s
      let slots := (List.range n).foldl (fun t i => tabInsert t (base + i) ⟨nth 0 members i, none⟩) s.lt.slots
      succeeded (setLt { s.lt with slots := slots, groups := tabInsert s.lt.groups g ⟨n, base, (old.map (·.bad)).getD false⟩ } s)

/-- TBL_DELETE (R74, R75, R205, R209). -/
def commitDelete (t k : Nat) (s : State) : Done :=
  if t = 0 then
    match emFind s k with
    | none => failed 0x23 0 s
    | some (p, _) =>
      let s := setLt { s.lt with em := tabErase s.lt.em p } s
      succeeded (if p < overflowBase then issue 11 17 [p / 4] [] s else s)
  else if t ≤ 2 then
    match pxFind s k with
    | none => failed 0x23 0 s
    | some (p, e) => succeeded (countDeletion (lfGroup s e.vrf) (setLt { s.lt with px := tabErase s.lt.px p } s))
  else if t = 3 then
    match tabFind s.lt.nh k with
    | none => failed 0x23 0 s
    | some e =>
      if e.retired.isSome then failed 0x17 0 s
      else if nhRefs s k ≠ 0 then failed 0x16 0 s
      else succeeded (putNh k { e with retired := some (activeEpoch s), bad := false } s)
  else if t = 4 then
    match tabFind s.lt.rw k with
    | none => failed 0x23 0 s
    | some e =>
      if e.retired.isSome then failed 0x17 0 s
      else if rwRefs s k ≠ 0 then failed 0x16 0 s
      else succeeded (putRw k { e with retired := some (activeEpoch s), bad := false } s)
  else
    match tabFind s.lt.groups k with
    | none => failed 0x23 0 s
    | some g =>
      if groupRefs s k ≠ 0 then failed 0x16 0 s
      else
        let s := retireSlots g s
        succeeded (setLt { s.lt with groups := tabErase s.lt.groups k } s)

/-! ### Commands (R216 to R223, R668, R669) -/

/-- The payload of a table command in the layout of Table 13-6, for the partner (R545). -/
def tblBody (t k size : Nat) : Bytes :=
  leBytes 1 t ++ zeros 3 ++ leBytes 4 (if t < 3 then 0 else k) ++ leBytes 2 size ++ zeros 6 ++ leBytes 32 (if t < 3 then k else 0)

/-- A changing command in progress ends: its place and a lock of its own go. -/
def endTbl (x : TblCmd) (s : State) : State :=
  let s := setLt { s.lt with cmds := s.lt.cmds.erase x } s
  if x.own then
    setLt { s.lt with locks := s.lt.locks.filter (fun l => !(l.table = x.table && l.key = x.key && !l.hold)) } s
  else s

/-- TBL_LOCK: a keyed entry must exist; an index always does. -/
def lockCheck (t k : Nat) (s : State) : Done := if t < 3 && presentCode s t k = 0 then failed 0x23 0 s else succeeded s

/-- The check and the commit of a changing command, by its code; TBL_UNLOCK may come without content. -/
def applyTbl (x : TblCmd) (b : Bytes) (s : State) : Done :=
  if x.code = 0x21 then commitInsert x.table x.key b s
  else if x.code = 0x23 then commitDelete x.table x.key s
  else if x.code = 0x24 then lockCheck x.table x.key s
  else if x.code = 0x26 then commitEcmp x.key x.size b s
  else if x.code = 0x25 && b = [] then succeeded s
  else commitUpdate x.table x.key b s

/-- The lock that a queue holds on an entry goes; another queue's stays (R220). -/
def releaseHeld (t k q : Nat) (s : State) : State :=
  setLt { s.lt with locks := s.lt.locks.filter (fun l => !(l.table = t && l.key = k && l.hold && l.sq = q)) } s

/-- A queue takes the lock of an entry, which no other queue holds (R220). -/
def holdLock (t k q : Nat) (s : State) : State :=
  let s := unlockEntry t k s
  setLt { s.lt with locks := s.lt.locks ++ [⟨t, k, q, true⟩] } s

/-- Commit of a command in progress; TBL_LOCK then holds the lock, and TBL_UNLOCK releases it (Table 6-8). -/
def tblDone (x : TblCmd) (b : Bytes) (s : State) : Done :=
  let d := applyTbl x b s
  let t := endTbl x d.state
  { d with state :=
      if d.verdict.1 ≠ 0 then t
      else if x.code = 0x24 then holdLock x.table x.key x.cmd.sq t
      else if x.code = 0x25 then releaseHeld x.table x.key x.cmd.sq t
      else t }

/-- Bytes of content a command reads. -/
def tblNeeds (x : TblCmd) : Nat := if x.code = 0x26 then 4 * x.size else entrySize x.table

/-- An entry is found uncorrectable at a location of its table (R231). -/
def corruptAt (t p : Nat) (s : State) : State :=
  let hit (present : Bool) (mark : State → State) : State := if present then ltEcc t p (mark s) else s
  if t = 0 then hit (tabFind s.lt.em p).isSome (fun s => setLt { s.lt with em := s.lt.em.map (fun e =>
    if e.1 = p then (e.1, { e.2 with bad := true }) else e) } s)
  else if t ≤ 2 then hit (tabFind s.lt.px p).isSome (fun s => setLt { s.lt with px := s.lt.px.map (fun e =>
    if e.1 = p then (e.1, { e.2 with bad := true }) else e) } s)
  else if t = 3 then hit (tabFind s.lt.nh p).isSome (fun s => setLt { s.lt with nh := s.lt.nh.map (fun e =>
    if e.1 = p then (e.1, { e.2 with bad := true }) else e) } s)
  else if t = 4 then hit (tabFind s.lt.rw p).isSome (fun s => setLt { s.lt with rw := s.lt.rw.map (fun e =>
    if e.1 = p then (e.1, { e.2 with bad := true }) else e) } s)
  else hit (tabFind s.lt.groups p).isSome (fun s => setLt { s.lt with groups := s.lt.groups.map (fun e =>
    if e.1 = p then (e.1, { e.2 with bad := true }) else e) } s)

/-- The DMA data of a table command arrive (R221, R222). -/
def tblCommit (x : TblCmd) (d : Dma) (s : State) : State :=
  match d with
  | .fault => complete x.cmd 0x81 0x60 0 (endTbl x s)
  | .tooLong => complete x.cmd 0x80 0x60 0 (endTbl x s)
  | .data b =>
    if b.length < tblNeeds x then complete x.cmd 0x82 0x60 0 (endTbl x s)
    else commitCmd x.cmd x.code (tblBody x.table x.key x.size) b (tblDone x b) s

/-- R668: the tables of a command; and an index or key that lies within its table. -/
def tblOk (code : Nat) (a : TblArgs) : Bool :=
  a.table ≤ 5 && (if code = 0x26 then a.table = 5 else if code = 0x21 || code = 0x22 then a.table ≤ 4 else true) &&
    (if a.table = 5 then a.index < 16384 else a.table < 3 || a.index < 262144) &&
    (a.table ≠ 0 || (a.key.drop 16).all (· = 0))

/-- R220: the lock a queue held on an entry has expired. -/
def lockGone (s : State) (t k q : Nat) : Bool := s.lt.expired.any (fun l => l.table = t && l.key = k && l.sq = q)

/-- R217: the entry is locked for a command of queue `q`: by another queue, or by a command in progress, of whatever queue, unless
`q` holds the lock; a key that an insertion reserves is locked for every insertion. -/
def lockedFor (s : State) (code t k q : Nat) : Bool :=
  if s.lt.locks.any (fun l => l.table = t && l.key = k && l.hold && l.sq = q) then
    code = 0x21 && s.lt.cmds.any (fun x => x.code = 0x21 && x.table = t && x.key = k)
  else isLocked s t k

/-- A changing command waits for its content: the entry's lock is set where it is not (Table 6-9, accept). -/
def beginTbl (c : SqCmd) (code : Nat) (a : TblArgs) (s : State) : State :=
  let k := tblKey a
  let own := !isLocked s a.table k
  let s := if own then setLt { s.lt with locks := s.lt.locks ++ [⟨a.table, k, c.sq, false⟩] } s else s
  setLt { s.lt with cmds := s.lt.cmds ++ [⟨c, code, a.table, a.index, a.size, k, own⟩] } s

/-- A changing command without content: it is accepted, with LOCK set, and commits, in a pair 4,096 CCLK later (R545). -/
def tblAtOnce (c : SqCmd) (code : Nat) (a : TblArgs) (s : State) : State :=
  let k := tblKey a
  let s := beginTbl c code a s
  let x := (s.lt.cmds.find? (fun x => x.cmd = c)).getD ⟨c, code, a.table, a.index, a.size, k, false⟩
  commitCmd c code (tblBody a.table k a.size) [] (tblDone x []) s

/-- A command past its lock check. -/
def tblBegin (c : SqCmd) (code : Nat) (a : TblArgs) (s : State) : State :=
  let k := tblKey a
  if code = 0x23 || code = 0x24 || (code = 0x25 && c.addr = 0) then tblAtOnce c code a s
  else if code = 0x26 && (a.size = 0 || 512 < a.size) then complete c 0x0B 0 0 s
  else
    let taken := if code = 0x21 then presentCode s a.table k else 0
    if taken ≠ 0 then complete c taken 0 0 s else beginTbl c code a s

/-- A changing table command starts at the Lookup Tables. -/
def tblStart (c : SqCmd) (code : Nat) (a : TblArgs) (s : State) : State :=
  let s := count (cLookup 0x78) s
  let k := tblKey a
  if !tblOk code a then complete c 0x0B 0 0 s
  else if lockGone s a.table k c.sq then
    complete c 0x82 0x28 0 (setLt { s.lt with expired := s.lt.expired.filter (fun l =>
      !(l.table = a.table && l.key = k && l.sq = c.sq)) } s)
  else if lockedFor s code a.table k c.sq then
    complete c 0x22 0 0 (when (code ≠ 0x25) (count (cLookup 0x80)) s)
  else tblBegin c code a s

/-- The image of an entry, and whether it is corrupt; none where a key is not held. -/
def entryImage (s : State) (t k : Nat) : Option (Bytes × Bool) :=
  let lock := b2n (isLocked s t k)
  if t = 0 then
    (emFind s k).map (fun x => (leBytes 16 k ++ leBytes 12 x.2.result ++
      leBytes 1 (b2n x.2.static * 4 + b2n x.2.hit * 2 + lock) ++ zeros 3, x.2.bad))
  else if t ≤ 2 then
    (pxFind s k).map (fun x => (leBytes 32 k ++ leBytes 12 x.2.result ++ leBytes 1 lock ++ zeros 3, x.2.bad))
  else if t = 3 then
    let e : NhEntry := (tabFind s.lt.nh k).getD ⟨0, 0, 0, 0, none, false⟩
    some (leBytes 1 e.kind ++ leBytes 1 (b2n e.retired.isSome * 128 + lock) ++ leBytes 2 e.target ++ leBytes 4 e.rewrite ++
      leBytes 2 e.mtu ++ zeros 2 ++ leBytes 4 (nhRefs s k), e.bad)
  else if t = 4 then
    let e : RwEntry := (tabFind s.lt.rw k).getD ⟨0, 0, none, false⟩
    some (leBytes 2 e.routine ++ leBytes 1 (b2n e.retired.isSome * 128 + lock) ++ zeros 1 ++ leBytes 4 (rwRefs s k) ++
      leBytes 24 e.data, e.bad)
  else
    let e : EcmpGroup := (tabFind s.lt.groups k).getD ⟨0, 0, false⟩
    some (leBytes 2 e.size ++ leBytes 1 lock ++ zeros 1 ++ leBytes 4 e.base, e.bad)

/-- The location of an entry in LT_ECC_LAST. -/
def entryPlace (s : State) (t k : Nat) : Nat :=
  if t = 0 then ((emFind s k).map (·.1)).getD 0 else if t ≤ 2 then ((pxFind s k).map (·.1)).getD 0 else k

/-- An entry is marked corrupt (R231). -/
def markBad (t k : Nat) (s : State) : State :=
  if t = 0 then
    match emFind s k with
    | some (p, e) => putEm p { e with bad := true } s
    | none => s
  else if t ≤ 2 then
    match pxFind s k with
    | some (p, e) => putPx p { e with bad := true } s
    | none => s
  else if t = 3 then
    match tabFind s.lt.nh k with
    | some e => putNh k { e with bad := true } s
    | none => s
  else if t = 4 then
    match tabFind s.lt.rw k with
    | some e => putRw k { e with bad := true } s
    | none => s
  else
    match tabFind s.lt.groups k with
    | some e => setLt { s.lt with groups := tabInsert s.lt.groups k { e with bad := true } } s
    | none => s

/-- TBL_READ at its read cycle (R218, R231). -/
def tblReadNow (c : SqCmd) (a : TblArgs) (ecc : Ecc) (s : State) : State :=
  let s := count (cLookup 0x78) s
  let k := tblKey a
  if !tblOk 0x20 a then complete c 0x0B 0 0 s
  else
    match entryImage s a.table k with
    | none => complete c 0x23 0 0 s
    | some (b, bad) =>
      if bad then complete c 0x83 0x28 0 s
      else if ecc = .uncorrectable then
        complete c 0x83 0x28 0 (ltEcc a.table (entryPlace s a.table k) (markBad a.table k s))
      else finishWrite c b 0 s

/-- A table command starts. -/
def startTbl (w : TblWait) (s : State) : State :=
  if w.code = 0x20 then tblReadNow w.cmd w.args w.ecc s else tblStart w.cmd w.code w.args s

/-- A table command reaches the Lookup Tables (R216): it starts at once, or takes its place among those that wait. One whose
queue comes before that of a command already started in this MCLK cycle counts as arriving in the next (log entry 108). -/
def arriveTbl (c : SqCmd) (code : Nat) (a : TblArgs) (ecc : Ecc) (s : State) : State :=
  let out := s.lt.started.1 = mclk s + 1 && c.sq < s.lt.started.2
  let w : TblWait := ⟨if out then mclk s + 1 else mclk s, c, code, a, ecc⟩
  if out || !s.lt.arrivals.isEmpty then
    let first (x : TblWait) : Bool := x.at_ < w.at_ || (x.at_ = w.at_ && x.cmd.sq ≤ c.sq)
    setLt { s.lt with arrivals := s.lt.arrivals.filter first ++ w :: s.lt.arrivals.filter (fun x => !first x) } s
  else startTbl w (setLt { s.lt with started := (mclk s + 1, c.sq) } s)

/-- The table commands whose MCLK cycle has come start, one after another (R216). -/
def startArrivals (s : State) : State :=
  let due := s.lt.arrivals.takeWhile (fun w => w.at_ ≤ mclk s)
  let s := setLt { s.lt with arrivals := s.lt.arrivals.drop due.length } s
  forEach due (fun t w => startTbl w (setLt { t.lt with started := (mclk t + 1, w.cmd.sq) } t)) s

/-- TBL_READ (R218). -/
def execTblRead (c : SqCmd) (a : TblArgs) (ecc : Ecc) (s : State) : Host.Outcome State Fault Refusal :=
  onUnits c.wf (startCmd c 0 (arriveTbl c 0x20 a ecc) s)

/-- TBL_INSERT (R203). -/
def execTblInsert (c : SqCmd) (a : TblArgs) (s : State) : Host.Outcome State Fault Refusal :=
  onUnits c.wf (startCmd c 1 (arriveTbl c 0x21 a .clean) s)

/-- TBL_UPDATE (R221). -/
def execTblUpdate (c : SqCmd) (a : TblArgs) (s : State) : Host.Outcome State Fault Refusal :=
  onUnits c.wf (startCmd c 1 (arriveTbl c 0x22 a .clean) s)

/-- TBL_DELETE (R75). -/
def execTblDelete (c : SqCmd) (a : TblArgs) (s : State) : Host.Outcome State Fault Refusal :=
  onUnits c.wf (startCmd c 1 (arriveTbl c 0x23 a .clean) s)

/-- TBL_LOCK (R220). -/
def execTblLock (c : SqCmd) (a : TblArgs) (s : State) : Host.Outcome State Fault Refusal :=
  onUnits c.wf (startCmd c 1 (arriveTbl c 0x24 a .clean) s)

/-- TBL_UNLOCK (R669). -/
def execTblUnlock (c : SqCmd) (a : TblArgs) (s : State) : Host.Outcome State Fault Refusal :=
  onUnits c.wf (startCmd c 1 (arriveTbl c 0x25 a .clean) s)

/-- ECMP_SET (R215). -/
def execEcmpSet (c : SqCmd) (a : TblArgs) (s : State) : Host.Outcome State Fault Refusal :=
  onUnits c.wf (startCmd c 1 (arriveTbl c 0x26 a .clean) s)

/-- LOCK_EXPIRED (R220): `entry` is the key or, for tables 3 to 5, the index, little-endian. -/
def execLockExpired (t : Nat) (entry : Bytes) (s : State) : Host.Outcome State Fault Refusal :=
  .next (
    let k := leNat entry
    match lockOf s t k with
    | some l =>
      if l.hold then
        let s := unlockEntry t k s
        raise evLockExpired t (count (cLookup 0x88) (setLt { s.lt with expired := s.lt.expired ++ [l] } s))
      else s
    | none => s)

/-- The command that stands for a command of the active on its partner. -/
def partnerCmd (s : State) : SqCmd := { sq := partnerSq, tag := s.clk.cclk, fence := false, quiet := false, addr := 0 }

/-- A table command of a pair, applied at its commit cycle (R545): on the active the command itself, on the partner
`partnerCmd`. -/
def tblPartner (c : SqCmd) (code : Nat) (body data : Bytes) (s : State) : Done :=
  let a := readTblArgs (zeros 16 ++ body)
  let k := tblKey a
  let bare := code = 0x23 || code = 0x24 || (code = 0x25 && data = [])
  if !tblOk code a then failed 0x0B 0 s
  else if !bare && data.length < (if code = 0x26 then 4 * a.size else entrySize a.table) then failed 0x82 0x60 s
  else tblDone ((s.lt.cmds.find? (fun x => x.cmd = c)).getD ⟨c, code, a.table, a.index, a.size, k, false⟩) data s

/-- LT_HASH_SEED is writable only while the stores are empty (R206). -/
def seedWritable (s : State) : Bool := s.lt.em.isEmpty && s.lt.px.isEmpty

end Sys2Proof.Machine
end

