-- ==== Sys2Proof/Machine/Rules.lean ====
section
/-! DEFINITION. Rule Banks and Pattern Automata (chapter 7), and the commit of table and rule commands. -/

namespace Sys2Proof.Machine
open Sys2Proof

/-- Set the Rule Banks. -/
def setRb (r : Rb) (s : State) : State := { s with rb := r }

/-- A code of area 30, or a code common to all areas, as a verdict. -/
def rbVerdict (code : Nat) : Verdict := (code, if 0x80 ≤ code then 0x30 else 0)

/-! ### Banks, chains and profiles (R234 to R239) -/

/-- An entry by its global address (R234). -/
def rbEntry (s : State) (a : Nat) : RbEntry := tabGet {} s.rb.entries a

/-- Replace an entry. -/
def putRb (a : Nat) (e : RbEntry) (s : State) : State := setRb { s.rb with entries := tabPut {} s.rb.entries a e } s

/-- Global address of entry `e` of bank `b` (R234). -/
def rbAddr (b e : Nat) : Nat := 2048 * b + e

/-- R235: an entry's words match a 160-bit key segment. -/
def partMatches (e : RbEntry) (key : Nat) : Bool := (key ^^^ e.data) &&& e.care = 0

/-- Segments of the links of 64 banks in bank order: first bank, width, head bank of the chain (Table 7-1). -/
def segments (link : Nat → Nat) : List (Nat × Nat × Nat) :=
  ((List.range 64).foldl (fun (l : List (Nat × Nat × Nat)) b =>
    match l with
    | [] => [(b, 1, b)]
    | (f, w, h) :: t =>
      if link b = 0 then (b, 1, b) :: l
      else if link b = 1 then (f, w + 1, h) :: t
      else (b, 1, h) :: l) []).reverse

/-- The links of a set. -/
def linksOf (s : State) (set : Nat) : List (Nat × Nat × Nat) := segments (fun b => rdSet s set oRbLink b)

/-- Group mask `g` of a SEARCH_PROFILE row (Table 7-2). -/
def groupMask (row g : Nat) : Nat := byteFld row (8 * g) 8
/-- First key segment of group `g`. -/
def groupSeg (row g : Nat) : Nat := byteFld row (0x20 + g) 1

/-- Mask of `w` banks from bank `f`. -/
def bankMask (f w : Nat) : Nat := (2 ^ w - 1) * 2 ^ f

/-- R238: the links alone: bank 0 is a head, the segments of a chain are equally wide, and each starts at a multiple of its
width, which is 1, 2, 4 or 8. -/
def linksOk (link : Nat → Nat) : Bool :=
  let segs := segments link
  link 0 = 0 && segs.all (fun x =>
    (x.2.1 = 1 || x.2.1 = 2 || x.2.1 = 4 || x.2.1 = 8) && x.1 % x.2.1 = 0 &&
      segs.all (fun y => y.2.2 ≠ x.2.2 || y.2.1 = x.2.1))

/-- R238: one profile against the links. -/
def profileOk (segs : List (Nat × Nat × Nat)) (row : Nat) : Bool :=
  (List.range 4).all (fun g =>
    (List.range 4).all (fun k => k ≤ g || groupMask row g &&& groupMask row k = 0) &&
      segs.all (fun x =>
        let chain := (segs.filter (fun y => y.2.2 = x.2.2)).foldl (fun m y => m ||| bankMask y.1 y.2.1) 0
        let sel := groupMask row g &&& chain
        sel = 0 || (sel = chain && groupSeg row g + x.2.1 ≤ 8)))

/-- Agreement group G5 in a set (R238). -/
def g5Ok (s : State) (set : Nat) : Bool :=
  linksOk (fun b => rdSet s set oRbLink b) &&
    (List.range 256).all (fun r => profileOk (linksOf s set) (rdSet s set oSearchProfile r))

/-- R263: the scan sets of a set exist in the loaded image. -/
def scanSetsOk (s : State) (set : Nat) : Bool :=
  (List.range 1024).all (fun t => rdSet s set oScanSetMap t < rd s oPatSets)

/-- RULES_VALID: rules whose first bank, under the active links, has VALID 1. -/
def rulesValid (s : State) : Nat :=
  let firsts := (linksOf s (activeSet s)).map (·.1)
  (s.rb.entries.filter (fun e => e.2.valid && firsts.contains (e.1 / 2048))).length

/-! ### Search (R240 to R243, R252 to R254) -/

/-- A parity error of an entry (R252). -/
def rbParity (a : Nat) (s : State) : State :=
  let s := putRb a { rbEntry s a with bad := true } s
  let s := wr oRbFault (setBit (rd s oRbFault) (a / 2048)) (wr oRbFaultLast (a % 2 ^ 17) s)
  raise evRbParity a s

/-- R237: the rule whose first part lies at an address matches in a segment of width `w`. -/
def ruleMatches (s : State) (keys : List Nat) (seg w a : Nat) : Bool :=
  (List.range w).all (fun i => partMatches (rbEntry s (a + 2048 * i)) (nth 0 keys (seg + i)))

/-- R241: the matching rule of lowest address in a group. -/
def firstMatch (s : State) (segs : List (Nat × Nat × Nat)) (keys : List Nat) (row g : Nat) : Option (Nat × RbEntry) :=
  s.rb.entries.find? (fun e => e.2.valid && (groupMask row g).testBit (e.1 / 2048) &&
    segs.any (fun x => x.1 = e.1 / 2048 && ruleMatches s keys (groupSeg row g) x.2.1 e.1))

/-- A result of Table 7-3. -/
def ruleWord (matched error : Bool) (a : Nat) : Nat := b2n matched * 2 ^ 63 + b2n error * 2 ^ 62 + a % 2 ^ 17

/-- The ACTION of a matching rule turns out unreadable (R254). -/
def badAction (a : Nat) (s : State) : State := raise evRbParity a (putRb a { rbEntry s a with badAction := true } s)

/-- The result of one group; `actions` are the rules whose ACTION the search finds uncorrectable. -/
def groupResult (fid : Nat) (segs : List (Nat × Nat × Nat)) (keys : List Nat) (row : Nat) (actions : List Nat) (g : Nat)
    (s : State) : State :=
  let faulty := groupMask row g &&& rd s oRbFault ≠ 0
  match firstMatch s segs keys row g with
  | none =>
    deliverResult fid (.rule g (ruleWord false faulty 0) 0) faulty (when faulty (count (cRule 0x18)) s)
  | some (a, e) =>
    let unread := e.badAction || actions.contains a
    let s := when unread (badAction a) (count (cRule 0x10) s)
    let err := faulty || unread
    deliverResult fid (.rule g (ruleWord true err a) e.action) err (when err (count (cRule 0x18)) s)

/-- A rule search of a frame at its search cycle. -/
def ruleSearch (fid : Nat) (f : Frame) (parity actions : List Nat) (s : State) : State :=
  let row := rdCfg s f.epoch oSearchProfile (tmProfile f.tmplWord)
  let selected := groupMask row 0 ||| groupMask row 1 ||| groupMask row 2 ||| groupMask row 3
  let s := forEach parity (fun t a => rbParity a t) s
  let segs := linksOf s (setFor s f.epoch)
  let s := ctrAdd (cRule 0x08) (popCount 64 selected) (count (cRule 0x00) s)
  let s := forEach (List.range 4) (fun t g => groupResult fid segs f.segs row actions g t) s
  modFrame fid (fun x => { x with due := clearBit x.due 4 }) s

/-- RULE_SEARCH (R241): halted Rule Banks start none (Table 2-2). -/
def execRuleSearch (fid : Nat) (parity actions : List Nat) (s : State) : Host.Outcome State Fault Refusal :=
  onUnits (parity.all (· < 131072))
    (match frame s fid with
     | some f => if f.phase = .ingress && f.due.testBit 4 && inService s 33 then ruleSearch fid f parity actions s else s
     | none => s)

/-- RB_SCRUB (R252). -/
def execRbScrub (bad : List Nat) (s : State) : Host.Outcome State Fault Refusal :=
  onUnits (bad.all (· < 131072)) (forEach bad (fun t a => rbParity a t) s)

/-! ### Rule commands (R244 to R248, R670) -/

/-- R245. -/
def rulePlaceOk (b w e : Nat) : Bool := (w = 1 || w = 2 || w = 4 || w = 8) && b % w = 0 && b + w ≤ 64 && e ≤ 2047

/-- Bank and entry of a chain position. -/
def posBank (h w p : Nat) : Nat := h + p / 2048 * w
/-- Address of part `i` at a chain position. -/
def posAddr (h w p i : Nat) : Nat := rbAddr (posBank h w p + i) (p % 2048)

/-- R248: bank `b`, entry `e` belongs to a locked position of a running move. -/
def moveLocks (s : State) (b e : Nat) : Bool :=
  s.rb.moves.any (fun m => m.head ≤ b && (let p := (b - m.head) / m.width * 2048 + e; m.lo ≤ p && p ≤ m.hi))

/-- R248: any of the banks of a rule is locked at an entry. -/
def ruleLocked (s : State) (b w e : Nat) : Bool := (List.range w).any (fun i => moveLocks s (b + i) e)

/-- After a rewrite, a bank's fault bit stays only while another of its entries is faulty (R253). -/
def settleFault (b : Nat) (s : State) : State :=
  if s.rb.entries.any (fun e => e.1 / 2048 = b && e.2.bad) then s else wr oRbFault (clearBit (rd s oRbFault) b) s

/-- Rewrite entry `e` of `w` banks from bank `b` (R246). -/
def rewriteRule (b w e : Nat) (g : Nat → RbEntry) (s : State) : State :=
  forEach (List.range w) (fun t i => settleFault (b + i) (putRb (rbAddr (b + i) e) (g i) t)) s

/-- The part of bank `i` in a rule entry (Table 7-4, R670). -/
def readPart (d : Bytes) (i : Nat) : RbEntry :=
  { data := beAt d (0x10 + 40 * i) 20, care := beAt d (0x24 + 40 * i) 20, valid := (leAt d 0 1).testBit 0, action := leAt d 4 4 }

/-- RULE_WRITE at its check and commit (R236, R245, R248, R670). -/
def commitRule (b e : Nat) (d : Bytes) (s : State) : Done :=
  let w := leAt d 1 1
  if !rulePlaceOk b w e || leAt d 0 1 / 4 ≠ 0 || leAt d 2 2 ≠ 0 || leAt d 8 8 ≠ 0 then failed 0x0B 0 s
  else if ruleLocked s b w e then failed 0x22 0 (count (cRule 0x28) s)
  else if (List.range w).any (fun i => andNot (readPart d i).data (readPart d i).care ≠ 0) then failed 0x80 0x30 s
  else succeeded (rewriteRule b w e (readPart d) s)

/-- The payload of a rule command in the layout of Table 13-6. -/
def ruleBody (a : RuleArgs) : Bytes :=
  leBytes 1 a.bank ++ leBytes 1 a.width ++ leBytes 2 a.entry ++ leBytes 1 (b2n a.lower) ++ zeros 3 ++ leBytes 4 a.p1 ++ leBytes 4 a.p2

/-- A RULE_WRITE in progress ends. -/
def ruleDone (x : TblCmd) (d : Bytes) (s : State) : Done :=
  commitRule x.index x.size d (setRb { s.rb with cmds := s.rb.cmds.erase x } s)

/-- The DMA data of a RULE_WRITE arrive (R222, R246). -/
def ruleCommit (x : TblCmd) (d : Dma) (s : State) : State :=
  let gone := setRb { s.rb with cmds := s.rb.cmds.erase x } s
  match d with
  | .fault => complete x.cmd 0x81 0x60 0 gone
  | .tooLong => complete x.cmd 0x80 0x60 0 gone
  | .data b =>
    if b.length < 16 || b.length < 16 + 40 * leAt b 1 1 then complete x.cmd 0x82 0x60 0 gone
    else commitCmd x.cmd 0x31 (ruleBody ⟨x.index, leAt b 1 1, x.size, false, 0, 0⟩) b (ruleDone x b) s

/-- The command in progress of a queue and TAG, also one whose queue has gone since (R460). -/
def ofCommand (q tag : Nat) (x : TblCmd) : Bool :=
  (x.cmd.sq = q && x.cmd.tag = tag) || (x.cmd.sq = partnerSq && x.cmd.tag = q * 2 ^ 32 + tag)

/-- A changing table command whose content has yet to be read, of a queue and TAG. -/
def awaits (s : State) (q tag : Nat) (x : TblCmd) : Bool :=
  ofCommand q tag x && !s.pair.due.any (fun d => d.cmd = some x.cmd)

/-- TABLE_COMMIT (R221): the command in progress of a queue and TAG. -/
def execTableCommit (q tag : Nat) (d : Dma) (bad : List (Nat × Nat)) (s : State) : Host.Outcome State Fault Refusal :=
  .next (match s.lt.cmds.find? (awaits s q tag) with
    | some x => tblCommit x d (forEach bad (fun t e => corruptAt e.1 e.2 t) s)
    | none =>
      match s.rb.cmds.find? (ofCommand q tag) with
      | some x => ruleCommit x d s
      | none => s)

/-- The image of a rule (Table 7-4); FAULT where one of its entries is faulty. -/
def ruleImage (s : State) (a : RuleArgs) : Bytes :=
  let part (i : Nat) := rbEntry s (rbAddr (a.bank + i) a.entry)
  let fault := (List.range a.width).any (fun i => (part i).bad) || (part 0).badAction
  leBytes 1 (b2n fault * 2 + b2n (part 0).valid) ++ leBytes 1 a.width ++ zeros 2 ++ leBytes 4 (part 0).action ++ zeros 8 ++
    ((List.range a.width).map (fun i => beBytes 20 (part i).data ++ beBytes 20 (part i).care)).flatten

/-- RULE_READ at its read cycle (R246). -/
def ruleRead (c : SqCmd) (a : RuleArgs) (s : State) : State :=
  let s := count (cRule 0x20) s
  if !rulePlaceOk a.bank a.width a.entry then complete c 0x0B 0 0 s
  else finishWrite c (ruleImage s a) 0 s

/-- RULE_READ (R246). -/
def execRuleRead (c : SqCmd) (a : RuleArgs) (s : State) : Host.Outcome State Fault Refusal :=
  onUnits c.wf (startCmd c 0 (ruleRead c a) s)

/-- RULE_WRITE is accepted: its width comes with its data (Table 7-4). -/
def ruleWrite (c : SqCmd) (a : RuleArgs) (s : State) : State :=
  let s := count (cRule 0x20) s
  if 63 < a.bank || 2047 < a.entry then complete c 0x0B 0 0 s
  else if moveLocks s a.bank a.entry then complete c 0x22 0 0 (count (cRule 0x28) s)
  else setRb { s.rb with cmds := s.rb.cmds ++ [⟨c, 0x31, 0, a.bank, a.entry, 0, false⟩] } s

/-- RULE_WRITE (R670). -/
def execRuleWrite (c : SqCmd) (a : RuleArgs) (s : State) : Host.Outcome State Fault Refusal :=
  onUnits c.wf (startCmd c 1 (ruleWrite c a) s)

/-- RULE_CLEAR at its commit (R246, R248). -/
def clearDone (a : RuleArgs) (s : State) : Done :=
  if !rulePlaceOk a.bank a.width a.entry then failed 0x0B 0 s
  else if ruleLocked s a.bank a.width a.entry then failed 0x22 0 (count (cRule 0x28) s)
  else succeeded (rewriteRule a.bank a.width a.entry (fun _ => {}) s)

/-- RULE_CLEAR (R246). -/
def execRuleClear (c : SqCmd) (a : RuleArgs) (s : State) : Host.Outcome State Fault Refusal :=
  onUnits c.wf (startCmd c 1 (fun s => commitCmd c 0x32 (ruleBody a) [] (clearDone a) (count (cRule 0x20) s)) s)

/-! ### Block moves (R247 to R251) -/

/-- First and last bank of a move. -/
def moveBanks (h w lo hi : Nat) : Nat × Nat := (posBank h w lo, posBank h w hi + w - 1)

/-- Two moves have a bank in common. -/
def movesOverlap (a b : Nat × Nat) : Bool := a.1 ≤ b.2 && b.1 ≤ a.2

/-- RULE_MOVE is accepted or rejected (R245, R247). -/
def moveDone (c : SqCmd) (a : RuleArgs) (s : State) : Done :=
  let h := a.bank
  let w := a.width
  let lo := if a.lower then a.p1 - 1 else a.p1
  let hi := if a.lower then a.p2 else a.p2 + 1
  let target := if a.lower then lo else hi
  let banks := moveBanks h w lo hi
  if !rulePlaceOk h w 0 || a.p2 < a.p1 || (a.lower && a.p1 = 0) || 63 < banks.2 then failed 0x0B 0 s
  else if (rbEntry s (posAddr h w target 0)).valid then failed 0x81 0x30 s
  else if 4 ≤ s.rb.moves.length || s.rb.moves.any (fun m => movesOverlap banks (moveBanks m.head m.width m.lo m.hi)) then
    failed 0x82 0x30 s
  else
    let m : RbMove := ⟨c, h, w, lo, hi, a.lower, if a.lower then a.p1 else a.p2⟩
    ⟨(0, 0), 0, count (cRule 0x30) (issue 13 17 [c.sq, c.tag] [] (setRb { s.rb with moves := s.rb.moves ++ [m] } s)), true⟩

/-- RULE_MOVE (R247). -/
def execRuleMove (c : SqCmd) (a : RuleArgs) (s : State) : Host.Outcome State Fault Refusal :=
  onUnits c.wf (startCmd c 1 (fun s => commitCmd c 0x33 (ruleBody a) [] (moveDone c a) (count (cRule 0x20) s)) s)

/-- One entry is copied; a faulty entry stays faulty where it goes (R249). -/
def copyEntry (src dst : Nat) (s : State) : State :=
  let e := rbEntry s src
  when e.bad (fun t => wr oRbFault (setBit (rd t oRbFault) (dst / 2048)) t) (putRb dst e s)

/-- All parts of one position are copied in one cycle (R249). -/
def copyPosition (m : RbMove) (src dst : Nat) (s : State) : State :=
  forEach (List.range m.width) (fun t i => copyEntry (posAddr m.head m.width src i) (posAddr m.head m.width dst i) t) s

/-- All parts of a position are cleared. -/
def clearPosition (m : RbMove) (p : Nat) (s : State) : State :=
  forEach (List.range m.width) (fun t i => putRb (posAddr m.head m.width p i) {} t) s

/-- One copy of a move; after the last, the vacated position is cleared, the locks go, and the command completes (R251). -/
def moveCopy (m : RbMove) (s : State) : State :=
  let last := if m.lower then m.hi else m.lo
  let s := copyPosition m m.next (if m.lower then m.next - 1 else m.next + 1) s
  let s := count (cRule 0x38) s
  if m.next = last then
    let s := clearPosition m last s
    completeOk m.cmd (setRb { s.rb with moves := s.rb.moves.erase m } s)
  else
    let n := { m with next := if m.lower then m.next + 1 else m.next - 1 }
    setRb { s.rb with moves := s.rb.moves.map (fun x => if x = m then n else x) } s

/-- RULE_MOVE_COPY (R249): the first copy is the dispatch of the move's operation. -/
def execRuleMoveCopy (q tag : Nat) (s : State) : Host.Outcome State Fault Refusal :=
  .next (match s.rb.moves.find? (fun m => m.cmd.sq = q && m.cmd.tag = tag) with
    | none => s
    | some m =>
      let mine := fun o : DwOp => decide (o.args = [q, tag])
      if (opsHeld s 13).any mine then
        match nextOp s 17 13 mine with
        | some o => moveCopy m (dispatched o s)
        | none => s
      else moveCopy m s)

/-! ### Pattern Automata (R255 to R264) -/

/-- Set the Pattern Automata. -/
def setPa (p : Pa) (s : State) : State := { s with pa := p }

/-- The scan of a pipeline's queue that its engine starts next: express ones first (R257). -/
def nextScan (s : State) (n : Nat) : Option Nat :=
  let l := (pipe s n).scans
  match l.find? (fun fid => ((frame s fid).map (·.express)).getD false) with
  | some fid => some fid
  | none => l.head?

/-- The bytes of a frame's scan window (R255). -/
def scanWindow (f : Frame) : Bytes := slice f.bytes f.payload (windowLen f)

/-- The match of a scan (R256): the smallest end offset in the window, and for it the lowest number among the image's patterns. -/
def scanMatch (s : State) (set : Nat) (w : Bytes) : Option (Nat × Nat) :=
  (List.range w.length).findSome? (fun e =>
    ((List.range (rd s oPatPatterns)).find? (fun p => Config.patternEnds s.pa.image set p (w.take (e + 1)))).map (fun p => (p, e)))

/-- A transition word is read (R264): a correction is counted; an uncorrectable error stays until a load succeeds. -/
def readTransition (x : Nat × Ecc) (s : State) : State :=
  if x.2 = .uncorrectable || s.pa.bad.contains x.1 then
    let s := when (!s.pa.bad.contains x.1) (setPa { s.pa with bad := s.pa.bad ++ [x.1] }) s
    raise evPaEcc x.1 (wr oPatEccLast x.1 (count (cRule 0x70) s))
  else when (x.2 = .corrected) (count (cRule 0x68)) s

/-- The result word of a scan, its error, and what it counts (R256, R261, R263, R264). -/
def scanResult (f : Frame) (words : List (Nat × Ecc)) (s : State) : Nat × Bool × State :=
  let set := rdCfg s f.epoch oScanSetMap f.template
  if rd s oPatState ≠ 2 then (scanWord false 2 0 0, false, count (cRule 0x60) s)
  else if rd s oPatSets ≤ set then (scanWord false 3 0 0, false, count (cRule 0x60) s)
  else
    let s := ctrAdd (cRule 0x48) (windowLen f) (count (cRule 0x40) s)
    let s := forEach words (fun t x => readTransition x t) s
    if words.any (fun x => s.pa.bad.contains x.1) then (scanWord false 1 0 0, true, s)
    else
      match scanMatch s set (scanWindow f) with
      | some (p, e) => (scanWord true 0 p e, false, count (cRule 0x50) s)
      | none => (scanWord false 0 0 0, false, s)

/-- PATTERN_SCAN (R256): the scan at the head of the engine; halted automata start none (Table 2-2). -/
def execPatternScan (n : Nat) (words : List (Nat × Ecc)) (s : State) : Host.Outcome State Fault Refusal :=
  onUnits (isPipe n)
    (if !inService s 34 then s
     else
       match nextScan s n with
       | none => s
       | some fid =>
         let s := setPipe n { pipe s n with scans := (pipe s n).scans.erase fid } s
         match frame s fid with
         | none => s
         | some f =>
           let (w, err, s) := scanResult f (words.map (fun x => (x.1 % 2 ^ 32, x.2))) s
           if f.due.testBit 5 then
             modFrame fid (fun x => { x with due := clearBit x.due 5 }) (deliverResult fid (.scan w) err s)
           else s)

/-- The check of a Dralet header (Table 7-7, R260): 0, or a code of Table 7-8. -/
def dralet (h : Bytes) (length : Nat) : Nat :=
  let body := leAt h 0x24 4
  if h.length < 64 || slice h 0 4 ≠ [0x44, 0x52, 0x4C, 0x54] || leAt h 4 2 ≠ 1 || leAt h 6 2 ≠ 0 || leAt h 0x1A 1 = 0 ||
      8 < leAt h 0x1A 1 || leAt h 0x1B 1 ≠ 0 || leAt h 0x1C 2 = 0 || 4096 < leAt h 0x1C 2 || leAt h 0x1E 2 ≠ 0 ||
      body % 64 ≠ 0 || body = 0 || 25165760 < body || leAt h 0x30 16 ≠ 0 || crc32c (slice h 0 0x2C) ≠ leAt h 0x2C 4 ||
      length ≠ 64 + body then 2
  else if slice h 8 16 ≠ orderCode || slice h 0x18 2 ≠ stepping then 3
  else 0

/-- A load fails: the code is recorded and raised; the command completes with "image rejected". -/
def patFailed (code : Nat) (s : State) : Done := failed 0x83 0x30 (raise evPatLoadFail code (wr oPatLoadResult code s))

/-- The body of a load has arrived (R262). -/
def patBody (h b : Bytes) (s : State) : Done :=
  let s := setPa { s.pa with load := none } s
  let code := if b.length < leAt h 0x24 4 then 5 else if crc32c (b.take (leAt h 0x24 4)) ≠ leAt h 0x28 4 then 4 else 0
  if code ≠ 0 then
    patFailed code (wr oPatState 0 (wr oPatImageId 0 (wr oPatSets 0 (wr oPatPatterns 0 (setPa { s.pa with image := [] } s)))))
  else
    let s := setPa { s.pa with image := h ++ b.take (leAt h 0x24 4), bad := [] } s
    let s := wr oPatImageId (leAt h 0x20 4) (wr oPatSets (leAt h 0x1A 1) (wr oPatPatterns (leAt h 0x1C 2) s))
    succeeded (raise evPatLoaded (leAt h 0x20 4) (wr oPatState 2 (wr oPatLoadResult 1 s)))

/-- PAT_LOAD is accepted, or fails in its header check, which leaves the old image in service (R260 to R262). A header that cannot
be read from host memory is such a failure, with code 5 of Table 7-8. -/
def patStart (c : SqCmd) (length : Nat) (header : Dma) (s : State) : State :=
  let s := count (cRule 0x20) s
  if s.pa.load.isSome then complete c 0x84 0x30 0 s
  else
    match c.links, header with
    | .fault, _ | .tooLong, _ | _, .fault | _, .tooLong => finish c (patFailed 5 s)
    | _, .data h =>
      let code := dralet h length
      if code ≠ 0 then finish c (patFailed code s)
      else wr oPatState 1 (setPa { s.pa with load := some (c, h.take 64) } s)

/-- PAT_LOAD (R260). -/
def execPatLoad (c : SqCmd) (length : Nat) (header : Dma) (s : State) : Host.Outcome State Fault Refusal :=
  onUnits c.wf (startCmd { c with links := .flat } 2 (patStart c length header) s)

/-- PAT_LOAD_COMPLETE (R262); a fault of the body read is an empty body here (Table 7-8, code 5). -/
def execPatLoadComplete (body : Dma) (s : State) : Host.Outcome State Fault Refusal :=
  .next (match s.pa.load with
    | none => s
    | some (c, h) =>
      let b := match body with
        | .data b => b
        | .fault => []
        | .tooLong => []
      commitCmd c 0x34 (leBytes 4 (64 + leAt h 0x24 4)) (h ++ b) (patBody h b) s)

/-- A rule command or pattern load of a pair, applied at its commit cycle (R545). -/
def rulePartner (c : SqCmd) (code : Nat) (body data : Bytes) (s : State) : Done :=
  let a := readRuleArgs (zeros 16 ++ body)
  if code = 0x31 then commitRule a.bank a.entry data (setRb { s.rb with cmds := s.rb.cmds.filter (fun x => x.cmd ≠ c) } s)
  else if code = 0x32 then clearDone a s
  else if code = 0x33 then moveDone c a s
  else
    let h := data.take 64
    let bad := dralet h (leAt body 0 4)
    if bad ≠ 0 then patFailed bad s else patBody h (data.drop 64) s

end Sys2Proof.Machine
end

