-- ==== Sys2Proof/Machine/LedgerRec.lean ====
section
/-! DEFINITION. Records of the Flow Ledger (chapter 8): their fields, slots, the on-die cache, lookup, placement and pins. -/

namespace Sys2Proof.Machine
open Sys2Proof

/-- Set the Flow Ledger. -/
def setLed (l : Led) (s : State) : State := { s with led := l }

/-- A flow slice. -/
def slc (s : State) (f : Nat) : SliceSt := tabGet {} s.led.slices f

/-- Replace a slice. -/
def setSlc (f : Nat) (x : SliceSt) (s : State) : State := setLed { s.led with slices := tabPut {} s.led.slices f x } s

/-! ### Record numbers and fields (R274, Tables 8-1, 8-3 and 8-4) -/

/-- Record number of slot `n` of slice `f` (R274). -/
def recNo (f n : Nat) : Nat := f * 4194304 + n
/-- Slice of a record number. -/
def recSlice (r : Nat) : Nat := r / 4194304
/-- Slot of a record number. -/
def recSlot (r : Nat) : Nat := r % 4194304

/-- SLOTS_PER_SLICE. -/
def slotsPer (s : State) : Nat := rd s oSlotsPerSlice

/-- The record number `d` slots after record `r`, wrapping in its slice. -/
def recPlus (s : State) (r d : Nat) : Nat := recNo (recSlice r) ((recSlot r + d) % slotsPer s)

/-- The record number `d` slots before record `r`, wrapping in its slice. -/
def recMinus (s : State) (r d : Nat) : Nat := recNo (recSlice r) ((recSlot r + slotsPer s - d) % slotsPer s)

/-- The slot of a record number. -/
def slotAt (s : State) (r : Nat) : Slot := tabGet {} s.led.slots r
/-- The hot part of a slot. -/
def hotAt (s : State) (r : Nat) : Nat := (slotAt s r).hot
/-- The cold part of a slot. -/
def coldAt (s : State) (r : Nat) : Nat := (slotAt s r).cold

/-- SIGNATURE. -/
def hSig (h : Nat) : Nat := byteFld h 0 8
/-- VALID. -/
def hValid (h : Nat) : Bool := h.testBit 71
/-- PINNED. -/
def hPinned (h : Nat) : Bool := h.testBit 70
/-- ALIAS. -/
def hAlias (h : Nat) : Bool := h.testBit 69
/-- COLD_PENDING. -/
def hPending (h : Nat) : Bool := h.testBit 68
/-- HOME_DIST. -/
def hDist (h : Nat) : Nat := fld h 64 4
/-- Admission template in KIND. -/
def hTemplate (h : Nat) : Nat := byteFld h 9 1 % 64
/-- Entry `i` of HOME_LIST. -/
def hHome (h i : Nat) : Nat := byteFld h (0x0A + 2 * i) 2
/-- LAST_SEEN. -/
def hSeen (h : Nat) : Nat := byteFld h 0x10 4
/-- PACKETS. -/
def hPackets (h : Nat) : Nat := byteFld h 0x14 3
/-- OCTETS. -/
def hOctets (h : Nat) : Nat := byteFld h 0x17 4
/-- CONN_STATE. -/
def hConn (h : Nat) : Nat := byteFld h 0x1B 1
/-- SVC_ADDR. -/
def hSvcAddr (h : Nat) : Nat := byteFld h 0x1C 2
/-- SVC_PORT. -/
def hSvcPort (h : Nat) : Nat := byteFld h 0x1E 2
/-- The record number of an alias's primary (R280). -/
def hPrimary (h : Nat) : Nat := (hSvcPort h * 65536 + hSvcAddr h) % 2 ^ 26

/-- KEY of a cold part. -/
def cKey (c : Nat) : Bytes := leBytes 48 c
/-- SERVICE of a cold part. -/
def cServ (c : Nat) : Nat := byteFld c 0x50 16
/-- COLD_FLAGS. -/
def cFlags (c : Nat) : Nat := byteFld c 0x4E 1

/-! ### Where a record lies (R275) -/

/-- The stacks in service, ascending. -/
def stacksUp (s : State) : List Nat := (List.range 4).filter (fun n => rd s oStackState n ≤ 1)

/-- R275: the stack that slot `n` lies in, of those in service `l`. -/
def slotStack (l : List Nat) (n : Nat) : Nat := nth 0 l (n % l.length)

/-- R275: the index of slot `n` of slice `f` within its stack, `k` stacks being in service. -/
def slotIndex (k f n : Nat) : Nat := f * 1048576 + n / k

/-- R275: byte address of the hot part of index `i` in its stack. -/
def hotByte (i : Nat) : Nat := 32 * i
/-- R275: byte address of the cold part. -/
def coldByte (i : Nat) : Nat := 0x20000000 + 96 * i

/-- Stack, and byte addresses of the hot and the cold part, of a record. -/
def recordPlace (s : State) (r : Nat) : Nat × Nat × Nat :=
  let l := stacksUp s
  let i := slotIndex l.length (recSlice r) (recSlot r)
  (slotStack l (recSlot r), hotByte i, coldByte i)

/-- Field of a key block: KEY_KIND. -/
def kKind (k : Bytes) : Nat := leAt k 0 1
/-- PROTO. -/
def kProto (k : Bytes) : Nat := leAt k 1 1
/-- SCOPE. -/
def kScope (k : Bytes) : Nat := leAt k 2 2
/-- SRC_PORT. -/
def kSport (k : Bytes) : Nat := leAt k 0x28 2
/-- DST_PORT. -/
def kDport (k : Bytes) : Nat := leAt k 0x2A 2

/-- The port fields of Table 8-1: ports of TCP, UDP and SCTP, the identifier of ICMP (of ICMPv6 for IPv6) alone, else 0. -/
def keyPortsOk (k : Bytes) : Bool :=
  let p := kProto k
  p = 6 || p = 17 || p = 132 || (kDport k = 0 && (p = (if kKind k = 1 then 58 else 1) || kSport k = 0))

/-- The key block keeps Table 8-1: kind, scope, ports, and the bytes the kind leaves zero. -/
def keyFormOk (k : Bytes) : Bool :=
  let kind := kKind k
  kind ≤ 2 && keyPortsOk k && (if kind = 2 then kScope k ≤ 16383 else kScope k ≤ 4095) && leAt k 0x2C 4 = 0 &&
    (if kind = 0 then leAt k 0x0C 12 = 0 && leAt k 0x1C 12 = 0 && leAt k 6 2 = 0
     else if kind = 1 then leAt k 6 2 = 0
     else kProto k = 0 && leAt k 0x0E 10 = 0 && leAt k 0x1E 10 = 0 && leAt k 0x28 4 = 0)

/-! ### Low water and presence on die (R293, R325) -/

/-- The hot part of a slot is on die, and readable there (R323). -/
def onDie (s : State) (r : Nat) : Bool := lowLedger s || ((tabFind s.led.ways r).map (fun w => !w.bad)).getD false

/-- Replace a way. -/
def putWay (r : Nat) (w : Way) (s : State) : State := setLed { s.led with ways := tabInsert s.led.ways r w } s

/-- The way of a slot was used now. -/
def useWay (r : Nat) (s : State) : State :=
  match tabFind s.led.ways r with
  | some w => putWay r { w with used := s.clk.cclk } s
  | none => s

/-- Class of the way-held operations of a slot (Table 12-1): 7 where it is pinned. -/
def wayClass (s : State) (kind r : Nat) : Nat :=
  if ((tabFind s.led.ways r).map (fun w => decide (0 < w.pins))).getD false then 7 else kindClass s kind

/-- Replace a slot. -/
def putSlot (r : Nat) (x : Slot) (s : State) : State := setLed { s.led with slots := tabPut {} s.led.slots r x } s

/-- Change a hot part: its way becomes dirty, and its write-back is queued at the first change (R294); a slot that is not on
die is written through. -/
def setHot (r h : Nat) (s : State) : State :=
  let x := slotAt s r
  let t := putSlot r { x with hot := h } s
  if lowLedger s then t
  else
    match tabFind s.led.ways r with
    | none => occurGlobal 0x102 1 t
    | some w =>
      if w.dirty then putWay r { w with used := s.clk.cclk } t
      else
        let at_ := s.clk.cclk + usCclk (rd s oWritebackDelay)
        let t := putWay r { w with dirty := true, clean := x.hot, used := s.clk.cclk } t
        if (wayOp t 1 r).isSome then t else issueWay 1 r (wayClass s 1 r) at_ at_ t

/-- Change a cold part; there is none at low water (R325). -/
def setCold (r c : Nat) (s : State) : State :=
  if lowLedger s then s else occurGlobal 0x102 3 (putSlot r { slotAt s r with cold := c, coldBad := false } s)

/-! ### Records held -/

/-- Valid records, aliases included: RECORDS_HELD. -/
def recordsHeld (s : State) : Nat := (s.led.slots.filter (fun e => hValid e.2.hot)).length

/-- ALIASES_HELD. -/
def aliasesHeld (s : State) : Nat := (s.led.slots.filter (fun e => hValid e.2.hot && hAlias e.2.hot)).length

/-- PINNED_SLOTS. -/
def pinnedSlots (s : State) : Nat := (s.led.ways.filter (fun e => 0 < e.2.pins)).length

/-- The alias of a primary, if it has one (R280). -/
def aliasOf (s : State) (r : Nat) : Option Nat :=
  (s.led.slots.find? (fun e => hValid e.2.hot && hAlias e.2.hot && hPrimary e.2.hot = r)).map (·.1)

/-- The primary of a record: itself, or what its alias names. -/
def primaryOf (s : State) (r : Nat) : Nat := if hAlias (hotAt s r) then hPrimary (hotAt s r) else r

/-- A valid record that is no alias. -/
def isPrimary (s : State) (r : Nat) : Bool := hValid (hotAt s r) && !hAlias (hotAt s r)

/-! ### Lookup and placement (R282 to R284) -/

/-- What a lookup comes to. -/
inductive Look where
  /-- These slots must be read first. -/
  | need (l : List Nat)
  | absent
  | found (r : Nat)
deriving DecidableEq, Repr

/-- The list entries of a home, in order, with the key's fingerprint (R282). -/
def lookList (s : State) (home sig : Nat) : List Nat → Look
  | [] => .absent
  | d :: t =>
    let r := recPlus s home d
    if !onDie s r then .need [r]
    else
      let h := hotAt s r
      if hValid h && hDist h = d && hSig h = sig then .found r else lookList s home sig t

/-- R282: a lookup of a key by home, fingerprint and signature. -/
def lookup (s : State) (home fp sig : Nat) : Look :=
  if !onDie s home then .need [home]
  else
    let h := hotAt s home
    let es := (List.range 3).map (hHome h)
    lookList s home sig ((es.filter (fun e => e.testBit 15 && e % 2048 = fp)).map (fun e => fld e 11 4))

/-- What a placement comes to. -/
inductive Place where
  | need (l : List Nat)
  | noRoom
  | at_ (d : Nat)
deriving DecidableEq, Repr

/-- An empty slot that no admission has reserved (R283, R306). -/
def slotFree (s : State) (r : Nat) : Bool :=
  !hValid (hotAt s r) && !(slc s (recSlice r)).reserved.contains r && !(slc s (recSlice r)).repairs.contains r

/-- The first free slot of the groups of five, each read only where no earlier group has one (R283). -/
def placeGroups (s : State) (home : Nat) : List (List Nat) → Place
  | [] => .noRoom
  | g :: t =>
    let missing := (g.map (recPlus s home)).filter (fun r => !onDie s r)
    if missing ≠ [] then .need missing
    else
      match g.find? (fun d => slotFree s (recPlus s home d)) with
      | some d => .at_ d
      | none => placeGroups s home t

/-- The three groups of the order of R283. -/
def placeOrder (start : Nat) : List (List Nat) :=
  (List.range 3).map (fun g => (List.range 5).map (fun i => (7 * (5 * g + i) + start) % 15 + 1))

/-- R283: where a record of a home is placed; the home is on die. -/
def placeAt (s : State) (home start : Nat) : Place :=
  if (List.range 3).all (fun i => (hHome (hotAt s home) i).testBit 15) then .noRoom
  else if slotFree s home then .at_ 0
  else placeGroups s home (placeOrder start)

/-- Add (d, fp) to the first unused entry of a home's list (R283). -/
def addHome (home d fp : Nat) (s : State) : State :=
  let h := hotAt s home
  match (List.range 3).find? (fun i => !(hHome h i).testBit 15) with
  | some i => setHot home (setByteFld h (0x0A + 2 * i) 2 (2 ^ 15 + d * 2 ^ 11 + fp)) s
  | none => s

/-- Clear the entry of a home's list that points `d` slots on. -/
def dropHome (home d : Nat) (s : State) : State :=
  let h := hotAt s home
  match (List.range 3).find? (fun i => (hHome h i).testBit 15 && fld (hHome h i) 11 4 = d) with
  | some i => setHot home (setByteFld h (0x0A + 2 * i) 2 0) s
  | none => s

/-- The home of a key, as a record number. -/
def homeOf (s : State) (h0 : Nat) : Nat := recNo (hashSlice h0) (hashHome s h0)

/-- The record that holds a key, wherever its parts lie (R282, R284). -/
def findRec (s : State) (k : Bytes) : Option Nat :=
  let h0 := hashH0 s k
  let home := homeOf s h0
  let es := (List.range 3).map (hHome (hotAt s home))
  (es.filter (fun e => e.testBit 15 && e % 2048 = hashFp h0)).findSome? (fun e =>
    let d := fld e 11 4
    let h := hotAt s (recPlus s home d)
    if hValid h && hDist h = d && hSig h = hashSig s k then some (recPlus s home d) else none)

/-- The distance at which R283 places a record of a home, wherever the slots lie. -/
def placeSlot (s : State) (home start : Nat) : Option Nat :=
  if (List.range 3).all (fun i => (hHome (hotAt s home) i).testBit 15) then none
  else (0 :: (placeOrder start).flatten).find? (fun d => slotFree s (recPlus s home d))

/-- Unused entries of a home's list. -/
def homeRoom (s : State) (home : Nat) : Nat :=
  ((List.range 3).filter (fun i => !(hHome (hotAt s home) i).testBit 15)).length

/-! ### Ways, evictions and reads (R293 to R297) -/

/-- Set of a slot (R293). -/
def setOf (r : Nat) : Nat := recSlot r % 8192

/-- Ways of a set of a slice. -/
def waysIn (s : State) (f set : Nat) : List (Nat × Way) :=
  s.led.ways.filter (fun e => recSlice e.1 = f && setOf e.1 = set)

/-- Slots that unfinished operations of a slice concern. -/
def busySlots (s : State) (f : Nat) : List Nat :=
  (slc s f).ops.foldl (fun l o => l ++ o.home :: (o.slot.toList ++ o.touch)) (slc s f).reads

/-- The least recently used way of a set that may be evicted (R295). -/
def victim (s : State) (f set : Nat) : Option (Nat × Way) :=
  let busy := busySlots s f
  (waysIn s f set).foldl (fun best e =>
    if 0 < e.2.pins || busy.contains e.1 then best
    else match best with
      | none => some e
      | some b => if e.2.used < b.2.used then some e else some b) none

/-- Evict a way: a dirty part goes into the write buffer, and its way-held operations end (R295, R433). -/
def evict (r : Nat) (w : Way) (s : State) : State :=
  let f := recSlice r
  let s := endWay 1 r (endWay 2 r (setLed { s.led with ways := tabErase s.led.ways r } s))
  let s := count (cSlice f 0x48) s
  if w.dirty then occurGlobal 0x102 1 (setSlc f { slc s f with writes := (slc s f).writes ++ [r] } s) else s

/-- Outcome of asking for a way or a read: granted, an exhaustion cause (Table 8-6), or a wait for the write buffer. -/
inductive Grant where
  | ok (s : State)
  | cause (n : Nat)
  | wait

/-- Make room for one more way in the set of a slot. -/
def makeWay (r : Nat) (s : State) : Grant :=
  let f := recSlice r
  let set := setOf r
  if (tabFind s.led.ways r).isSome then .ok s
  else if (waysIn s f set).length + ((slc s f).reads.filter (fun x => setOf x = set)).length < 16 then .ok s
  else
    match victim s f set with
    | none => .cause 5
    | some (v, w) => if w.dirty && 256 ≤ (slc s f).writes.length then .wait else .ok (evict v w s)

/-- Every read of a hot part from HBM is one miss (R281). -/
def countMiss (r : Nat) (s : State) : State := count (cSlice (recSlice r) 0x10) (occurGlobal 0x100 1 (occurGlobal 0x101 1 s))

/-- Issue the HBM reads of the listed slots that are not under way (R281, R295, R297). -/
def issueReads : List Nat → State → Grant
  | [], s => .ok s
  | r :: t, s =>
    let f := recSlice r
    if (slc s f).reads.contains r then issueReads t s
    else if 1024 ≤ (slc s f).reads.length then .cause 1
    else
      match makeWay r s with
      | .ok s =>
        let s := countMiss r s
        issueReads t (setSlc f { slc s f with reads := (slc s f).reads ++ [r] } s)
      | g => g

/-- A hot part is on die in a way of its own. -/
def installWay (r : Nat) (s : State) : State :=
  if lowLedger s then s
  else
    match tabFind s.led.ways r with
    | some w => putWay r { w with bad := false, used := s.clk.cclk } s
    | none => putWay r { used := s.clk.cclk } s

/-! ### Pins (R309, R672) -/

/-- The slots a pinned record pins: its own, and its home. -/
def pinSet (s : State) (r : Nat) : List Nat :=
  let d := hDist (hotAt s r)
  if d = 0 then [r] else [r, recMinus s r d]

/-- Pin or unpin the slots of a list. -/
def addPins (l : List Nat) (up : Bool) (s : State) : State :=
  forEach l (fun t r =>
    let w := tabGet {} t.led.ways r
    let w := { w with pins := if up then w.pins + 1 else w.pins - 1 }
    if lowLedger t && w.pins = 0 then setLed { t.led with ways := tabErase t.led.ways r } t else putWay r w t) s

/-- R309: the limits hold. -/
def pinsOk (s : State) (l : List Nat) : Bool :=
  pinnedSlots s ≤ 65536 && l.all (fun r =>
    (s.led.ways.filter (fun e => 0 < e.2.pins && recSlice e.1 = recSlice r)).length ≤ 8192 &&
      ((waysIn s (recSlice r) (setOf r)).filter (fun e => 0 < e.2.pins)).length ≤ 4)

/-- A slot that is to be pinned is brought on die; none where its set has no way for it (log entry 132). -/
def roomForPin (r : Nat) (s : State) : Option State :=
  if onDie s r then some s
  else
    match makeWay r s with
    | .ok t => some (installWay r (countMiss r t))
    | _ => none

/-- Every slot of a list is brought on die. -/
def roomForPins (l : List Nat) (s : State) : Option State := l.foldl (fun a r => a.bind (roomForPin r)) (some s)

/-- Pin records that are not pinned, whole or not at all: each with its home (R672). -/
def pinRecords (l : List Nat) (s : State) : Option State :=
  let fresh := l.filter (fun r => !hPinned (hotAt s r))
  let slots := (fresh.map (pinSet s)).flatten
  match roomForPins slots s with
  | none => none
  | some s =>
    let t := addPins slots true s
    if pinsOk t slots then some (forEach fresh (fun u r => setHot r (setBit (hotAt u r) 70) u) t) else none

/-- Clear the pins of records. -/
def unpinRecords (l : List Nat) (s : State) : State :=
  let held := l.filter (fun r => hPinned (hotAt s r))
  forEach held (fun t r => addPins (pinSet t r) false (setHot r (clearBit (hotAt t r) 70) t)) s

/-! ### Times -/

/-- PTP time in milliseconds now (Table 8-3, LAST_SEEN). -/
def nowMs (s : State) : Nat := stampMs (nowStamp s)

/-- FIRST_SEEN and EXPORT_TIME: [63:32] seconds modulo 2^32, [31:0] nanoseconds. -/
def nowTime64 (s : State) : Nat := (nowStamp s).sec % 2 ^ 32 * 2 ^ 32 + (nowStamp s).ns

end Sys2Proof.Machine
end

