-- ==== Sys2Proof/Machine/Services.lean ====
section
/-! DEFINITION. Flow services (chapter 9): source translation, balancing, connection state, telemetry and removal. -/

namespace Sys2Proof.Machine
open Sys2Proof

/-- Set the flow services. -/
def setSvc (v : Svc) (s : State) : State := { s with svc := v }

/-- A ledger change goes to a partner that follows, as a PAIR_MIRROR operation (R549): 1 record, 2 port-map entry, 3 slot
table, 4 weight, 5 generation. -/
def mirrorChange (args : List Nat) (s : State) : State := if partnerFollows s then issue 14 19 args [] s else s

/-! ### Template settings (Table 8-7) -/

/-- ADM_SERVICES of a template in a set. -/
def admServices (s : State) (set t : Nat) : Nat := rdSet s set (oAdmServices t) 0
/-- A template asks for source translation or balancing. -/
def translates (s : State) (set t : Nat) : Bool := (admServices s set t).testBit 1 || (admServices s set t).testBit 2
/-- SERVICE_GEN of a template. -/
def serviceGen (s : State) (t : Nat) : Nat := rd s oServiceGen t

/-- R335: a record whose template translates is stale when its generation is not the template's. -/
def isStale (s : State) (set r : Nat) : Bool :=
  let h := hotAt s r
  translates s set (hTemplate h) && hSvcAddr h / 4096 ≠ serviceGen s (hTemplate h)

/-! ### NAT pools (R336 to R345) -/

/-- A NAT_POOLS row by its fields. -/
structure NatPool where
  valid : Nat
  family : Nat
  block : Nat
  first : Nat
  outVrf : Nat
  inCount : Nat
  outCount : Nat
  inBase : Nat
  outBase : Nat
  hold : Nat
  outZone : Nat
deriving DecidableEq, Repr

/-- An address of a family at offset `o`: 4 or 16 bytes in network order. -/
def addrAt (family : Nat) (b : Bytes) (o : Nat) : Nat := beAt b o (if family = 1 then 16 else 4)

/-- The 16 bytes an address of a family takes in a key block or a row. -/
def addrBytes (family a : Nat) : Bytes := if family = 1 then beBytes 16 a else beBytes 4 a ++ zeros 12

/-- Read a NAT_POOLS row (Table 9-3). -/
def natPool (s : State) (set p : Nat) : NatPool :=
  let b := leBytes 64 (rdSet s set oNatPools p)
  let fam := leAt b 1 1
  ⟨leAt b 0 1, fam, leAt b 2 2, leAt b 4 2, leAt b 6 2, leAt b 8 4, leAt b 0x0C 4, addrAt fam b 0x10, addrAt fam b 0x20,
    leAt b 0x30 4, leAt b 0x34 2⟩

/-- K: blocks on one outside address (R336). -/
def NatPool.k (p : NatPool) : Nat := (65536 - p.first) / p.block

/-- Outside address of a subscriber (R338). -/
def NatPool.outAddr (p : NatPool) (j : Nat) : Nat := p.outBase + j / p.k
/-- First port of a subscriber's block (R338). -/
def NatPool.firstPort (p : NatPool) (j : Nat) : Nat := p.first + j % p.k * p.block
/-- Entries of a pool's port map (R339). -/
def NatPool.entries (p : NatPool) : Nat := if p.valid = 1 then p.inCount * 3 * p.block else 0

/-- Key of a port-map entry. -/
def portKey (pool entry : Nat) : Nat := pool * 2 ^ 32 + entry

/-- A port-map entry (R339). -/
def portEntry (s : State) (pool entry : Nat) : Nat := tabGet 0 s.svc.ports (portKey pool entry)

/-- Set a port-map entry. -/
def setPort1 (pool entry v : Nat) (s : State) : State :=
  mirrorChange [2, pool, entry] (setSvc { s.svc with ports := tabPut 0 s.svc.ports (portKey pool entry) v } s)

/-- PORTS_IN_USE of a pool. -/
def portsInUse (s : State) (pool : Nat) : Nat :=
  (s.svc.ports.filter (fun e => e.1 / 2 ^ 32 = pool && e.2.testBit 31)).length

/-- PORTS_HELD of a pool. -/
def portsHeld (s : State) (pool : Nat) : Nat :=
  (s.svc.ports.filter (fun e => e.1 / 2 ^ 32 = pool && e.2.testBit 30)).length

/-- The port map of a protocol (R340 step 1): `icmpType` is the frame's ICMP type. -/
def protoMap (proto icmpType : Nat) : Option Nat :=
  if proto = 6 then some 0
  else if proto = 17 then some 1
  else if (proto = 1 && icmpType = 8) || (proto = 58 && icmpType = 128) then some 2
  else none

/-- Services allocated, with the reply key they give. -/
structure AllocResult where
  alloc : Alloc
  reply : Bytes
  state : State

/-- A key block from its fields. -/
def mkKey (kind proto scope zone etype : Nat) (src dst : Bytes) (sport dport : Nat) : Bytes :=
  leBytes 1 kind ++ leBytes 1 proto ++ leBytes 2 scope ++ leBytes 2 zone ++ leBytes 2 etype ++ src.take 16 ++ dst.take 16 ++
    leBytes 2 sport ++ leBytes 2 dport ++ zeros 4

/-- R341: the reply key of a source-translated record. -/
def natReplyKey (p : NatPool) (j offset : Nat) (k : Bytes) : Bytes :=
  let out := p.firstPort j + offset
  let icmp := kProto k = 1 || kProto k = 58
  mkKey (kKind k) (kProto k) p.outVrf p.outZone (leAt k 6 2) (slice k 0x18 16) (addrBytes p.family (p.outAddr j))
    (if icmp then out else kDport k) (if icmp then 0 else out)

/-- R340: allocate a port for a record; none with the refusal's counter. -/
def natAlloc (set t pool r icmpType : Nat) (k : Bytes) (s : State) : AllocResult ⊕ State :=
  let p := natPool s set pool
  let a := addrAt p.family k 0x08
  let j := a - p.inBase
  match protoMap (kProto k) icmpType with
  | none => .inr (count (cPool pool 0x10) s)
  | some row =>
    if a < p.inBase || p.inCount ≤ j then .inr (count (cPool pool 0x10) s)
    else
      let base := (j * 3 + row) * p.block
      let o0 := kSport k % p.block
      match (List.range (min 64 p.block)).find? (fun i => portEntry s pool (base + (o0 + i) % p.block) / 2 ^ 30 = 0) with
      | none => .inr (count (cPool pool 0x08) s)
      | some i =>
        let o := (o0 + i) % p.block
        let s := count (cPool pool 0x00) (setPort1 pool (base + o) (2 ^ 31 + r) s)
        let serv := pool + row * 2 ^ 16 + j * 2 ^ 32 + o * 2 ^ 64 + 0xFFFF * 2 ^ 80
        .inl ⟨⟨serviceGen s t * 4096 + o, kSport k, serv, base + o⟩, natReplyKey p j o k, s⟩

/-- The port-map entry that a record's SERVICE names (Table 9-2). -/
def servEntry (s : State) (serv : Nat) : Nat :=
  let p := natPool s (activeSet s) (byteFld serv 0 2)
  (byteFld serv 4 4 * 3 + byteFld serv 2 1) * p.block + byteFld serv 8 2

/-- R344: a port is released into its hold, if its entry still names the record. -/
def releasePort (pool entry r : Nat) (s : State) : State :=
  let v := portEntry s pool entry
  if v.testBit 31 && v % 2 ^ 26 = r then
    let hold := msCclk (natPool s (activeSet s) pool).hold
    issueAt 5 16 (s.clk.cclk + hold) (s.clk.cclk + hold + msCclk 100) [pool, entry, r] [] (setPort1 pool entry (2 ^ 30 + r) s)
  else s

/-- An allocation of an admission that fails is taken back: the port was never in use. -/
def takeBackPort (pool entry : Nat) (s : State) : State := setPort1 pool entry 0 s

/-- NAT_RELEASE (R344): HELD is cleared; a standby runs none (R548). -/
def execNatRelease (pool entry : Nat) (s : State) : Host.Outcome State Fault Refusal :=
  onUnits (isService pool)
    (if role s = 3 then s
     else
       match nextOp s 16 5 (fun o => o.args.take 2 = [pool, entry]) with
       | some o =>
         let s := dispatched o s
         let v := portEntry s pool entry
         if v.testBit 30 then count (cPool pool 0x18) (setPort1 pool entry (clearBit v 30) s) else s
       | none => s)

/-- R345: the record a used entry names does not hold it. -/
def portOrphan (s : State) (pool entry : Nat) : Bool :=
  let v := portEntry s pool entry
  let h := hotAt s (v % 2 ^ 26)
  v.testBit 31 && !(hValid h && !hAlias h && hSvcAddr h % 4096 = entry % (natPool s (activeSet s) pool).block)

/-- PORTMAP_AUDIT (R345): the audit cursor visits an entry. -/
def execPortmapAudit (pool entry : Nat) (s : State) : Host.Outcome State Fault Refusal :=
  onUnits (isService pool)
    (match nextStep s 16 with
     | none => s
     | some o =>
       let s := when ((portEntry s pool entry).testBit 31) (count (cService 0x30)) (stepCursor 16 o s)
       if portOrphan s pool entry then
         let s := setPort1 pool entry 0 (count (cPool pool 0x20) s)
         setSvc { s.svc with recovered := tabPut 0 s.svc.recovered pool (tabGet 0 s.svc.recovered pool + 1) } s
       else s)

/-! ### Backends (R346 to R355) -/

/-- A BACKEND_TABLES row by its fields. -/
structure BeTable where
  valid : Nat
  family : Nat
  proto : Nat
  mode : Nat
  vipPort : Nat
  vrf : Nat
  failAction : Nat
  floor : Nat
  ceiling : Nat
  vip : Nat
deriving DecidableEq, Repr

/-- Read a BACKEND_TABLES row (Table 9-5). -/
def beTable (s : State) (set t : Nat) : BeTable :=
  let b := leBytes 48 (rdSet s set oBackendTables t)
  ⟨leAt b 0 1, leAt b 1 1, leAt b 2 1, leAt b 3 1, leAt b 4 2, leAt b 6 2, leAt b 8 1, leAt b 9 1, leAt b 0x0A 2,
    addrAt (leAt b 1 1) b 0x10⟩

/-- A BACKENDS row (Table 9-6) as bytes. -/
def beRow (s : State) (set r : Nat) : Bytes := leBytes 32 (rdSet s set oBackends r)
/-- TABLE. -/
def beOf (b : Bytes) : Nat := leAt b 0 2
/-- WEIGHT. -/
def beWeight (b : Bytes) : Nat := leAt b 2 1
/-- PIN. -/
def bePin (b : Bytes) : Bool := (leAt b 3 1).testBit 0
/-- PORT. -/
def bePort (b : Bytes) : Nat := leAt b 4 2

/-- BACKEND_STATE of a row. -/
def beState (s : State) (r : Nat) : Nat := rd s oBackendState r

/-- Rows of an object that a set lists. -/
def rowsOf (s : State) (set obj : Nat) : List Nat :=
  (s.dict.filter (fun e => keySet e.1 = set && keyObj e.1 = obj)).map (fun e => keyRow e.1)

/-- The active rows of a table, lowest first (R348). -/
def activeRows (s : State) (t : Nat) : List Nat :=
  (rowsOf s (activeSet s) oBackends).filter (fun r => beOf (beRow s (activeSet s) r) = t && beState s r = 1)

/-- A backend row's working values. -/
def be (s : State) (r : Nat) : BackendSt := tabGet {} s.svc.backends r

/-- Replace them. -/
def setBe (r : Nat) (x : BackendSt) (s : State) : State := setSvc { s.svc with backends := tabPut {} s.svc.backends r x } s

/-- Effective weight of a row in 1/16: nominal with REBAL_MODE 0 or PIN, and until the loop has moved it. -/
def effWeight (s : State) (r : Nat) : Nat :=
  let b := beRow s (activeSet s) r
  if (beTable s (activeSet s) (beOf b)).mode = 0 || bePin b || (be s r).eff = 0 then 16 * beWeight b else (be s r).eff

/-- Slot `i` of a table: its row, if it names one (R349). -/
def tableSlot (s : State) (t i : Nat) : Option Nat :=
  let v := tabGet 0 s.svc.slotTab (t * 4096 + i)
  if v = 0 then none else some (v - 1)

/-- R349: the row of the first of 16 slots that names an active row. -/
def selectRow (s : State) (t s0 : Nat) : Option Nat :=
  ((List.range 16).map (fun i => tableSlot s t ((s0 + i) % 4096))).findSome? (fun r =>
    match r with
    | some r => if beState s r = 1 then some r else none
    | none => none)

/-- R350: the reply key of a balanced record. -/
def beReplyKey (tab : BeTable) (row k : Bytes) : Bytes :=
  mkKey (kKind k) (kProto k) tab.vrf (leAt k 4 2) (leAt k 6 2) (slice row 0x10 16) (slice k 0x08 16)
    (if bePort row = 0 then kDport k else bePort row) (kSport k)

/-- R349: select a backend for a key. -/
def beAlloc (set t tab h0 : Nat) (k : Bytes) (s : State) : AllocResult ⊕ State :=
  let x := beTable s set tab
  if addrAt x.family k 0x18 ≠ x.vip || (x.vipPort ≠ 0 && kDport k ≠ x.vipPort) || (x.proto ≠ 0 && kProto k ≠ x.proto) then
    .inr (count (cBackend tab 0x08) s)
  else
    match selectRow s tab (fld h0 48 12) with
    | none => .inr (count (cBackend tab 0x08) s)
    | some r =>
      .inl ⟨⟨serviceGen s t * 4096 + r, 0, 0xFFFF + r * 2 ^ 80, 0⟩, beReplyKey x (beRow s set r) k, count (cBackend tab 0x00) s⟩

/-- R304: allocate what a template asks for; a record carries at most one translation (R331). -/
def allocServices (set t r h0 icmpType : Nat) (k : Bytes) (s : State) : AllocResult ⊕ State :=
  let sv := admServices s set t
  if sv.testBit 1 then natAlloc set t (rdSet s set (oAdmNatPool t) 0) r icmpType k s
  else if sv.testBit 2 then beAlloc set t (rdSet s set (oAdmBackendTable t) 0) h0 k s
  else .inl ⟨{}, [], s⟩

/-- What an admission allocated and did not use goes back (R304). -/
def takeBack (a : Alloc) (s : State) : State :=
  let pool := byteFld a.service 0 2
  if pool = 0xFFFF then s else takeBackPort pool a.entry s

/-- RECORDS of a row changes (R355). -/
def countRecord (serv : Nat) (up : Bool) (s : State) : State :=
  let r := byteFld serv 0x0A 2
  if r = 0xFFFF then s
  else setBe r { be s r with records := if up then (be s r).records + 1 else (be s r).records - 1 } s

/-- The slot table of a table is due for a rebuild (R354). -/
def rebuildDue (t : Nat) (s : State) : State :=
  if s.svc.rebuild.contains t then s else setSvc { s.svc with rebuild := s.svc.rebuild ++ [t] } s

/-- Shares of 4,096 slots by weight, the rest in descending order of remainder (R354). -/
def shares (l : List (Nat × Nat)) : List (Nat × Nat) :=
  let sum := l.foldl (fun a x => a + x.2) 0
  let base := l.map (fun x => (x.1, 4096 * x.2 / sum, 4096 * x.2 % sum))
  let left := 4096 - base.foldl (fun a x => a + x.2.1) 0
  base.map (fun x =>
    let ahead := (base.filter (fun y => x.2.2 < y.2.2 || (x.2.2 = y.2.2 && y.1 < x.1))).length
    (x.1, x.2.1 + (if ahead < left then 1 else 0)))

/-- How many slots a row has so far. -/
def keptOf (kept : Tab Nat) (r : Nat) : Nat := tabGet 0 kept r

/-- First pass of R354: a slot keeps its row while the row may hold more. -/
def keepSlots (n : List (Nat × Nat)) : List (Option Nat) → Tab Nat → List (Option Nat) × Tab Nat
  | [], kept => ([], kept)
  | o :: t, kept =>
    match o.bind (fun r => n.find? (fun x => x.1 = r)) with
    | some x =>
      if keptOf kept x.1 < x.2 then
        let (l, k) := keepSlots n t (tabPut 0 kept x.1 (keptOf kept x.1 + 1))
        (some x.1 :: l, k)
      else
        let (l, k) := keepSlots n t kept
        (none :: l, k)
    | none =>
      let (l, k) := keepSlots n t kept
      (none :: l, k)

/-- Second pass of R354: each empty slot goes to the lowest active row that may hold more. -/
def fillSlots (n : List (Nat × Nat)) : List (Option Nat) → Tab Nat → List (Option Nat)
  | [], _ => []
  | some r :: t, kept => some r :: fillSlots n t kept
  | none :: t, kept =>
    match n.find? (fun x => keptOf kept x.1 < x.2) with
    | some x => some x.1 :: fillSlots n t (tabPut 0 kept x.1 (keptOf kept x.1 + 1))
    | none => none :: fillSlots n t kept

/-- R354: the new slot table of a table. -/
def newSlots (s : State) (t : Nat) : List (Option Nat) :=
  let n := shares ((activeRows s t).map (fun r => (r, effWeight s r)))
  let (kept, k) := keepSlots n ((List.range 4096).map (tableSlot s t)) []
  fillSlots n kept k

/-- Install a slot table: rows plus 1, 0 none. -/
def installSlots (t : Nat) (l : List Nat) (s : State) : State :=
  let others := s.svc.slotTab.filter (fun e => e.1 / 4096 ≠ t)
  let tab := (l.zipIdx).foldl (fun a x => tabPut 0 a (t * 4096 + x.2) x.1) others
  setSvc { s.svc with slotTab := tab } s

/-- SLOT_TABLE_REBUILD (R354): a table that is due is rebuilt and installed. -/
def execSlotTableRebuild (t : Nat) (s : State) : Host.Outcome State Fault Refusal :=
  onUnits (isService t)
    (if s.svc.rebuild.contains t && role s ≠ 3 then
       let l := (newSlots s t).map (fun o => match o with
         | some r => r + 1
         | none => 0)
       let s := setSvc { s.svc with rebuild := s.svc.rebuild.erase t } s
       mirrorChange [3, t] (count (cBackend t 0x20) (installSlots t l s))
     else s)

/-- A fraction: numerator and denominator. -/
abbrev Frac := Nat × Nat
/-- a ≤ b. -/
def fracLe (a b : Frac) : Bool := a.1 * b.2 ≤ b.1 * a.2
/-- The smaller. -/
def fracMin (a b : Frac) : Frac := if fracLe a b then a else b
/-- The larger. -/
def fracMax (a b : Frac) : Frac := if fracLe a b then b else a
/-- The nearest whole number; a half goes up (log entry 15). -/
def fracRound (a : Frac) : Nat := (2 * a.1 + a.2) / (2 * a.2)

/-- R352: what the loop wants for a row: effective weight, load, weight, the sums. -/
def wantOf (e load w totalLoad totalW : Nat) : Frac :=
  let want : Frac := if load = 0 then (9 * e, 8) else (e * totalLoad * w, totalW * load)
  fracMin (fracMax want (7 * e, 8)) (9 * e, 8)

/-- Load of a row (R352): its records, or the octets of its records' frames in the last 100 ms. -/
def loadOf (s : State) (mode r : Nat) : Nat :=
  if mode = 1 then (be s r).records
  else (((be s r).recent.filter (fun e => s.clk.cclk < e.1 + msCclk 100)).map (·.2)).sum

/-- One row of the loop. -/
def rebalanceRow (tab : BeTable) (r e load w totalLoad totalW : Nat) (s : State) : State :=
  let want := wantOf e load w totalLoad totalW
  let lo : Frac := (16 * w * tab.floor, 100)
  let hi : Frac := (16 * w * tab.ceiling, 100)
  let beyond := !(fracLe lo want && fracLe want hi)
  let n := fracRound (fracMin (fracMax want lo) hi)
  let x := { be s r with beyond := if beyond then (be s r).beyond + 1 else 0, eff := n }
  let s := setBe r x s
  if n ≠ e then mirrorChange [4, r] (rebuildDue (beOf (beRow s (activeSet s) r)) s) else s

/-- R353: pressure stands from the tenth run beyond a bound, and ends with a run in which no row is beyond its bound. -/
def pressure (t : Nat) (rows : List Nat) (s : State) : State :=
  if rows.all (fun r => (be s r).beyond = 0) then
    wrRow oRebalPressure t 0 (setSvc { s.svc with pressed := s.svc.pressed.erase t } s)
  else if rows.any (fun r => 10 ≤ (be s r).beyond) && !s.svc.pressed.contains t then
    let s := setSvc { s.svc with pressed := s.svc.pressed ++ [t] } s
    raise evPolicyPressure t (wrRow oRebalPressure t 1 (count (cBackend t 0x28) s))
  else s

/-- REBALANCE_RUN (R352): for a valid table with REBAL_MODE 1 or 2 while row 3 of GOV_KNOBS has ENABLE 1 (R566); a
standby runs none (R548). -/
def execRebalanceRun (t : Nat) (s : State) : Host.Outcome State Fault Refusal :=
  onUnits (isService t)
    (let set := activeSet s
     let tab := beTable s set t
     if tab.valid ≠ 1 || tab.mode = 0 || role s = 3 || rd s oGovKnobs 3 % 256 ≠ 1 then s
     else
       let active := activeRows s t
       let rows := active.filter (fun r => !bePin (beRow s set r))
       let total := active.foldl (fun a r => a + loadOf s tab.mode r) 0
       let weights := active.foldl (fun a r => a + beWeight (beRow s set r)) 0
       let plan := rows.map (fun r => (r, effWeight s r, loadOf s tab.mode r, beWeight (beRow s set r)))
       let idle := ((s.svc.backends.map (·.1)).filter (fun r =>
         beOf (beRow s set r) = t && (total = 0 || !rows.contains r)))
       let s := forEach idle (fun u r => setBe r { be u r with beyond := 0 } u) s
       pressure t rows (if total = 0 then s
         else forEach plan (fun u x => rebalanceRow tab x.1 x.2.1 x.2.2.1 x.2.2.2 total weights u) s))

/-! ### Connection state (R356 to R358) -/

/-- TCP flags of a frame, 0 where it has no transport header. -/
def tcpFlags (f : Frame) : Nat := if f.ra.l4 = 0 then 0 else beAt f.bytes (f.ra.l4 + 13) 1

/-- MACHINE of a protocol (R330). -/
def machineOf (proto : Nat) : Nat := if proto = 6 then 1 else if proto = 17 then 2 else 3

/-- R358: CONN_STATE of a new record; the swap flag becomes INIT_DIR. -/
def connInit (tracked : Bool) (proto flags : Nat) (swapped : Bool) : Nat :=
  if !tracked then 0
  else
    let m := machineOf proto
    let st := if m = 1 && !(flags.testBit 1 && !flags.testBit 4) then 8 else 0
    m * 64 + b2n swapped * 32 + st

/-- Table 9-7: the next state of the TCP machine; none where the transition is invalid. -/
def tcpNext (st : Nat) (resp oneSided : Bool) (flags : Nat) : Option Nat :=
  let ack := flags.testBit 4
  if flags.testBit 2 then some 7
  else if flags.testBit 1 then
    if !resp && !ack then nth none [some 0, some 1, none, none, none, none, some 0, some 0, none] st
    else if resp && ack then nth none [some 1, some 1, none, none, none, none, none, none, none] st
    else none
  else if flags.testBit 0 then
    if resp then nth none [none, none, some 4, some 5, some 4, some 5, some 6, none, some 4] st
    else nth none [none, some 3, some 3, some 3, some 5, some 5, some 6, none, some 3] st
  else if resp then nth none [none, some 1, some 2, some 3, some 4, some 6, some 6, none, some 2] st
  else if st = 0 && oneSided && ack then some 2
  else nth none [none, some 2, some 2, some 3, some 4, some 6, some 6, none, some 8] st

/-- R356: the frame travels in the responder direction. -/
def isResponder (conn : Nat) (viaAlias symmetricKey swapped : Bool) : Bool :=
  viaAlias || (symmetricKey && swapped ≠ conn.testBit 5)

/-- R357: CONN_STATE after a frame's event, and whether it was invalid. -/
def connNext (conn : Nat) (resp oneSided : Bool) (flags : Nat) : Nat × Bool :=
  let m := conn / 64
  let st := conn % 16
  if m = 0 then (conn, false)
  else
    let keep := conn / 32 * 32
    if m = 1 then
      match tcpNext st resp oneSided flags with
      | some n => (keep + n, false)
      | none => (keep + 16 + st, true)
    else (keep + (if st = 0 && resp then 1 else st), false)

/-! ### Aging (R359, R360) -/

/-- Column of Table 9-9 that governs a state. -/
def ageColumn (conn : Nat) : Nat :=
  let m := conn / 64
  let st := conn % 16
  if m = 0 then 0
  else if m = 1 then (if st ≤ 1 then 1 else if st = 2 || st = 8 then 2 else if st ≤ 5 then 3 else 4)
  else if st = 0 then 5 else 6

/-- Timeout of a record under the active set (R360). -/
def timeoutOf (s : State) (h : Nat) : Nat :=
  byteFld (rdAct s oAgeClasses (rdAct s (oAgeClass (hTemplate h)))) (4 * ageColumn (hConn h)) 4

/-- R360: a record has timed out. -/
def timedOut (s : State) (h : Nat) : Bool :=
  let t := timeoutOf s h
  t ≠ 0 && !later 32 ((hSeen h + t) % 2 ^ 32) (nowMs s)

/-! ### Telemetry export (R362, R363) -/

/-- XLATE_PORT and XLATE_ADDR of a record (Table 9-10), from its SERVICE and key. -/
def xlateOf (s : State) (serv : Nat) (key : Bytes) : Nat × Bytes :=
  let set := activeSet s
  let pool := byteFld serv 0 2
  let row := byteFld serv 0x0A 2
  if pool ≠ 0xFFFF then
    let p := natPool s set pool
    let j := byteFld serv 4 4
    (p.firstPort j + byteFld serv 8 2, addrBytes p.family (p.outAddr j))
  else if row ≠ 0xFFFF then
    let b := beRow s set row
    (if bePort b ≠ 0 then bePort b else if kProto key = 1 || kProto key = 58 then kSport key else kDport key, slice b 0x10 16)
  else (0, zeros 16)

/-- SERVICE of a record as far as it can be read: none at low water, or when the cold part is unreadable or was restarted. -/
def servOf (s : State) (r : Nat) : Option Nat :=
  let x := slotAt s r
  if lowLedger s || x.coldBad || hPending x.hot || (cFlags x.cold).testBit 1 then none else some (cServ x.cold)

/-- An export entry (Table 9-10). -/
def exportBytes (s : State) (kind r : Nat) : Bytes :=
  let x := slotAt s r
  let h := x.hot
  let unread := lowLedger s || x.coldBad || hPending h
  let c := if unread then 0 else x.cold
  let (port, addr) := ((servOf s r).map (fun v => xlateOf s v (cKey c))).getD (0, zeros 16)
  leBytes 1 kind ++ leBytes 1 (hConn h) ++ leBytes 1 (hTemplate h) ++ leBytes 1 (b2n unread * 4 + cFlags c % 4) ++ leBytes 4 r ++
    leBytes 8 (if unread then 0 else byteFld c 0x30 8 + hPackets h) ++
    leBytes 8 (if unread then 0 else byteFld c 0x38 8 + hOctets h) ++ leBytes 8 (byteFld c 0x40 8) ++
    leBytes 4 (hSeen h) ++ leBytes 2 port ++ zeros 2 ++ leBytes 8 (nowTime64 s) ++ cKey c ++ addr ++ zeros 16

/-- R362: export a record, where its template asks for it and the unit does not follow an active. -/
def exportRecord (kind r : Nat) (s : State) : State :=
  if (admServices s (activeSet s) (hTemplate (hotAt s r))).testBit 3 && !follows s then issue 8 18 [] (exportBytes s kind r) s else s

/-- An export entry is dropped (R363). -/
def dropExport (s : State) : State := raiseOnce evTelemLoss 0 0 (count (cService 0x28) s)

/-- COUNTER_EXPORT (R362, R363): the dispatched export is written, or dropped beyond EXPORT_RATE or without room; a unit that has
come to follow an active meanwhile writes none. -/
def execCounterExport (s : State) : Host.Outcome State Fault Refusal :=
  .next (match nextOp s 18 8 (fun _ => true) with
    | none => s
    | some o =>
      let s := dispatched o s
      let q := rd s oExportQueue
      if follows s then s
      else if rd s oExportRate ≤ used s exportKey || !cqTakes s q 5 then dropExport s
      else
        count (cService 0x20) (postSystem q (completionHeader 3 0 5 0 0 0xFFFF 0 0 ++ o.body ++ zeros 16) (useLimit exportKey s)))

/-! ### Removal (R285, R344, R355) -/

/-- The services of a record are released, from its cold SERVICE where that can be read; otherwise `orphan` counts. -/
def releaseServices (r : Nat) (orphan : Bool) (s : State) : State :=
  match servOf s r with
  | some v =>
    let pool := byteFld v 0 2
    let s := if pool = 0xFFFF then s else releasePort pool (servEntry s v) r s
    countRecord v false s
  | none =>
    if orphan && (slotAt s r).coldBad then wr oOrphanResources ((rd s oOrphanResources + 1) % 2 ^ 32) s else s

/-- One record leaves its slot: VALID, its entry in its home's list, its pin (R285). -/
def clearRecord (r : Nat) (s : State) : State :=
  let h := hotAt s r
  let s := if hPinned h then addPins (pinSet s r) false s else s
  let s := dropHome (recMinus s r (hDist h)) (hDist h) s
  let h := hotAt s r
  let kept := byteFld h 0x0A 6 * 2 ^ 80
  let x := slotAt s r
  let s := setHot r kept s
  mirrorChange [1, r] (putSlot r { slotAt s r with cold := 0, coldBad := if x.coldBad then false else x.coldBad } s)

/-- A record is removed with its alias or primary (R285). `kind` is the export kind of Table 9-10, 0 for none. -/
def removeRecord (kind r : Nat) (s : State) : State :=
  let p := primaryOf s r
  let a := aliasOf s p
  let s := if kind = 0 then s else exportRecord kind p s
  let s := releaseServices p true s
  let s := clearRecord p s
  match a with
  | some a => clearRecord a s
  | none => s

/-! ### Translation of a frame (R342, Table 9-4) -/

/-- The ICMP type of a frame. -/
def icmpType (f : Frame) : Nat := if f.ra.l4 = 0 then 0 else beAt f.bytes f.ra.l4 1

/-- R343: of ICMP and ICMPv6, echo requests and replies alone are translated. -/
def translatable (proto icmp : Nat) : Bool :=
  (proto ≠ 1 && proto ≠ 58) || (proto = 1 && (icmp = 8 || icmp = 0)) || (proto = 58 && (icmp = 128 || icmp = 129))

/-- EXT_KIND and the extension of a frame for a record's hot part, if its template translates in the frame's epoch. -/
def translation (s : State) (f : Frame) (hot : Nat) (viaAlias : Bool) : Option (Nat × Nat) :=
  let set := setFor s f.epoch
  let t := hTemplate hot
  let sv := admServices s set t
  let k := if f.swapped then exchangedKey f.key else f.key
  let v6 := kKind k = 1
  let fam := if v6 then 1 else 0
  let src := addrAt fam k 0x08
  let dst := addrAt fam k 0x18
  let icmp := kProto k = 1 || kProto k = 58
  let sport := kSport k
  let dport := if icmp then kSport k else kDport k
  let v4 (a b p q : Nat) : Nat := a * 2 ^ 224 + b * 2 ^ 192 + p * 2 ^ 176 + q * 2 ^ 160
  let six (a p : Nat) : Nat := a * 2 ^ 128 + p * 2 ^ 112
  let source (a p : Nat) : Nat × Nat := if v6 then (2, six a p) else (1, v4 a dst p dport)
  let dest (a p : Nat) : Nat × Nat := if v6 then (3, six a p) else (1, v4 src a sport p)
  if !translatable (kProto k) (icmpType f) then none
  else if sv.testBit 1 then
    let p := natPool s set (rdSet s set (oAdmNatPool t) 0)
    if viaAlias then
      let j := (dst - p.outBase) * p.k + (dport - p.first) / p.block
      some (dest (p.inBase + j) (hSvcPort hot))
    else
      let j := src - p.inBase
      some (source (p.outAddr j) (p.firstPort j + hSvcAddr hot % 4096))
  else if sv.testBit 2 then
    let tab := beTable s set (rdSet s set (oAdmBackendTable t) 0)
    if viaAlias then some (source tab.vip (if tab.vipPort = 0 then sport else tab.vipPort))
    else
      let b := beRow s set (hSvcAddr hot % 4096)
      some (dest (addrAt fam b 0x10) (if bePort b = 0 then dport else bePort b))
  else none

/-! ### Checks of group G6 (R303, R332, R337, R347) -/

/-- A template's settings in a set (R303, R332). -/
def admOk (s : State) (set t : Nat) : Bool :=
  let sv := admServices s set t
  let fam := rdSet s set (oAdmFamily t) 0
  !(sv.testBit 1 && sv.testBit 2) &&
    (rdSet s set (oAdmEnable t) 0 = 0 ||
      ((!sv.testBit 1 || (let p := rdSet s set (oAdmNatPool t) 0
        p < 256 && (natPool s set p).valid = 1 && (natPool s set p).family = fam)) &&
      (!sv.testBit 2 || (let b := rdSet s set (oAdmBackendTable t) 0
        b < 256 && (beTable s set b).valid = 1 && (beTable s set b).family = fam)) &&
      (fam ≠ 2 || (!sv.testBit 1 && !sv.testBit 2)) &&
      (!(rdSet s set (oAdmFlags t) 0).testBit 2 || sv.testBit 1 || sv.testBit 2)))

/-- A valid pool's own fields (Table 9-3, R337). -/
def poolFieldsOk (p : NatPool) : Bool :=
  p.valid ≠ 1 ||
    (1024 ≤ p.first && (List.range 7).any (fun k => p.block = 64 * 2 ^ k) && 1 ≤ p.k && p.inCount ≤ p.outCount * p.k &&
      1 ≤ p.inCount && 1 ≤ p.outCount && p.outCount ≤ 65536 &&
      p.inBase + p.inCount ≤ 2 ^ (if p.family = 1 then 128 else 32) &&
      p.outBase + p.outCount ≤ 2 ^ (if p.family = 1 then 128 else 32))

/-- R337: a pool in use changes nothing but PORT_HOLD against the active set. -/
def poolStable (s : State) (set p : Nat) : Bool :=
  let a := rdSet s (activeSet s) oNatPools p
  let b := rdSet s set oNatPools p
  (portsInUse s p = 0 && portsHeld s p = 0) || setByteFld a 0x30 4 0 = setByteFld b 0x30 4 0

/-- Port-map entries of one row for every subscriber of the valid pools of a set (R337). -/
def portSum (s : State) (set : Nat) : Nat :=
  (rowsOf s set oNatPools).foldl (fun a p =>
    let x := natPool s set p
    if x.valid = 1 then a + x.inCount * x.block else a) 0

/-- R337 over all pools. -/
def poolsOk (s : State) (set : Nat) : Bool :=
  let rows := rowsOf s set oNatPools ++ rowsOf s (activeSet s) oNatPools
  rows.all (fun p => poolFieldsOk (natPool s set p) && poolStable s set p) && portSum s set ≤ 41943040

/-- R347, first condition: a row in use whose PORT is not 0 belongs to a table whose VIP_PORT is not 0. -/
def backendPortOk (s : State) (set r : Nat) : Bool :=
  let b := beRow s set r
  beOf b = 0xFFFF || bePort b = 0 || (beTable s set (beOf b)).vipPort ≠ 0

/-- R347, second condition: a row that holds records, and its table, keep what their records were rewritten by. -/
def backendStable (s : State) (set r : Nat) : Bool :=
  let b := beRow s set r
  let o := beRow s (activeSet s) r
  let x := beTable s set (beOf b)
  let y := beTable s (activeSet s) (beOf b)
  (be s r).records = 0 ||
    (beOf b = beOf o && bePort b = bePort o && slice b 0x10 16 = slice o 0x10 16 && x.family = y.family &&
      x.proto = y.proto && x.vipPort = y.vipPort && x.vrf = y.vrf && x.vip = y.vip)

/-- R347: backends of a set. -/
def backendsOk (s : State) (set : Nat) : Bool :=
  (rowsOf s set oBackends ++ rowsOf s (activeSet s) oBackends).all (fun r => backendPortOk s set r && backendStable s set r)

/-- The settings whose change advances a template's generation (R333). -/
def genSettings (s : State) (set t : Nat) : Nat × Nat × Nat :=
  (fld (admServices s set t) 1 2, rdSet s set (oAdmNatPool t) 0, rdSet s set (oAdmBackendTable t) 0)

/-- R334: no generation changes twice within two sweeps. -/
def gensOk (s : State) (set : Nat) : Bool :=
  (List.range 64).all (fun t =>
    genSettings s set t = genSettings s (activeSet s) t ||
      match tabFind s.svc.genAt t with
      | some c => c + 2 * msCclk (rd s oAgeSweepPeriod) ≤ s.clk.cclk
      | none => true)

/-- Group G6 at validation of a set. -/
def g6Ok (s : State) (set : Nat) : Bool :=
  (List.range 64).all (admOk s set) && poolsOk s set && backendsOk s set && gensOk s set

/-- R333: at a tide turn the generations of changed templates advance; a row whose nominal weight or table changed, or whose table
changed its REBAL_MODE, starts from its nominal weight again, and every such table's slot table is due (R354). -/
def turnServices (before after : State) (s : State) : State :=
  let o := activeSet before
  let n := activeSet after
  let s := forEach ((List.range 64).filter (fun t => genSettings s o t ≠ genSettings s n t)) (fun u t =>
    let u := wrRow oServiceGen t (serviceGen u t % 15 + 1) u
    mirrorChange [5, t] (setSvc { u.svc with genAt := tabInsert u.svc.genAt t u.clk.cclk } u)) s
  let rows := (rowsOf s o oBackends ++ rowsOf s n oBackends).filter (fun r => rdSet s o oBackends r ≠ rdSet s n oBackends r)
  let s := forEach rows (fun u r => setBe r { be u r with eff := 0 } u) s
  let tabs := rows.flatMap (fun r => [beOf (beRow s o r), beOf (beRow s n r)])
  let modes := (rowsOf s o oBackendTables ++ rowsOf s n oBackendTables).filter (fun t => (beTable s o t).mode ≠ (beTable s n t).mode)
  let moved := (s.svc.backends.map (·.1)).filter (fun r => modes.contains (beOf (beRow s n r)))
  let s := forEach moved (fun u r => setBe r { be u r with eff := 0, beyond := 0 } u) s
  forEach ((tabs ++ modes).filter isService) (fun u t => rebuildDue t u) s

/-- R365. -/
def backendUnused (s : State) (row v : Nat) : Bool := v ≠ 0 && beOf (beRow s (activeSet s) row) = 0xFFFF

/-- A write of BACKEND_STATE: the slot table of the row's table is due when the state changes (R354). -/
def writeBackendState (row v : Nat) (s : State) : State :=
  let t := beOf (beRow s (activeSet s) row)
  let changed := rd s oBackendState row ≠ v
  let s := wrRow oBackendState row v s
  if changed && isService t then rebuildDue t s else s

end Sys2Proof.Machine
end

