-- ==== Sys2Proof/Machine/LedgerFrame.lean ====
section
/-! DEFINITION. What a frame's ledger operation does (chapter 8): results, exhaustion, refusal, updates and admission. -/

namespace Sys2Proof.Machine
open Sys2Proof

/-! ### Slots and records written -/

/-- Write a whole record: its way is clean from then on (R304). At low water there is no cold part (R325). -/
def writeRecord (r hot cold : Nat) (s : State) : State :=
  if lowLedger s then putSlot r { slotAt s r with hot := setBit hot 68 } s
  else
    let s := occurGlobal 0x102 4 (putSlot r { hot := hot, cold := cold } s)
    match tabFind s.led.ways r with
    | some w => endWay 1 r (putWay r { w with dirty := false, clean := hot, bad := false, used := s.clk.cclk } s)
    | none => s

/-! ### Limits of admission (R305) -/

/-- One token of an ADM_RATE bucket, counted in tokens per CCLK at 1.5625 GHz. -/
def tokenUnit : Nat := 1562500000

/-- Level of a template's bucket now; a bucket that has never been used is full. -/
def tokenLevel (s : State) (set t : Nat) : Nat :=
  let depth := rdSet s set (oAdmBurst t) 0 * tokenUnit
  match tabFind s.led.tokens t with
  | none => depth
  | some (v, c) => min depth (v + rdSet s set (oAdmRate t) 0 * (s.clk.cclk - c))

/-- The bucket of a template holds a token. -/
def bucketOk (s : State) (set t : Nat) : Bool := rdSet s set (oAdmRate t) 0 = 0 || tokenUnit ≤ tokenLevel s set t

/-- Records a slice has created in the last 10 µs. -/
def recentlyCreated (s : State) (f : Nat) : List Nat := (slc s f).created.filter (fun c => s.clk.cclk < c + 15625)

/-- A slice may create `n` more records now. -/
def sliceTokens (s : State) (f n : Nat) : Bool := (recentlyCreated s f).length + n ≤ 125

/-- The slices of a record and of its alias may each create what is theirs. -/
def pairTokens (s : State) (f : Nat) (al : Option Nat) : Bool :=
  match al with
  | none => sliceTokens s f 1
  | some g => if g = f then sliceTokens s f 2 else sliceTokens s f 1 && sliceTokens s g 1

/-- A slice creates a record: its token of the slice limit is taken. -/
def countCreated (f : Nat) (s : State) : State := setSlc f { slc s f with created := recentlyCreated s f ++ [s.clk.cclk] } s

/-- A token of the ADM_RATE bucket is taken, at creation. -/
def takeToken (set t : Nat) (s : State) : State :=
  if rdSet s set (oAdmRate t) 0 = 0 then s
  else setLed { s.led with tokens := tabInsert s.led.tokens t (tokenLevel s set t - tokenUnit, s.clk.cclk) } s

/-- The hot part of a record at distance `d`: the slot's own HOME_LIST stays (R278). -/
def newHot (s : State) (r sig d kind template : Nat) (aliasRec : Bool) : Nat :=
  sig % 2 ^ 64 + d * 2 ^ 64 + b2n aliasRec * 2 ^ 69 + 2 ^ 71 + (kind % 4 * 64 + template % 64) * 2 ^ 72 +
    byteFld (hotAt s r) 0x0A 6 * 2 ^ 80

/-- A cold part from its fields (Table 8-4). -/
def newCold (key : Bytes) (packets octets first companion epoch flags origin service : Nat) : Nat :=
  leNat (key.take 48) + packets % 2 ^ 64 * 2 ^ 384 + octets % 2 ^ 64 * 2 ^ 448 + first % 2 ^ 64 * 2 ^ 512 +
    companion % 2 ^ 32 * 2 ^ 576 + epoch % 2 ^ 16 * 2 ^ 608 + flags * 2 ^ 624 + origin * 2 ^ 632 + service % 2 ^ 128 * 2 ^ 640

/-- COMPANION that names a record. -/
def companionOf (r : Option Nat) : Nat := match r with
  | some r => 2 ^ 31 + r
  | none => 0

/-- A placed alias (R280, R307). -/
structure AliasPlan where
  slot : Nat
  home : Nat
  dist : Nat
  fp : Nat
  sig : Nat
  key : Bytes
deriving DecidableEq, Repr

/-- Write an alias of a primary, and enter it in its home's list. -/
def writeAlias (a : AliasPlan) (primary template origin epoch : Nat) (s : State) : State :=
  let hot := newHot s a.slot a.sig a.dist (kKind a.key) template true
  let hot := setByteFld (setByteFld hot 0x1C 2 (primary % 65536)) 0x1E 2 (primary / 65536)
  let cold := newCold a.key 0 0 (nowTime64 s) (companionOf (some primary)) epoch 0 origin (0xFFFF + 0xFFFF * 2 ^ 80)
  mirrorChange [1, a.slot] (addHome a.home a.dist a.fp (writeRecord a.slot hot cold (countCreated (recSlice a.slot) s)))

/-- Write a record and its alias, each entered in its home's list; pinned whole or not at all (R304, R672). None where the
pins do not fit. -/
def writePair (r home d fp hot cold : Nat) (al : Option AliasPlan) (pin : Bool) (s : State) : Option State :=
  let origin := byteFld cold 0x4F 1
  let epoch := byteFld cold 0x4C 2
  let s := mirrorChange [1, r] (addHome home d fp (writeRecord r hot cold (countCreated (recSlice r) s)))
  let s := match al with
    | some a => writeAlias a r (hTemplate hot) origin epoch s
    | none => s
  let s := countRecord (if lowLedger s then 0xFFFF * 2 ^ 80 else cServ cold) true s
  if pin then pinRecords (r :: (al.map (·.slot)).toList) s else some s

/-! ### Results (R288, R299, R300) -/

/-- Admission template that a frame's template names (LEDGER, Table 5-3). -/
def admOf (f : Frame) : Nat := tmAdmission f.tmplWord

/-- The ledger result of a frame is delivered (Table 8-5); STATUS 5 brings the result-error fault. -/
def deliverLedger (o : LedOp) (fid status cause record : Nat) (s : State) : State :=
  match frame s fid with
  | none => s
  | some f =>
    let found := status ≤ 1
    let hot := if found then hotAt s record else 0
    let flags := b2n (found && hPinned hot) * 4 + b2n o.viaAlias * 2 + b2n f.swapped
    let homes := o.homes ++ o.home :: (if found then [recMinus s record (hDist hot)] else [])
    let ext := if found then translation s f hot o.viaAlias else none
    let s := occur f.pipe (0x30 + status) 1 (occOf fid f) s
    let s := { s with pip := { s.pip with nextSeq := s.pip.nextSeq + 1 } }
    modFrame fid (fun g =>
      { g with due := clearBit g.due 7, ledStatus := some status, ledHome := homes.dedup, ledSeq := s.pip.nextSeq,
               results := g.results ++ [.ledger status flags cause record hot],
               fault := if status = 5 then some 0x000A else g.fault,
               ra := { g.ra with flowValid := b2n found, flowRecord := if found then record else 0,
                                 extKind := (ext.map (·.1)).getD g.ra.extKind },
               ext := (ext.map (·.2)).getD g.ext }) s

/-- The action of an exhaustion or a refusal (R300): 1 to the host with a reason, 2 dropped. -/
def takeAction (fid action reason template : Nat) (s : State) : State :=
  if action = 1 then count (cTemplate template 0x30) (modFrame fid (fun g => { g with forced := some (1, reason) }) s)
  else if action = 2 then count (cTemplate template 0x38) (modFrame fid (fun g => { g with forced := some (2, 0) }) s)
  else s

/-- R299: a frame's operation meets an exhaustion cause. -/
def exhaust (o : LedOp) (fid : Nat) (f : Frame) (cause : Nat) (s : State) : State :=
  let t := admOf f
  let s := count (cSlice o.slice 0x28) (count (cTemplate t 0x28) s)
  let s := raiseOnce evLedgerExhaust o.slice o.slice s
  deliverLedger o fid 4 cause 0 (takeAction fid (rdCfg s f.epoch (oExhaustAction t)) 0x0004 t s)

/-- A frame is refused (Table 8-7): nothing is created. -/
def refuseFrame (o : LedOp) (fid : Nat) (f : Frame) (cause : Nat) (s : State) : State :=
  let t := admOf f
  let s := count (cSlice o.slice 0x20) (count (cTemplate t (if cause = 1 then 0x10 else if cause = 2 then 0x18 else 0x20)) s)
  deliverLedger o fid 3 cause 0 (takeAction fid (rdCfg s f.epoch (oRefuseAction t)) 0x0005 t s)

/-! ### Updates (R287, R322, R357) -/

/-- R322: the cold part is written anew from a frame that hits the record. What the manual does not name is left open. -/
def rewriteCold (r : Nat) (key : Bytes) (s : State) : State :=
  let (v, s) := drawFree s
  let companion := if hAlias (hotAt s r) then some (hPrimary (hotAt s r)) else aliasOf s r
  let cold := newCold key 0 0 v (companionOf companion) (v / 2 ^ 64) 3 (v / 2 ^ 80 % 256) 0
  setCold r cold (setHot r (clearBit (hotAt s r) 68) s)

/-- A fold falls due when a count has reached its limit (R279); there is none at low water (R325). -/
def foldDue (r : Nat) (s : State) : State :=
  let h := hotAt s r
  if lowLedger s || !((hPackets h).testBit 23 || (hOctets h).testBit 31) || (wayOp s 2 r).isSome then s
  else issueWay 2 r (wayClass s 2 r) s.clk.cclk (s.clk.cclk + kindDeadline s 2) s

/-- CONN_STATE after a frame's event, and whether the event was invalid (R356, R357). -/
def frameConn (s : State) (set : Nat) (o : LedOp) (f : Frame) (h : Nat) : Nat × Bool :=
  let t := hTemplate h
  let fl := rdSet s set (oAdmFlags t) 0
  if (admServices s set t).testBit 0 then
    connNext (hConn h) (isResponder (hConn h) o.viaAlias (fl.testBit 0) f.swapped) (!fl.testBit 0 && !fl.testBit 2) (tcpFlags f)
  else (hConn h, false)

/-- Octets of a frame to a balanced record count for its backend row, with the time they come (R352). -/
def countBackend (set h n : Nat) (s : State) : State :=
  if (admServices s set (hTemplate h)).testBit 2 then
    let r := hSvcAddr h % 4096
    let x := be s r
    setBe r { x with octets := x.octets + n,
                     recent := x.recent.filter (fun e => s.clk.cclk < e.1 + msCclk 100) ++ [(s.clk.cclk, n)] } s
  else s

/-- R322: a frame that hits a record whose cold part is lost has it rewritten from its own key. -/
def healCold (r : Nat) (o : LedOp) (s : State) : State :=
  if hPending (hotAt s r) && !lowLedger s then rewriteCold r o.key s else s

/-- R287: a frame's operation is applied to its record. -/
def updateRecord (set r : Nat) (o : LedOp) (f : Frame) (s : State) : State :=
  let s := healCold r o s
  let h := hotAt s r
  let (conn, bad) := frameConn s set o f h
  let h := setByteFld (setByteFld (setByteFld (setByteFld h 0x10 4 (stampMs f.stamp)) 0x14 3 (hPackets h + 1)) 0x17 4
    (hOctets h + frameLen f)) 0x1B 1 conn
  foldDue r (countBackend set h (frameLen f) (when bad (count (cService 0x18)) (setHot r h s)))

/-! ### Admission (R304, R671) -/

/-- R671, steps 1 to 5: the refusal cause of an admission, if any. -/
def admRefusal (s : State) (set t f : Nat) (x : Frame) (key : Bytes) : Option Nat :=
  let fl := tcpFlags x
  if rdSet s set (oAdmEnable t) 0 ≠ 1 then some 5
  else if rdSet s set (oAdmFamily t) 0 ≠ kKind key then some 4
  else if rdSet s set (oAdmWhen t) 0 = 1 && kKind key ≠ 2 && kProto key = 6 && !(fl.testBit 1 && !fl.testBit 4) then some 5
  else if lowLedger s && translates s set t then some 3
  else if !bucketOk s set t || !sliceTokens s f 1 then some 2
  else none

/-- The record of an admission as it is created, the frame's own update in it. -/
def admittedHot (s : State) (set r d : Nat) (o : LedOp) (f : Frame) (al : Alloc) : Nat :=
  let t := admOf f
  let h := newHot s r o.sig d (kKind o.key) t false
  let h := setByteFld (setByteFld (setByteFld h 0x10 4 (stampMs f.stamp)) 0x14 3 1) 0x17 4 (frameLen f)
  let h := setByteFld h 0x1B 1 (connInit ((admServices s set t).testBit 0) (kProto o.key) (tcpFlags f) f.swapped)
  setByteFld (setByteFld h 0x1C 2 al.svcAddr) 0x1E 2 al.svcPort

/-- The apply point of an admission: the record is created, or refused for its tokens, its alias's place or its pins, and
what it had allocated goes back. -/
def settleFrame (o : LedOp) (fid : Nat) (f : Frame) (r : Nat) (al : Option AliasPlan) (alloc : Alloc) (s : State) : State :=
  let set := setFor s f.epoch
  let t := admOf f
  let d := (recSlot r + slotsPer s - recSlot o.home) % slotsPer s
  let room := if (al.map (·.home)) = some o.home then 2 else 1
  if !bucketOk s set t || !pairTokens s o.slice (al.map (fun a => recSlice a.slot)) then refuseFrame o fid f 2 (takeBack alloc s)
  else if homeRoom s o.home < room then refuseFrame o fid f 1 (takeBack alloc s)
  else
    let cold := newCold o.key 0 0 (nowTime64 s) (companionOf (al.map (·.slot))) f.epoch 0 0 alloc.service
    let pin := (rdSet s set (oAdmFlags t) 0).testBit 1
    match writePair r o.home d (hashFp o.h0) (admittedHot s set r d o f alloc) cold al pin (takeToken set t s) with
    | none => refuseFrame o fid f 1 (takeBack alloc s)
    | some s =>
      let s := countBackend set (hotAt s r) (frameLen f) (count (cSlice o.slice 0x18) (count (cTemplate t 0x08) s))
      deliverLedger o fid 1 0 r s

/-! ### Records that a frame must not use (R335, R351) -/

/-- FAIL_ACTION for a record whose backend row is failed, with its table; 0 otherwise. -/
def failAction (s : State) (set r : Nat) : Nat × Nat :=
  let h := hotAt s r
  if (admServices s set (hTemplate h)).testBit 2 then
    let row := hSvcAddr h % 4096
    let t := beOf (beRow s set row)
    if beState s row = 3 && isService t then ((beTable s set t).failAction, t) else (0, 0)
  else (0, 0)

end Sys2Proof.Machine
end

