-- ==== Sys2Proof/Machine/LedgerOps.lean ====
section
/-! DEFINITION. Ledger operations in their slices (chapter 8): order, parking, misses, frames, flow commands, visits. -/

namespace Sys2Proof.Machine
open Sys2Proof

/-! ### Operations of a slice -/

/-- What one attempt at an operation comes to. -/
inductive Run where
  /-- It has reached its apply point, or has ended, and leaves its slice. -/
  | done (s : State)
  /-- It must wait, as it now stands. -/
  | wait (o : LedOp) (s : State)

/-- An operation of a slice by its number. -/
def ledOp (s : State) (f id : Nat) : Option LedOp := (slc s f).ops.find? (fun o => o.id = id)

/-- An operation leaves its slice. -/
def dropOp (f id : Nat) (s : State) : State := setSlc f { slc s f with ops := (slc s f).ops.filter (fun o => o.id ≠ id) } s

/-- An operation as it now stands. -/
def putOp (f : Nat) (o : LedOp) (s : State) : State :=
  setSlc f { slc s f with ops := (slc s f).ops.map (fun x => if x.id = o.id then o else x) } s

/-- Table 2-2, R627, R326: a slice takes operations. -/
def sliceOpen (s : State) (f : Nat) : Bool := inService s (16 + f) && !(slc s f).flushing && rd s oLedgerState ≠ 2

/-- R295, R444: the write buffer of a slice has room, and no operation it issues waits for an entry, so that it accepts an
operation. -/
def sliceAccepts (s : State) (f : Nat) : Bool := (slc s f).writes.length < 256 && !sliceWaits s f

/-- A slot that a FLOW_WALK has still to reach (R311). -/
def walks (r : Nat) (o : LedOp) : Bool :=
  match o.who with
  | .cmd _ code a _ _ => code = 0x41 && o.slot.getD 0 ≤ r && r < recNo a.slice a.record + a.count
  | _ => false

/-- The operation concerns a slot as its home or its record slot, or will in its walk (R286). -/
def concerns (r : Nat) (o : LedOp) : Bool := o.stage ≠ .held && (o.home = r || o.slot = some r || walks r o)

/-- The home of the record resident in a slot; the slot itself where it holds none. -/
def homeSlot (s : State) (r : Nat) : Nat := if hValid (hotAt s r) then recMinus s r (hDist (hotAt s r)) else r

/-- R321: a slot is under repair, or is the home of one that is. -/
def underRepair (s : State) (r : Nat) : Bool := (slc s (recSlice r)).repairs.any (fun x => x = r || homeSlot s x = r)

/-- R286, R321: a slot is the object of an earlier operation that has not finished, or of a repair. -/
def blocked (s : State) (earlier : List LedOp) (r : Nat) : Bool := earlier.any (concerns r) || underRepair s r

/-- The operation is parked. -/
def isParked (o : LedOp) : Bool := match o.stage with
  | .parked _ => true
  | _ => false

/-- Parked operations of a slice. -/
def parkedIn (s : State) (f : Nat) : Nat := ((slc s f).ops.filter isParked).length
/-- Parked operations of the device. -/
def parkedAll (s : State) : Nat := s.led.slices.foldl (fun a e => a + (e.2.ops.filter isParked).length) 0
/-- The waiting chain of a slot. -/
def chainOf (s : State) (f r : Nat) : Nat := ((slc s f).ops.filter (fun o => o.stage = .parked r)).length

/-- A slot is reserved by an admission, or no longer (R306). -/
def reserve (r : Nat) (s : State) : State :=
  setSlc (recSlice r) { slc s (recSlice r) with reserved := (slc s (recSlice r)).reserved ++ [r] } s

/-- The reservation of a slot ends. -/
def unreserveSlot (r : Nat) (s : State) : State :=
  setSlc (recSlice r) { slc s (recSlice r) with reserved := (slc s (recSlice r)).reserved.erase r } s

/-- The admission that waits for its reply key leaves its slice, its slot free again. -/
def endAdmission (p : LedOp) (r : Nat) (s : State) : State := dropOp p.slice p.id (unreserveSlot r s)

/-- A cause of Table 8-6 meets an operation: a frame's operation, or the reply-key admission of one, ends by it; none where
the operation waits instead (R312, Table 2-2). -/
def exhaustOp (o : LedOp) (cause : Nat) (s : State) : Option State :=
  match o.who with
  | .frame fid f => some (exhaust o fid f cause s)
  | .reply ps pop r =>
    match ledOp s ps pop with
    | none => some s
    | some p =>
      match p.who with
      | .frame fid f => some (exhaust { p with slice := o.slice } fid f cause (takeBack p.alloc (endAdmission p r s)))
      | _ => none
  | _ => none

/-- The cause ends the operation, or it waits at a stage. -/
def exhaustOr (o : LedOp) (cause : Nat) (stage : LedStage) (s : State) : Run :=
  match exhaustOp o cause s with
  | some t => .done t
  | none => .wait { o with stage := stage } s

/-- R298: the operation parks on a slot, or is refused an entry; one that is parked already keeps its entry and changes its
chain. -/
def park (o : LedOp) (r : Nat) (s : State) : Run :=
  if o.stage = .parked r then .wait o s
  else if !isParked o && (65536 ≤ parkedAll s || rd s oParkSliceLimit ≤ parkedIn s o.slice) then exhaustOr o 2 (.waiting r) s
  else if rd s oParkChainLimit ≤ chainOf s o.slice r then exhaustOr o 3 (.waiting r) s
  else if isParked o then .wait { o with stage := .parked r } s
  else .wait { o with stage := .parked r } (ctrMax (cSlice o.slice 0x38) (parkedIn s o.slice + 1) (count (cSlice o.slice 0x30) s))

/-- The operation needs slots read (R281, R297). -/
def fetch (o : LedOp) (l : List Nat) (s : State) : Run :=
  match issueReads l s with
  | .ok t => .wait { o with stage := .reading, touch := o.touch ++ l.filter (fun r => !o.touch.contains r) } t
  | .cause c => exhaustOr o c .reading s
  | .wait => .wait { o with stage := .reading } s

/-- What an operation that looks for its record comes to: it waits, or it has the record, or there is none. -/
inductive Aim where
  | not (x : Run)
  | none
  | at_ (r : Nat)

/-- R282, R286: look for the record of the operation's key. -/
def aimKey (earlier : List LedOp) (o : LedOp) (s : State) : Aim :=
  if blocked s earlier o.home then .not (park o o.home s)
  else
    match lookup s o.home (hashFp o.h0) o.sig with
    | .absent => .none
    | .found r => if r ≠ o.home && blocked s earlier r then .not (park o r s) else .at_ r
    | .need l =>
      match l.find? (fun r => r ≠ o.home && blocked s earlier r) with
      | some r => .not (park o r s)
      | none => .not (fetch o l s)

/-- R286: bring a slot named by its number on die, and wait for its home too. -/
def aimSlot (earlier : List LedOp) (o : LedOp) (r : Nat) (s : State) : Aim :=
  let o := { o with slot := some r }
  if blocked s earlier r then .not (park o r s)
  else if !onDie s r then .not (fetch o [r] s)
  else
    let home := homeSlot s r
    if home ≠ r && blocked s earlier home then .not (park { o with home := home } home s) else .at_ r

/-- The record at a slot is the primary of an alias with a signature. -/
def primaryStands (s : State) (r sig : Nat) : Bool :=
  isPrimary s r && s.led.slots.any (fun e => hValid e.2.hot && hAlias e.2.hot && hPrimary e.2.hot = r && hSig e.2.hot = sig)

/-- R308: an operation that reached an alias goes on at its primary's slice. -/
def forward (o : LedOp) (a : Nat) (s : State) : State :=
  let h := hotAt s a
  let r := hPrimary h
  let x := { o with slice := recSlice r, slot := some r, home := r, sig := hSig h, viaAlias := true, touch := [], stage := .reading,
                         homes := o.homes ++ [o.home] }
  count (cSlice o.slice 0x58) (setLed { s.led with forwards := s.led.forwards ++ [x] } s)

/-- R307: the reply key of the record that an operation is placing in slot `r` goes to its slice. -/
def sendReply (o : LedOp) (r : Nat) (key : Bytes) (s : State) : State :=
  let h0 := hashH0 s key
  let x : LedOp := { id := s.led.nextOp, slice := hashSlice h0, who := .reply o.slice o.id r, key := key, h0 := h0,
                     sig := hashSig s key, home := homeOf s h0 }
  setLed { s.led with nextOp := s.led.nextOp + 1, replies := s.led.replies ++ [x] } s

/-! ### Frames (R286 to R288, R304) -/

/-- An admission places its record, allocates its services, and creates it or sends its reply key (R304, R307). -/
def admitFlow (o : LedOp) (fid : Nat) (f : Frame) (s : State) : Run :=
  let set := setFor s f.epoch
  let t := admOf f
  if role s = 3 then .done (deliverLedger o fid 2 0 0 s)
  else
    match (if o.admitted then none else admRefusal s set t o.slice f o.key) with
    | some c => .done (refuseFrame o fid f c s)
    | none =>
      match placeAt s o.home (hashStart o.h0) with
      | .need l => fetch { o with admitted := true } l s
      | .noRoom => .done (refuseFrame o fid f 1 s)
      | .at_ d =>
        let r := recPlus s o.home d
        match allocServices set t r o.h0 (icmpType f) o.key s with
        | .inr s => .done (refuseFrame o fid f 3 s)
        | .inl a =>
          if (rdSet s set (oAdmFlags t) 0).testBit 2 && a.reply ≠ [] then
            .wait { o with stage := .aliasing r, slot := some r, alloc := a.alloc } (sendReply o r a.reply (reserve r a.state))
          else .done (settleFrame o fid f r none a.alloc a.state)

/-- A frame whose record must not be used is admitted anew, or finds none (R335, R351). -/
def anew (o : LedOp) (fid : Nat) (f : Frame) (s : State) : Run :=
  if !o.viaAlias && tmLedger f.tmplWord = 2 then admitFlow o fid f s else .done (deliverLedger o fid 2 0 0 s)

/-- A frame's operation reaches a record that is no alias. -/
def applyFrame (o : LedOp) (fid : Nat) (f : Frame) (r : Nat) (s : State) : Run :=
  let set := setFor s f.epoch
  let fa := failAction s set r
  if isStale s set r then
    if role s = 3 then .done (deliverLedger o fid 2 0 0 s) else anew o fid f (removeRecord 5 r (count (cService 0x10) s))
  else if fa.1 = 1 then .done (refuseFrame o fid f 3 (count (cBackend fa.2 0x10) s))
  else if fa.1 = 2 then
    if role s = 3 then .done (deliverLedger o fid 2 0 0 s) else anew o fid f (removeRecord 6 r (count (cBackend fa.2 0x18) s))
  else
    let s := when (o.touch = []) (count (cSlice o.slice 0x08)) s
    .done (deliverLedger o fid 0 0 r (updateRecord set r o f (useWay r s)))

/-- A frame's operation. -/
def runFrame (earlier : List LedOp) (o : LedOp) (fid : Nat) (f : Frame) (s : State) : Run :=
  if o.viaAlias then
    let r := o.slot.getD 0
    match aimSlot earlier o r s with
    | .not x => x
    | _ => if primaryStands s r o.sig then applyFrame o fid f r s else .done (deliverLedger o fid 2 0 0 s)
  else
    match aimKey earlier o s with
    | .not x => x
    | .none => anew o fid f s
    | .at_ r =>
      if hAlias (hotAt s r) then .done (forward o r (healCold r o (useWay r s))) else applyFrame { o with slot := some r } fid f r s

/-! ### Flow commands (R311 to R318, R673) -/

/-- A record image (Table 8-9). -/
def recordImage (s : State) (r : Nat) : Bytes :=
  let x := slotAt s r
  let unread := lowLedger s || x.coldBad || hPending x.hot
  leBytes 4 r ++ leBytes 1 (b2n (hPinned x.hot) * 4 + b2n (onDie s r) * 2 + b2n unread) ++ zeros 3 ++ leBytes 8 s.clk.cclk ++
    leBytes 32 x.hot ++ (if unread then zeros 96 else leBytes 96 x.cold)

/-- Payload of a flow command from offset 0x10 (Table 13-6). -/
def flowBody (a : FlowArgs) : Bytes :=
  leBytes 1 (b2n a.byKey) ++ leBytes 1 a.mask ++ leBytes 1 a.slice ++ zeros 1 ++ leBytes 4 a.record ++ leBytes 2 a.count ++ zeros 6 ++
    leBytes 8 a.aliasAddr ++ (a.key ++ zeros 48).take 48

/-- R673: the code a record number meets. -/
def recordCode (s : State) (r : Nat) : Nat :=
  if 2 ^ 26 ≤ r || slotsPer s ≤ recSlot r then 0x0B else if hValid (hotAt s r) then 0 else 0x23

/-- The record a command names, or the code it completes with. -/
def flowTarget (s : State) (a : FlowArgs) : Nat ⊕ Nat :=
  if a.byKey then
    match findRec s a.key with
    | some r => .inl r
    | none => .inr 0x23
  else if recordCode s a.record = 0 then .inl a.record
  else .inr (recordCode s a.record)

/-- The key an image is inserted under (R673). -/
def imageKey (s : State) (image : Bytes) : Bytes :=
  let k := slice image 0x30 48
  if (rdAct s (oAdmFlags (leAt image 0x19 1 % 64))).testBit 0 then (canonicalKey k).1 else k

/-- The place of a key whose home has room, as an alias plan. -/
def planFor (s : State) (k : Bytes) : Option AliasPlan :=
  let h0 := hashH0 s k
  let home := homeOf s h0
  (placeSlot s home (hashStart h0)).map (fun d => ⟨recPlus s home d, home, d, hashFp h0, hashSig s k, k⟩)

/-- The hot part of an inserted record (R315). -/
def insertedHot (s : State) (p : AliasPlan) (image : Bytes) : Nat :=
  let h := newHot s p.slot p.sig p.dist (kKind p.key) (leAt image 0x19 1) false
  setByteFld (setByteFld h 0x10 4 (leAt image 0x20 4)) 0x1B 5 (leAt image 0x2B 5)

/-- FLOW_INSERT at its apply point (R315): `reply` is the alias key, none where it is empty. -/
def insertDone (image reply : Bytes) (s : State) : Done :=
  let k := imageKey s image
  if !keyFormOk k || (reply ≠ [] && !keyFormOk reply) then failed 0x0B 0 s
  else if kKind k ≠ rdAct s (oAdmFamily (leAt image 0x19 1 % 64)) then failed 0x83 0x38 s
  else if (findRec s k).isSome || (reply ≠ [] && ((findRec s reply).isSome || reply = k)) then failed 0x20 0 s
  else
    match planFor s k with
    | none => failed 0x80 0x38 s
    | some p =>
      let al := if reply = [] then none else planFor (reserve p.slot s) reply
      if (reply ≠ [] && al.isNone) || ((al.map (·.home)) = some p.home && homeRoom s p.home < 2) then failed 0x80 0x38 s
      else
        let cold := newCold k (leAt image 0x60 8) (leAt image 0x68 8) (nowTime64 s) (companionOf (al.map (·.slot))) 0 0 1 (leAt image 0x80 16)
        match writePair p.slot p.home p.dist p.fp (insertedHot s p image) cold al false s with
        | some t => succeeded t
        | none => failed 0x80 0x38 s

/-- Replace `n` bytes at offset `o` of `v` by those of the image where the mask says so. -/
def masked (mask bit : Nat) (v o n : Nat) (image : Bytes) (at_ : Nat) : Nat :=
  if mask.testBit bit then setByteFld v o n (leAt image at_ n) else v

/-- FLOW_UPDATE of a primary (R316). -/
def updateMasked (mask r : Nat) (image : Bytes) (s : State) : State :=
  let h := hotAt s r
  let h := masked mask 0 h 0x1B 1 image 0x2B
  let h := masked mask 1 h 0x1C 2 image 0x2C
  let h := masked mask 2 h 0x1E 2 image 0x2E
  let h := if mask.testBit 3 then setFld h 72 6 (leAt image 0x19 1) else h
  let h := masked mask 5 h 0x10 4 image 0x20
  let h := if mask.testBit 6 then setByteFld h 0x14 7 0 else h
  let s := setHot r h s
  if !mask.testBit 4 && !mask.testBit 6 then s
  else if hPending h then s
  else
    let c := masked mask 4 (coldAt s r) 0x50 16 image 0x80
    setCold r (if mask.testBit 6 then setByteFld c 0x30 16 0 else c) s

/-- The records a pin concerns: the primary and its alias (R672). -/
def pinPair (s : State) (r : Nat) : List Nat := r :: (aliasOf s r).toList

/-- What a changing flow command does at its apply point, wherever the parts of its record lie. -/
def flowDone (code : Nat) (a : FlowArgs) (image reply : Bytes) (s : State) : Done :=
  if code = 0x42 then insertDone image reply s
  else
    match flowTarget s a with
    | .inr c => failed c 0 s
    | .inl x =>
      let r := primaryOf s x
      if code = 0x43 then succeeded (updateMasked a.mask r image s)
      else if code = 0x44 then succeeded (removeRecord 3 r s)
      else if code = 0x45 then
        match pinRecords (pinPair s r) s with
        | some t => succeeded t
        | none => failed 0x82 0x38 s
      else succeeded (unpinRecords (pinPair s r) s)

/-- R322: an uncorrectable error in the cold part of a record. -/
def coldUe (r : Nat) (s : State) : State :=
  if !hValid (hotAt s r) || lowLedger s then s
  else
    let s := setHot r (setBit (hotAt s r) 68) s
    let s := putSlot r { slotAt s r with coldBad := true } s
    let s := count (cSlice (recSlice r) 0x78) (wr oLedgerUeLast (2 ^ 31 + r) s)
    raise evLedgerEcc (2 ^ 31 + r) (setPair { s.pair with errors := s.pair.errors + 1 } s)

/-- What the code of a cold part found (R319, R322). -/
def coldRead (r : Nat) (ecc : Ecc) (s : State) : State :=
  match ecc with
  | .clean => s
  | .corrected => count (cSlice (recSlice r) 0x68) s
  | .uncorrectable => coldUe r s

/-- What the code of a part that an operation reads finds. -/
def eccAt (l : List (Nat × Ecc)) (r : Nat) : Ecc := ((l.find? (fun e => e.1 = r)).map (·.2)).getD .clean

/-- The cold part of a record is read for its image (R314, R319, R322). -/
def imageRead (o : LedOp) (r : Nat) (s : State) : State :=
  if lowLedger s || hPending (hotAt s r) then s else coldRead r (eccAt o.ecc r) s

/-- FLOW_READ at its apply point (R314). -/
def flowReadNow (c : SqCmd) (o : LedOp) (r : Nat) (s : State) : State :=
  let s := imageRead o r (useWay r s)
  finishWrite c (recordImage s r) 0 s

/-- The record after the last that a walk reads: a walk ends at the last slot of the slice (Table 8-8). -/
def walkEnd (s : State) (a : FlowArgs) : Nat := recNo a.slice a.record + min a.count (slotsPer s - a.record)

/-- FLOW_WALK (R311): slot by slot, each at its own apply point; it completes with the number written. -/
def walkRun (earlier : List LedOp) (c : SqCmd) : Nat → LedOp → State → Run
  | 0, o, s => .done (finishWrite c o.got (o.got.length / 144) s)
  | n + 1, o, s =>
    let r := o.slot.getD 0
    match aimSlot earlier { o with home := r } r s with
    | .not x => x
    | _ =>
      let s := useWay r s
      let s := if hValid (hotAt s r) then imageRead o r s else s
      let got := if hValid (hotAt s r) then o.got ++ recordImage s r else o.got
      walkRun earlier c n { o with slot := some (r + 1), home := r + 1, got := got, touch := [], stage := .reading } s

/-- The command reaches its apply point with everything it needs on die. -/
def applyCmd (c : SqCmd) (code : Nat) (a : FlowArgs) (image reply : Bytes) (s : State) : State :=
  commitCmd c code (flowBody a) (image ++ reply) (flowDone code a image reply) s

/-- FLOW_INSERT: a place is found, the reply key is sent, and the record is placed; beyond the slice limit of R305 it waits. -/
def runInsert (earlier : List LedOp) (o : LedOp) (c : SqCmd) (a : FlowArgs) (image reply : Bytes) (s : State) : Run :=
  match aimKey earlier o s with
  | .not x => x
  | .at_ _ => .done (complete c 0x20 0 0 s)
  | .none =>
    match placeAt s o.home (hashStart o.h0) with
    | .need l => fetch o l s
    | .noRoom => .done (complete c 0x80 0x38 0 s)
    | .at_ d =>
      let r := recPlus s o.home d
      if !pairTokens s o.slice (if reply = [] then none else some (hashSlice (hashH0 s reply))) then .wait { o with stage := .reading } s
      else if reply = [] then .done (applyCmd c 0x42 a image reply s)
      else
        .wait { o with stage := .aliasing r, slot := some r } (sendReply o r reply (reserve r s))

/-- A command on a primary reaches its apply point; FLOW_PIN first has every slot it pins on die (R309, R672). -/
def toApply (o : LedOp) (c : SqCmd) (code : Nat) (a : FlowArgs) (image reply : Bytes) (r : Nat) (s : State) : Run :=
  let missing := if code = 0x45 then ((pinPair s r).flatMap (pinSet s)).filter (fun x => !onDie s x) else []
  if missing = [] then .done (applyCmd c code a image reply (useWay r s)) else fetch { o with slot := some r } missing s

/-- A command whose record is found: FLOW_READ reads what is named, the others go to the primary. -/
def cmdAt (o : LedOp) (c : SqCmd) (code : Nat) (a : FlowArgs) (image reply : Bytes) (r : Nat) (s : State) : Run :=
  if code = 0x40 then .done (flowReadNow c o r s)
  else if hAlias (hotAt s r) then .done (forward o r (useWay r s))
  else toApply o c code a image reply r s

/-- A flow command. -/
def runCmd (earlier : List LedOp) (o : LedOp) (c : SqCmd) (code : Nat) (a : FlowArgs) (image reply : Bytes) (s : State) : Run :=
  if code = 0x41 then walkRun earlier c (walkEnd s a - o.slot.getD 0) o s
  else if code = 0x42 then runInsert earlier o c a image reply s
  else if o.viaAlias then
    let r := o.slot.getD 0
    match aimSlot earlier o r s with
    | .not x => x
    | _ => if primaryStands s r o.sig then toApply o c code a image reply r s else .done (complete c 0x23 0 0 s)
  else if a.byKey then
    match aimKey earlier o s with
    | .not x => x
    | .none => .done (complete c 0x23 0 0 s)
    | .at_ r => cmdAt o c code a image reply r s
  else
    match aimSlot earlier o a.record s with
    | .not x => x
    | _ => if hValid (hotAt s a.record) then cmdAt o c code a image reply a.record s else .done (complete c 0x23 0 0 s)

/-! ### Reply keys, FLOW_SET and visits -/

/-- The admission that waits for its reply key fails: no room, or the key holds a record (R307, R315). -/
def replyFails (p : LedOp) (r cause : Nat) (s : State) : State :=
  let s := endAdmission p r s
  match p.who with
  | .frame fid f => refuseFrame p fid f cause (takeBack p.alloc s)
  | .cmd c .. => if cause = 3 then complete c 0x20 0 0 s else complete c 0x80 0x38 0 s
  | _ => s

/-- R349: the backend row of a waiting admission, where it is no longer active. -/
def backendGone (s : State) (p : LedOp) : Bool :=
  let row := byteFld p.alloc.service 0x0A 2
  row ≠ 0xFFFF && beState s row ≠ 1

/-- R349: the row is chosen anew at the apply point, and the reply key it gives goes out (R350). -/
def chooseAgain (p : LedOp) (f : Frame) (r : Nat) (s : State) : State :=
  let set := setFor s f.epoch
  let t := admOf f
  let tab := rdSet s set (oAdmBackendTable t) 0
  match selectRow s tab (fld p.h0 48 12) with
  | none => replyFails p r 3 (count (cBackend tab 0x08) s)
  | some row =>
    let al : Alloc := { svcAddr := serviceGen s t * 4096 + row, service := 0xFFFF + row * 2 ^ 80 }
    sendReply p r (beReplyKey (beTable s set tab) (beRow s set row) p.key) (putOp p.slice { p with alloc := al } s)

/-- The reply key has its place: the admission reaches its apply point. -/
def replyPlaced (p : LedOp) (r : Nat) (a : AliasPlan) (s : State) : State :=
  match p.who with
  | .frame fid f =>
    if backendGone s p then chooseAgain p f r s else settleFrame p fid f r (some a) p.alloc (endAdmission p r s)
  | .cmd c code x image reply => applyCmd c code x image reply (endAdmission p r s)
  | _ => endAdmission p r s

/-- A reply-key admission (R307). A reply key that is the record's own key holds a record already, that one (R284). -/
def runReply (earlier : List LedOp) (o : LedOp) (ps pop r : Nat) (s : State) : Run :=
  match ledOp s ps pop with
  | none => .done s
  | some p =>
    match aimKey (earlier.filter (fun e => e.id ≠ pop)) o s with
    | .not x => x
    | .at_ _ => .done (replyFails p r 3 s)
    | .none =>
      match (if o.key = p.key then .noRoom else placeAt s o.home (hashStart o.h0)) with
      | .need l => fetch o l s
      | .noRoom => .done (replyFails p r (if o.key = p.key then 3 else 1) s)
      | .at_ d => .done (replyPlaced p r ⟨recPlus s o.home d, o.home, d, hashFp o.h0, o.sig, o.key⟩ s)

/-- FLOW_SET at its apply point (R291). -/
def setFields (mask conn addr port r : Nat) (s : State) : State :=
  let h := hotAt s r
  let h := if mask.testBit 0 then setByteFld h 0x1B 1 conn else h
  let h := if mask.testBit 1 then setByteFld h 0x1C 2 addr else h
  setHot r (if mask.testBit 2 then setByteFld h 0x1E 2 port else h) s

/-- R362: an interim export falls due at this visit. -/
def interimDue (s : State) (r : Nat) : Bool :=
  let n := rd s oExportEvery
  n ≠ 0 && (s.svc.sweep + r) % n = 0 &&
    (nowMs s + 2 ^ 32 - hSeen (hotAt s r)) % 2 ^ 32 ≤ n * rd s oAgeSweepPeriod

/-- The running sweep counts a record for the backend row it names (R355). -/
def countVisit (r : Nat) (s : State) : State :=
  let h := hotAt s r
  if hValid h && (admServices s (activeSet s) (hTemplate h)).testBit 2 then
    let row := hSvcAddr h % 4096
    setBe row { be s row with count := (be s row).count + 1 } s
  else s

/-- An aging visit at its apply point (R360, R361, R362, R548). -/
def visit (r : Nat) (s : State) : State :=
  let h := hotAt s r
  if !hValid h || hAlias h then s
  else if role s ≠ 3 && isStale s (activeSet s) r then removeRecord 5 r (count (cService 0x10) s)
  else if role s ≠ 3 && !hPinned h && timedOut s h then removeRecord 2 r (count (cService 0x08) s)
  else countVisit r (when (interimDue s r) (exportRecord 1 r) (useWay r s))

/-! ### Errors of hot parts (R319, R320, R323) -/

/-- An operation that an error ends: STATUS 5, or "record corrupt" (R320). -/
def failOp (o : LedOp) (s : State) : State :=
  let s := dropOp o.slice o.id s
  let s := match o.stage with
    | .aliasing r => unreserveSlot r s
    | _ => s
  match o.who with
  | .frame fid _ => deliverLedger o fid 5 0 0 (takeBack o.alloc s)
  | .cmd c _ _ _ _ => complete c 0x81 0x38 0 s
  | .reply ps pop r =>
    match ledOp s ps pop with
    | none => s
    | some p =>
      let s := endAdmission p r s
      match p.who with
      | .frame fid _ => deliverLedger p fid 5 0 0 (takeBack p.alloc s)
      | .cmd c _ _ _ _ => complete c 0x81 0x38 0 s
      | _ => s
  | _ => s

/-- A flow command. -/
def isFlowCmd (o : LedOp) : Bool := match o.who with
  | .cmd _ _ _ _ _ => true
  | _ => false

/-- The error touches an operation: it read the slot, or waits on it; a flow command also where it waits outside. -/
def touches (r : Nat) (o : LedOp) : Bool :=
  o.touch.contains r || o.stage = .parked r || o.stage = .waiting r ||
    ((o.stage ≠ .held || isFlowCmd o) && (o.home = r || o.slot = some r))

/-- What a lost hot part held is open but for what the repair needs: the record's place, template and companion. -/
def garble (r : Nat) (s : State) : State :=
  let (v, s) := drawFree s
  putSlot r { slotAt s r with hot := setByteFld (hotAt s r) 0x10 12 v } s

/-- R320: an uncorrectable error in a hot part. -/
def hotUe (r : Nat) (s : State) : State :=
  let f := recSlice r
  if (slc s f).repairs.contains r then s
  else
    let hit := (slc s f).ops.filter (touches r)
    let s := setSlc f { slc s f with repairs := (slc s f).repairs ++ [r] } s
    let s := forEach hit (fun t o => failOp o t) s
    let s := match tabFind s.led.ways r with
      | some w => if w.pins = 0 then endWay 1 r (endWay 2 r (setLed { s.led with ways := tabErase s.led.ways r } s)) else s
      | none => s
    let s := count (cSlice f 0x70) (wr oLedgerUeLast r (garble r s))
    let s := raise evLedgerEcc r (setPair { s.pair with errors := s.pair.errors + 1 } s)
    issue 4 f [r] [] s

/-- R319, R323: what the code of a cache way or a write-buffer entry finds as it is read. -/
def wayRead (r : Nat) (e : Ecc) (s : State) : State :=
  if lowLedger s then s
  else
    match e, tabFind s.led.ways r with
    | .clean, _ => s
    | .corrected, _ => count (cSlice (recSlice r) 0x68) s
    | .uncorrectable, some w => if w.dirty then hotUe r s else putWay r { w with bad := true } s
    | .uncorrectable, none => if (slc s (recSlice r)).writes.contains r then hotUe r s else s

/-! ### Write-backs and folds (R294, R279) -/

/-- A dirty way is written (R294). -/
def writeNow (o : LedOp) (r : Nat) (s : State) : State :=
  let s := wayRead r (eccAt o.ecc r) s
  match tabFind s.led.ways r with
  | some w =>
    if w.bad || underRepair s r then s
    else occurGlobal 0x102 1 (count (cSlice (recSlice r) 0x40) (putWay r { w with dirty := false, clean := hotAt s r } s))
  | none => s

/-- R279: hot counts move into the cold totals; while the cold part is lost they stay, and the next frame's rewrite is
followed by another fold. -/
def foldNow (o : LedOp) (r : Nat) (s : State) : State :=
  let s := if hValid (hotAt s r) && !hAlias (hotAt s r) && !hPending (hotAt s r) then coldRead r (eccAt o.ecc r) s else s
  let x := slotAt s r
  if !hValid x.hot || hAlias x.hot || hPending x.hot || x.coldBad then s
  else
    let c := setByteFld x.cold 0x30 8 (byteFld x.cold 0x30 8 + hPackets x.hot)
    let c := setByteFld c 0x38 8 (byteFld x.cold 0x38 8 + hOctets x.hot)
    count (cSlice (recSlice r) 0x50) (setCold r c (setHot r (setByteFld x.hot 0x14 7 0) s))

/-! ### One attempt -/

/-- One attempt at an operation. -/
def runOp (earlier : List LedOp) (o : LedOp) (s : State) : Run :=
  match o.stage with
  | .aliasing _ => .wait o s
  | _ =>
    match o.who with
    | .frame fid f => runFrame earlier o fid f s
    | .cmd c code a image reply => runCmd earlier o c code a image reply s
    | .reply ps pop r => runReply earlier o ps pop r s
    | .set mask conn addr port =>
      match aimSlot earlier o (o.slot.getD 0) s with
      | .not x => x
      | _ =>
        let r := o.slot.getD 0
        .done (if isPrimary s r && hSig (hotAt s r) = o.sig then setFields mask conn addr port r s else s)
    | .aging =>
      match aimSlot earlier o (o.slot.getD 0) s with
      | .not x => x
      | _ => .done (visit (o.slot.getD 0) s)
    | .way kind =>
      let r := o.slot.getD 0
      if kind = 1 && (tabFind s.led.ways r).isNone then .done s
      else
        match aimSlot earlier o r s with
        | .not x => x
        | _ => .done (if kind = 1 then writeNow o r s else foldNow o r s)

/-! ### The order of a slice (R286, R298) -/

/-- An operation that waited outside looks for its place anew. -/
def refreshed (s : State) (o : LedOp) : LedOp :=
  match o.stage, o.who with
  | .held, .cmd _ _ _ _ _ =>
    if o.viaAlias || o.key = [] then o
    else
      let h0 := hashH0 s o.key
      { o with h0 := h0, sig := hashSig s o.key, home := homeOf s h0 }
  | _, _ => o

/-- One pass over the operations of a slice, in order of their arrival. -/
def passSlice (f : Nat) : List Nat → State → State
  | [], s => s
  | id :: t, s =>
    match ledOp s f id with
    | none => passSlice f t s
    | some o =>
      if o.stage = .held && !(sliceOpen s f && sliceAccepts s f) then passSlice f t s
      else
        match runOp ((slc s f).ops.takeWhile (fun x => x.id ≠ id)) (refreshed s o) s with
        | .done u => passSlice f t (dropOp f id (useWay o.home u))
        | .wait x u => passSlice f t (putOp f x u)

/-- One pass over all slices. -/
def passAll (s : State) : State :=
  forEach (s.led.slices.map (fun e => e.1)) (fun t f => passSlice f ((slc t f).ops.map (·.id)) t) s

/-- Pass after pass, until nothing moves. -/
def settle : Nat → State → State
  | 0, s => s
  | n + 1, s =>
    let t := passAll s
    if t.led.slices = s.led.slices then t else settle n t

/-- Operations of all slices. -/
def opsHeldAll (s : State) : Nat := s.led.slices.foldl (fun a e => a + e.2.ops.length) 0

/-- Aging visits that their slices have not finished. -/
def visitsLeft (s : State) : Bool := s.led.slices.any (fun e => e.2.ops.any (fun o => o.who = .aging))

/-- The sweep is complete once every slice has stepped through its slots and every visit has been made: RECORDS take the counts
(R355). -/
def endSweep (s : State) : State :=
  if s.svc.swept ≠ 2 ^ 16 - 1 || visitsLeft s then s
  else
    let s := setSvc { s.svc with swept := 0, sweep := s.svc.sweep + 1 } (count (cService 0x00) s)
    forEach (s.svc.backends.map (·.1)) (fun t r => setBe r { be t r with records := (be t r).count, count := 0 } t) s

/-- The slices apply what can be applied. -/
def runLedger (s : State) : State := endSweep (settle (4 * opsHeldAll s + 4) s)

/-- An operation joins the input queue of its slice and is counted. -/
def joinOp (o : LedOp) (s : State) : State :=
  let f := o.slice
  setSlc f { slc s f with ops := (slc s f).ops ++ [o] } (count (cSlice f 0x00) s)

/-- An operation enters its slice. -/
def enterOp (o : LedOp) (s : State) : State := runLedger (joinOp o s)

/-- A new operation takes the next number. -/
def newOp (o : LedOp) (s : State) : State :=
  enterOp { o with id := s.led.nextOp } (setLed { s.led with nextOp := s.led.nextOp + 1 } s)

/-- An operation at a slice that takes none, or its entry; the ways and write-buffer entries that it reads are checked (R323). -/
def arrive (o : LedOp) (ways : List (Nat × Ecc)) (s : State) : State :=
  if sliceOpen s o.slice then
    runLedger (forEach ways (fun t e => wayRead (recNo o.slice e.1) e.2 t) (joinOp o s))
  else
    match exhaustOp o 4 s with
    | some t => runLedger t
    | none => enterOp { o with stage := .held } s

/-- R21: a slice takes at most 4 operations in a CCLK cycle; the crossbar holds the excess. -/
def crossbarTakes (s : State) (f : Nat) : Bool := inCycle s (crossbarKey f) s.clk.cclk < 4

/-- An operation leaves the crossbar for its slice. -/
def cross (f : Nat) (s : State) : State := useCycle (crossbarKey f) s.clk.cclk s

/-- R29: an operation of a frame of the flow accepted earlier has not entered the slice. -/
def flowEnters (s : State) (fid : Nat) (f : Frame) : Bool := (earlierOfFlow s fid f).any (·.due.testBit 6)

/-- The operation of a frame enters its slice (R286). -/
def ledgerEnter (fid : Nat) (f : Frame) (ways : List (Nat × Ecc)) (s : State) : State :=
  let sl := hashSlice f.h0
  if !f.due.testBit 6 || flowEnters s fid f || !sliceAccepts s sl || !crossbarTakes s sl then s
  else
    let f := { f with due := setBit (clearBit f.due 6) 7 }
    let s := cross sl (count (cTemplate (admOf f) 0x00) (putFrame fid f s))
    let id := s.led.nextOp
    let touched := (ways.filter (fun e => e.2 = .uncorrectable)).map (fun e => recNo sl e.1)
    arrive { id := id, slice := sl, who := .frame fid f, key := f.key, h0 := f.h0, sig := f.sig, home := homeOf s f.h0,
             touch := touched } ways (setLed { s.led with nextOp := id + 1 } s)

/-- LEDGER_OPERATION (R286). -/
def execLedgerOperation (fid : Nat) (ways : List (Nat × Ecc)) (s : State) : Host.Outcome State Fault Refusal :=
  .next (match frame s fid with
    | some f => if f.phase = .ingress then ledgerEnter fid f ways s else s
    | none => s)

/-- FLOW_SET (R291): one per pass, to the frame's own record. -/
def execFlowSet (fid mask conn addr port : Nat) (s : State) : Host.Outcome State Fault Refusal :=
  .next (match frame s fid with
    | none => s
    | some f =>
      if f.phase = .ingress && !f.finished && !f.flowSetDone && f.ra.flowValid = 1 then
        let r := f.ra.flowRecord
        let s := putFrame fid { f with flowSetDone := true } s
        let open_ := sliceOpen s (recSlice r) && sliceAccepts s (recSlice r)
        let o : LedOp := { id := 0, slice := recSlice r, who := .set mask conn addr port, home := r, slot := some r,
                           sig := hSig (hotAt s r), stage := if open_ then .reading else .held }
        newOp o s
      else s)

/-- ALIAS_ADMISSION (R307): the oldest reply key on its way to a slice arrives. -/
def execAliasAdmission (f : Nat) (s : State) : Host.Outcome State Fault Refusal :=
  onUnits (isSlice f)
    (match s.led.replies.find? (fun o => o.slice = f) with
     | some o =>
       if sliceAccepts s f && crossbarTakes s f then
         arrive o [] (cross f (setLed { s.led with replies := s.led.replies.erase o } s))
       else s
     | none => s)

/-- ALIAS_FORWARD (R308): the oldest operation forwarded to a slice arrives. -/
def execAliasForward (f : Nat) (s : State) : Host.Outcome State Fault Refusal :=
  onUnits (isSlice f)
    (match s.led.forwards.find? (fun o => o.slice = f) with
     | some o =>
       if sliceAccepts s f && crossbarTakes s f then
         arrive o [] (cross f (setLed { s.led with forwards := s.led.forwards.erase o } s))
       else s
     | none => s)

end Sys2Proof.Machine
end

