-- ==== Sys2Proof/Machine/LedgerMemory.lean ====
section
/-! DEFINITION. The ledger's memory and its commands (chapters 8 and 17): flow commands, reads and writes of HBM, errors,
repair, folding, aging, flushing and rebasing. -/

namespace Sys2Proof.Machine
open Sys2Proof

/-! ### Flow commands -/

/-- A flow command becomes an operation of its slice (R312). -/
def cmdOp (sl : Nat) (k : Bytes) (slot : Option Nat) (who : LedWho) (ecc : List (Nat × Ecc)) (s : State) : State :=
  let h0 := if k = [] then 0 else hashH0 s k
  let home := if k = [] then slot.getD 0 else homeOf s h0
  let go := sliceOpen s sl && sliceAccepts s sl
  newOp { id := 0, slice := sl, who := who, key := k, h0 := h0, sig := if k = [] then 0 else hashSig s k, home := home, slot := slot,
          stage := if go then .reading else .held, ecc := ecc } (count (cSlice sl 0x60) s)

/-- A command that names a record or a key (R673), with what the code of each cold part it reads finds. -/
def namedCmd (c : SqCmd) (code : Nat) (a : FlowArgs) (image : Bytes) (ecc : List (Nat × Ecc)) (s : State) : State :=
  if a.byKey then
    let k := keyBlock a.key
    cmdOp (hashSlice (hashH0 s k)) k none (.cmd c code { a with key := k } image []) ecc s
  else if recordCode s a.record = 0x0B then complete c 0x0B 0 0 s
  else cmdOp (recSlice a.record) [] (some a.record) (.cmd c code a image []) ecc s

/-- The record a command names as the slots stand. -/
def namedRecord (s : State) (a : FlowArgs) : Nat := if a.byKey then (findRec s (keyBlock a.key)).getD 0 else a.record

/-- FLOW_READ (R314): what the code of the cold part finds goes with the operation. -/
def execFlowRead (c : SqCmd) (a : FlowArgs) (cold : Ecc) (s : State) : Host.Outcome State Fault Refusal :=
  onUnits c.wf (startCmd c 0 (fun t => namedCmd c 0x40 a [] [(namedRecord t a, cold)] t) s)

/-- A walk's slots (Table 8-8). -/
def walkStart (c : SqCmd) (a : FlowArgs) (cold : List (Nat × Ecc)) (s : State) : State :=
  if 16 ≤ a.slice || slotsPer s ≤ a.record || a.count = 0 || 4096 < a.count then complete c 0x0B 0 0 s
  else cmdOp a.slice [] (some (recNo a.slice a.record)) (.cmd c 0x41 a [] []) (cold.map (fun e => (recNo a.slice e.1, e.2))) s

/-- FLOW_WALK (R311). -/
def execFlowWalk (c : SqCmd) (a : FlowArgs) (cold : List (Nat × Ecc)) (s : State) : Host.Outcome State Fault Refusal :=
  onUnits c.wf (startCmd c 0 (walkStart c a cold) s)

/-- R318: what the data read of a command comes to: its bytes, or the code of its failure in area 60. -/
def dataOf (n : Nat) (d : Dma) : Bytes ⊕ Nat :=
  match d with
  | .fault => .inr 0x81
  | .tooLong => .inr 0x80
  | .data b => if b.length < n then .inr 0x82 else .inl (b.take n)

/-- FLOW_INSERT with its image and, where ALIAS_ADDR is not 0, its alias key. -/
def insertStart (c : SqCmd) (a : FlowArgs) (image aliasKey : Dma) (s : State) : State :=
  match dataOf 144 image, (if a.aliasAddr = 0 then .inl [] else dataOf 48 aliasKey) with
  | .inr e, _ => complete c e 0x60 0 s
  | _, .inr e => complete c e 0x60 0 s
  | .inl b, .inl r =>
    let k := imageKey s b
    if !keyFormOk k || (r ≠ [] && !keyFormOk r) then complete c 0x0B 0 0 s
    else if kKind k ≠ rdAct s (oAdmFamily (leAt b 0x19 1 % 64)) then complete c 0x83 0x38 0 s
    else if r ≠ [] && r = k then complete c 0x20 0 0 s
    else cmdOp (hashSlice (hashH0 s k)) k none (.cmd c 0x42 a b r) [] s

/-- FLOW_INSERT (R315). -/
def execFlowInsert (c : SqCmd) (a : FlowArgs) (image aliasKey : Dma) (s : State) : Host.Outcome State Fault Refusal :=
  onUnits c.wf (startCmd c 1 (insertStart c a image aliasKey) s)

/-- FLOW_UPDATE with its image; a reserved mask bit makes the entry malformed (Table 13-8). -/
def updateStart (c : SqCmd) (a : FlowArgs) (image : Dma) (s : State) : State :=
  if 128 ≤ a.mask then complete c 0x82 0x60 0 s
  else
    match dataOf 144 image with
    | .inr e => complete c e 0x60 0 s
    | .inl b => namedCmd c 0x43 a b [] s

/-- FLOW_UPDATE (R316). -/
def execFlowUpdate (c : SqCmd) (a : FlowArgs) (image : Dma) (s : State) : Host.Outcome State Fault Refusal :=
  onUnits c.wf (startCmd c 1 (updateStart c a image) s)

/-- FLOW_DELETE (R317). -/
def execFlowDelete (c : SqCmd) (a : FlowArgs) (s : State) : Host.Outcome State Fault Refusal :=
  onUnits c.wf (startCmd c 1 (namedCmd c 0x44 a [] []) s)

/-- FLOW_PIN (R672). -/
def execFlowPin (c : SqCmd) (a : FlowArgs) (s : State) : Host.Outcome State Fault Refusal :=
  onUnits c.wf (startCmd c 1 (namedCmd c 0x45 a [] []) s)

/-- FLOW_UNPIN (R672). -/
def execFlowUnpin (c : SqCmd) (a : FlowArgs) (s : State) : Host.Outcome State Fault Refusal :=
  onUnits c.wf (startCmd c 1 (namedCmd c 0x46 a [] []) s)

/-- A flow command of the active, applied at its commit cycle (R545). -/
def flowPartner (code : Nat) (body data : Bytes) (s : State) : Done :=
  flowDone code (readFlowArgs (zeros 16 ++ body)) (data.take 144) (data.drop 144) s

/-! ### Errors of HBM (R319 to R322) -/

/-- A hot part comes back from HBM (R297, R298, R319, R320). -/
def readReturn (r : Nat) (hot cold : Ecc) (s : State) : State :=
  let f := recSlice r
  if !(slc s f).reads.contains r then s
  else
    let s := setSlc f { slc s f with reads := (slc s f).reads.erase r } s
    let s := when (hot = .corrected) (count (cSlice f 0x68)) s
    if hot = .uncorrectable then runLedger (hotUe r s)
    else runLedger (coldRead r cold (installWay r s))

/-- HBM_READ_RETURN (R298). -/
def execHbmReadReturn (f n : Nat) (hot cold : Ecc) (s : State) : Host.Outcome State Fault Refusal :=
  onUnits (isSlice f && isSlot n) (readReturn (recNo f n) hot cold s)

/-- HBM_WRITE_COMPLETE (R295): a write-buffer entry is free again. -/
def execHbmWriteComplete (f : Nat) (s : State) : Host.Outcome State Fault Refusal :=
  onUnits (isSlice f) (if (slc s f).writes = [] then s
    else runLedger (setSlc f { slc s f with writes := (slc s f).writes.drop 1 } s))

/-- The scrub reads a slot (R324). -/
def scrubSlot (f n : Nat) (hot cold : Ecc) (s : State) : State :=
  if rd s oScrubEnable ≠ 1 || lowLedger s || slotsPer s ≤ n then s
  else
    let r := recNo f n
    let s := when (hot = .corrected) (count (cSlice f 0x68)) s
    if hot = .uncorrectable then runLedger (hotUe r s) else coldRead r cold s

/-- LEDGER_SCRUB (R324). -/
def execLedgerScrub (f n : Nat) (hot cold : Ecc) (s : State) : Host.Outcome State Fault Refusal :=
  onUnits (isSlice f && isSlot n) (scrubSlot f n hot cold s)

/-! ### Deferred operations -/

/-- R439: a slice takes at most one deferred operation per CCLK, while it is open and accepts operations. -/
def takesDeferred (s : State) (f : Nat) : Bool :=
  sliceOpen s f && sliceAccepts s f && inCycle s (deferredKey f) s.clk.cclk = 0

/-- A deferred operation enters its slice. -/
def enterDeferred (o : LedOp) (s : State) : State := newOp o (useCycle (deferredKey o.slice) s.clk.cclk s)

/-- A way-held operation is dispatched (R437): it joins the operations of its slice (R286, R439). -/
def dispatchWay (kind r : Nat) (ecc : Ecc) (s : State) : State :=
  match nextWay s kind r with
  | none => s
  | some o =>
    let f := recSlice r
    if !takesDeferred s f then s
    else
      enterDeferred { id := 0, slice := f, who := .way kind, home := r, slot := some r, ecc := [(r, ecc)] }
        (countDispatch o (endWay kind r s))

/-- WRITEBACK (R294). -/
def execWriteback (f n : Nat) (way : Ecc) (s : State) : Host.Outcome State Fault Refusal :=
  onUnits (isSlice f && isSlot n) (dispatchWay 1 (recNo f n) way s)

/-- FOLD (R279). -/
def execFold (f n : Nat) (cold : Ecc) (s : State) : Host.Outcome State Fault Refusal :=
  onUnits (isSlice f && isSlot n) (dispatchWay 2 (recNo f n) cold s)

/-- R321: a home forgets the damaged slot `d` slots on. -/
def forgetSlot (r d : Nat) (s : State) : State :=
  let h := recMinus s r d
  if (List.range 3).any (fun i => (hHome (hotAt s h) i).testBit 15 && fld (hHome (hotAt s h) i) 11 4 = d) then dropHome h d s else s

/-- The fingerprint of a record's cold key; open where the cold part cannot be read. -/
def coldFp (r : Nat) (s : State) : Nat × State :=
  let x := slotAt s r
  if x.coldBad then let (v, s) := drawFree s; (v % 2048, s) else (hashFp (hashH0 s (cKey x.cold)), s)

/-- R321: the damaged slot's own list, from the records whose distance leads back to it. -/
def rebuildHome (r : Nat) (s : State) : State :=
  let s := setHot r (setByteFld (hotAt s r) 0x0A 6 0) s
  forEach (List.range 16) (fun t d =>
    let x := recPlus t r d
    let h := hotAt t x
    if hValid h && hDist h = d then let (fp, t) := coldFp x t; addHome r d fp t else t) s

/-- The resident of the damaged slot is lost, with its alias or primary (R321, R285). -/
def loseRecord (r : Nat) (cold : Ecc) (s : State) : State :=
  if !hValid (hotAt s r) then s
  else
    let p := primaryOf s r
    let s := if cold = .uncorrectable then putSlot p { slotAt s p with coldBad := true } s else s
    count (cSlice (recSlice r) 0x88) (removeRecord 4 r s)

/-- The slots whose hot part a repair reads: the homes up to 15 slots before, the slot, and those up to 15 after it. -/
def repairReads (s : State) (r : Nat) : List Nat :=
  (List.range 15).map (fun d => recMinus s r (d + 1)) ++ (List.range 15).map (fun d => recPlus s r (d + 1))

/-- A repair reads what it needs from HBM: each hot part that is not on die is one miss (R281); what the codes find goes by
R319, R320 and R322. -/
def readForRepair (r : Nat) (read : List (Nat × Ecc × Ecc)) (s : State) : State :=
  let f := recSlice r
  let s := forEach ((repairReads s r).filter (fun x => !onDie s x)) (fun t x => countMiss x t) s
  forEach read (fun t e =>
    let x := recNo f e.1
    if x = r then t
    else
      let t := when (e.2.1 = .corrected) (count (cSlice f 0x68)) t
      if e.2.1 = .uncorrectable then hotUe x t else coldRead x e.2.2 t) s

/-- R286: an operation that came before has the damaged slot or its home, and does not wait for the repair. -/
def repairWaits (s : State) (r : Nat) : Bool :=
  let h := homeSlot s r
  (slc s (recSlice r)).ops.any (fun o => (concerns r o || concerns h o) && o.stage ≠ .parked r && o.stage ≠ .parked h &&
    o.stage ≠ .waiting r && o.stage ≠ .waiting h)

/-- A repair (R321); a standby removes no record of its own (R548). -/
def repairSlot (r : Nat) (cold : Ecc) (read : List (Nat × Ecc × Ecc)) (s : State) : State :=
  let f := recSlice r
  match nextOp s f 4 (fun o => o.args = [r] && sliceOpen s f && inCycle s (deferredKey f) s.clk.cclk = 0 && !repairWaits s r) with
  | none => s
  | some o =>
    let s := dispatched o (useCycle (deferredKey f) s.clk.cclk s)
    if !(slc s f).repairs.contains r then s
    else
      let s := readForRepair r read (when (cold = .corrected) (count (cSlice f 0x68)) s)
      let s := if role s = 3 then s
        else forEach (List.range 16) (fun t d => forgetSlot r d t) (loseRecord r cold s)
      let s := rebuildHome r s
      let s := setSlc f { slc s f with repairs := (slc s f).repairs.erase r } s
      runLedger (count (cSlice f 0x80) (setPair { s.pair with repairs := s.pair.repairs + 1 } s))

/-- LEDGER_REPAIR (R321). -/
def execLedgerRepair (f n : Nat) (cold : Ecc) (read : List (Nat × Ecc × Ecc)) (s : State) : Host.Outcome State Fault Refusal :=
  onUnits (isSlice f && isSlot n) (repairSlot (recNo f n) cold read s)

/-- A step of a slice's aging cursor (R360, R434). A slice that has stepped through its slots waits for the sweep to end
(R355). -/
def ageStep (f : Nat) (s : State) : State :=
  match nextStep s f with
  | none => s
  | some o =>
    if !takesDeferred s f || s.svc.swept.testBit f then s
    else
      let k := cursorStep s f
      let r := recNo f k
      let s := stepCursor f o s
      let s := if k + 1 < slotsPer s then s else setSvc { s.svc with swept := setBit s.svc.swept f } s
      enterDeferred { id := 0, slice := f, who := .aging, home := r, slot := some r } s

/-- LEDGER_AGING (R360). -/
def execLedgerAging (f : Nat) (s : State) : Host.Outcome State Fault Refusal := onUnits (isSlice f) (ageStep f s)

/-! ### Flushing a slice (R627) -/

/-- PAIR_ENABLE. -/
def pairEnabled (s : State) : Bool := rd s oPairEnable = 1

/-- The ways of a slice after a flush: pinned ways stay, with the content that HBM holds where the tag was not intact. -/
def flushWay (bad : Bool) (r : Nat) (w : Way) (s : State) : State :=
  let s := endWay 1 r (endWay 2 r s)
  let s := if bad && w.dirty then putSlot r { slotAt s r with hot := w.clean } s
    else if w.dirty then occurGlobal 0x102 1 s
    else s
  if w.pins = 0 then setLed { s.led with ways := tabErase s.led.ways r } s
  else putWay r { w with dirty := false, clean := hotAt s r } s

/-- A Flow Ledger fault (R627): raised; the slice flushes, and what it holds ends with STATUS 5. -/
def sliceFault (f : Nat) (s : State) : State :=
  let s := raise evLedgerFault f s
  let s := setSlc f { slc s f with flushing := true, reads := [] } s
  forEach ((slc s f).ops.filter (fun o => o.stage ≠ .held)) (fun t o => failOp o t) s

/-- R557: a limit of repairs or uncorrectable errors in the running second is exceeded. -/
def limitExceeded (s : State) : Bool := rd s oPrivRepairLimit < s.pair.repairs || rd s oPrivUeLimit < s.pair.errors

/-- LEDGER_FAULT (R627), in a unit without a pair; a limit that is exceeded is only reported. -/
def execLedgerFault (f : Nat) (limitOnly : Bool) (s : State) : Host.Outcome State Fault Refusal :=
  onUnits (isSlice f)
    (if pairEnabled s then s
     else if limitOnly then (if limitExceeded s then raise evLedgerFault f s else s)
     else sliceFault f s)

/-- The flush ends. -/
def flushEnd (f : Nat) (badTags : List Nat) (s : State) : State :=
  if !(slc s f).flushing then s
  else
    let ways := s.led.ways.filter (fun e => recSlice e.1 = f)
    let s := forEach ways (fun t e => flushWay (badTags.contains (recSlot e.1)) e.1 e.2 t) s
    runLedger (setSlc f { slc s f with flushing := false } s)

/-- SLICE_FLUSH_COMPLETE (R627). -/
def execSliceFlushComplete (f : Nat) (badTags : List Nat) (s : State) : Host.Outcome State Fault Refusal :=
  onUnits (isSlice f) (flushEnd f badTags s)

/-! ### Rebasing (R326, R613, R614) -/

/-- A flow command starts anew outside its slice. -/
def heldAnew (o : LedOp) : LedOp :=
  let slot := match o.who with
    | .cmd _ code a _ _ => if code = 0x41 then some (recNo a.slice a.record) else o.slot
    | _ => o.slot
  { o with stage := .held, touch := [], got := [], slot := slot }

/-- An operation that a rebase meets: a frame's takes exhaustion cause 4, a command waits and starts anew. -/
def rebaseOp (o : LedOp) (s : State) : State :=
  match o.who with
  | .cmd _ _ _ _ _ =>
    let s := match o.stage with
      | .aliasing r => unreserveSlot r s
      | _ => s
    putOp o.slice (heldAnew o) s
  | .frame fid f => exhaust o fid f 4 (takeBack o.alloc (dropOp o.slice o.id s))
  | _ => dropOp o.slice o.id s

/-- Operations on their way between slices meet the rebase. -/
def rebaseForward (o : LedOp) (s : State) : State :=
  match o.who with
  | .frame fid f => exhaust o fid f 4 s
  | .cmd c _ _ _ _ => complete c 0x23 0 0 s
  | _ => s

/-- The ledger empties itself: every record goes and releases its services, with no export (R326, R362). -/
def emptyLedger (s : State) : State :=
  let ops := s.led.slices.flatMap (fun e => e.2.ops)
  let s := forEach ops (fun t o => rebaseOp o t) s
  let fw := s.led.forwards
  let s := forEach fw (fun t o => rebaseForward o t) (setLed { s.led with replies := [], forwards := [] } s)
  let records := (s.led.slots.filter (fun e => hValid e.2.hot && !hAlias e.2.hot)).map (·.1)
  let s := forEach records (fun t r => releaseServices r true t) s
  let keep (x : SliceSt) : SliceSt := { ops := x.ops.filter (fun o => o.stage = .held), writes := x.writes }
  let slices := (s.led.slices.map (fun e => (e.1, keep e.2))).filter (fun e => e.2 ≠ {})
  let s := setLed { s.led with slots := [], ways := [], slices := slices } s
  setDw { s.dw with wayHeld := [] } s

/-- The ledger starts to rebase: frames take exhaustion cause 4 from now on. -/
def startRebase (slots : Nat) (s : State) : State := wr oSlotsPerSlice slots (emptyLedger (wr oLedgerState 2 s))

/-- Slots of a slice by the stacks in service (Table 8-2). -/
def slotsFor (k : Nat) : Nat := if 4 ≤ k then 4194304 else if k = 3 then 3145728 else 131072

/-- The rebase ends; what waited goes on once the service level is set. -/
def endRebase (level : Nat) (s : State) : State := raise evLedgerRebased (slotsPer s) (wr oLedgerState level s)

end Sys2Proof.Machine
end

