-- ==== Sys2Proof/Machine/Energy.lean ====
section
/-! DEFINITION. Energy governor (chapter 16): the voltage, slot-gate and buffer-threshold loops, the regulator, protection,
policy pressure. -/

namespace Sys2Proof.Machine
open Sys2Proof

/-- Set the governor. -/
def setGov (g : Gov) (s : State) : State := { s with gov := g }

/-! ### Knobs and bounds (R566 to R568) -/

/-- A signed field of 4 bytes. -/
def signed32 (v o : Nat) : Int :=
  let n := byteFld v o 4
  if n < 2 ^ 31 then n else (n : Int) - 2 ^ 32

/-- A GOV_KNOBS row (Table 16-2). -/
structure Knob where
  enable : Nat
  pin : Nat
  floor : Int
  ceiling : Int
  pinValue : Int
deriving DecidableEq, Repr

/-- Read a GOV_KNOBS row. -/
def readKnob (v : Nat) : Knob := ⟨byteFld v 0 1, byteFld v 1 1, signed32 v 4, signed32 v 8, signed32 v 12⟩

/-- Row `k` of GOV_KNOBS. -/
def knob (s : State) (k : Nat) : Knob := readKnob (rd s oGovKnobs k)

/-- The range of a knob (Table 16-1). -/
def knobRange (k : Nat) : Int × Int := if k = 0 then (680, 820) else if k = 1 then (0, 3) else (-3, 3)

/-- R566: a GOV_KNOBS row that the device accepts. -/
def knobOk (k v : Nat) : Bool :=
  let r := readKnob v
  let (lo, hi) := knobRange k
  r.enable ≤ 1 &&
    (if k = 3 then v < 256
     else r.pin ≤ 1 && r.floor ≤ r.ceiling && lo ≤ r.floor && r.ceiling ≤ hi && r.floor ≤ r.pinValue && r.pinValue ≤ r.ceiling)

/-- Bound a value. -/
def clamp (lo hi v : Int) : Int := max lo (min hi v)

/-- The safe value of a knob (R566). -/
def safeValue (k : Nat) (r : Knob) : Int := if k = 0 then r.ceiling else 0

/-- Where a knob goes for a demand: its safe value, its pin, or the demand within its bounds (R566, R567). -/
def knobTarget (k : Nat) (r : Knob) (demand : Int) : Int :=
  if r.enable ≠ 1 then safeValue k r else if r.pin = 1 then r.pinValue else clamp r.floor r.ceiling demand

/-- One step of a knob towards its target (R568). -/
def stepTo (step now target : Int) : Int :=
  if now < target then min target (now + step) else if target < now then max target (now - step) else now

/-- A demand beyond the bounds, or away from the pin; none while the loop does not run (R582). -/
def demandBeyond (r : Knob) (demand : Int) : Bool :=
  r.enable = 1 && (demand < r.floor || r.ceiling < demand || (r.pin = 1 && demand ≠ r.pinValue))

/-- The periods of one second of a knob. -/
def periodsOf (k : Nat) : Nat := if k = 0 then 20000 else 100000

/-- The demands of a knob in the list of runs: VCORE, DT_ADJUST, pipelines. -/
def runsOf (s : State) (k : Nat) : List Nat :=
  if k = 0 then [nth 0 s.gov.beyond 0] else if k = 2 then [nth 0 s.gov.beyond 1] else s.gov.beyond.drop 2

/-- R582: one period of a demand, at place `i` of the runs; pressure stands while some run has lasted a second. -/
def notePressure (k i : Nat) (beyond : Bool) (s : State) : State :=
  let s := setGov { s.gov with beyond := setNth s.gov.beyond i (if beyond then nth 0 s.gov.beyond i + 1 else 0) } s
  let stands := (runsOf s k).any (periodsOf k ≤ ·)
  let was := nth false s.gov.pressed k
  let s := setGov { s.gov with pressed := setNth s.gov.pressed k stands } s
  if stands && !was then count (cGlobal 0x110) (raise evGovPressure k s) else s

/-! ### The regulator (R569, R570, R638, R639) -/

/-- Set or clear a bit of GOV_STATE. -/
def govBit (i : Nat) (on : Bool) (s : State) : State :=
  wr oGovState (if on then setBit (rd s oGovState) i else clearBit (rd s oGovState) i) s

/-- GOV_STATE[1]: the regulator does not answer, or VCORE is held. -/
def regulatorBit (s : State) : State := govBit 1 (s.gov.noRegulator || s.gov.holding) s

/-- |READ_VOUT − VCORE|. -/
def voutDiff (s : State) (mv : Nat) : Nat := ((mv : Int) - s.gov.vcore).natAbs

/-- VOUT_COMMAND in ULINEAR16 with the exponent −12: units of 1/4,096 V (log entry 41). -/
def vout (mv : Int) : Nat := (mv.toNat * 4096 + 500) / 1000

/-- Command VCORE; nothing is sent to a regulator that does not answer. -/
def commandVcore (v : Int) (s : State) : State :=
  if v = s.gov.vcore || s.gov.noRegulator then s
  else emit (.pmbus (rd s oPmbusAddr) 0x21 (vout v)) (setGov { s.gov with vcore := v } s)

/-- R639: the regulator does not answer. -/
def regulatorGone (s : State) : State :=
  if s.gov.noRegulator then s
  else raise evVregFault (voutDiff s (rd s oVcoreMeasured)) (regulatorBit (setGov { s.gov with noRegulator := true } s))

/-- R569: the demand of the voltage loop for a slack in ps. -/
def voltageDemand (s : State) (r : Knob) (slack : Int) : Int :=
  let t : Int := rd s oSlackTarget
  if r.enable ≠ 1 then s.gov.vcore
  else if slack < t - 10 then s.gov.vcore + 5
  else if t + 10 < slack then s.gov.vcore - 5
  else s.gov.vcore

/-- R571: 200 periods without a step converge; a second step in a row in the same direction ends that. -/
def noteStep (step : Int) (s : State) : State :=
  let last := s.gov.lastStep
  let steady := if step = 0 then s.gov.steady + 1 else 0
  let s := setGov { s.gov with steady := steady, lastStep := step } s
  if step = 0 then when (200 ≤ steady && !s.gov.noRegulator) (govBit 0 true) s
  else when ((0 < step && 0 < last) || (step < 0 && last < 0)) (govBit 0 false) s

/-- READ_IOUT and READ_VOUT of a period (Table 18-6); what they read comes with ENERGY_SAMPLE and VREG_CHECK. -/
def readRegulator (s : State) : State :=
  if s.gov.noRegulator then s
  else emit (.pmbus (rd s oPmbusAddr) 0x8B 0) (emit (.pmbus (rd s oPmbusAddr) 0x8C 0) s)

/-- One period of the voltage loop: the demand, the step of an answering regulator that is not held or overridden. -/
def voltagePeriod (slack : Int) (s : State) : State :=
  let r := knob s 0
  let d := voltageDemand s r slack
  let s := notePressure 0 0 (demandBeyond r d) (setGov { s.gov with vDemand := d } s)
  let target := if s.gov.bootPin then r.ceiling else knobTarget 0 r d
  let next := if s.gov.noRegulator || s.gov.holding || s.gov.voltOver then s.gov.vcore else stepTo 5 s.gov.vcore target
  let step := next - s.gov.vcore
  noteStep step (readRegulator (commandVcore next s))

/-- A STATUS_WORD that PMB_ALERT_N asked for is read (chapter 18, R639). -/
def readStatus (s : State) : State :=
  if s.gov.statusDue then emit (.pmbus (rd s oPmbusAddr) 0x79 0) (setGov { s.gov with statusDue := false } s) else s

/-- VOLTAGE_LOOP (R569, R571, R639). -/
def execVoltageLoop (slack : Int) (ack : Bool) (s : State) : Host.Outcome State Fault Refusal :=
  .next (voltagePeriod slack (when (!ack) regulatorGone (readStatus s)))

/-- READ_VOUT is compared with the command (R570). -/
def vregCheck (mv : Nat) (lasting : Bool) (s : State) : State :=
  let s := wr oVcoreMeasured (mv % 2 ^ 16) s
  let d := voutDiff s mv
  if s.gov.holding then
    if d < 15 then regulatorBit (setGov { s.gov with holding := false } s) else s
  else if 15 < d && lasting then
    raise evVregFault d (count (cGlobal 0x138) (regulatorBit (setGov { s.gov with holding := true } s)))
  else s

/-- VREG_CHECK (R570). -/
def execVregCheck (mv : Nat) (lasting : Bool) (s : State) : Host.Outcome State Fault Refusal := .next (vregCheck mv lasting s)

/-- REGULATOR_RETRY (R639): every second the device tries a regulator that does not answer. -/
def execRegulatorRetry (ack : Bool) (s : State) : Host.Outcome State Fault Refusal :=
  .next (if s.gov.noRegulator && ack then regulatorBit (setGov { s.gov with noRegulator := false } s) else s)

/-- PMB_ALERT (chapter 18, R639): raised, and STATUS_WORD is read in the next period. -/
def execPmbAlert (s : State) : Host.Outcome State Fault Refusal :=
  .next (raise evVregFault (voutDiff s (rd s oVcoreMeasured)) (setGov { s.gov with statusDue := true } s))

/-- ENERGY_SAMPLE (R564): mV × mA × 1 ms is nanojoules; ENERGY_CORE counts whole microjoules. -/
def execEnergySample (mv ma : Nat) (s : State) : Host.Outcome State Fault Refusal :=
  .next (let s := wr oVcoreMeasured (mv % 2 ^ 16) (setGov { s.gov with energy := s.gov.energy + mv * ma } s)
    ctrSet (cGlobal 0x100) (s.gov.energy / 1000) s)

/-! ### Slot gating (R572 to R574) -/

/-- SLOT_GATE of a pipeline. -/
def slotGate (s : State) (n : Nat) : Int := nth 0 s.gov.slotGate n

/-- Set SLOT_GATE of a pipeline. -/
def setGate (n : Nat) (v : Int) (s : State) : State := setGov { s.gov with slotGate := setNth s.gov.slotGate n v } s

/-- R573: the demand of a pipeline that issued `issued` instructions in 15,625 CCLK: u ≤ 0.6 × 8 × (3 − n), or
u > 0.85 × 8 × (4 − n). -/
def gateDemand (g : Int) (issued : Nat) : Int :=
  let u : Int := 100 * issued
  if u ≤ 60 * 8 * (3 - g) * 15625 then g + 1 else if 85 * 8 * (4 - g) * 15625 < u then g - 1 else g

/-- One period of a pipeline's slot gating; the count of its instructions starts anew. -/
def gatePeriod (n : Nat) (s : State) : State :=
  let r := knob s 1
  let g := slotGate s n
  let d := if r.enable = 1 then gateDemand g (pipe s n).issued else g
  let s := setPipe n { pipe s n with issued := 0 } s
  let s := setGov { s.gov with slotDemand := setNth s.gov.slotDemand n d } s
  let s := notePressure 1 (n + 2) (demandBeyond r d) s
  if s.gov.heatOver then s else setGate n (stepTo 1 g (knobTarget 1 r d)) s

/-- SLOT_GATE_LOOP (R573). -/
def execSlotGateLoop (n : Nat) (s : State) : Host.Outcome State Fault Refusal :=
  onUnits (isPipe n) (gatePeriod n s)

/-- R574: a head that waits for an engine lowers SLOT_GATE, never below FLOOR; a pinned or overridden knob stays. -/
def engineWait (n : Nat) (express : Bool) (s : State) : State :=
  let r := knob s 1
  let g := slotGate s n
  if r.enable ≠ 1 || r.pin = 1 || s.gov.heatOver || g ≤ r.floor then s
  else setGate n (if express then r.floor else g - 1) s

/-- ENGINE_WAIT (R574). -/
def execEngineWait (n : Nat) (express : Bool) (s : State) : Host.Outcome State Fault Refusal :=
  onUnits (isPipe n) (engineWait n express s)

/-! ### Buffer thresholds (R576, R577) -/

/-- R576: the demand of the buffer-threshold loop. -/
def dtDemandOf (s : State) : Int :=
  let size (p : Nat) := rd s oPoolBuffers p
  if (List.range 7).any (fun p => 16 * sharedIn s p < size p) then s.gov.dtAdjust + 1
  else if (List.range 7).all (fun p => size p < 4 * sharedIn s p) && 0 < s.gov.refused then s.gov.dtAdjust - 1
  else s.gov.dtAdjust

/-- One period of the buffer-threshold loop. -/
def dtPeriod (s : State) : State :=
  let r := knob s 2
  let d := if r.enable = 1 then dtDemandOf s else s.gov.dtAdjust
  let s := setGov { s.gov with dtDemand := d, refused := 0 } s
  let s := notePressure 2 1 (demandBeyond r d) s
  setGov { s.gov with dtAdjust := stepTo 1 s.gov.dtAdjust (knobTarget 2 r d) } s

/-- BUFFER_THRESHOLD_LOOP (R576). -/
def execBufferThresholdLoop (s : State) : Host.Outcome State Fault Refusal := .next (dtPeriod s)

/-! ### Protection (R578 to R581) -/

/-- A signed number in 4 bytes. -/
def sBytes (v : Int) : Bytes := leBytes 4 ((v % 2 ^ 32).toNat)

/-- R581: an edge of an override is logged and raised. -/
def logOverride (cause edge k : Nat) (before after : Int) (s : State) : State :=
  let row := rd s oOverrideNext
  let b := leBytes 1 cause ++ leBytes 1 edge ++ leBytes 1 k ++ zeros 1 ++ sBytes before ++ sBytes after ++ leBytes 2 (rd s oTjMax) ++
    zeros 2 ++ leBytes 10 (nowTime80 s) ++ zeros 6
  raise evGovOverride row (wr oOverrideNext ((row + 1) % 16) (wrRow oOverrideLog row (leNat b) s))

/-- The value of knob 1: the highest over pipelines (Table 16-8). -/
def gateTop (s : State) : Int := s.gov.slotGate.foldl max 0

/-- Voltage protection (R578); nothing is sent to a regulator that does not answer (R639). -/
def voltageProtection (s : State) : State :=
  if s.gov.noRegulator then s
  else
    let before := s.gov.vcore
    let was := s.gov.voltOver
    let s := commandVcore (min 820 (before + 20)) (setGov { s.gov with voltOver := true } s)
    if was then s else logOverride 1 1 0 before s.gov.vcore (count (cGlobal 0x118) s)

/-- VOLTAGE_PROTECTION (R578). -/
def execVoltageProtection (s : State) : Host.Outcome State Fault Refusal := .next (voltageProtection s)

/-- Thermal protection at a temperature of the hottest sensor (R579). -/
def thermalProtection (tj : Int) (s : State) : State :=
  let s := wr oTjMax ((tj % 2 ^ 16).toNat) s
  let limit := let n := rd s oThermalLimit; if n < 2 ^ 15 then (n : Int) else (n : Int) - 2 ^ 16
  if tj < limit then s
  else
    let before := gateTop s
    let was := s.gov.heatOver
    let s := setGov { s.gov with heatOver := true, slotGate := s.gov.slotGate.map (fun g => min 3 (g + 1)) } s
    if was then s else logOverride 2 1 1 before (gateTop s) (count (cGlobal 0x118) s)

/-- THERMAL_PROTECTION (R579). -/
def execThermalProtection (tj : Int) (s : State) : Host.Outcome State Fault Refusal := .next (thermalProtection tj s)

/-- An override of knob 0 or 1 ends; the loop goes on from the overridden value (R580). -/
def overrideEnd (k : Nat) (s : State) : State :=
  if k = 0 then
    if s.gov.voltOver then logOverride 1 2 0 s.gov.vcore s.gov.vcore (setGov { s.gov with voltOver := false } s) else s
  else if s.gov.heatOver then logOverride 2 2 1 (gateTop s) (gateTop s) (setGov { s.gov with heatOver := false } s)
  else s

/-- OVERRIDE_END (R580). -/
def execOverrideEnd (k : Nat) (s : State) : Host.Outcome State Fault Refusal := onUnits (k < 2) (overrideEnd k s)

/-! ### Objects of area 70 -/

/-- A GOV_STATUS row (Table 16-8). -/
def govStatus (s : State) (k : Nat) : Nat :=
  let r := knob s k
  let x : Int × Int × Bool :=
    if k = 0 then (s.gov.vcore, s.gov.vDemand, s.gov.voltOver)
    else if k = 1 then (gateTop s, s.gov.slotDemand.foldl max (-1), s.gov.heatOver)
    else if k = 2 then (s.gov.dtAdjust, s.gov.dtDemand, false)
    else (0, 0, false)
  let bits := b2n x.2.2 * 8 + b2n (nth false s.gov.pressed k) * 4 + b2n (r.enable = 1 && r.pin = 1) * 2 + b2n (r.enable = 1)
  leNat (sBytes x.1 ++ sBytes x.2.1 ++ leBytes 1 bits)

/-- A write of a GOV_KNOBS row: row 3 with ENABLE 0 puts every effective weight at 16 × WEIGHT, with slot tables rebuilt under
R354 (R566). A write of row 0 ends the pin of step 12 (log entry 42). -/
def writeGovKnobs (k v : Nat) (s : State) : State :=
  let s := wrRow oGovKnobs k v s
  let s := if k = 0 then setGov { s.gov with bootPin := false } s else s
  if k = 3 && v = 0 then
    let rows := (s.svc.backends.filter (fun e => e.2.eff ≠ 0)).map (·.1)
    forEach rows (fun t r => rebuildDue (beOf (beRow t (activeSet t) r)) (setBe r { be t r with eff := 0 } t)) s
  else s

end Sys2Proof.Machine
end

