-- ==== Sys2Proof/Machine/Traffic.lean ====
section
/-! DEFINITION. Traffic Manager (chapter 11), first part: meters, policers, shapers, time gates and admission to a queue. -/

namespace Sys2Proof.Machine
open Sys2Proof

/-- Set the Traffic Manager. -/
def setTm (t : Tm) (s : State) : State := { s with tm := t }

/-- Set the Fabric. -/
def setFab (t : Fab) (s : State) : State := { s with fab := t }

/-! ### Meters (R408, R414) -/

/-- A row of a two-rate meter. Rates in kbit/s, bursts in bytes. -/
structure Rates where
  cir : Nat
  cbs : Nat
  pir : Nat
  pbs : Nat
deriving DecidableEq, Repr

/-- A rate that is unlimited. -/
def unlimited : Nat := 0xFFFFFFFF

/-- What a rate adds in a number of CCLK cycles of 16/25 ns, in 2^−20 byte: cir × dt / 8,000,000 bytes. -/
def bucketGain (rate cycles : Nat) : Nat := rate * cycles * 16 * 2 ^ 20 / 200000000

/-- A bucket in 2^−20 byte after `cycles`; one whose rate is unlimited counts as full. -/
def bucketNow (rate burst cycles : Nat) (b : Int) : Int :=
  let full : Int := (burst * 2 ^ 20 : Nat)
  if rate = unlimited then full else min full (b + (bucketGain rate cycles : Nat))

/-- A meter now; one that has never been used is full. -/
def meterNow (r : Rates) (m : Option Meter) (now : Nat) : Meter :=
  match m with
  | some m => ⟨bucketNow r.cir r.cbs (now - m.last) m.tc, bucketNow r.pir r.pbs (now - m.last) m.tp, now⟩
  | none => ⟨((r.cbs * 2 ^ 20 : Nat) : Int), ((r.pbs * 2 ^ 20 : Nat) : Int), now⟩

/-- Debit `b` bytes from a bucket whose rate is limited. -/
def debit (rate b : Nat) (x : Int) : Int := if rate = unlimited then x else x - (b * 2 ^ 20 : Nat)

/-! ### Policers (R405 to R411) -/

/-- Rates of a POLICERS row (Table 11-1). -/
def policerRates (v : Nat) : Rates := ⟨byteFld v 4 4, byteFld v 8 4, byteFld v 0xC 4, byteFld v 0x10 4⟩

/-- The colour a frame comes in with: green for a colour-blind policer, else its entry of the colour map (R409). -/
def inColour (s : State) (f : Frame) (v : Nat) : Nat :=
  if byteFld v 0 1 = 0 then 0
  else fld (rdCfg s f.epoch oColourMaps (byteFld v 1 1)) (2 * (4 * f.ra.cls + f.ra.colour)) 2

/-- The judgement of R408: the colour, and the buckets it leaves. -/
def judgement (r : Rates) (m : Meter) (colour b : Nat) : Nat × Meter :=
  let need : Int := (b * 2 ^ 20 : Nat)
  if colour = 2 || m.tp < need then (2, m)
  else if colour = 1 || m.tc < need then (1, { m with tp := debit r.pir b m.tp })
  else (0, { m with tp := debit r.pir b m.tp, tc := debit r.cir b m.tc })

/-- A policer judges a frame by the row of the frame's epoch (R408, R411): counted (Table 11-8), the buckets moved. -/
def police (n : Nat) (f : Frame) (s : State) : Nat × State :=
  let v := rdCfg s f.epoch oPolicers n
  let r := policerRates v
  let m := meterNow r (tabFind s.tm.policers n) s.clk.cclk
  let (c, m) := judgement r m (inColour s f v) (frameLen f + 20)
  let s := setTm { s.tm with policers := tabInsert s.tm.policers n m } s
  let s := count (cPolicer n (8 * c)) s
  (c, if c = 2 then occurGlobal 0x121 1 (ctrAdd (cPolicer n 0x18) (frameLen f) s) else s)

/-- Where a row write changes a burst, the bucket is full again (chapter 11, Policing; log entry 78). A meter that is full in both
buckets is one that has never been used. -/
def refillPolicer (n old new : Nat) (s : State) : State :=
  let a := policerRates old
  let b := policerRates new
  match tabFind s.tm.policers n with
  | none => s
  | some m =>
    let m := { m with tc := if a.cbs = b.cbs then m.tc else ((b.cbs * 2 ^ 20 : Nat) : Int),
                      tp := if a.pbs = b.pbs then m.tp else ((b.pbs * 2 ^ 20 : Nat) : Int) }
    setTm { s.tm with policers := tabInsert s.tm.policers n m } s

/-- The frame policer (R405, R410): whether the descriptor passes. A red one is discarded and no port counts it. -/
def framePolice (fid : Nat) (s : State) : Bool × State :=
  match frame s fid with
  | none => (false, s)
  | some f =>
    if f.ra.policerValid = 0 then (true, s)
    else
      let yc := byteFld (rdCfg s f.epoch oPolicers f.ra.policer) 2 1
      let (c, s) := police f.ra.policer f s
      if c = 2 then (false, leave fid s)
      else
        let cls := if c = 1 && yc ≠ 0xFF then yc % 8 else f.ra.cls
        (true, putFrame fid { f with ra := { f.ra with colour := c, cls := cls } } s)

/-! ### Shapers (R414) -/

/-- Rates of a SHAPERS row (Table 11-3). -/
def shaperRates (v : Nat) : Rates := ⟨byteFld v 0 4, byteFld v 4 4, byteFld v 8 4, byteFld v 0xC 4⟩

/-- A shaper now. -/
def shaperNow (s : State) (n : Nat) : Meter :=
  meterNow (shaperRates (rd s oShapers n)) (tabFind s.tm.shapers n) s.clk.cclk

/-- Committed-eligible (R414): tc ≥ 0; a queue, whose rows are those below 5,120, never with CIR 0. -/
def committed (s : State) (n : Nat) : Bool :=
  (5120 ≤ n || (shaperRates (rd s oShapers n)).cir ≠ 0) && decide (0 ≤ (shaperNow s n).tc)

/-- Peak-eligible: tp ≥ 0. -/
def peakEligible (s : State) (n : Nat) : Bool := decide (0 ≤ (shaperNow s n).tp)

/-- Debit a shaper by `b` bytes. -/
def debitShaper (n b : Nat) (s : State) : State :=
  let r := shaperRates (rd s oShapers n)
  let m := shaperNow s n
  setTm { s.tm with shapers := tabInsert s.tm.shapers n { m with tc := debit r.cir b m.tc, tp := debit r.pir b m.tp } } s

/-! ### Queues (R400 to R402) -/

/-- Port of a queue number. -/
def queuePort (q : Nat) : Nat := if q < 4096 then q / 8 else (q - 4096) / 2
/-- Bit of a queue in OPEN: unicast queues 0 to 7, MC_HI 8, MC_LO 9. -/
def queueBit (q : Nat) : Nat := if q < 4096 then q % 8 else 8 + (q - 4096) % 2
/-- Queue number of a port and bit. -/
def queueOf (p bit : Nat) : Nat := if bit < 8 then 8 * p + bit else 4096 + 2 * p + (bit - 8)

/-- Descriptors in a queue, the head first. -/
def tmQueue (s : State) (q : Nat) : List Nat := tabGet [] s.tm.queues q

/-- Bytes in a queue: D. -/
def queueDepth (s : State) (q : Nat) : Nat :=
  (tmQueue s q).foldl (fun a fid => a + ((frame s fid).map frameLen).getD 0) 0

/-- Set a queue. -/
def setQueue (q : Nat) (l : List Nat) (s : State) : State :=
  setTm { s.tm with queues := tabPut [] s.tm.queues q l } s

/-- Unicast queue QUEUE_MAP names for a class, and whether it is in use. -/
def mapQueue (map cls : Nat) : Nat × Bool := (fld map (3 * cls) 3, map.testBit (24 + fld map (3 * cls) 3))

/-! ### Time gates (R418 to R420) -/

/-- Entries of a port's gate list in a set: duration and OPEN. -/
def gateEntries (s : State) (set p : Nat) : List (Nat × Nat) :=
  (List.range (byteFld (rdSet s set oGateControl p) 0 2)).map (fun i =>
    let v := rdSet s set oGateLists (256 * p + i)
    (byteFld v 0 4, byteFld v 4 2))

/-- GROWTH of a port in a set. -/
def gateGrowth (s : State) (set p : Nat) : Nat := byteFld (rdSet s set oGateControl p) 2 1

/-- Sum of durations while a queue stays open. -/
def openRun (bit : Nat) : List (Nat × Nat) → Nat
  | [] => 0
  | e :: t => if e.2.testBit bit then e.1 + openRun bit t else 0

/-- What is left of a list from `x` on. -/
def gateRest : Nat → List (Nat × Nat) → List (Nat × Nat)
  | _, [] => []
  | x, e :: t => if x < e.1 then (e.1 - x, e.2) :: t else gateRest (x - e.1) t

/-- Durations in 2^−32 ns. -/
def gateFine (l : List (Nat × Nat)) : List (Nat × Nat) := l.map (fun e => (e.1 * 2 ^ 32, e.2))

/-- A queue open in every entry: its window is unlimited. -/
def alwaysOpen (bit : Nat) (l : List (Nat × Nat)) : Bool := l.all (fun e => e.2.testBit bit)

/-- The open window of a queue now, in 2^−32 ns; none where it is unlimited (R419). -/
def openWindow (s : State) (set p bit : Nat) : Option Nat :=
  let l := gateFine (gateEntries s set p)
  if alwaysOpen bit l then none
  else
    let c := rdSet s set oGateControl p
    let base := byteFld c 12 6 * perSecond + byteFld c 8 4 * 2 ^ 32
    let t := ptpNow s
    if t < base then some (base - t + openRun bit l)
    else some (openRun bit (gateRest ((t - base) % (byteFld c 4 4 * 2 ^ 32)) l ++ l))

/-- The longest open window of a queue's list, in nanoseconds; none where it is unlimited. -/
def longestWindow (s : State) (set p bit : Nat) : Option Nat :=
  let l := gateEntries s set p
  if alwaysOpen bit l then none
  else some ((List.range l.length).foldl (fun a i => max a (openRun bit (l.drop i ++ l))) 0)

/-- A frame of `len` bytes fits a window of `w` in units of which a nanosecond holds `unit`, at `rate` Gbit/s. -/
def fitsWindow (len growth rate unit : Nat) : Option Nat → Bool
  | none => true
  | some w => (len + 20 + growth) * 8 * unit ≤ w * rate

/-- R420: the head `f` of a queue may start now. -/
def gateOpens (s : State) (q : Nat) (f : Frame) : Bool :=
  let p := queuePort q
  let set := setFor s f.epoch
  fitsWindow (frameLen f) (gateGrowth s set p) (portGbps s p) (2 ^ 32) (openWindow s set p (queueBit q))

/-- A head that does not fit waits, and is counted once (R420, GATE_WAITS). -/
def gateJudge (q : Nat) (s : State) : State :=
  match tmQueue s q with
  | [] => s
  | fid :: _ =>
    match frame s fid with
    | none => s
    | some f =>
      if gateOpens s q f || s.tm.waited.contains fid then s
      else count (cQueue q 0x18) (setTm { s.tm with waited := s.tm.waited ++ [fid] } s)

/-- GATE_ENTRY_CHANGE (R419): the port's list enters another entry, and the heads of its queues are judged under it. -/
def execGateEntryChange (p : Nat) (s : State) : Host.Outcome State Fault Refusal :=
  onUnits (isPort p) (forEach (List.range 10) (fun t b => gateJudge (queueOf p b) t) s)

/-! ### Admission (R401, R402, R406, R412, R413) -/

/-- Row of QUEUE_CONFIG (Table 11-2). -/
def queueRow (s : State) (q : Nat) : Nat := rd s oQueueConfig q

/-- The shift in use (R413, R577). -/
def shiftOf (s : State) (q : Nat) : Nat :=
  let own := byteFld (queueRow s q) 0xB 1
  if byteFld (rd s oGovKnobs 2) 0 1 = 1 then (min 9 (max 0 ((own : Int) + s.gov.dtAdjust))).toNat else own

/-- The charge of a descriptor moves at its admission (R376): unicast, REFS 1. -/
def chargeMoves (s : State) (f : Frame) : Bool :=
  f.kind = .own && (f.handle.map (fun h => hdrRefs (header s h))) = some 1

/-- R412: why a queue refuses a descriptor, if it does: 1 by length, colour or window, 2 by its share of the buffers. -/
def admitTest (s : State) (q : Nat) (f : Frame) : Nat :=
  let row := queueRow s q
  let p := queuePort q
  let d := queueDepth s q
  let l := frameLen f
  let set := setFor s f.epoch
  if byteFld row 0 4 < d + l then 1
  else if f.ra.colour = 1 && byteFld row 4 4 < d + l then 1
  else if !fitsWindow l (gateGrowth s set p) (portGbps s p) 1 (longestWindow s set p (queueBit q)) then 1
  else if chargeMoves s f then
    let o := 8 * p + f.ra.cls
    let bp := hPool (f.handle.getD 0)
    if heldBy s o bp < minOf s o bp || heldBy s o bp < (sharedIn s bp * 8) >>> shiftOf s q then 0 else 2
  else 0

/-- The queue a descriptor or copy for port `p` enters, none where QUEUE_MAP does not have it in use (R401, R402). -/
def chooseQueue (s : State) (p : Nat) (f : Frame) : Option Nat :=
  if f.kind = .multicast && f.ra.cls ≠ 7 then
    let hi := byteFld (rdCfg s f.epoch oTmPort p) 4 1
    some (4096 + 2 * p + (if hi.testBit f.ra.cls then 0 else 1))
  else
    let (q, used) := mapQueue (rdCfg s f.epoch (oQueueMap p)) f.ra.cls
    if used then some (8 * p + q) else none

/-- The egress port policer (R406): whether the descriptor passes. -/
def egressPolice (fid p : Nat) (f : Frame) (s : State) : Bool × State :=
  let v := rdCfg s f.epoch oTmPort p
  if !v.testBit 31 || f.kind = .mirror then (true, s)
  else
    let (c, s) := police (v % 2 ^ 16) f s
    if c = 2 then (false, s) else (true, putFrame fid { f with ra := { f.ra with colour := c } } s)

/-- The frame enters its queue: its charge moves where R376 says so, and copies are counted. -/
def enqueue (fid q : Nat) (s : State) : State :=
  match frame s fid with
  | none => s
  | some f =>
    let p := queuePort q
    let o := 8 * p + f.ra.cls
    let moves := chargeMoves s f
    let s := when moves (fun t => moveCharge (f.handle.getD 0) o t) s
    let f := { f with owner := if moves then o else f.owner, queue := q, phase := .queued, tEnqueue := s.clk.cclk }
    let l := tmQueue s q
    let s := when (l = []) (fun t => setTm { t.tm with deficit := tabErase t.tm.deficit q } t) s
    let s := setQueue q (l ++ [fid]) (putFrame fid f s)
    let s := when (f.kind = .multicast) (count (cTmPort p 0x00)) s
    when (f.kind = .mirror) (count (cTmPort p 0x08)) s

/-- A descriptor or copy for port `p` at admission: the link (R153), its queue, the egress policer, the tests of R412. -/
def admitQueue (fid p : Nat) (s : State) : State :=
  match frame s fid with
  | none => s
  | some f =>
    let f := { f with outPort := p }
    let s := putFrame fid f s
    if !linkCarries s p then discardCopy fid 0 (count (cPort p 0x50) s)
    else
      match chooseQueue s p f with
      | none => discardCopy fid 1 (count (cTmPort p 0x10) s)
      | some q =>
        let (passes, s) := egressPolice fid p f s
        if !passes then discardCopy fid 2 s
        else
          match frame s fid with
          | none => s
          | some g =>
            let why := admitTest s q g
            if why = 0 then enqueue fid q s
            else
              let s := when (why = 2) (fun t => { t with gov := { t.gov with refused := t.gov.refused + 1 } }) s
              discardCopy fid 1 (when (g.kind ≠ .multicast) (count (cQueue q 0x10)) s)

end Sys2Proof.Machine
end

