-- ==== Sys2Proof/Machine/Fabric.lean ====
section
/-! DEFINITION. From the end of the ingress routine through the Fabric to the queues (chapters 5, 10 and 11): resolution, copies,
recirculation, the two stages, the multicast FIFOs and replication. -/

namespace Sys2Proof.Machine
open Sys2Proof

/-! ### Resolution (R189 to R192, R382, R290, R395, R423) -/

/-- R382: a frame accepted earlier from the same port with the same pre-classification waits for a buffer. -/
def earlierWaits (s : State) (fid : Nat) (f : Frame) : Bool :=
  s.buf.waiters.any (fun g =>
    match frame s g with
    | some x => x.pipe = f.pipe && x.port = f.port && x.express = f.express && g ≠ fid &&
        (x.tAccept < f.tAccept || (x.tAccept = f.tAccept && g < fid))
    | none => false)

/-- R290: an earlier ledger result of the same home slot belongs to a frame of the pipeline that has not resolved. -/
def earlierResult (s : State) (f : Frame) : Bool :=
  f.ledStatus.isSome && s.pip.frames.any (fun e =>
    e.2.pipe = f.pipe && e.2.phase = .ingress && e.2.ledStatus.isSome && e.2.ledHome.any f.ledHome.contains &&
      e.2.ledSeq < f.ledSeq)

/-- R290: the result of `f` comes before that of `x`, which R29 would put first. -/
def resultFirst (f x : Frame) : Bool :=
  f.ledStatus.isSome && (x.due.testBit 6 || x.due.testBit 7 || (x.ledStatus.isSome && f.ledSeq < x.ledSeq))

/-- R29: a frame of the flow accepted earlier, which may be of the same class, has not resolved. A frame whose ledger result has
overtaken an earlier frame's goes by R290. -/
def flowWaits (s : State) (fid : Nat) (f : Frame) : Bool :=
  let l := earlierOfFlow s fid f
  l.any (fun x => !(x.finished && x.ra.cls ≠ f.ra.cls)) && !l.any (resultFirst f)

/-- The routine of a frame has ended, its results and its buffer are there, and order lets it go (R29, R290, R382). -/
def resolveReady (s : State) (fid : Nat) (f : Frame) : Bool :=
  f.phase = .ingress && f.finished && f.handle.isSome && (f.faulted || f.due = 0) && !earlierWaits s fid f &&
    !earlierResult s f && !flowWaits s fid f

/-- Where the resolved action sends the frame: 0 nowhere, 1 a port, 2 a group, 3 RECIRC. A unicast destination beyond port 515
is none, and port 513 is RECIRC. -/
def mainKind (f : Frame) : Nat :=
  if f.ra.destKind = 1 then (if f.ra.dest = 513 then 3 else if 515 < f.ra.dest then 0 else 1) else f.ra.destKind

/-- R190: one punt more in the running second, or one too many. -/
def takePunt (n : Nat) (s : State) : Bool × State :=
  let limit := rd s oPuntRateLimit
  if limit ≠ 0 && limit ≤ used s (puntKey n) then (false, count (cPipe n 0x28) s)
  else (true, count (cPipe n 0x20) (useLimit (puntKey n) s))

/-- Stage-one queue of a pipeline, a middle buffer and a rank. -/
def s1Key (n m c : Nat) : Nat := (n * 32 + m) * 2 + c

/-- Middle buffer of a frame (R388). -/
def middleOf (f : Frame) : Nat := fld f.h0 48 5

/-- Rank of a descriptor: 1 for class 7. -/
def rankOf (f : Frame) : Nat := if f.ra.cls = 7 then 1 else 0

/-- A descriptor enters its stage-one queue. -/
def pushStage1 (fid : Nat) (s : State) : State :=
  match frame s fid with
  | none => s
  | some f =>
    let k := s1Key f.pipe (middleOf f) (rankOf f)
    let s := putFrame fid { f with phase := .fabric } s
    setFab { s.fab with stage1 := tabPut [] s.fab.stage1 k (tabGet [] s.fab.stage1 k ++ [fid]) } s

/-- A copy of a frame: its own descriptor with MIRROR 0 and POLICER_VALID 0. -/
def copyOf (fid : Nat) (f : Frame) (kind : CopyKind) : Frame :=
  { f with kind := kind, root := some (f.root.getD fid), due := 0, inject := none,
           ra := { f.ra with mirror := 0, policerValid := 0, sample := 0, puntCopy := 0 } }

/-- The copy a mirror session makes, none where its KIND is 0 (R423). -/
def mirrorCopy (s : State) (fid : Nat) (f : Frame) : List Frame :=
  let v := rdCfg s f.epoch oMirrorSessions f.ra.mirror
  if f.ra.mirror = 0 then []
  else if byteFld v 0 1 = 1 then
    let c := copyOf fid f .mirror
    [{ c with session := f.ra.mirror, ra := { c.ra with destKind := 1, dest := byteFld v 2 2, cls := byteFld v 1 1 % 8 } }]
  else if byteFld v 0 1 = 2 then [{ copyOf fid f .capture with session := f.ra.mirror }]
  else []

/-- The copies of a frame: punt, mirror, sample. -/
def copiesOf (s : State) (fid : Nat) (f : Frame) (punt : Bool) : List Frame :=
  let p := copyOf fid f .punt
  (if punt then [{ p with ra := { p.ra with destKind := 1, dest := 512 } }] else []) ++ mirrorCopy s fid f ++
    (if f.ra.sample = 1 then [copyOf fid f .sample] else [])

/-- REFS is raised for the copies (R395), and each follows behind the frame's descriptor. -/
def sendCopies (l : List Frame) (s : State) : State :=
  forEach l (fun t c => let (g, t) := newFrame c t; pushStage1 g t) s

/-- The head's slot is retired: the frame has reached the Fabric, RECIRC excepted, or HOST (Table 16-4). -/
def retireSlot (fid : Nat) (f : Frame) (s : State) : State := slotCategory f.pipe 0 (occOf fid f) s

/-- The frame goes where its resolved action says, copies behind it. -/
def sendResolved (fid : Nat) (f : Frame) (s : State) : State :=
  let kind := mainKind f
  let (mainOk, s) := if kind = 1 && f.ra.dest = 512 then takePunt f.pipe s else (true, s)
  let (puntOk, s) := if f.ra.puntCopy = 1 then takePunt f.pipe s else (false, s)
  let copies := copiesOf s fid f puntOk
  let s := raiseRefs (f.handle.getD 0) copies.length s
  if kind = 3 then sendCopies copies (putFrame fid { f with phase := .recirc } s)
  else if kind = 0 then
    let s := sendCopies copies s
    if puntOk then leave fid (retireSlot fid f s) else discardFrame fid s
  else if mainOk then sendCopies copies (pushStage1 fid (retireSlot fid f (putFrame fid f s)))
  else discardFrame fid (sendCopies copies s)

/-- The resolved action of a frame that has resolved. -/
def resolveAs (fid : Nat) (f : Frame) (s : State) : State :=
  if mainKind f = 0 && f.ra.puntCopy = 0 then discardFrame fid (count (cPipe f.pipe 0x58) s)
  else if mainKind f = 3 && rdCfg s f.epoch oRecircLimit ≤ f.ra.recircCount then
    discardFrame fid (count (cPipe f.pipe 0x10) s)
  else sendResolved fid f s

/-- The frame as its 256-bit resolved action carries it to the Fabric (R191). -/
def carried (f : Frame) : Frame := { f with ra := raOf (raWord f.ra) }

/-- The resolved action is final (R191); an exhaustion or refusal action replaces the routine's destination (R300, R671). -/
def resolve (fid : Nat) (f : Frame) (s : State) : State :=
  let f := carried f
  match f.forced with
  | some (1, reason) => resolveAs fid { f with ra := { f.ra with destKind := 1, dest := 512, reason := reason } } s
  | some _ => discardFrame fid s
  | none => resolveAs fid f s

/-- INGRESS_RESOLUTION (R191). -/
def execIngressResolution (fid : Nat) (s : State) : Host.Outcome State Fault Refusal :=
  .next (match frame s fid with
    | some f => if resolveReady s fid f then resolve fid f s else s
    | none => s)

/-! ### Recirculation (R185, R188) -/

/-- FCS of a frame, as it is carried. -/
def fcsBytes (b : Bytes) : Bytes := leBytes 4 (fcs32 b)

/-- The instructions of an egress routine in pipeline `n`, `k` of them at most: the fault it meets, with its reason of
Table 5-7, and the state once the words are read (R177, R182, R183). -/
def runEgress (n epoch : Nat) : Nat → List (Nat × Ecc) → State → Option Nat × State
  | _, [], s => (none, s)
  | 0, _ :: _, s => (some 6, s)
  | k + 1, r :: rest, s =>
    let t := readStore n epoch 3 (r.1 % 2048) r.2 s
    if storeFault t n epoch 3 (r.1 % 2048) then (some 7, t) else runEgress n epoch k rest t

/-- An egress routine runs: a 25th instruction is a step-limit fault. -/
def egressReads (n epoch : Nat) (e : EgressRun) (s : State) : Option Nat × State := runEgress n epoch 24 e.words s

/-- A fault of an egress routine of pipeline `n` (R181). -/
def egressFault (n reason : Nat) (s : State) : State := when (reason = 6) (count (cPipe n 0x38)) (count (cPipe n 0x30) s)

/-- The egress routine of a frame for RECIRC has run without a fault. -/
def recircFrame (fid : Nat) (f : Frame) (e : EgressRun) (s : State) : State :=
  let p := pipe s f.pipe
  match e.frame with
  | some b =>
    if 1024 ≤ p.recirc.length then discardFrame fid (count (cPipe f.pipe 0x18) s)
    else
      let out := b ++ fcsBytes b
      let s := count (cPort 513 0x40) (ctrAdd (cPort 513 0x48) out.length s)
      setPipe f.pipe { p with recirc := p.recirc ++ [fid] } (putFrame fid { f with bytes := out } s)
  | none => discardFrame fid s

/-- The egress routine of a frame for RECIRC. -/
def recircRun (fid : Nat) (f : Frame) (e : EgressRun) (s : State) : State :=
  let r := egressReads f.pipe f.epoch e s
  match r.1 with
  | some reason => discardFrame fid (egressFault f.pipe reason r.2)
  | none => recircFrame fid f e r.2

/-- RECIRC_ENQUEUE (R185, R188). -/
def execRecircEnqueue (fid : Nat) (e : EgressRun) (s : State) : Host.Outcome State Fault Refusal :=
  .next (match frame s fid with
    | some f => if f.phase = .recirc && !(pipe s f.pipe).recirc.contains fid then recircRun fid f e s else s
    | none => s)

/-! ### Stage one (R389 to R391) -/

/-- A multicast descriptor. -/
def isMulticast (f : Frame) : Bool := (destOf f).1 = 2

/-- Egress pipeline of a unicast descriptor (Table 1-1, R677). -/
def egressOf (f : Frame) : Nat := if (destOf f).2 < 512 then pipeOf (destOf f).2 else f.pipe

/-- FIFO of a middle buffer, an egress pipeline and a rank. -/
def fifoKey (m j c : Nat) : Nat := (m * 16 + j) * 2 + c

/-- The FIFO a descriptor enters in middle buffer `m` has room. -/
def fifoRoom (s : State) (m c : Nat) (f : Frame) : Bool :=
  if isMulticast f then (tabGet [] s.fab.mc (m * 2 + c)).length < (if c = 1 then 16 else 64)
  else (tabGet [] s.fab.fifo (fifoKey m (egressOf f) c)).length < (if c = 1 then 32 else 96)

/-- Descriptors a middle buffer holds. -/
def middleHeld (s : State) (m : Nat) : Nat :=
  s.fab.fifo.foldl (fun a e => if e.1 / 32 = m then a + e.2.length else a) 0 +
    s.fab.mc.foldl (fun a e => if e.1 / 2 = m then a + e.2.length else a) 0

/-- Head of a stage-one queue. -/
def s1Head (s : State) (n m c : Nat) : Option Nat := (tabGet [] s.fab.stage1 (s1Key n m c)).head?

/-- The head of a stage-one queue moves into middle buffer `m`. -/
def moveHead (n m c fid : Nat) (f : Frame) (s : State) : State :=
  let k := s1Key n m c
  let s := setFab { s.fab with stage1 := tabPut [] s.fab.stage1 k ((tabGet [] s.fab.stage1 k).drop 1) } s
  let mc := isMulticast f
  let s := putFrame fid { f with phase := if mc then .mcFifo else .middle, midSeq := s.fab.nextSeq,
                                 outPort := if mc then f.outPort else (destOf f).2 } s
  let s := setFab { s.fab with nextSeq := s.fab.nextSeq + 1 } s
  let kf := fifoKey m (egressOf f) c
  let s := if mc then setFab { s.fab with mc := tabPut [] s.fab.mc (m * 2 + c) (tabGet [] s.fab.mc (m * 2 + c) ++ [fid]) } s
    else setFab { s.fab with fifo := tabPut [] s.fab.fifo kf (tabGet [] s.fab.fifo kf ++ [fid]) } s
  let s := setFab { s.fab with peak := tabPut 0 s.fab.peak m (max (tabGet 0 s.fab.peak m) (middleHeld s m)) } s
  count (cMiddle m 0x00) (when (c = 1) (count (cMiddle m 0x10)) s)

/-- What one cycle of the matching has done: descriptors accepted by the middle buffers, sent by the pipelines. -/
structure Matching where
  accepted : List Nat := List.replicate 32 0
  sent : List Nat := List.replicate 16 0

/-- One try of R389: the head of pipeline `i`'s rank queue for `m` moves where both have room. -/
def matchOne (m c i : Nat) (x : Matching × State) : Matching × State :=
  if nth 0 x.1.accepted m < 2 && nth 0 x.1.sent i < 2 then
    match s1Head x.2 i m c with
    | none => x
    | some fid =>
      match frame x.2 fid with
      | none => x
      | some f =>
        if fifoRoom x.2 m c f then
          (⟨setNth x.1.accepted m (nth 0 x.1.accepted m + 1), setNth x.1.sent i (nth 0 x.1.sent i + 1)⟩,
            moveHead i m c fid f x.2)
        else x
  else x

/-- The middle buffers, ranks and pipelines in the order of R389 for cycle `t`. -/
def matchOrder (t : Nat) : List (Nat × Nat × Nat) :=
  (List.range 32).flatMap (fun k =>
    let m := (t + k) % 32
    [1, 0].flatMap (fun c => (List.range 16).map (fun j => (m, c, (m + t + j) % 16))))

/-- One cycle of stage one. -/
def stageOne (s : State) : State :=
  if s.fab.stage1 = [] then s
  else ((matchOrder s.clk.cclk).foldl (fun x e => matchOne e.1 e.2.1 e.2.2 (matchOne e.1 e.2.1 e.2.2 x)) ({}, s)).2

/-- FABRIC_STAGE_ONE (R389): while the Fabric is in service. -/
def execFabricStageOne (s : State) : Host.Outcome State Fault Refusal :=
  .next (if inService s 36 then stageOne s else s)

/-- A stage-one head is discarded for want of room (R390, R391). -/
def fabricDrop (m c fid : Nat) (f : Frame) (s : State) : State :=
  leave fid
    (if isMulticast f then count (cMiddle m 0x18) s else count (cEgress (egressOf f) (if c = 1 then 0x10 else 0x08)) s)

/-- FABRIC_DISCARD (R390, R391): the head has had no room for 64 CCLK. -/
def execFabricDiscard (n m : Nat) (class7 : Bool) (s : State) : Host.Outcome State Fault Refusal :=
  onUnits (isPipe n && isMiddle m)
    (match s1Head s n m (b2n class7) with
     | some fid =>
       match frame s fid with
       | some f => if fifoRoom s m (b2n class7) f then s else fabricDrop m (b2n class7) fid f s
       | none => s
     | none => s)

/-! ### Multicast FIFOs (R391, R421) -/

/-- Head of a multicast FIFO. -/
def mcHead (s : State) (m c : Nat) : Option Nat := (tabGet [] s.fab.mc (m * 2 + c)).head?

/-- Word of pipeline `n` in a group's row. -/
def mcWord (row n : Nat) : Nat := fld row (32 * n) 32

/-- Row of a group; a number above 16,383 has none. -/
def mcRowOf (s : State) (g : Nat) : Nat := if g < 16384 then rd s oMcGroups g else 0

/-- The descriptor reaches the head of its FIFO: its group is read, its frame policer judges, REFS is raised. -/
def mcReach (fid : Nat) (f : Frame) (s : State) : State :=
  let row := mcRowOf s f.ra.dest
  if row = 0 then leave fid (count (cTm 0x00) s)
  else
    let (passes, s) := framePolice fid s
    if !passes then s
    else
      let mask := (List.range 16).filter (fun n => mcWord row n ≠ 0)
      let s := raiseRefs (f.handle.getD 0) (mask.length - 1) s
      modFrame fid (fun g => { g with phase := .middle, todo := mask, mcRow := row }) s

/-- MC_FIFO_HEAD (R391, R421). -/
def execMcFifoHead (m : Nat) (class7 : Bool) (s : State) : Host.Outcome State Fault Refusal :=
  onUnits (isMiddle m)
    (match mcHead s m (b2n class7) with
     | some fid =>
       match frame s fid with
       | some f => if f.phase = .mcFifo then mcReach fid f s else s
       | none => s
     | none => s)

/-- The descriptor leaves its FIFO in middle buffer `m`: every pipeline of its mask has taken it or been struck. -/
def mcLeave (m fid : Nat) (s : State) : State := count (cMiddle m 0x08) (dropFrame fid (unlink fid s))

/-- A pipeline no longer waits for a head. -/
def mcTaken (m fid j : Nat) (f : Frame) (s : State) : State :=
  let rest := f.todo.filter (· != j)
  if rest = [] then mcLeave m fid s else putFrame fid { f with todo := rest } s

/-- MC_PIPELINE_STRUCK (R391): the pipeline has not taken the head for 64 CCLK. -/
def execMcPipelineStruck (m : Nat) (class7 : Bool) (j : Nat) (s : State) : Host.Outcome State Fault Refusal :=
  onUnits (isMiddle m && isPipe j)
    (match mcHead s m (b2n class7) with
     | some fid =>
       match frame s fid with
       | some f =>
         if f.phase = .middle && f.todo.contains j then 
           mcTaken m fid j f (releaseFrameAt j f (count (cMiddle m 0x18) s))
         else s
       | none => s
     | none => s)

/-! ### Stage two (R392) -/

/-- Sends of a middle buffer in this cycle. -/
def sendsNow (s : State) (m : Nat) : Nat := if s.fab.sendCycle = s.clk.cclk + 1 then tabGet 0 s.fab.sends m else 0

/-- Multicast heads already counted among the sends of this cycle. -/
def mcSentNow (s : State) : List Nat := if s.fab.sendCycle = s.clk.cclk + 1 then s.fab.mcSent else []

/-- A middle buffer sends. -/
def addSend (m : Nat) (mc : Option Nat) (s : State) : State :=
  let base := if s.fab.sendCycle = s.clk.cclk + 1 then s.fab.sends else []
  setFab { s.fab with sendCycle := s.clk.cclk + 1, sends := tabPut 0 base m (sendsNow s m + 1),
                      mcSent := mcSentNow s ++ mc.toList } s

/-- The replicator of a pipeline waits for a pool 7 buffer and takes no further multicast descriptor (R422). -/
def replBlocked (s : State) (j : Nat) : Bool :=
  tabGet [] s.fab.repl j ≠ [] && s.buf.asking.any (fun a => a.owner = 4128 && a.pool = 7)

/-- Head of a unicast FIFO that its middle buffer may send in this cycle. -/
def uniCandidate (s : State) (m j c : Nat) : Option Nat :=
  if sendsNow s m < 2 then (tabGet [] s.fab.fifo (fifoKey m j c)).head? else none

/-- Multicast head that pipeline `j` may take in this cycle. -/
def mcCandidate (s : State) (m j c : Nat) : Option Nat :=
  match mcHead s m c with
  | some fid =>
    match frame s fid with
    | some f =>
      if f.phase = .middle && f.todo.contains j && !replBlocked s j && ((mcSentNow s).contains fid || sendsNow s m < 2)
      then some fid else none
    | none => none
  | none => none

/-- The older of the two, and whether it is multicast (R391). -/
def olderOf (s : State) (m j c : Nat) : Option (Nat × Bool) :=
  match uniCandidate s m j c, mcCandidate s m j c with
  | none, none => none
  | some u, none => some (u, false)
  | none, some h => some (h, true)
  | some u, some h =>
    if ((frame s u).map (·.midSeq)).getD 0 < ((frame s h).map (·.midSeq)).getD 0 then some (u, false) else some (h, true)

/-- The descriptor pipeline `j` takes next: class 7 first, middle buffers cyclically from 2j + t: buffer, rank, descriptor,
multicast. -/
def pickMiddle (s : State) (j : Nat) : Option (Nat × Nat × Nat × Bool) :=
  let order := (List.range 32).map (fun k => (2 * j + s.clk.cclk + k) % 32)
  let look (c : Nat) := order.findSome? (fun m => (olderOf s m j c).map (fun x => (m, c, x.1, x.2)))
  match look 1 with
  | some x => some x
  | none => look 0

/-- A unicast descriptor delivered to pipeline `j`: to the owning block of an internal port (R403), or past its frame policer
(R405) to its queue. -/
def deliverUnicast (j fid : Nat) (s : State) : State :=
  match frame s fid with
  | none => s
  | some f =>
    let f := { f with tFabric := s.clk.cclk }
    let s := putFrame fid f s
    if 512 ≤ (destOf f).2 then
      let s := putFrame fid { f with phase := .internal } s
      count (cEgress j 0x00) (setFab { s.fab with internal := tabPut [] s.fab.internal j (tabGet [] s.fab.internal j ++ [fid]) } s)
    else
      let (passes, s) := framePolice fid s
      if passes then admitQueue fid (destOf f).2 (count (cEgress j 0x00) s) else s

/-- Ports of pipeline `j` that a descriptor's copies go to (R396, R422). -/
def mcPorts (f : Frame) (j : Nat) : List Nat :=
  ((List.range 32).filter (fun k => (mcWord f.mcRow j).testBit k)).map (32 * j + ·) |>.filter
    (fun p => p ≠ f.port || f.ra.hairpin = 1)

/-- A multicast head delivered to pipeline `j`: a descriptor of the pipeline's own waits for replication. -/
def deliverMulticast (m j fid : Nat) (s : State) : State :=
  match frame s fid with
  | none => s
  | some f =>
    let g := { f with kind := .multicast, root := some (f.root.getD fid), phase := .replicating, todo := mcPorts f j,
                      outPort := 32 * j, tFabric := s.clk.cclk }
    let (k, s) := newFrame g s
    let s := setFab { s.fab with repl := tabPut [] s.fab.repl j (tabGet [] s.fab.repl j ++ [k]) } s
    mcTaken m fid j f (count (cEgress j 0x00) (count (cEgress j 0x18) s))

/-- Pipeline `j` takes one descriptor, where there is one. -/
def acceptOne (j : Nat) (s : State) : State :=
  match pickMiddle s j with
  | none => s
  | some (m, _, fid, true) =>
    deliverMulticast m j fid (if (mcSentNow s).contains fid then s else addSend m (some fid) s)
  | some (m, c, fid, false) =>
    let s := addSend m none s
    let k := fifoKey m j c
    let s := setFab { s.fab with fifo := tabPut [] s.fab.fifo k ((tabGet [] s.fab.fifo k).drop 1) } s
    deliverUnicast j fid (count (cMiddle m 0x08) s)

/-- FABRIC_STAGE_TWO (R392): at most two descriptors, and none while the Traffic Manager is halted (Table 2-2). -/
def execFabricStageTwo (j : Nat) (s : State) : Host.Outcome State Fault Refusal :=
  onUnits (isPipe j) (if inService s 37 then acceptOne j (acceptOne j s) else s)

/-! ### Replication (R395, R396, R422) -/

/-- One copy for port `p`. -/
def replicateTo (f : Frame) (s : State) (p : Nat) : State :=
  let (g, s) := newFrame { f with todo := [], outPort := p } s
  admitQueue g p s

/-- The oldest descriptor of a replicator is replicated through a record of pool 7. -/
def replicate (j fid : Nat) (f : Frame) (record : Nat) (s : State) : State :=
  let s := raiseRefs (f.handle.getD 0) (f.todo.length - 1) s
  let s := when (f.todo = []) (releaseFrame f) s
  let s := setFab { s.fab with repl := tabPut [] s.fab.repl j ((tabGet [] s.fab.repl j).drop 1) } s
  let s := forEach f.todo (replicateTo f) (dropFrame fid s)
  releaseBuffer record 4128 s

/-- MC_REPLICATION (R422): a replicator without a pool 7 buffer waits. -/
def execMcReplication (j : Nat) (s : State) : Host.Outcome State Fault Refusal :=
  onUnits (isPipe j)
    (match tabGet [] s.fab.repl j with
     | [] => s
     | fid :: _ =>
       match frame s fid with
       | none => s
       | some f =>
         match grantInternal 4128 7 s with
         | (some h, t) => replicate j fid f h t
         | (none, t) => t)

end Sys2Proof.Machine
end

