-- ==== Sys2Proof/Machine/Transmit.lean ====
section
/-! DEFINITION. Transmit order, the MAC's transmission and the contribution of a frame to the output digest (chapters 4, 11, 14
and 15). -/

namespace Sys2Proof.Machine
open Sys2Proof

/-! ### Transmit order (R414 to R417, R420) -/

/-- The head of a queue. -/
def queueHead (s : State) (q : Nat) : Option (Nat × Frame) :=
  match tmQueue s q with
  | [] => none
  | fid :: _ => (frame s fid).map (fun f => (fid, f))

/-- A queue of a port with a head that may start now. -/
def mayStart (s : State) (q : Nat) : Bool :=
  match queueHead s q with
  | some (_, f) => gateOpens s q f
  | none => false

/-- Cost of a queue's head in deficit round robin: L + 20. -/
def headCost (s : State) (q : Nat) : Nat := ((queueHead s q).map (fun x => frameLen x.2 + 20)).getD 0

/-- Quantum of a queue. -/
def quantum (s : State) (q : Nat) : Nat := 64 * byteFld (queueRow s q) 8 2

/-- Deficit of a queue. -/
def deficitOf (s : State) (q : Nat) : Nat := tabGet 0 s.tm.deficit q

/-- Visits after which a queue's deficit covers its head. -/
def visitsFor (s : State) (q : Nat) : Nat :=
  max 1 (ceilDiv (headCost s q - deficitOf s q) (max 1 (quantum s q)))

/-- The queues of a port in the cyclic order after the one last served. -/
def queueOrder (s : State) (p : Nat) : List Nat :=
  let last := tabGet 9 s.tm.lastQueue p
  (List.range 10).map (fun k => queueOf p ((last + 1 + k) % 10))

/-- Deficit round robin among candidates in cyclic order: the queue last served goes on while its deficit lasts; otherwise the
queue that the fewest visits reach, the first of these in the order. -/
def drrWinner (s : State) (p : Nat) (cands : List Nat) : Option Nat :=
  let cur := queueOf p (tabGet 9 s.tm.lastQueue p)
  if cands.contains cur && headCost s cur ≤ deficitOf s cur then some cur
  else
    cands.foldl (fun best q =>
      match best with
      | none => some q
      | some b => if visitsFor s q < visitsFor s b then some q else some b) none

/-- Set a deficit. -/
def setDeficit (q d : Nat) (s : State) : State := setTm { s.tm with deficit := tabPut 0 s.tm.deficit q d } s

/-- Every visit adds a quantum to the queue visited; the winner pays for its head. -/
def drrPay (p w : Nat) (cands : List Nat) (s : State) : State :=
  let cur := queueOf p (tabGet 9 s.tm.lastQueue p)
  let cost := headCost s w
  if w = cur && cost ≤ deficitOf s w then setDeficit w (deficitOf s w - cost) s
  else
    let v := visitsFor s w
    let upto := cands.takeWhile (· != w)
    let t := forEach cands (fun t q =>
      let k := if upto.contains q || q = w then v else v - 1
      setDeficit q (deficitOf t q + k * quantum t q) t) s
    setDeficit w (deficitOf t w - cost) t

/-- Unicast queue of a port that QUEUE_MAP of an epoch names for class 7. -/
def class7Queue (s : State) (epoch p : Nat) : Nat := 8 * p + (mapQueue (rdCfg s epoch (oQueueMap p)) 7).1

/-- The head of a queue is in the class 7 queue of its own epoch (R28, R415). -/
def class7Head (s : State) (p q : Nat) : Bool :=
  match queueHead s q with
  | some (_, f) => q = class7Queue s f.epoch p
  | none => false

/-- The class 7 queue whose head goes first: while two epochs name two queues, the old epoch's (log entry 38). -/
def class7First (s : State) (p : Nat) : Option Nat :=
  let l := ((List.range 8).map (8 * p + ·)).filter (fun q => class7Head s p q && mayStart s q)
  match l.find? (fun q => ((queueHead s q).map (·.2.epoch)) = some (oldEpoch s)) with
  | some q => some q
  | none => l.head?

/-- Candidates of the highest PRIO among `l`. -/
def topPrio (s : State) (l : List Nat) : List Nat :=
  let prio (q : Nat) := byteFld (queueRow s q) 0xA 1
  let best := l.foldl (fun a q => max a (prio q)) 0
  l.filter (fun q => prio q = best)

/-- What a port would send next: the queue, its candidates in round robin, and the port's rank of R416. -/
def portPick (s : State) (p : Nat) : Option (Nat × List Nat × Nat) :=
  match class7First s p with
  | some q => some (q, [], 0)
  | none =>
    let rank := if committed s (5120 + p) then 1 else if peakEligible s (5120 + p) then 2 else 3
    if rank = 3 then none
    else
      let open_ := (queueOrder s p).filter (fun q => !class7Head s p q && mayStart s q)
      let com := open_.filter (committed s)
      let cands := topPrio s (if com ≠ [] then com else open_.filter (peakEligible s))
      (drrWinner s p cands).map (fun q => (q, cands, rank))

/-- Ports of an egress pipeline, cyclically after the one last served. -/
def portOrder (s : State) (j : Nat) : List Nat :=
  let last := tabGet 31 s.tm.lastPort j
  (List.range 32).map (fun k => 32 * j + (last + 1 + k) % 32)

/-- The port selected next, with what it sends: rank by rank, round robin within a rank. -/
def selectPort (s : State) (j : Nat) : Option (Nat × Nat × List Nat × Nat) :=
  let ready := (portOrder s j).filterMap (fun p =>
    if (tabFind s.tm.selected p).isSome then none else (portPick s p).map (fun x => (p, x)))
  let at_ (r : Nat) := ready.find? (fun e => e.2.2.2 = r)
  match at_ 0 with
  | some e => some e
  | none => match at_ 1 with
    | some e => some e
    | none => at_ 2

/-- A selection: the head leaves its queue, the round robins move on, both shapers are debited (R414, R417). -/
def takeSelection (j p q : Nat) (cands : List Nat) (rank : Nat) (s : State) : State :=
  match queueHead s q with
  | none => s
  | some (fid, f) =>
    let s := if rank = 0 then s else drrPay p q cands s
    let s := setQueue q ((tmQueue s q).drop 1) s
    let s := when (tmQueue s q = []) (setDeficit q 0) s
    let s := putFrame fid { f with tSelected := s.clk.cclk } s
    let s := setTm { s.tm with selected := tabInsert s.tm.selected p fid, waited := s.tm.waited.filter (· != fid),
                               lastPort := tabPut 31 s.tm.lastPort j (p % 32),
                               lastQueue := if rank = 0 then s.tm.lastQueue else tabPut 9 s.tm.lastQueue p (queueBit q) } s
    debitShaper (5120 + p) (frameLen f + 20) (debitShaper q (frameLen f + 20) s)

/-- One selection of an egress pipeline's Traffic Manager. -/
def selectOne (j : Nat) (s : State) : State :=
  match selectPort s j with
  | some (p, q, cands, rank) => takeSelection j p q cands rank s
  | none => s

/-- Frames queued for a port that does not carry are discarded as each reaches the head (R153). -/
def discardDead (p : Nat) (s : State) : State :=
  if linkCarries s p then s
  else
    forEach (List.range 10) (fun t b =>
      forEach (tmQueue t (queueOf p b)) (fun t fid => discardCopy fid 0 (count (cPort p 0x50) t)) t) s

/-- TRANSMIT_SELECTION (R416): heads are judged under their gates, then at most two selections are handed on. -/
def execTransmitSelection (j : Nat) (s : State) : Host.Outcome State Fault Refusal :=
  onUnits (isPipe j)
    (let ports := (List.range 32).map (32 * j + ·)
     let s := forEach ports (fun t p => discardDead p t) s
     let s := forEach ports (fun t p =>
       if (tabFind t.tm.selected p).isSome then t else forEach (List.range 10) (fun t b => gateJudge (queueOf p b) t) t) s
     selectOne j (selectOne j s))

/-! ### Transmission (R140, R143, R153, R181, R387, R423) -/

/-- The frame without FCS as the egress routine and R423 leave it. -/
def cutCopy (s : State) (f : Frame) (b : Bytes) : Bytes :=
  if f.kind = .mirror then b.take (byteFld (rdCfg s f.epoch oMirrorSessions f.session) 4 2 - 4) else b

/-- The MAC starts: the frame goes out, with its FCS; a body error ends it with an error code group at once. -/
def startFrame (p fid : Nat) (f : Frame) (b : Bytes) (ecc : Ecc) (s : State) : State :=
  let bp := hPool (f.handle.getD 0)
  let s := setPort p { port s p with lpi := false } s
  let s := when (ecc = .corrected) (fun t => raise evPktEcc bp (count (cBuf bp 0x50) t)) s
  let (b, s) := ptpEgress f p (cutCopy s f b) s
  let out := b ++ fcsBytes b
  if ecc = .uncorrectable then
    let s := raise evPktEcc bp (count (cBuf bp 0x58) s)
    discardCopy fid 5 (emit (.laneAbort p) (transmit p b s))
  else
    let s := putFrame fid { f with phase := .sending, txStamp := nowStamp s, txCclk := s.clk.cclk, txBytes := out } s
    let s := count (cQueue f.queue 0x00) (ctrAdd (cQueue f.queue 0x08) out.length s)
    transmit p out (setPort p { port s p with sending := some fid } s)

/-- TRANSMISSION_START (R140): the port takes its selection. -/
def startSelected (p fid : Nat) (f : Frame) (e : EgressRun) (ecc : Ecc) (s : State) : State :=
  let s := setTm { s.tm with selected := tabErase s.tm.selected p } s
  if !linkCarries s p then discardCopy fid 0 (count (cPort p 0x50) s)
  else
    let r := egressReads (pipeOf p) f.epoch e s
    match r.1, e.frame with
    | some reason, _ => discardCopy fid 4 (egressFault (pipeOf p) reason r.2)
    | none, some b => startFrame p fid f b ecc r.2
    | none, none => discardCopy fid 6 r.2

/-- TRANSMISSION_START (R140). -/
def execTransmissionStart (p : Nat) (e : EgressRun) (ecc : Ecc) (s : State) : Host.Outcome State Fault Refusal :=
  onUnits (isPort p)
    (if (port s p).sending.isSome then s
     else
       match tabFind s.tm.selected p with
       | some fid =>
         match frame s fid with
         | some f => startSelected p fid f e ecc s
         | none => s
       | none => s)

/-! ### Output digests (R551 to R553) -/

/-- Length of a digest window in nanoseconds. -/
def windowNs : Nat := 10240

/-- A stamp in nanoseconds. -/
def stampWholeNs (t : Stamp) : Nat := t.sec * 1000000000 + t.ns

/-- Window of an ingress PCS stamp. -/
def digestWindow (t : Stamp) : Nat := stampWholeNs t / windowNs

/-- The stamp lies more than 64 ns from a window boundary. -/
def insideWindow (t : Stamp) : Bool :=
  let x := stamp16 t % (windowNs * 65536)
  64 * 65536 < x && x + 64 * 65536 < windowNs * 65536

/-- PTP time in nanoseconds at which a window closes. -/
def windowCloses (s : State) (w : Nat) : Nat := (w + 1) * windowNs + rd s oDigestSettle * 1000

/-- The record of a frame has settled: FIRST_SEEN lies at least MIRROR_SETTLE before its ingress stamp. -/
def recordSettled (s : State) (f : Frame) : Bool :=
  if f.ra.flowValid = 0 then true
  else
    let v := byteFld (coldAt s f.ra.flowRecord) 0x40 8
    v / 2 ^ 32 * 1000000000 + v % 2 ^ 32 + rd s oMirrorSettle * 1000 ≤ f.stamp.sec % 2 ^ 32 * 1000000000 + f.stamp.ns

/-- R551: the frame contributes, as its transmission ends. -/
def contributes (s : State) (f : Frame) : Bool :=
  (role s = 3 || role s = 4) && f.ra.digest = 1 && f.kind ≠ .mirror && insideWindow f.stamp &&
    (f.ledStatus = some 0 || tmLedger f.tmplWord = 0) && recordSettled s f &&
    ptpNow s / 2 ^ 32 < windowCloses s (digestWindow f.stamp)

/-- The frame as the digest takes it: without FCS, and under TS_ACTION 1 or 3 with correctionField, originTimestamp and the UDP
checksum as zero (R553). -/
def digestBytes (f : Frame) : Bytes :=
  let b := f.txBytes.take (f.txBytes.length - 4)
  let o := 2 * f.ra.tsOffset
  if (f.ra.tsAction = 1 || f.ra.tsAction = 3) && ptpInside b o then
    let b := overwrite (overwrite b (o + 8) (zeros 8)) (o + 34) (zeros 10)
    if etherType b = 0x0800 || etherType b = 0x86DD then overwrite b (o - 2) (zeros 2) else b
  else b

/-- The frame's value goes into its egress pipeline's sub-digest of its window. -/
def contribute (p : Nat) (f : Frame) (s : State) : State :=
  if !contributes s f then s
  else
    let w := digestWindow f.stamp
    let j := pipeOf p
    let v := crc64 (beBytes 2 p ++ digestBytes f)
    let d := tabGet ⟨List.replicate 16 0, List.replicate 16 0⟩ s.pair.windows w
    let d : DigestWin := ⟨setNth d.subs j (nth 0 d.subs j ^^^ v), setNth d.counts j (nth 0 d.counts j + 1)⟩
    count (cPair 0x50) (setPair { s.pair with windows := tabInsert s.pair.windows w d } s)

/-! ### The end of a transmission (R397, R511, R565) -/

/-- A transmission ends whole. -/
def endFrame (p fid : Nat) (f : Frame) (s : State) : State :=
  let s := setPort p { port s p with sending := none } s
  let s := count (cPort p 0x40) (ctrAdd (cPort p 0x48) f.txBytes.length s)
  let s := occur (pipeOf p) 0x50 1 ⟨f.ra.cls, p, f.template, some fid⟩ s
  let s := ctrAdd (cGlobal 0x108) ((f.txBytes.length + 20) * 8) s
  let b := f.txBytes.take (f.txBytes.length - 4)
  let s := when (f.ra.tsAction = 2 && ptpInside b (2 * f.ra.tsOffset)) (postStamp p f.ra.tsId f.txStamp) s
  leave fid (sampleLeave fid f f.txCclk false (contribute p f s))

/-- TRANSMISSION_END (R397); under near-end loopback the port's own receiver has the frame. -/
def execTransmissionEnd (p : Nat) (s : State) : Host.Outcome State Fault Refusal :=
  onUnits (isPort p)
    (match (port s p).sending with
     | some fid =>
       match frame s fid with
       | some f => loopNear p f.txBytes (endFrame p fid f s)
       | none => s
     | none => s)

end Sys2Proof.Machine
end

