-- ==== Sys2Proof/Machine/Internal.lean ====
section
/-! DEFINITION. Internal ports: punts to the host or a MGMT port, frames for the partner, and the capture unit (chapters 3, 5, 11,
13 and 15). -/

namespace Sys2Proof.Machine
open Sys2Proof

/-! ### Punts (R116, R189, R481, R661) -/

/-- The fields of a punt header, in a byte order. -/
def puntHeader (num : Nat → Nat → Bytes) (s : State) (f : Frame) (cut : Bool) : Bytes :=
  num 2 f.ra.reason ++ num 2 f.port ++ num 2 f.epoch ++ num 1 f.ra.cls ++ num 1 (b2n cut) ++ num 2 (frameLen f) ++
    num 10 (time80 (frameTime s f))

/-- A frame without its FCS. -/
def withoutFcs (f : Frame) : Bytes := f.bytes.take (frameLen f - 4)

/-- A transport punt (R116): the frame is cut where the payload would exceed 8,160 bytes. -/
def puntPayload (s : State) (f : Frame) : Bytes :=
  let b := withoutFcs f
  puntHeader beBytes s f (8140 < b.length) ++ b.take 8140

/-- A punt that the host cannot take is dropped, and the loss raised at most once per second (R481). -/
def puntLost (counter : Nat) (s : State) : State := raiseOnce evPuntLoss 0 0 (count (cHost counter) s)

/-- A punted frame in the oldest posted buffer of PUNT_QUEUE, and its KIND 4 completion (R481). -/
def puntToHost (f : Frame) (s : State) : State :=
  let q := rd s oPuntQueue
  if !busAwake s then puntLost 0x68 s
  else
    match sq s q with
    | none => puntLost 0x60 s
    | some x =>
      match x.posted with
      | [] => puntLost 0x60 s
      | e :: rest =>
        let b := withoutFcs f
        let cut := e.len < b.length
        let s := unreserve x.cq e.units (setSq q { x with posted := rest } s)
        let s := hostWrite e.addr (b.take e.len) s
        let body := puntHeader leBytes s f cut ++ leBytes 2 (min e.len b.length)
        let entry := completionHeader 4 0 2 0 e.tag q 0 0 ++ body ++ zeros (48 - body.length)
        count (cHost 0x58) (postEntry x.cq entry true none s)

/-- A punt reaches its route (R189): the host's queue, or MGMT0 or MGMT1. A MGMT port that cannot send leaves it unsent, and
so does a disabled Observer level, which is counted in PUNT_LIMITED (R659). -/
def punt (f : Frame) (s : State) : State :=
  let route := rd s oPuntRoute
  if route = 0 then puntToHost f s
  else if levelDisabled s 0 then count (cPipe f.pipe 0x28) s
  else if mgmtSends s (route - 1) then sendObserver (route - 1) 3 (puntPayload s f) s
  else s

/-- The FRAME message that carries a frame to the partner (Table 15-4a). -/
def pairFrame (f : Frame) : Bytes :=
  let b := withoutFcs f
  beBytes 1 f.pipe ++ beBytes 1 f.ra.cls ++ beBytes 2 b.length ++ b

/-! ### Hand-over (R403) -/

/-- Frames and octets an internal port has been given (TX_FRAMES, TX_OCTETS). -/
def countInternal (p : Nat) (f : Frame) (s : State) : State :=
  count (cTm 0x28) (count (cPort p 0x40) (ctrAdd (cPort p 0x48) (frameLen f) s))

/-- The pool 6 requester whose buffer a descriptor for an internal port needs (Table 10-4): the Control Core for a transport punt,
the Pair Unit for a frame to the partner. -/
def handOverOwner (s : State) (p : Nat) : Option Nat :=
  if p = 512 && rd s oPuntRoute ≠ 0 then some 4131
  else if p = 514 && s.pair.partnerUp then some 4130
  else none

/-- The replay buffer has room for the frame (chapter 15). -/
def pairTakes (s : State) (p : Nat) (f : Frame) : Bool := p ≠ 514 || !s.pair.partnerUp || pairRoom s 7 (4 + frameLen f)

/-- A copy enters the capture unit's input, or is dropped (R424, R608). -/
def captureIn (fid : Nat) (s : State) : State :=
  if lowLedger s || 4096 ≤ s.cap.input.length then leave fid (count (cTm 0x10) s)
  else { s with cap := { s.cap with input := s.cap.input ++ [fid] } }

/-- The owning block takes a descriptor. -/
def handOver (fid : Nat) (f : Frame) (s : State) : State :=
  let p := (destOf f).2
  let s := countInternal p f s
  if p = 515 then captureIn fid s
  else if p = 514 then leave fid (if s.pair.partnerUp then sendPair 7 (pairFrame f) s else s)
  else leave fid (sampleLeave fid f 0 false (punt f s))

/-- INTERNAL_DELIVERY (R403): in the order of delivery. -/
def execInternalDelivery (n : Nat) (s : State) : Host.Outcome State Fault Refusal :=
  onUnits (isPipe n)
    (match tabGet [] s.fab.internal n with
     | [] => s
     | fid :: rest =>
       match frame s fid with
       | none => s
       | some f =>
         let p := (destOf f).2
         let go (t : State) : State := handOver fid f (setFab { t.fab with internal := tabPut [] t.fab.internal n rest } t)
         if !pairTakes s p f then s
         else
           match handOverOwner s p with
           | none => go s
           | some o =>
             match grantInternal o 6 s with
             | (none, t) => t
             | (some h, t) => releaseBuffer h o (go t))

/-! ### Capture (R423 to R426) -/

/-- Bytes a capture entry holds: at most 224, at most TRUNCATE of its session. -/
def capturedLen (s : State) (f : Frame) : Nat :=
  let n := min 224 (frameLen f)
  if f.kind = .capture then min n (byteFld (rdCfg s f.epoch oMirrorSessions f.session) 4 2) else n

/-- A capture entry (Table 11-6). -/
def captureEntry (s : State) (f : Frame) (seq : Nat) : Bytes :=
  let n := capturedLen s f
  leBytes 1 (if f.kind = .sample then 2 else 1) ++ leBytes 1 (if f.kind = .sample then 0 else f.session) ++ leBytes 2 f.port ++
    leBytes 2 f.ra.dest ++ leBytes 1 (f.ra.cls * 32 + f.ra.colour * 8 + (if f.ra.destKind = 2 then 4 else 0)) ++ leBytes 1 0 ++
    leBytes 2 f.epoch ++ leBytes 2 (frameLen f) ++ leBytes 1 n ++ leBytes 1 0 ++ leBytes 10 (time80 (frameTime s f)) ++
    leBytes 4 (f.ra.flowValid * 2 ^ 31 + f.ra.flowRecord % 2 ^ 26) ++ leBytes 4 seq ++ f.bytes.take n ++ zeros (224 - n)

/-- Entries of the ring. -/
def ringSize : Nat := 1048576

/-- Entries between the two indices. -/
def ringHeld (s : State) : Nat := unitsTo (rd s oCapReadIndex) (rd s oCapWriteIndex)

/-- R425: an entry goes into the ring, or is dropped. -/
def ringWrite (f : Frame) (s : State) : State :=
  let w := rd s oCapWriteIndex
  let full := ringHeld s = ringSize
  if full && rd s oCaptureMode = 0 then count (cTm 0x18) s
  else
    let s := when full (fun t => count (cTm 0x20) (wr oCapReadIndex ((rd t oCapReadIndex + 1) % 2 ^ 32) t)) s
    let s := { s with cap := { s.cap with ring := tabInsert s.cap.ring (w % ringSize) (captureEntry s f w) } }
    count (cTm 0x08) (wr oCapWriteIndex ((w + 1) % 2 ^ 32) s)

/-- One ring entry at 400 M/s, in 1/32 CCLK: 3.90625 CCLK (R39). -/
def captureGap : Nat := 125

/-- R39, R424: the ring may be written now. -/
def mayWriteRing (s : State) : Bool := s.cap.next ≤ 32 * s.clk.cclk

/-- An entry written counts toward the limit of R39. -/
def wroteRing (s : State) : State :=
  { s with cap := { s.cap with next := max s.cap.next (32 * s.clk.cclk) + captureGap } }

/-- The oldest copy at the input is composed in a pool 1 buffer of owner 4,132 and written; one beyond the limit of R39 is
dropped. -/
def compose (fid : Nat) (f : Frame) (s : State) : State :=
  if !mayWriteRing s then leave fid (count (cTm 0x10) s)
  else
    match grantInternal 4132 1 s with
    | (none, t) => t
    | (some h, t) => releaseBuffer h 4132 (leave fid (sampleLeave fid f 0 false (wroteRing (ringWrite f t))))

/-- CAPTURE_COMPOSE (R424). -/
def execCaptureCompose (s : State) : Host.Outcome State Fault Refusal :=
  .next (match s.cap.input with
    | [] => s
    | fid :: _ =>
      match frame s fid with
      | some f => compose fid f s
      | none => s)

/-- A write of CAP_READ_INDEX lies after the write index or more than a ring before it (chapter 11, Objects of area 50). -/
def capReadOk (s : State) (v : Nat) : Bool := unitsTo v (rd s oCapWriteIndex) ≤ ringSize

/-- The operation of a CAP_READ: its queue and TAG, QUIET, host address, count. The standby's has no queue of its own. -/
def capArgs (c : SqCmd) (n : Nat) : List Nat := [c.sq, c.tag, b2n c.quiet, c.addr % 2 ^ 32, c.addr / 2 ^ 32, n]

/-- The segments of the command's chain, 12 bytes each, as the operation carries them. -/
def linksBody (c : SqCmd) : Bytes :=
  match c.links with
  | .segs l => l.flatMap (fun x => leBytes 8 x.1 ++ leBytes 4 x.2)
  | _ => []

/-- The segments that an operation carries. -/
def bodyLinks (b : Bytes) : Links :=
  if b = [] then .flat else .segs ((List.range (b.length / 12)).map (fun i => (leAt b (12 * i) 8, leAt b (12 * i + 8) 4)))

/-- CAP_READ begins: a capture copy operation of list "host" (R426, Table 12-1). -/
def capReadDone (c : SqCmd) (n : Nat) (s : State) : Done :=
  if n = 0 || 4096 < n then failed 0x0B 0 s
  else ⟨(0, 0), 0, issue 9 18 (capArgs c n) (linksBody c) s, true⟩

/-- CAP_READ (R426): on a queue of level Operator or higher. -/
def execCapRead (c : SqCmd) (n : Nat) (s : State) : Host.Outcome State Fault Refusal :=
  onUnits c.wf (startCmd c 1 (commitCmd c 0x50 (leBytes 2 n) [] (capReadDone c n)) s)

/-- CAP_READ of the active on its partner: the index moves with it, and no completion is posted (R545). -/
def capPartner (c : SqCmd) (body : Bytes) (s : State) : Done := capReadDone c (leAt body 0 2) s

/-- The entries a copy takes: from CAP_READ_INDEX, up to the count or the end of the ring; none at low water (R608). -/
def copyCount (s : State) (n : Nat) : Nat := if lowLedger s then 0 else min n (ringHeld s)

/-- Bytes of `n` entries from an index. A slot never written reads as zeros. -/
def ringBytes (s : State) (r n : Nat) : Bytes :=
  (List.range n).flatMap (fun k => tabGet (zeros 256) s.cap.ring ((r + k) % ringSize))

/-- A capture copy runs. -/
def captureCopy (o : DwOp) (s : State) : State :=
  let a (i : Nat) := nth 0 o.args i
  let c : SqCmd := { sq := a 0, tag := a 1, fence := false, quiet := a 2 = 1, addr := a 3 + a 4 * 2 ^ 32, links := bodyLinks o.body }
  let r := rd s oCapReadIndex
  let n := copyCount s (a 5)
  if c.sq = partnerSq then wr oCapReadIndex ((r + n) % 2 ^ 32) s
  else if !linksHold c (256 * n) then complete c 0x82 0x60 0 s
  else complete c 0 0 n (wr oCapReadIndex ((r + n) % 2 ^ 32) (writeData c (ringBytes s r n) s))

/-- CAPTURE_COPY (Table 12-1, kind 9). -/
def execCaptureCopy (s : State) : Host.Outcome State Fault Refusal :=
  .next (match nextOp s 18 9 (fun _ => true) with
    | some o => captureCopy o (dispatched o s)
    | none => s)

end Sys2Proof.Machine
end

