-- ==== Sys2Proof/Machine/Host.lean ====
section
/-! DEFINITION. Host Interface (chapter 13): index blocks, doorbells, fetching, the queues' lifecycle, injection, receive buffers,
signals, sleep and the resets of the PCIe function. -/

namespace Sys2Proof.Machine
open Sys2Proof

/-- Set the Host Interface. -/
def setHst (h : Hst) (s : State) : State := { s with hst := h }

/-- The link leaves L1 for a read or write of the device (R489). -/
def wakeLink (s : State) : State := setHst { s.hst with link := 0, lastTlp := s.clk.cclk } s

/-! ### Index blocks (R455 to R457, R468, R469, R485) -/

/-- A queue stalls (R485). -/
def stallSq (q : Nat) (s : State) : State :=
  match sq s q with
  | some x => raise evWqStall q (count (cHost 0x38) (setSq q { x with state := 2 } s))
  | none => s

/-- A completion queue stalls. -/
def stallCq (q : Nat) (s : State) : State :=
  match cq s q with
  | some x => raise evWqStall (2 ^ 16 + q) (count (cHost 0x38) (setCq q { x with state := 2 } s))
  | none => s

/-- A read of an SQ's TAIL begins, or is asked for once more while one is in flight (R468). The function reads nothing while it
cannot master the bus (R451). -/
def readSq (q : Nat) (s : State) : State :=
  match sq s q with
  | some x =>
    if x.state ≠ 1 || !busAwake s then s
    else if x.reading then setSq q { x with again := true } s
    else count (cHost 0x08) (wakeLink (setSq q { x with reading := true } s))
  | none => s

/-- A read of a CQ's HEAD. -/
def readCq (q : Nat) (s : State) : State :=
  match cq s q with
  | some x =>
    if x.state ≠ 1 || !busAwake s then s
    else if x.reading then setCq q { x with again := true } s
    else count (cHost 0x08) (wakeLink (setCq q { x with reading := true } s))
  | none => s

/-- SQ_DOORBELL (R468). -/
def execSqDoorbell (q : Nat) (s : State) : Host.Outcome State Fault Refusal :=
  onUnits (isQueue q) (readSq q (count (cHost 0x00) s))

/-- SQ_POLL (R469). -/
def execSqPoll (q : Nat) (s : State) : Host.Outcome State Fault Refusal :=
  onUnits (isQueue q)
    (match sq s q with
     | some x => if x.poll = 0 then s else readSq q s
     | none => s)

/-- CQ_DOORBELL (R468, R471): HEAD is read, and new room shows. -/
def execCqDoorbell (q : Nat) (s : State) : Host.Outcome State Fault Refusal :=
  onUnits (isQueue q) (readCq q (count (cHost 0x00) s))

/-- What an index block read found for an SQ: TAIL, or a stall. -/
def sqIndex (q : Nat) (block : Dma) (s : State) : State :=
  match sq s q, block with
  | some x, .data b =>
    if x.state ≠ 1 then s
    else if indexValid x.head (leAt b 0 4) x.units then setSq q { x with tail := leAt b 0 4 } s
    else stallSq q s
  | some x, _ => if x.state = 1 then stallSq q s else s
  | none, _ => s

/-- What an index block read found for a CQ: HEAD, or a stall. -/
def cqIndex (q : Nat) (block : Dma) (s : State) : State :=
  match cq s q, block with
  | some x, .data b =>
    if x.state ≠ 1 then s
    else if indexValid (leAt b 0 4) x.tail x.units then setCq q { x with head := leAt b 0 4 } s
    else stallCq q s
  | some x, _ => if x.state = 1 then stallCq q s else s
  | none, _ => s

/-- The read in flight ends; one asked for meanwhile follows. -/
def sqReadEnds (q : Nat) (block : Dma) (s : State) : State :=
  match sq s q with
  | some x =>
    if !x.reading then s
    else
      let s := sqIndex q block (setSq q { x with reading := false, again := false } s)
      if x.again then readSq q s else s
  | none => s

/-- The read in flight of a CQ ends. -/
def cqReadEnds (q : Nat) (block : Dma) (s : State) : State :=
  match cq s q with
  | some x =>
    if !x.reading then s
    else
      let s := cqIndex q block (setCq q { x with reading := false, again := false } s)
      if x.again then readCq q s else s
  | none => s

/-- INDEX_READ_COMPLETE (R468, R485). -/
def execIndexReadComplete (q : Nat) (isCq : Bool) (block : Dma) (s : State) : Host.Outcome State Fault Refusal :=
  onUnits (isQueue q) (if isCq then cqReadEnds q block s else sqReadEnds q block s)

/-! ### Push windows (R473) -/

/-- Units `a` to `b` − 1 of a push window, `n` of them. -/
def windowUnits (w : Bytes) (a : Nat) : Nat → Bytes
  | 0 => []
  | n + 1 => (slice w (32 * (a % 128)) 32 ++ zeros 32).take 32 ++ windowUnits w (a + 1) n

/-- PUSH_WINDOW_DOORBELL (R473). -/
def execPushWindowDoorbell (q tail : Nat) (window : Bytes) (s : State) : Host.Outcome State Fault Refusal :=
  onUnits (isQueue q)
    (let s := count (cHost 0x00) s
     match sq s q with
     | none => s
     | some x =>
       let n := unitsTo x.head tail
       if x.state = 1 && x.push ≠ 0xFFFF && later 32 tail x.head && n ≤ 128 then
         ctrAdd (cHost 0x18) (n - x.pushed.length / 32)
           (setSq q { x with tail := tail % 2 ^ 32, pushed := windowUnits window x.head n } s)
       else readSq q s)

/-! ### Fetching (R470 to R472, R483) -/

/-- An SQ with work that may be served: running, its CQ running with room for the entry (R471, R485), and no earlier command
left where the entry has FENCE set (R472). -/
def sqReady (s : State) (q : Nat) : Bool :=
  match sq s q with
  | some x => x.state = 1 && x.head ≠ x.tail && !(x.fenced && commandsLeft s q) && (match cq s x.cq with
    | some y => roomFor y x.needs
    | none => false)
  | none => false

/-- The SQ served next: 0 first, then round-robin after the one last served. -/
def nextSq (s : State) : Option Nat :=
  let ready := (s.hst.sqs.map (·.1)).filter (sqReady s)
  if ready.contains 0 then some 0
  else
    match ready.find? (fun q => s.hst.lastSq < q) with
    | some q => some q
    | none => ready.head?

/-- HEAD moves past `n` units and is written to the index block (R457); pushed units go with it. -/
def passUnits (q n : Nat) (s : State) : State :=
  match sq s q with
  | some x =>
    let h := (x.head + n) % 2 ^ 32
    hostWrite (x.index + 8) (leBytes 4 h)
      (setSq q { x with head := h, pushed := x.pushed.drop (32 * n), needs := 1, fenced := false } s)
  | none => s

/-- An entry that fails by Table 13-8: passed over, and one completion. -/
def entryFails (q : Nat) (c : SqCmd) (status area skipped : Nat) (s : State) : State :=
  let s := ctrAdd (cSq q 0x10) skipped (passUnits q skipped s)
  finishDeletion q (endCommand { c with quiet := false } status area skipped 0 [] s)

/-- The header of an entry. -/
def entryCmd (q : Nat) (e : Bytes) : SqCmd :=
  let fl := leAt e 1 1
  { sq := q, tag := leAt e 4 4, fence := fl.testBit 2, quiet := fl.testBit 1, addr := leAt e 8 8 }

/-- An entry is long enough for its payload; an inline DICT message counts with it (Table 13-6). -/
def entryLong (e : Bytes) (payload : Nat) : Bool :=
  16 + payload ≤ e.length &&
    (leAt e 0 1 ≠ 0x11 || leAt e 8 8 ≠ 0 || (leAt e 0x10 2 ≤ 8160 && 0x20 + leAt e 0x10 2 ≤ e.length))

/-- A whole entry of `len` units: checked, then started as a command in progress (R471). -/
def startEntry (q len : Nat) (e : Bytes) (h : Nat) (s : State) : State :=
  let c := entryCmd q e
  let code := leAt e 0 1
  let fail (status area : Nat) := entryFails q c status area len (releaseBuffer h 4129 s)
  match payloadBytes code with
  | none => fail 1 0
  | some n =>
    if entryReservedSet e || !entryLong e n then fail 0x82 0x60
    else
      match sq s q with
      | none => s
      | some x =>
        let u := completionUnits code
        match cq s x.cq with
        | none => s
        | some y =>
          let s := setCq x.cq { y with reserved := y.reserved + u } s
          let cmd : CmdSt := ⟨q, c.tag, code, c.fence, c.quiet, some h, u⟩
          passUnits q len (setHst { s.hst with cmds := s.hst.cmds ++ [cmd] } s)

/-- The entry at HEAD waits, and the other queues are served meanwhile (R471, R472). -/
def entryWaits (q : Nat) (x : Sq) (units : Nat) (fenced : Bool) (s : State) : State :=
  setSq q { x with needs := units, fenced := fenced } (setHst { s.hst with lastSq := q } s)

/-- The first unit of an entry has been read. -/
def fetchEntry (q : Nat) (x : Sq) (unit : Bytes) (rest : Dma) (s : State) : State :=
  let unit := (unit ++ zeros 32).take 32
  let c := entryCmd q unit
  let len := leAt unit 2 1
  let avail := unitsTo x.head x.tail
  let units := completionUnits (leAt unit 0 1)
  if c.fence && commandsLeft s q then entryWaits q x units true s
  else if !((cq s x.cq).map (fun y => roomFor y units)).getD false then entryWaits q x units false s
  else
    match grantInternal 4129 4 s with
    | (none, t) => t
    | (some h, s) =>
      let s := count (cHost 0x10) (count (cSq q 0x00) (setHst { s.hst with lastSq := q } s))
      if len = 0 || 32 < len || avail < len || x.units < x.head % x.units + len then
        entryFails q c 0x82 0x60 avail (releaseBuffer h 4129 s)
      else if 32 * len ≤ x.pushed.length then startEntry q len (x.pushed.take (32 * len)) h s
      else
        match rest with
        | .data b => startEntry q len ((unit ++ b ++ zeros (32 * len)).take (32 * len)) h s
        | _ => if len = 1 then startEntry q len unit h s else entryFails q c 0x81 0x60 len (releaseBuffer h 4129 s)

/-- ENTRY_FETCH (R470, R483): the queue is served when its turn has come (R471), and none while the engine is full (R125) or the
function cannot master the bus (R451). -/
def execEntryFetch (q : Nat) (first rest : Dma) (s : State) : Host.Outcome State Fault Refusal :=
  onUnits (isQueue q)
    (if nextSq s ≠ some q || !busAwake s || 1024 ≤ s.hst.cmds.length || 256 ≤ s.eng.queue.length then s
     else
       match sq s q with
       | none => s
       | some x =>
         if 32 ≤ x.pushed.length then fetchEntry q x (x.pushed.take 32) rest s
         else
           match first with
           | .data b => fetchEntry q x b rest (wakeLink s)
           | _ => entryFails q ⟨q, 0, false, false, 0, .flat⟩ 0x81 0x60 (unitsTo x.head x.tail)
                    (wakeLink (setHst { s.hst with lastSq := q } s)))

/-! ### Admin commands (R461 to R467) -/

/-- An admin command runs on SQ 0 only (R461). -/
def adminCmd (c : SqCmd) (f : State → State) (s : State) : State :=
  match sq s c.sq with
  | none => s
  | some _ => if c.sq ≠ 0 then complete c 0x89 0x60 0 s else f s

/-- The push window is bound to another SQ. -/
def windowBound (s : State) (w : Nat) : Bool := w ≠ 0xFFFF && s.hst.sqs.any (fun e => e.2.push = w)

/-- SQs that poll. -/
def pollers (s : State) : Nat := (s.hst.sqs.filter (fun e => e.2.poll ≠ 0)).length

/-- R94, R462, R463, R469: what CREATE_SQ fails with, and the area of the code. -/
def createSqCode (s : State) (a : SqArgs) : Verdict :=
  if a.qid = 0 || (sq s a.qid).isSome then (0x83, 0x60)
  else if (cq s a.cqid).isNone then (0x84, 0x60)
  else if !ringOk a.ring a.ringSize || !indexOk a.indexAddr then (0x86, 0x60)
  else if windowBound s a.push then (0x87, 0x60)
  else if 4095 < a.qid || 3 < a.level || 1 < a.kind || (511 < a.push && a.push ≠ 0xFFFF) || 10000 < a.poll then (0x0B, 0)
  else if s.fuse.pcieCeiling < a.level || (a.level = 3 && s.fuse.factoryDisabled = 1) ||
      (s.fuse.pcieAuth = 1 && rd s oQueueGrant a.qid < a.level) then (0x08, 0)
  else if a.poll ≠ 0 && 256 ≤ pollers s then (0x21, 0)
  else (0, 0)

/-- R464: a new SQ, HEAD 0 in its index block. -/
def newSq (a : SqArgs) (s : State) : State :=
  let x : Sq := { level := a.level, kind := a.kind, cq := a.cqid, push := a.push, ring := a.ring, units := a.ringSize / 32,
                  index := a.indexAddr, poll := a.poll }
  hostWrite (a.indexAddr + 8) (leBytes 4 0) (setSq a.qid x s)

/-- CREATE_SQ (R462). -/
def execCreateSq (c : SqCmd) (a : SqArgs) (s : State) : Host.Outcome State Fault Refusal :=
  onUnits c.wf (adminCmd c (fun s =>
    let v := createSqCode s a
    if v.1 ≠ 0 then complete c v.1 v.2 0 s else completeOk c (newSq a s)) s)

/-- R465: the queue takes no new entry; it goes once its last command has ended. -/
def deleteSq (c : SqCmd) (q : Nat) (s : State) : State :=
  if q = 0 then complete c 0x89 0x60 0 s
  else
    match sq s q with
    | none => complete c 0x84 0x60 0 s
    | some x =>
      if x.deleting.isSome then complete c 0x84 0x60 0 s
      else finishDeletion q (setSq q { x with state := 3, deleting := some c } s)

/-- DELETE_SQ (R465). -/
def execDeleteSq (c : SqCmd) (q : Nat) (s : State) : Host.Outcome State Fault Refusal :=
  onUnits c.wf (adminCmd c (deleteSq c q) s)

/-- R462: the fields of CREATE_CQ and MODIFY_CQ that lie outside Table 13-6. -/
def cqFieldsBad (a : CqArgs) : Bool :=
  2047 < a.vector || a.modCount = 0 || 65535 < a.modCount || 1 < a.flags || 10000000 < a.modTimer || a.wakeCeiling < 10 ||
    10000000 < a.wakeCeiling

/-- R462: what CREATE_CQ fails with. -/
def createCqCode (s : State) (a : CqArgs) : Verdict :=
  if a.qid = 0 || (cq s a.qid).isSome then (0x83, 0x60)
  else if !ringOk a.ring a.ringSize || !indexOk a.indexAddr then (0x86, 0x60)
  else if 4095 < a.qid || cqFieldsBad a then (0x0B, 0)
  else (0, 0)

/-- R464: a new CQ, TAIL 0 in its index block. -/
def newCq (a : CqArgs) (s : State) : State :=
  let x : Cq := { vector := a.vector, modCount := a.modCount, hold := a.flags % 2 = 1, ring := a.ring, units := a.ringSize / 32,
                  modTimer := a.modTimer, index := a.indexAddr, wakeCeiling := a.wakeCeiling }
  hostWrite (a.indexAddr + 8) (leBytes 4 0) (setCq a.qid x s)

/-- CREATE_CQ (R462). -/
def execCreateCq (c : SqCmd) (a : CqArgs) (s : State) : Host.Outcome State Fault Refusal :=
  onUnits c.wf (adminCmd c (fun s =>
    let v := createCqCode s a
    if v.1 ≠ 0 then complete c v.1 v.2 0 s else completeOk c (newCq a s)) s)

/-- A completion queue leaves: what it holds goes with it. -/
def removeCq (q : Nat) (s : State) : State :=
  match cq s q with
  | some x =>
    let s := setHst { s.hst with cqs := tabErase s.hst.cqs q } s
    forEach x.held (fun t e => releaseStaging e.handle t) s
  | none => s

/-- R466. -/
def deleteCq (c : SqCmd) (q : Nat) (s : State) : State :=
  if (cq s q).isNone then complete c 0x84 0x60 0 s
  else if s.hst.sqs.any (fun e => e.2.cq = q) then complete c 0x16 0 0 s
  else completeOk c (removeCq q s)

/-- DELETE_CQ (R466). -/
def execDeleteCq (c : SqCmd) (q : Nat) (s : State) : Host.Outcome State Fault Refusal :=
  onUnits c.wf (adminCmd c (deleteCq c q) s)

/-- MODIFY_CQ (Table 13-6): vector, moderation, hold and wake ceiling change. -/
def modifyCq (c : SqCmd) (a : CqArgs) (s : State) : State :=
  match cq s a.qid with
  | none => complete c 0x84 0x60 0 s
  | some x =>
    if a.ringSize ≠ 0 || a.indexAddr ≠ 0 || cqFieldsBad a then complete c 0x0B 0 0 s
    else
      completeOk c (setCq a.qid { x with vector := a.vector, modCount := a.modCount, hold := a.flags % 2 = 1,
                                         modTimer := a.modTimer, wakeCeiling := a.wakeCeiling } s)

/-- MODIFY_CQ (R476). -/
def execModifyCq (c : SqCmd) (a : CqArgs) (s : State) : Host.Outcome State Fault Refusal :=
  onUnits c.wf (adminCmd c (modifyCq c a) s)

/-- A stalled CQ runs again: what it held is written, and the count of its completions looked at. -/
def resumeCq (q : Nat) (s : State) : State :=
  if busAwake s then signalByCount q (writeTail q (writeHeld q s)) else signalByCount q s

/-- RESTART of an SQ (R467). -/
def restartSq (c : SqCmd) (q : Nat) (block : Dma) (s : State) : State :=
  match sq s q, block with
  | none, _ => complete c 0x84 0x60 0 s
  | some x, .data b =>
    if x.state = 3 then complete c 0x84 0x60 0 s
    else if indexValid x.head (leAt b 0 4) x.units then
      completeOk c (setSq q { x with state := 1, tail := leAt b 0 4, pushed := [], needs := 1, fenced := false } s)
    else complete c 0x81 0x60 0 (if x.state = 1 then stallSq q s else s)
  | some x, _ => complete c 0x81 0x60 0 (if x.state = 1 then stallSq q s else s)

/-- RESTART of a CQ (R467). -/
def restartCq (c : SqCmd) (q : Nat) (block : Dma) (s : State) : State :=
  match cq s q, block with
  | none, _ => complete c 0x84 0x60 0 s
  | some x, .data b =>
    if indexValid (leAt b 0 4) x.tail x.units then
      completeOk c (resumeCq q (setCq q { x with state := 1, head := leAt b 0 4 } s))
    else complete c 0x81 0x60 0 (if x.state = 1 then stallCq q s else s)
  | some x, _ => complete c 0x81 0x60 0 (if x.state = 1 then stallCq q s else s)

/-- RESTART (R467): the index block of a queue that exists is read again. A function that sleeps reads none (R451), so the read
does not succeed. -/
def execRestart (c : SqCmd) (q : Nat) (isCq : Bool) (block : Dma) (s : State) : Host.Outcome State Fault Refusal :=
  onUnits c.wf (adminCmd c (fun s =>
    let there := if isCq then (cq s q).isSome else (sq s q).isSome
    let s := when (there && busAwake s) (count (cHost 0x08)) s
    let block := if busAwake s then block else .fault
    if isCq then restartCq c q block s else restartSq c q block s) s)

/-- NOP (R476): served on every queue. -/
def execNop (c : SqCmd) (s : State) : Host.Outcome State Fault Refusal :=
  onUnits c.wf (match sq s c.sq with
    | some _ => completeOk c s
    | none => s)

/-! ### The admin queues (R459, R460) -/

/-- R459: the admin ring objects are set and pass R454 and R456. -/
def adminRingsOk (s : State) : Bool :=
  (rdOpt s 0 oAdminSqRing 0).isSome && (rdOpt s 0 oAdminCqRing 0).isSome && (rdOpt s 0 oAdminSqIndex 0).isSome &&
    (rdOpt s 0 oAdminCqIndex 0).isSome && ringOk (rd s oAdminSqRing) (rd s oAdminSqSize) &&
    ringOk (rd s oAdminCqRing) (rd s oAdminCqSize) && indexOk (rd s oAdminSqIndex) && indexOk (rd s oAdminCqIndex)

/-- ADMIN_ENABLE is 1: SQ 0 and CQ 0 start. -/
def adminStart (s : State) : State :=
  let s := newCq ⟨0, rd s oAdminVector, 1, 0, rd s oAdminCqSize, 0, rd s oAdminCqIndex, 1000, rd s oAdminCqRing⟩ s
  newSq ⟨0, 0, s.fuse.pcieCeiling, 0, 0xFFFF, rd s oAdminSqSize, 0, rd s oAdminSqIndex, rd s oAdminSqRing⟩ s

/-- A command whose queue has gone: it completes nowhere. -/
def orphan (c : SqCmd) : SqCmd :=
  if c.sq = partnerSq then c else { c with sq := partnerSq, tag := c.sq * 2 ^ 32 + c.tag }

/-- A ledger operation whose queue has gone. -/
def orphanLed (o : LedOp) : LedOp :=
  match o.who with
  | .cmd c k a i r => { o with who := .cmd (orphan c) k a i r }
  | _ => o

/-- A deferred operation whose queue has gone (kinds 9 and 13 name a command by queue and TAG). -/
def orphanDw (o : DwOp) : DwOp :=
  if o.kind = 9 || o.kind = 13 then
    match o.args with
    | q :: t :: rest => let c := orphan ⟨q, t, false, false, 0, .flat⟩
                        { o with args := c.sq :: c.tag :: rest }
    | _ => o
  else o

/-- A table or rule command whose queue has gone. -/
def orphanTbl (x : TblCmd) : TblCmd := { x with cmd := orphan x.cmd }

/-- A DICT command whose queue has gone keeps the level of its queue. -/
def orphanReq (s : State) (r : Req) : Req :=
  match r.origin.path with
  | .queue q => if q = partnerSq then r else { r with origin := { r.origin with path := .queue partnerSq, keyLevel := sqLevel s q } }
  | _ => r

/-- DICT commands. -/
def isDict (r : Req) : Bool :=
  match r.origin.path with
  | .queue _ => true
  | _ => false

/-- Every command in progress loses its queue, and none completes. Where `keep`, each takes its effect (R460); else those that
still wait for their data are not applied, and the others are (R450). `was` is the state with the queues. -/
def orphanAll (keep : Bool) (was s : State) : State :=
  let dw := orphanDw
  let due (c : SqCmd) : Bool := s.pair.due.any (fun d => d.cmd = some c)
  let tbl (l : List TblCmd) := (if keep then l else l.filter (fun x => due x.cmd)).map orphanTbl
  let own (l : Lock) : Bool := (tbl s.lt.cmds).any (fun x => x.own && x.table = l.table && x.key = l.key)
  { s with
    lt := { s.lt with cmds := tbl s.lt.cmds, locks := s.lt.locks.filter (fun l => !l.hold && own l), expired := [],
                      arrivals := if keep then s.lt.arrivals.map (fun w => { w with cmd := orphan w.cmd }) else [] }
    rb := { s.rb with cmds := tbl s.rb.cmds, moves := s.rb.moves.map (fun m => { m with cmd := orphan m.cmd }) }
    pa := { s.pa with load := s.pa.load.map (fun x => (orphan x.1, x.2)) }
    led := { s.led with slices := s.led.slices.map (fun e => (e.1, { e.2 with ops := e.2.ops.map orphanLed })),
                        replies := s.led.replies.map orphanLed, forwards := s.led.forwards.map orphanLed }
    dw := { s.dw with onDie := s.dw.onDie.map dw, buckets := s.dw.buckets.map dw, far := s.dw.far.map dw,
                      waiting := s.dw.waiting.map dw }
    pip := { s.pip with frames := s.pip.frames.map (fun e => (e.1, { e.2 with inject := none })) }
    pair := { s.pair with due := s.pair.due.map (fun d => { d with cmd := d.cmd.map orphan, req := d.req.map (orphanReq was) }) }
    ep := { s.ep with request := s.ep.request.map (orphanReq was) }
    eng := { s.eng with queue := if keep then s.eng.queue.map (fun w => { w with req := orphanReq was w.req })
                                  else s.eng.queue.filter (fun w => !isDict w.req) } }

/-- Every queue is deleted without completions: pool 4 buffers of commands and held entries go back. -/
def deleteQueues (keep : Bool) (s : State) : State :=
  let hs := s.hst.cmds.map (·.handle) ++ (s.hst.cqs.map (fun e => e.2.held.map (·.handle))).flatten
  let t := forEach hs (fun t h => releaseStaging h t) s
  orphanAll keep s (setHst { t.hst with sqs := [], cqs := [], cmds := [], lastSq := 0 } t)

/-- A write of ADMIN_ENABLE at its live point (R459, R460). -/
def writeAdminEnable (v : Nat) (s : State) : State :=
  let was := rd s oAdminEnable
  let s := wr oAdminEnable v s
  if v = 1 then (if was = 1 then s else adminStart s) else deleteQueues true s

/-- R459: the code a write of an admin object meets. -/
def adminWriteCode (s : State) (obj v : Nat) : Nat :=
  if obj = oAdminEnable then (if v = 1 && !adminRingsOk s then 0x86 else 0)
  else if oAdminSqRing ≤ obj && obj ≤ oAdminVector && rd s oAdminEnable = 1 then 0x88
  else 0

/-! ### Resets of the function (R450, R599) -/

/-- R450: the Host Interface returns to its state after reset; objects of area 60 to their defaults. The replay windows of the
mailbox stay: the model reads "every reset" of R119 as those of the device (DESIGN CHOICE, log entry 136). -/
def hostReset (s : State) : State :=
  let s := deleteQueues false s
  let h : Hst := {}
  { s with
    dict := s.dict.filter (fun e => e.1 / 2 ^ 32 % 2 ^ 32 / 2 ^ 24 ≠ 0x60)
    eng := { s.eng with mb := {}, queue := s.eng.queue.filter (fun w => w.req.origin.path ≠ .mailbox) }
    hst := { h with absent := s.hst.absent, perst := s.hst.perst } }

/-- FUNCTION_LEVEL_RESET (R450); a hot reset of the link is the same. -/
def execFunctionLevelReset (s : State) : Host.Outcome State Fault Refusal := .next (hostReset s)

/-- PERST_N (R599): low resets the Host Interface and holds the PHY in reset; high prepares the endpoint. -/
def execPerstN (high : Bool) (s : State) : Host.Outcome State Fault Refusal :=
  .next (let s := if high then s else hostReset s
    setHst { s.hst with perst := !high } s)

/-! ### Injection and receive buffers (R480, R482) -/

/-- A frame without FCS enters a pipeline from an internal port. -/
def enterFrame (p n cls : Nat) (b : Bytes) (inj : Option SqCmd) (s : State) : State :=
  let f : Frame := { port := p, pipe := n, bytes := b ++ fcsBytes b, stamp := nowStamp s, rxCclk := s.clk.cclk, cls := cls,
                     owner := 8 * p + cls, inject := inj }
  let (fid, s) := newFrame f s
  setPipe n { pipe s n with inject := (pipe s n).inject ++ [fid] } s

/-- R545: the active forwards an injected frame to a partner that follows. -/
def forwardInject (n cls : Nat) (b : Bytes) (s : State) : State :=
  if partnerFollows s then sendPair 7 (beBytes 1 n ++ beBytes 1 cls ++ beBytes 2 b.length ++ b) s else s

/-- INJECT with its frame read. -/
def injectFrame (c : SqCmd) (n cls : Nat) (frame : Dma) (s : State) : State :=
  match frame with
  | .fault => complete c 0x81 0x60 0 s
  | .tooLong => complete c 0x80 0x60 0 s
  | .data b =>
    if 16 ≤ n || 8 ≤ cls || b.length < 60 || 9724 < b.length then complete c 0x0B 0 0 s
    else enterFrame 512 n cls b (some c) (forwardInject n cls b (count (cHost 0x70) s))

/-- INJECT (R482): lowest level Operator. -/
def execInject (c : SqCmd) (n cls : Nat) (frame : Dma) (s : State) : Host.Outcome State Fault Refusal :=
  onUnits c.wf (startCmd c 1 (injectFrame c n cls frame) s)

/-- R480: one buffer is posted. Its place among the commands in progress goes, its reservation stays for the punt. -/
def postBuffer (c : SqCmd) (x : Sq) (n : Nat) (s : State) : State :=
  let st := cmdOf s c.sq c.tag
  let s := releaseStaging (st.bind (·.handle)) (setHst { s.hst with cmds := dropCmd c.sq c.tag s.hst.cmds } s)
  let p : Posted := ⟨c.tag, c.addr, n, (st.map (·.units)).getD 0⟩
  finishDeletion c.sq (setSq c.sq { x with posted := x.posted ++ [p] } s)

/-- RX_POST (R480): on a receive queue of level Operator or higher, as many buffers as its ring has units. -/
def execRxPost (c : SqCmd) (n : Nat) (s : State) : Host.Outcome State Fault Refusal :=
  onUnits c.wf (match sq s c.sq with
    | none => s
    | some x =>
      if x.kind ≠ 1 then complete c 0x89 0x60 0 s
      else if x.level < 1 then complete c 0x07 0 0 s
      else if n < 256 || 16384 < n then complete c 0x0B 0 0 s
      else if x.units ≤ x.posted.length then complete c 0x21 0 0 s
      else postBuffer c x n s)

/-! ### Signals and sleep (R486 to R493) -/

/-- INTERRUPT_SIGNAL (R486): the oldest pending completion of a running queue reaches MOD_TIMER or WAKE_CEILING. -/
def execInterruptSignal (q : Nat) (byCeiling : Bool) (s : State) : Host.Outcome State Fault Refusal :=
  onUnits (isQueue q)
    (match cq s q with
     | some x => if x.state = 1 && x.pending ≠ 0 && (byCeiling || x.modTimer ≠ 0) then signalCq q byCeiling s else s
     | none => s)

/-- R491: a queue of the vector that holds entries writes them, then TAIL. -/
def writeVectorHeld (v : Nat) (s : State) : State :=
  forEach ((s.hst.cqs.filter (fun e => e.2.vector = v && e.2.held ≠ [] && e.2.state = 1)).map (·.1))
    (fun t q => writeTail q (writeHeld q t)) s

/-- MSIX_UNMASK (R487): a pending vector is sent at unmasking, after what its queues hold (R491). -/
def execMsixUnmask (v : Nat) (s : State) : Host.Outcome State Fault Refusal :=
  onUnits (v < 2048)
    (let s := if s.hst.unmasked.contains v then s else setHst { s.hst with unmasked := s.hst.unmasked ++ [v] } s
     if s.hst.msixPending.contains v && !s.hst.functionMask && busAwake s then
       let s := writeVectorHeld v s
       sendTlp (.msix v) (setHst { s.hst with msixPending := s.hst.msixPending.filter (· != v) } s)
     else s)

/-- The link is in L0 and has carried no TLP of the device for 20 µs (R489). -/
def linkQuiet (s : State) : Bool :=
  s.hst.link = 0 && !s.hst.absent && !s.hst.perst && s.hst.lastTlp + 31250 ≤ s.clk.cclk

/-- L1_ENTRY (R489): nothing to send for 20 µs; the link enters L1, or its substate L1.1 or L1.2. -/
def execL1Entry (k : Nat) (s : State) : Host.Outcome State Fault Refusal :=
  onUnits (Instr.l1Entry k).wf (if linkQuiet s then setHst { s.hst with link := k } s else s)

/-- L1_EXIT (R489, R491): the device has something to send; what it holds is written first. -/
def execL1Exit (s : State) : Host.Outcome State Fault Refusal := .next (leaveL1 s)

/-- LINK_LEAVES_L1 (R491): for another reason. -/
def execLinkLeavesL1 (s : State) : Host.Outcome State Fault Refusal := .next (leaveL1 s)

/-- A signal fell due for a queue whose vector is unmasked. -/
def signalWaits (s : State) : Bool := s.hst.cqs.any (fun e => e.2.due && !vectorMasked s e.2.vector)

/-- D3HOT_ENTRY (R451, R492): the function enters D3hot, or Bus Master Enable is cleared. A signal that already waits is
announced by a PME message in D3hot with PME_En 1. -/
def execD3hotEntry (d3 pmeEn : Bool) (s : State) : Host.Outcome State Fault Refusal :=
  .next (if d3 then
    let s := setHst { s.hst with d3hot := true, pmeEn := pmeEn } s
    if pmeEn && signalWaits s then
      let s := setHst { s.hst with pmeStatus := true } s
      sendTlp .pme (count (cHost 0x50) s)
    else s
  else setHst { s.hst with busMaster := false, pmeEn := pmeEn } s)

/-- The vector of a queue whose signal fell due while it was held. -/
def sendDue (q : Nat) (s : State) : State :=
  match cq s q with
  | some x => if x.due then sendSignalVector x.vector (setCq q { x with due := false } s) else s
  | none => s

/-- D0_RETURN (R493): held completions, TAILs, then the vectors due; other vectors that waited are sent with them. -/
def execD0Return (s : State) : Host.Outcome State Fault Refusal :=
  .next (
    let s := setHst { s.hst with d3hot := false, busMaster := true } s
    if !busAwake s then s
    else
      let qs := (s.hst.cqs.filter (fun e => e.2.state = 1)).map (·.1)
      let s := forEach qs (fun t q => writeHeld q t) s
      let s := forEach qs (fun t q => writeTail q t) s
      let s := forEach qs (fun t q => sendDue q t) s
      forEach (s.hst.msixPending.filter (fun v => !vectorMasked s v)) (fun t v =>
        sendTlp (.msix v) (setHst { t.hst with msixPending := t.hst.msixPending.filter (· != v) } t)) s)

end Sys2Proof.Machine
end

