-- ==== Sys2Proof/Machine/Boot.lean ====
section
/-! DEFINITION. Resets, the boot sequencer and the boot record, low and high water, HBM stacks, the Control Core's restart and
the pins (chapters 17 and 18). -/

namespace Sys2Proof.Machine
open Sys2Proof

/-- Set the boot sequencer. -/
def setBoot (b : Boot) (s : State) : State := { s with boot := b }

/-- Set the retention RAM. -/
def setRetention (v : Nat) (s : State) : State := { s with cal := { s.cal with retention := v } }

/-! ### The boot record (R615 to R618) -/

/-- Bytes of the boot record. -/
def recordSize : Nat := 2048

/-- The boot record as a number, byte o at bits 8o. -/
def bootRecord (s : State) : Nat := byteFld s.cal.retention 0 recordSize

/-- CRC of a record: taken with the field as zero (R615). -/
def recordCrc (r : Nat) : Nat := crc32c (leBytes recordSize (setByteFld r 0x3C 4 0))

/-- Replace the boot record, with its CRC. -/
def putRecord (r : Nat) (s : State) : State :=
  setRetention (setByteFld s.cal.retention 0 recordSize (setByteFld r 0x3C 4 (recordCrc r))) s

/-- A policy row of the defaults of Table 17-2 (Table 17-5), step `k`. -/
def policyDefault (k : Nat) : Nat :=
  let row (n onFail learn timeout : Nat) : Nat := n + onFail * 2 ^ 8 + learn * 2 ^ 16 + 16 * 2 ^ 24 + timeout * 2 ^ 32
  if k ≤ 4 then row 3 0 0 0
  else if k ≤ 6 then row 3 1 0 20
  else if k = 7 then row 3 2 1 40
  else if k = 10 then row 2 2 1 50
  else if k = 11 then row 2 1 1 100
  else if k = 12 then row 1 2 1 100
  else if k = 13 then row 3 1 1 20
  else row 1 0 0 0

/-- The record with the default policies, zero results and an empty history (R617). -/
def defaultRecord : Nat :=
  (List.range 14).foldl (fun r i => setByteFld r (0x40 + 16 * i) 16 (policyDefault (i + 1))) (0x43524255 + 1 * 2 ^ 32)

/-- R617: MAGIC, FORMAT and CRC are right. -/
def recordGood (r : Nat) : Bool := byteFld r 0 4 = 0x43524255 && byteFld r 4 2 = 1 && byteFld r 0x3C 4 = recordCrc r

/-- R617: a bad record is rewritten. -/
def goodRecord (s : State) : State :=
  if recordGood (bootRecord s) then s else raise evBootRecordReset 0 (putRecord defaultRecord s)

/-- R525: a start-up that finds VBAT low zeroes the RAM before the record is written. -/
def checkRecord (s : State) : State := goodRecord (when s.cal.vbatLow (setRetention 0) s)

/-- PAIR_MODE. -/
def pairMode (s : State) : Nat := byteFld s.cal.retention 0x0D 1
/-- BOOT_COUNT. -/
def bootCount (s : State) : Nat := byteFld s.cal.retention 8 4

/-- Store PAIR_MODE (R529). -/
def putPairMode (v : Nat) (s : State) : State := putRecord (setByteFld (bootRecord s) 0x0D 1 v) s

/-- The policy row of step `k`. -/
def policyRow (s : State) (k : Nat) : Nat := byteFld s.cal.retention (0x40 + 16 * (k - 1)) 16
/-- The result row of step `k`. -/
def resultRow (s : State) (k : Nat) : Nat := byteFld s.cal.retention (0x120 + 32 * (k - 1)) 32
/-- Entry `i` of the history. -/
def historyRow (s : State) (i : Nat) : Nat := byteFld s.cal.retention (0x2E0 + 32 * i) 32

/-- Write the policy row of step `k`. -/
def putPolicy (k v : Nat) (s : State) : State := putRecord (setByteFld (bootRecord s) (0x40 + 16 * (k - 1)) 16 v) s

/-- What a step allows (Table 17-2): a skip. -/
def stepSkips (k : Nat) : Bool := k = 5 || k = 6 || k = 7 || k = 10 || k = 11 || k = 13
/-- An alternative. -/
def stepAlters (k : Nat) : Bool := k = 7 || k = 10 || k = 12
/-- Learning. -/
def stepLearns (k : Nat) : Bool := k = 7 || (10 ≤ k && k ≤ 13)

/-- R603 and Table 17-5: a BOOT_POLICY row that the device accepts. -/
def policyOk (k v : Nat) : Bool :=
  let onFail := byteFld v 1 1
  let learn := byteFld v 2 1
  1 ≤ byteFld v 0 1 && byteFld v 0 1 ≤ 8 && (onFail = 0 || (onFail = 1 && stepSkips k) || (onFail = 2 && stepAlters k)) &&
    (learn = 0 || (learn = 1 && stepLearns k)) && 1 ≤ byteFld v 3 1 && byteFld v 4 4 ≤ 60000

/-- Calendar time of a row: seconds modulo 2^32 and nanoseconds; 0 while the calendar is not valid (Table 17-6). -/
def rowTime (s : State) : Nat := if s.cal.valid then calTime s % 2 ^ 64 else 0

/-! ### Service levels (R607) -/

/-- HBM stacks in service. -/
def stacksIn (s : State) : Nat := ((List.range 4).filter (fun n => rd s oStackState n ≤ 1)).length

/-- Bits of the stacks out of service. -/
def stacksOut (s : State) : Nat := (List.range 4).foldl (fun a n => if 2 ≤ rd s oStackState n then setBit a n else a) 0

/-- Bits of the chiplets in a state. -/
def chipletsIn (s : State) (v : Nat) : Nat :=
  (List.range 8).foldl (fun a c => if rd s (oChipletState c) = v then setBit a c else a) 0

/-- R616: the history entry of this boot is written at HIST_NEXT, which moves on. -/
def writeHistory (s : State) : State :=
  let b := s.boot
  let e := leBytes 4 (bootCount s) ++ leBytes 1 (rd s oResetCause) ++ leBytes 1 b.highest ++ leBytes 2 b.altSteps ++
    leBytes 2 b.skipSteps ++ leBytes 1 b.stopStep ++ leBytes 1 (stacksOut s) ++ leBytes 1 (chipletsIn s 2) ++
    leBytes 1 (chipletsIn s 1) ++ zeros 2 ++ leBytes 8 b.bootCal ++ leBytes 4 b.duration ++ zeros 4
  let n := byteFld s.cal.retention 0x0C 1
  putRecord (setByteFld (setByteFld (bootRecord s) (0x2E0 + 32 * n) 32 (leNat e)) 0x0C 1 ((n + 1) % 41)) s

/-- The boot has ended: step 14 is done. -/
def bootDone (s : State) : Bool := rd s oBootStep = 15

/-- R607: SERVICE_LEVEL follows LOW_WATER_FLAGS; a change is raised, kept as the highest, and after step 14 recorded. -/
def serviceNow (s : State) : State :=
  let level := if rd s oLowWaterFlags = 0 then 2 else 1
  if level = rd s oServiceLevel then s
  else
    let s := wr oServiceLevel level s
    let s := setBoot { s.boot with highest := max s.boot.highest level } s
    let s := putRecord (setByteFld (bootRecord s) 0x0E 1 s.boot.highest) s
    let s := raise evServiceChange (level * 256 + rd s oLowWaterFlags) s
    when (bootDone s) writeHistory s

/-- Clear a low-water flag. -/
def clearFlag (i : Nat) (s : State) : State := serviceNow (wr oLowWaterFlags (clearBit (rd s oLowWaterFlags) i) s)

/-! ### Steps (R600 to R604) -/

/-- Resources of a step as bits (Table 17-2); a step without resources has one. -/
def stepRes (s : State) (k : Nat) : Nat :=
  if k = 6 then 3 else if k = 7 then 0x1FF else if k = 10 then 15 else if k = 11 then 15 - stacksOut s else 1

/-- DETAIL of a result row for resources: none where the step has none. -/
def detailOf (k res : Nat) : Nat := if k = 6 || k = 7 || k = 10 || k = 11 then res else 0

/-- Write the result row of a step (Table 17-6). -/
def putResult (k result action res : Nat) (s : State) : State :=
  let b := s.boot
  let us := if result = 5 then 0 else (s.clk.cclk - b.startedAt) * 2 / 3125
  let r := leBytes 1 k ++ leBytes 1 result ++ leBytes 1 (min 255 b.tried) ++ leBytes 1 action ++ leBytes 4 (detailOf k res) ++
    leBytes 8 b.startCal ++ leBytes 4 us ++ leBytes 1 b.streak ++ leBytes 1 (b2n b.learned) ++ zeros 10
  putRecord (setByteFld (bootRecord s) (0x120 + 32 * (k - 1)) 32 (leNat r)) s

/-- R618: how a step starts: the resources on the alternative, those skipped, ALT_STREAK, and whether it was learned. -/
def learnedStart (s : State) (k : Nat) : Nat × Nat × Nat × Bool :=
  let pol := policyRow s k
  let p := resultRow s k
  let result := byteFld p 1 1
  let streak := byteFld p 0x14 1
  if byteFld pol 2 1 = 1 && (result = 2 || result = 3 || result = 5) && streak < byteFld pol 3 1 then
    let all := stepRes s k
    let act := if result = 5 then (if stepAlters k then 1 else 2) else byteFld p 3 1
    let res := if result = 5 || detailOf k all = 0 then all else byteFld p 4 4 &&& all
    (if act = 1 then res else 0, if act = 2 then res else 0, streak + 1, true)
  else (0, 0, 0, false)

/-- What the start of a step itself does: step 09 begins low water (R607), step 14 the rebase (R611, R326). -/
def stepBegins (k : Nat) (s : State) : State :=
  if k = 9 then
    serviceNow (wr oLowWaterFlags 7 (wr oLedgerState 0 (wr oSlotsPerSlice 131072 s)))
  else if k = 14 && 3 ≤ stacksIn s then startRebase (slotsFor (stacksIn s)) s
  else s

/-- A step starts (R600, R616). -/
def startStep (k : Nat) (s : State) : State :=
  let (alt, skip, streak, learned) := learnedStart s k
  let s := setBoot { s.boot with attempts := 0, altAttempts := 0, tried := 0, altRes := alt, learnedRes := alt, passed := 0,
                                 skipped := skip, streak := streak, learned := learned, stopped := false,
                                 startedAt := s.clk.cclk, startCal := rowTime s } s
  stepBegins k (putResult k 5 0 0 (wr oBootStep k s))

/-- The lanes of a chiplet are calibrated: LANE_TX_EQ takes its value of boot (Table 4-5). -/
def calibrateLanes (c : Nat) (s : State) : State :=
  forEach ((List.range 64).map (64 * c + ·)) (fun t lane => wrRow oLaneTxEq lane (Config.laneTxEq lane s.clk.cclk).toNat t) s

/-- The chiplets take their states, and the octets of a chiplet that is mapped out are unavailable (step 07, R612); the lanes of
the others are calibrated. -/
def endStep07 (alt skip : Nat) (s : State) : State :=
  forEach (List.range 8) (fun t c =>
    if skip.testBit c then wr (oChipletState c) 2 t
    else calibrateLanes c (wr (oChipletState c) (b2n (alt.testBit c)) t)) s

/-- The stacks take their states (step 10); a stack that was out stays out at step 11. -/
def endStacks (k alt skip : Nat) (s : State) : State :=
  let s := forEach (List.range 4) (fun t n =>
    if skip.testBit n then wrRow oStackState n 2 t
    else if k = 10 then wrRow oStackState n (b2n (alt.testBit n)) t else t) s
  if k = 11 then wr oLedgerStacks (stacksIn s) s else s

/-- R110, R272: the random source fills RESET_NONCE; the replay windows are empty. -/
def freshNonce (s : State) : State :=
  let (r, s) := drawRandom s
  { s with eng := { s.eng with nonce := r % 2 ^ 64, windows := [], mbWindows := [] } }

/-- The work of step 01: the record, the fuses, the nonce, the seed and the pair mode (R110, R272, R529). -/
def endStep01 (s : State) : State :=
  let s := freshNonce (goodRecord s)
  let (r, s) := drawRandom s
  let s := wr oPairClaim s.fuse.claimMin (wr oFlowHashSeed (r % 2 ^ 128) s)
  let m := pairMode s
  setRole (if m = 1 then 1 else 0) (wr oPairEnable m s)

/-- What the end of a step leaves, with the resources that took the alternative and that are skipped (Table 17-2). -/
def stepEffect (k alt skip : Nat) (s : State) : State :=
  if k = 1 then endStep01 s
  else if k = 3 then emit (.pmbus 0x0A 0 0) { s with pins := { s.pins with pmbusHs := true } }
  else if k = 4 then startTime s
  else if k = 5 then setHst { s.hst with absent := skip ≠ 0 } s
  else if k = 6 then
    let s := setMgmt 1 { mgmt s 1 with ready := !skip.testBit 1 } (setMgmt 0 { mgmt s 0 with ready := !skip.testBit 0 } s)
    { s with eng := { s.eng with opened := true } }
  else if k = 7 then endStep07 alt skip s
  else if k = 10 || k = 11 then endStacks k alt skip s
  else if k = 12 then
    clearFlag 1 (if alt ≠ 0 then setGov { s.gov with bootPin := true } s else s)
  else if k = 13 then
    if skip ≠ 0 then s else clearFlag 2 (wr oTimeState (setBit (rd s oTimeState) 2) s)
  else s

/-- Step 14 has ended (R616): BOOT_STEP 15 and the history entry. -/
def bootEnds (s : State) : State :=
  let s := setBoot { s.boot with duration := s.clk.cclk / 1562500 } (wr oBootStep 15 s)
  writeHistory s

/-- A step ends: its effect, its events, its row, and the next step starts (R600, R602, R616). -/
def endStep (k : Nat) (s : State) : State :=
  let b := s.boot
  let skip := b.skipped
  let alt := andNot b.altRes skip
  let s := stepEffect k alt skip s
  let s := when (alt ≠ 0) (raise evBootStepAlt (k * 256 + detailOf k alt % 256)) s
  let s := when (skip ≠ 0) (raise evBootStepSkip (k * 256 + detailOf k skip % 256)) s
  let s := setBoot { s.boot with altSteps := if alt ≠ 0 then setBit s.boot.altSteps k else s.boot.altSteps,
                                 skipSteps := if skip ≠ 0 then setBit s.boot.skipSteps k else s.boot.skipSteps } s
  let (result, action, res) := if skip ≠ 0 then (3, 2, skip) else if alt ≠ 0 then (2, 1, alt) else (1, 0, 0)
  let s := putResult k result action res s
  if k = 14 then bootEnds s else startStep (k + 1) s

/-- The boot stops at a step (R602). -/
def stopBoot (k : Nat) (s : State) : State :=
  let s := setBoot { s.boot with stopped := true, stopStep := k } s
  raise evBootStopped k (putResult k 4 0 0 s)

/-- All three attempts of a fixed step have failed (R601): INT_N is low, and the row stays at RESULT 5. -/
def failFixed (s : State) : State :=
  let s := setBoot { s.boot with held := 2 } s
  { s with ev := { s.ev with bootFail := true } }

/-- R602: primaries that failed their last attempt take ON_FAIL: 0 the boot stops, 1 they are skipped, 2 they go on with the
alternative. -/
def takeOnFail (k res : Nat) (s : State) : State :=
  let onFail := byteFld (policyRow s k) 1 1
  if res = 0 then s
  else if onFail = 1 && stepSkips k then setBoot { s.boot with skipped := s.boot.skipped ||| res } s
  else if onFail = 2 && stepAlters k then
    setBoot { s.boot with altRes := s.boot.altRes ||| res, learnedRes := andNot s.boot.learnedRes res, altAttempts := 0 } s
  else setBoot { s.boot with stopped := true } s

/-- R602: alternatives that failed their last attempt are skipped where the step allows it, and else the boot stops. -/
def failAlt (k res : Nat) (s : State) : State :=
  if res = 0 then s
  else if stepSkips k then setBoot { s.boot with skipped := s.boot.skipped ||| res } s
  else setBoot { s.boot with stopped := true } s

/-- One attempt of a step has ended; `failed` are its resources that did not pass. -/
def attemptEnds (k failed : Nat) (s : State) : State :=
  let b := s.boot
  let running := andNot (stepRes s k) (b.passed ||| b.skipped)
  let bad := failed &&& running
  let prim := andNot running b.altRes
  let s := setBoot { b with passed := b.passed ||| andNot running bad, tried := b.tried + 1,
                            attempts := b.attempts + b2n (prim ≠ 0), altAttempts := b.altAttempts + b2n (running &&& b.altRes ≠ 0) } s
  if bad = 0 then endStep k s
  else if k ≤ 4 then (if 3 ≤ s.boot.attempts then failFixed s else s)
  else
    let n := byteFld (policyRow s k) 0 1
    let badPrim := andNot bad b.altRes
    let badAlt := bad &&& b.altRes
    let altOut := if n ≤ s.boot.altAttempts then badAlt else 0
    let primOut := if n ≤ s.boot.attempts then badPrim else 0
    let s := failAlt k (andNot altOut b.learnedRes) s
    let s := takeOnFail k (primOut ||| (altOut &&& b.learnedRes)) s
    if s.boot.stopped then stopBoot k s
    else if andNot (stepRes s k) (s.boot.passed ||| s.boot.skipped) = 0 then endStep k s
    else s

/-- The step that runs, none where the boot is done or the device is held in reset. A boot stopped at step 08 goes on. -/
def stepRunning (s : State) : Option Nat :=
  let k := rd s oBootStep
  if 14 < k || s.boot.held ≠ 0 || (s.boot.stopped && k ≠ 8) then none else some k

/-- What a step waits for: step 08 a loaded image, step 12 a converged governor, step 14 the end of its rebase. -/
def stepMayEnd (k failed : Nat) (s : State) : Bool :=
  if k = 8 then rd s oCsState = 2
  else if k = 12 then failed ≠ 0 || s.boot.altRes ≠ 0 || (rd s oGovState).testBit 0
  else if k = 14 then rd s oLedgerState ≠ 2
  else true

/-- BOOT_STEP_COMPLETE (R600): steps 08, 09 and 14 cannot fail an attempt here. -/
def execBootStepComplete (r : StepResult) (s : State) : Host.Outcome State Fault Refusal :=
  .next (match stepRunning s with
    | some k =>
      let failed := if k = 8 || k = 9 || k = 14 then 0 else r.failed
      if stepMayEnd k failed s then attemptEnds k failed s else s
    | none => s)

/-- BOOT_ATTEMPT_TIMEOUT (R602): of a step with a TIMEOUT, whose listed resources have not passed. -/
def execBootAttemptTimeout (r : StepResult) (s : State) : Host.Outcome State Fault Refusal :=
  .next (match stepRunning s with
    | some k =>
      if k ≤ 4 || k = 9 || k = 14 || s.boot.stopped || byteFld (policyRow s k) 4 4 = 0 || r.failed &&& stepRes s k = 0 then s
      else attemptEnds k r.failed s
    | none => s)

/-- R604: a write of BOOT_CONTINUE that the device accepts. -/
def continueOk (s : State) (v : Nat) : Bool := s.boot.stopped && v = rd s oBootStep

/-- A write of BOOT_CONTINUE: the stopped step starts again. -/
def bootContinue (v : Nat) (s : State) : State := startStep v (wr oBootContinue v s)

/-- CONTROL_PATH_RETRY (R605): steps 05 and 06 run again while no control path is left. -/
def execControlPathRetry (pcieOk : Bool) (mgmtOk : Nat) (s : State) : Host.Outcome State Fault Refusal :=
  .next (if !s.hst.absent || (mgmt s 0).ready || (mgmt s 1).ready || !s.eng.opened then s
    else
      let s := setHst { s.hst with absent := !pcieOk } s
      setMgmt 1 { mgmt s 1 with ready := mgmtOk.testBit 1 } (setMgmt 0 { mgmt s 0 with ready := mgmtOk.testBit 0 } s))

/-! ### Device resets (R596, R597) -/

/-- The boot sequencer starts: the record, BOOT_COUNT, step 01 (R525, R616, R617, R522). -/
def startBoot (s : State) : State :=
  let s := checkRecord s
  let s := putRecord (setByteFld (bootRecord s) 8 4 (bootCount s + 1)) s
  let s := if s.cal.invalidDue then
      raise evCalInvalid (calState s) { s with cal := { s.cal with invalidDue := false } } else s
  startStep 1 (setBoot { s.boot with held := 0, bootCal := rowTime s } s)

/-- R597: every object at its default; the fuses, the calendar clock and the retention RAM stay, with what the test access
port holds and, of the model's own, the free values drawn, the outputs and the commands that wait. -/
def clearDevice (cause : Nat) (s : State) : State :=
  wr oResetCause cause
    { State.reset with fuse := s.fuse, cal := s.cal, pins := { s.pins with pmbusHs := false }, free := s.free, out := s.out,
                       pending := s.pending }

/-- A device reset and the start of step 01, unless TEST_MODE holds the device (R634). -/
def deviceReset (cause : Nat) (s : State) : State :=
  let t := clearDevice cause s
  if t.pins.testMode then setBoot { t.boot with held := 1 } t else startBoot t

/-- POWER_ON (R642, R634). -/
def execPowerOn (testMode : Bool) (s : State) : Host.Outcome State Fault Refusal :=
  .next (deviceReset 1 { s with pins := { s.pins with testMode := testMode } })

/-- A reset that a thermal trip holds back (R653): the trip must clear first. -/
def resetUnlessTripped (cause : Nat) (s : State) : State := if s.boot.held = 3 then s else deviceReset cause s

/-- RESET_N (R643): between 1 and 10 µs the device resets or not, which a free value decides. -/
def execResetN (lowNs : Nat) (s : State) : Host.Outcome State Fault Refusal :=
  .next (if lowNs < 1000 then s
    else if 10000 ≤ lowNs then resetUnlessTripped 2 s
    else
      let (reset, s) := drawChoice s
      if reset then resetUnlessTripped 2 s else s)

/-- THERMAL_TRIP (R653): the device is held in reset. -/
def execThermalTrip (s : State) : Host.Outcome State Fault Refusal :=
  .next (let t := clearDevice 4 s
    setBoot { t.boot with held := 3 } t)

/-- THERMAL_TRIP_CLEARED (R653): every sensor reads 110 °C or less. -/
def execThermalTripCleared (s : State) : Host.Outcome State Fault Refusal :=
  .next (if s.boot.held = 3 then deviceReset 4 s else s)

/-- RAIL_UNDERVOLTAGE (R644). -/
def execRailUndervoltage (s : State) : Host.Outcome State Fault Refusal := .next (resetUnlessTripped 1 s)

/-- CLOCK_TREE_FAULT (R627): in a unit without a pair, raised and then a reset; a missing KCLK is ignored. In a pair R557
applies (PRIVILEGED_FAULT). -/
def execClockTreeFault (clock : Nat) (s : State) : Host.Outcome State Fault Refusal :=
  onUnits (clock < 5)
    (if pairEnabled s || clock = 4 then s else resetUnlessTripped 5 (raise evClockFault clock s))

/-! ### HBM (R613, R614, R326) -/

/-- LEDGER_REBASED (R326): the rebase ends; step 14 ends with it (R607, R616). -/
def ledgerRebased (s : State) : State :=
  if rd s oLedgerState ≠ 2 then s
  else
    let s := runLedger (clearFlag 0 (endRebase 1 s))
    if rd s oBootStep = 14 then attemptEnds 14 0 s else s

/-- LEDGER_REBASED (R326). -/
def execLedgerRebased (s : State) : Host.Outcome State Fault Refusal := .next (ledgerRebased s)

/-- A spilled operation that lay in the lost stack is lost (R613). -/
def loseSpilled (o : DwOp) (s : State) : State :=
  let s := setDw { s.dw with buckets := s.dw.buckets.erase o, far := s.dw.far.erase o } s
  loseOp o s

/-- The spilled operations of a lost stack, which free values name; all of them when the ledger goes on die. -/
def loseStackOps (all : Bool) (s : State) : State :=
  forEach (s.dw.buckets ++ s.dw.far) (fun t o =>
    if all then loseSpilled o t else let (c, t) := drawChoice t; if c then loseSpilled o t else t) s

/-- The ledger moves to on-die operation until reset (R614). -/
def ledgerOnDie (s : State) : State :=
  let s := wr oLedgerState 0 (startRebase 131072 s)
  runLedger (serviceNow (wr oLowWaterFlags (setBit (rd s oLowWaterFlags) 0) s))

/-- A stack is lost in service (R613, R614). -/
def stackLost (n : Nat) (s : State) : State :=
  let s := count (cEvent 0x20) (raise evHbmStackLost n (wrRow oStackState n 3 s))
  let k := stacksIn s
  let s := wr oLedgerStacks k s
  if lowLedger s then s
  else
    let s := loseStackOps (k < 3) s
    let s := wr oCapReadIndex (rd s oCapWriteIndex) s
    let s := if k < 3 then ledgerOnDie s else startRebase (slotsFor k) s
    setSvc { s.svc with ports := [] } s

/-- HBM_STACK_LOST (R613): a stack in service, of a unit without a pair; in a pair R557 applies (PRIVILEGED_FAULT). -/
def execHbmStackLost (n : Nat) (s : State) : Host.Outcome State Fault Refusal :=
  onUnits (isStack n)
    (if pairEnabled s || 2 ≤ rd s oStackState n || rd s oBootStep < 12 then s
     else
       let t := stackLost n s
       when (bootDone t) writeHistory t)

/-! ### The Control Core (R598) -/

/-- The object that a request's first item names. -/
def firstObj (r : Req) : Nat := (r.msg.items.head?.map Item.obj).getD 0

/-- A dictionary request in progress ends with "internal fault" and DICT_FAULT (Table 3-8), or on the transport without an
answer. -/
def dropRequest (r : Req) (s : State) : State :=
  match r.origin.path with
  | .mgmt _ => s
  | _ => raise evDictFault (firstObj r) (respond r.origin (answer r.msg 0xFF 0xFF 0 []) 0 s)

/-- The request behind a later live point: applied then, answered now. -/
def forgetOrigin (d : PairDue) : PairDue :=
  { d with req := d.req.map (fun r => { r with origin := { r.origin with path := .pairLink } }) }

/-- A Control Core restart (R598). -/
def restartCore (reason : Nat) (s : State) : State :=
  let waiting := s.eng.queue.map (·.req) ++ s.ep.request.toList ++ s.pair.due.filterMap (·.req)
  let s := forEach waiting (fun t r => dropRequest r t) s
  let s := setPair { s.pair with due := s.pair.due.map forgetOrigin, ownVerdict := none, partnerVerdict := none } s
  let s := { s with eng := { s.eng with queue := [] }, ep := { s.ep with request := none, oldType := none } }
  let s := if setState s = 1 then
      wr oSetState 0 (wr oTurnResult 2 (wr oFailedGroup 0 { s with ep := { s.ep with passed := false, stepping := false } }))
    else s
  let s := setBoot { s.boot with restartAt := s.clk.cclk + 1 } (freshNonce s)
  raise evCoreRestart reason (count (cEvent 0x18) s)

/-- CORE_RESTART (R596, R598): a second one within 10 s resets the device. -/
def execCoreRestart (reason : Nat) (s : State) : Host.Outcome State Fault Refusal :=
  onUnits (reason = 1 || reason = 2)
    (if s.boot.restartAt ≠ 0 && s.clk.cclk + 1 < s.boot.restartAt + 15625000000 then resetUnlessTripped 6 s
     else restartCore reason s)

/-! ### Limits per second and pins (R664, R624, R649) -/

/-- SECOND_WINDOW_END (R664): every limit per second starts anew, those of R557 among them. -/
def execSecondWindowEnd (s : State) : Host.Outcome State Fault Refusal :=
  .next (setPair { s.pair with repairs := 0, errors := 0 } { s with ev := { s.ev with window := [] } })

/-- MGMT_LINK_CHANGE (R624). -/
def execMgmtLinkChange (n : Nat) (up : Bool) (s : State) : Host.Outcome State Fault Refusal :=
  onUnits (isMgmt n) (setMgmt n { mgmt s n with linkUp := up } s)

/-- TAP_INSTRUCTION_LOADED (R649): which instruction has the balls. -/
def execTapInstructionLoaded (t : TapInstr) (s : State) : Host.Outcome State Fault Refusal :=
  .next { s with pins := { s.pins with tap := t } }

end Sys2Proof.Machine
end

