-- ==== Sys2Proof/Machine/Sets.lean ====
section
/-! DEFINITION. Agreement groups, validation of the shadow set, the turn cycle and block halts (chapter 2). -/

namespace Sys2Proof.Machine
open Sys2Proof

/-! ### Agreement groups (Table 2-3) -/

/-- G2 and the rates of G3: the peak rate is at least the committed rate, and each burst at least 9,748 bytes. -/
def ratesOk (r : Rates) : Bool := r.cir ≤ r.pir && 9748 ≤ r.cbs && 9748 ≤ r.pbs

/-- G3: one policer; a colour-blind one names no colour map. -/
def policerOk (v : Nat) : Bool := ratesOk (policerRates v) && (byteFld v 0 1 ≠ 0 || byteFld v 1 1 = 0xFF)

/-- G4: one port's gate list: its durations sum to the cycle, which is at most 1 s. -/
def gateOk (s : State) (set p : Nat) : Bool :=
  let l := gateEntries s set p
  let cycle := byteFld (rdSet s set oGateControl p) 4 4
  l.foldl (fun a e => a + e.1) 0 = cycle && cycle ≤ 1000000000

/-- G9: the minima of a pool sum to at most its size. -/
def minimaOk (s : State) (p : Nat) : Bool := (minOwners s).foldl (fun a o => a + minOf s o p) 0 ≤ poolBuffers s p

/-- R665: the conditions of G6 on the values that stand in a set, alone. -/
def g6Values (s : State) (set : Nat) : Bool :=
  (List.range 64).all (admOk s set) &&
    (rowsOf s set oNatPools).all (fun p => poolFieldsOk (natPool s set p)) && portSum s set ≤ 41943040 &&
    (rowsOf s set oBackends).all (fun r => backendPortOk s set r)

/-- Whether the groups with S members hold in a set, by group. -/
def setGroups (s : State) (set : Nat) : List (Nat × Bool) :=
  [(3, (rowsOf s set oPolicers).all (fun r => policerOk (rdSet s set oPolicers r))),
   (4, (rowsOf s set oGateControl).all (gateOk s set)),
   (5, g5Ok s set),
   (6, g6Ok s set),
   (8, (List.range 512).all (g8Ok s set))]

/-- The lowest group of a list that fails. -/
def failing (l : List (Nat × Bool)) : Option Nat := (l.find? (fun g => !g.2)).map (·.1)

/-! ### Validation (R63, R64, R176, R263, R626) -/

/-- Every cross-object reference of a set holds, and no word of it is marked corrupt. -/
def referencesOk (s : State) (set : Nat) : Bool :=
  patchesOk s set && scanSetsOk s set && !s.ep.corrupt.any (fun k => keySet k = set)

/-- What validation of the shadow set finds: none on a pass; else the lowest failing group, or 0 for references alone. -/
def validation (s : State) : Option Nat :=
  match failing (setGroups s (shadowSet s)) with
  | some g => some g
  | none => if referencesOk s (shadowSet s) then none else some 0

/-- Validation ends: the turn is rejected, or leaves VALIDATING once R81 lets it; in a pair both units decide (R547). -/
def validated (s : State) : State :=
  match validation s with
  | some g => if turnsTogether s then tellVerdict (g + 1) s else rejectTurn g s
  | none => leaveValidating s

/-- Validation of a turn is under way. -/
def validating (s : State) : Bool := setState s = 1 && !s.ep.stepping && !s.ep.passed && s.pair.ownVerdict.isNone

/-- VALIDATION_COMPLETE (R63): the checks of the shadow set end. -/
def execValidationComplete (s : State) : Host.Outcome State Fault Refusal :=
  .next (if validating s then validated s else s)

/-- AUTO_EPOCH_STEP (R73): AUTO_DRAIN_INTERVAL has passed with no turn or step started; a unit that follows an active starts
none of its own (R547). -/
def execAutoEpochStep (s : State) : Host.Outcome State Fault Refusal :=
  .next (if autoStepDue s && !follows s then beginStep none s else s)

/-! ### The turn cycle (R66, R67) -/

/-- What a turn changes beside the sets: service generations, weights, slot tables (R333, R354). The buckets of the policers stay
as they are (R411). -/
def turnEffects (before s : State) : State := turnServices before s s

/-- The snapshot of T, whose cycle is T (R80); where no half is free, because the snapshot was asked for after the turn had left VALIDATING, it
follows when one frees. -/
def turnSnapshot (s : State) : State :=
  if !snapAtT s then s
  else if halfFree s then captureAt s.ep.turnT 1 s
  else { s with ep := { s.ep with turnSnapDue := true } }

/-- Cycle T. -/
def turnCycle (s : State) : State :=
  let epoch := (activeEpoch s + 1) % 2 ^ 16
  let t := wr oActiveEpoch epoch s
  let t := if s.ep.stepping then t else wr oActiveSet (shadowSet s) t
  let t := wr oTurnCclk s.ep.turnT (wr oTurnTime (nowTime80 s) t)
  let t := wr oSetState 3 (turnSnapshot t)
  let t := if s.ep.stepping then t else turnEffects s t
  acknowledge (raise evTideTurned epoch t)

/-- TURN_CYCLE (R67). -/
def execTurnCycle (s : State) : Host.Outcome State Fault Refusal := .next (if setState s = 2 then turnCycle s else s)

/-! ### Halts (R55 to R57) -/

/-- A pipeline holds no frame: none between head acceptance and the Fabric, and none in an egress routine toward RECIRC. Frames
in staging and in the RECIRC queue wait outside. -/
def pipeEmpty (s : State) (n : Nat) : Bool :=
  !s.pip.frames.any (fun e => e.2.pipe = n &&
    (e.2.phase = .ingress || (e.2.phase = .recirc && !(pipe s n).recirc.contains e.1)))

/-- A slice holds no operation but those that wait outside. -/
def sliceEmpty (s : State) (f : Nat) : Bool :=
  (slc s f).ops.all (fun o => o.stage = .held) && (slc s f).reads.isEmpty

/-- No frame or copy stands in one of the phases. -/
def noneIn (s : State) (l : List Phase) : Bool := !s.pip.frames.any (fun e => l.contains e.2.phase)

/-- Table and rule commands of the Lookup Tables and of the Rule Banks are in progress. A lookup or a search ends in the cycle
in which it starts. -/
def tablesEmpty (s : State) : Bool := s.lt.cmds.isEmpty && s.lt.arrivals.isEmpty
/-- The Rule Banks hold no command and no block move. -/
def rulesEmpty (s : State) : Bool := s.rb.cmds.isEmpty && s.rb.moves.isEmpty

/-- The Buffer Pool Manager holds no request, no buffer on its way to a requester, and no release. -/
def poolsEmpty (s : State) : Bool :=
  s.buf.waiters.isEmpty && s.buf.asking.isEmpty && s.buf.granted.isEmpty && s.buf.releases.isEmpty

/-- A ledger operation that the Deferred Work Scheduler has dispatched. -/
def isDispatched (o : LedOp) : Bool :=
  match o.who with
  | .aging | .way _ => true
  | _ => false

/-- R446: no dispatched operation is still running at its target: an aging visit, a write-back or a fold in its slice, or a block
move past its first copy. -/
def noneDispatched (s : State) : Bool :=
  (List.range 16).all (fun f => !(slc s f).ops.any isDispatched) &&
    s.rb.moves.all (fun m => (opsHeld s 13).any (fun o => o.args = [m.cmd.sq, m.cmd.tag]))

/-- R55: a block holds no frame, descriptor or operation. -/
def blockEmpty (s : State) (b : Nat) : Bool :=
  if b < 16 then pipeEmpty s b
  else if b < 32 then sliceEmpty s (b - 16)
  else if b = 32 then tablesEmpty s
  else if b = 33 then rulesEmpty s
  else if b = 34 then (List.range 16).all (fun n => (pipe s n).scans.isEmpty)
  else if b = 35 then poolsEmpty s
  else if b = 36 then noneIn s [.fabric, .middle, .mcFifo]
  else if b = 37 then noneIn s [.replicating, .queued, .internal]
  else noneDispatched s

/-- HALTED_SET (R55). -/
def execHaltedSet (b : Nat) (s : State) : Host.Outcome State Fault Refusal :=
  onUnits (b < 39)
    (if haltAsked s b && !halted s b && blockEmpty s b then wr oHalted (setBit (rd s oHalted) b) s else s)

/-- R56: the code a write of HALT_REQUEST meets. -/
def haltCode (s : State) (v : Nat) : Nat :=
  if fld v 32 7 ≠ 0 && !(v % 2 ^ 16 = 2 ^ 16 - 1 && pipesHalted s) then 0x14 else 0

/-- What a block does when it returns to service (R212, R370, R442, Table 2-2). -/
def returnBlock (b : Nat) (s : State) : State :=
  if 16 ≤ b && b < 32 then runLedger s
  else if b = 32 then refillFilter { s with lt := { s.lt with refill := true } }
  else if b = 35 then rebuildPools s
  else if b = 38 then dwReturn s
  else s

/-- An accepted write of HALT_REQUEST: a bit written 0 returns its block to service, a pipeline's at the end of a load of the
control store, and one that only a load returns with that load (R57, R172, R184). -/
def writeHaltRequest (v : Nat) (s : State) : State :=
  let was := rd s oHalted
  let gone := andNot was v
  let later := if rd s oCsState = 1 then gone % 2 ^ 16 else gone &&& s.cs.dead
  let t := wr oHaltRequest v (wr oHalted (andNot was (andNot gone later)) s)
  let t := { t with cs := { t.cs with release := andNot (s.cs.release ||| later) v } }
  forEach ((List.range 39).filter gone.testBit) (fun u b => returnBlock b u) t

end Sys2Proof.Machine
end

