-- ==== Sys2Proof/Machine/Objects.lean ====
section
/-! DEFINITION. What a read of each object returns (R52, R83): the fuses, and the status objects that report the state of a
block, are read from where they live; every other object from the dictionary. -/

namespace Sys2Proof.Machine
open Sys2Proof

/-- Area, index and element of an object number. -/
def objArea (obj : Nat) : Nat := obj / 2 ^ 24
/-- INDEX. -/
def objIndex (obj : Nat) : Nat := obj / 2 ^ 8 % 2 ^ 16
/-- ELEMENT. -/
def objElem (obj : Nat) : Nat := obj % 2 ^ 8

/-- Fields, each a size in bytes and a value, as a row. -/
def packRow (l : List (Nat × Nat)) : Nat := leNat (l.map (fun e => leBytes e.1 e.2)).flatten

/-- "ULPAMO", zero-padded. -/
def vendor : Nat := leNat [0x55, 0x4C, 0x50, 0x41, 0x4D, 0x4F]

/-- The fuses and what the transport derives from them (Table 3-10, R92, R95). -/
def area00 (s : State) (obj : Nat) : Option Nat :=
  let e := objElem obj
  match objIndex obj with
  | 0 => if e = 0 then some vendor else if e = 1 then some (leNat orderCode) else if e = 2 then some (leNat stepping)
         else if e = 3 then some s.fuse.serial else none
  | 0x10 => some (nth 0 [s.fuse.writeFloors, s.fuse.factoryDisabled, s.fuse.pcieCeiling, s.fuse.pcieAuth, s.fuse.claimMin,
              s.fuse.claimMax, s.fuse.csKeyHash, s.fuse.patchEnable] e)
  | 0x20 => some (keyGen s e)
  | 0x22 => some (leNat ((sha256 (leBytes 32 (nth 0 s.fuse.roots e))).take 4))
  | 0x100 => if e = 3 then some s.fuse.mac0 else if e = 4 then some s.fuse.mac1 else if e = 5 then some s.eng.nonce else none
  | _ => none

/-- Area 08: the boot record (R603, R616). -/
def area08 (s : State) (obj row : Nat) : Option Nat :=
  if obj = oBootPolicy then some (policyRow s (row + 1))
  else if obj = oBootResult then some (resultRow s (row + 1))
  else if obj = oBootHistory then some (historyRow s row)
  else none

/-- A LANE_STATUS row: receive SNR, adaptation of the port's receiver, which goes on while the port is enabled (R149), and
signalling. The lane of a port that is absent or disabled shows its default, 0. -/
def laneStatus (s : State) (lane : Nat) : Nat :=
  let st := linkState s (portOfLane s lane)
  if st ≤ 1 then 0
  else packRow [(2, (Config.laneSnr lane s.clk.cclk).toNat), (1, if 5 ≤ st && st ≤ 7 then 2 else 1),
                (1, b2n (2 ≤ modeOf s lane))]

/-- A row of counters of a BAR2 half, `n` bytes from offset `o`. -/
def counterRow (s : State) (o n : Nat) : Nat := packRow ((List.range (n / 8)).map (fun k => (8, ctr s (o + 8 * k))))

/-- Area 10 (Table 4-5): an absent port is in link state 0 (R135). -/
def area10 (s : State) (obj row : Nat) : Option Nat :=
  let i := objIndex obj
  if i < 0x40 then (if objElem obj = 2 then some (octetState s i) else none)
  else if 0x100 ≤ i && i < 0x300 then (if objElem obj = 9 then some (linkState s (i - 0x100)) else none)
  else if obj = oLaneStatus then some (laneStatus s row)
  else if obj = oPortCounters then some (counterRow s (cPort row 0) 256)
  else none

/-- Area 18 (Table 14-2). -/
def area18 (s : State) (obj row : Nat) : Option Nat :=
  if obj = oSlewRemain then some (ofSigned 32 (slewRemain s))
  else if obj = oSynceState then some (synceState s)
  else if obj = oTsCal then some (tabGet 0 s.fuse.tsCal row)
  else if obj = oCalTime then (if s.cal.valid then some (calTime s) else none)
  else if obj = oCalState then some (calState s)
  else if obj = oRetentionHost then some (byteFld s.cal.retention (0x800 + 32 * row) 32)
  else none

/-- Area 28 (Table 6-12). -/
def area28 (s : State) (obj : Nat) : Option Nat :=
  if obj = oEmUsed then some s.lt.em.length
  else if obj = oEmOverflowUsed then some (s.lt.em.filter (fun e => overflowBase ≤ e.1)).length
  else if obj = oLpmUnitsUsed then some (unitsUsed s)
  else if obj = oNhUsed then some s.lt.nh.length
  else if obj = oRwUsed then some s.lt.rw.length
  else if obj = oEcmpSlotsUsed then some s.lt.slots.length
  else none

/-- Area 30 (Table 7-9). -/
def area30 (s : State) (obj : Nat) : Option Nat :=
  if obj = oRulesValid then some (rulesValid s)
  else if obj = oMovesRunning then some s.rb.moves.length
  else none

/-- Area 38 (Table 8-10). -/
def area38 (s : State) (obj : Nat) : Option Nat :=
  if obj = oRecordsHeld then some (recordsHeld s)
  else if obj = oAliasesHeld then some (aliasesHeld s)
  else if obj = oPinnedSlots then some (pinnedSlots s)
  else none

/-- Slots of a table that name a backend row. -/
def slotsOf (s : State) (r : Nat) : Nat :=
  let t := beOf (beRow s (activeSet s) r)
  (s.svc.slotTab.filter (fun e => e.1 / 4096 = t && e.2 = r + 1)).length

/-- Area 40 (Table 9-11). -/
def area40 (s : State) (obj row : Nat) : Option Nat :=
  if obj = oNatPoolStatus then
    some (packRow [(4, portsInUse s row), (4, portsHeld s row), (4, tabGet 0 s.svc.recovered row)])
  else if obj = oBackendStatus then
    some (packRow [(4, (be s row).records), (2, slotsOf s row), (2, effWeight s row), (8, (be s row).octets)])
  else if obj = oRebalPressure then some (b2n (s.svc.pressed.contains row))
  else none

/-- A status that reads 0, its default, until a boot step has ended: the self-test of the on-die memories that pools and queues
lie in (step 03), or of the Control Core that the governor runs in (step 02) (log entry 145). -/
def afterStep (s : State) (k v : Nat) : Nat := if rd s oBootStep ≤ k then 0 else v

/-- A POOL_STATUS row of area 48. WAITERS counts the frames and the internal requesters that wait; the cache is as far as its
moves to and from the list have brought it (R374). -/
def poolStatus (s : State) (p : Nat) : Nat :=
  packRow [(4, freeIn s p), (4, heldIn s p), (4, unmetIn s p), (4, sharedIn s p), (4, (requests s p).length),
    (2, (poolNow s p).cache.length), (1, (pool s p).lastWinner), (1, b2n (fclk s < (pool s p).rebuilt))]

/-- Area 48 (Table 10-7). -/
def area48 (s : State) (obj row : Nat) : Option Nat :=
  if obj = oStoreUsed then some (storeUsed s)
  else if obj = oPoolStatus then some (afterStep s 3 (poolStatus s row))
  else if obj = oOwnerHeld then some (packRow ((List.range 8).map (fun p => (4, heldBy s row p))))
  else if obj = oMiddleStatus then some (packRow [(2, middleHeld s row), (2, tabGet 0 s.fab.peak row)])
  else none

/-- Area 50 (Table 11-7). -/
def area50 (s : State) (obj row : Nat) : Option Nat :=
  if obj = oQueueStatus then
    some (afterStep s 3 (packRow [(4, queueDepth s row), (4, (tmQueue s row).length), (1, shiftOf s row)]))
  else none

/-- The operations of a list: on die, and those that ways hold. -/
def listOps (s : State) (l : Nat) : List DwOp := (s.dw.onDie ++ s.dw.wayHeld).filter (fun o => o.list = l)

/-- Area 58 (Table 12-4). -/
def area58 (s : State) (obj row : Nat) : Option Nat :=
  if obj = oOnDieHeld then some s.dw.onDie.length
  else if obj = oSpillHeld then some s.dw.buckets.length
  else if obj = oFarHeld then some s.dw.far.length
  else if obj = oListStatus then
    let l := listOps s row
    let first := l.foldl (fun a o => if a = 0 then o.deadline else min a o.deadline) 0
    some (packRow [(2, l.length), (2, 0), (4, (l.filter (fun o => o.notBefore ≤ s.clk.cclk)).length), (8, first)])
  else none

/-- An SQ_STATUS row. -/
def sqStatus (s : State) (q : Nat) : Nat :=
  match sq s q with
  | some x => packRow [(1, x.state), (1, x.level), (1, x.kind), (1, 0), (2, x.cq), (2, x.push), (4, x.head), (4, x.tail)]
  | none => 0

/-- A CQ_STATUS row. -/
def cqStatus (s : State) (q : Nat) : Nat :=
  match cq s q with
  | some x => packRow [(1, x.state), (1, 0), (2, x.vector), (4, x.tail), (4, x.head), (2, x.pending), (2, x.held.length)]
  | none => 0

/-- PCIE_STATUS: width and rate once step 05 has passed, device state, link state. -/
def pcieStatus (s : State) : Nat :=
  let trained := 5 < rd s oBootStep && !s.hst.absent && !s.hst.perst
  (if trained then Config.pcieWidth.toNat * 256 + Config.pcieRate.toNat * 16 else 0) + (if s.hst.d3hot then 12 else 0) +
    s.hst.link % 4

/-- Area 60 (Table 13-9). -/
def area60 (s : State) (obj row : Nat) : Option Nat :=
  if obj = oSqStatus then some (sqStatus s row)
  else if obj = oCqStatus then some (cqStatus s row)
  else if obj = oPcieStatus then some (pcieStatus s)
  else none

/-- HEALTH_REPORT (Table 15-8). A MIRROR is applied as it arrives, so MIRROR_LAG is 0. -/
def healthReport (s : State) : Nat :=
  packRow [(1, role s), (1, s.pair.claimOut), (1, s.pair.lastFail), (1, rd s oLedgerStacks), (4, s.pair.soundings), (4, 0), (4, 0),
    (8, s.pair.failTime), (8, s.clk.cclk)]

/-- Area 68 (Table 15-9). -/
def area68 (s : State) (obj : Nat) : Option Nat :=
  if obj = oPairEnableNext then some (pairMode s)
  else if obj = oPlState then some (if s.pair.partnerUp then 6 else 1)
  else if obj = oHealthReport then some (healthReport s)
  else none

/-- Area 70 (Table 16-8). -/
def area70 (s : State) (obj row : Nat) : Option Nat :=
  if obj = oGovStatus then some (afterStep s 2 (govStatus s row))
  else if obj = oSlotGateNow then some (ofSigned 8 (slotGate s row))
  else if obj = oEnergyCore then some (ctr s (cGlobal 0x100))
  else none

/-- Area 78 (Table 16-9, R587). -/
def area78 (s : State) (obj row : Nat) : Option Nat :=
  if obj = oPerfCounters then some (ctr s (perfCell row))
  else if obj = oPerfUser then some (if (rd s oPerfSelect row).testBit 25 then ctr s (perfCell row) else 0)
  else if obj = oSlotCounters then some (counterRow s (cPerf row 0x200) 80)
  else if obj = oEgressLineBits then some (ctr s (cGlobal 0x108))
  else none

/-- Area 7C (Table 17-10): EVENT_CLEAR reads 0. -/
def area7C (s : State) (obj : Nat) : Option Nat :=
  if obj = oEventSummary then some (eventSummary s) else if obj = oEventClear then some 0 else none

/-- Area 7E (Table 2-5). -/
def area7E (s : State) (obj : Nat) : Option Nat :=
  if obj = oSlackRemain then some (if setState s = 3 then (framesOf s (oldEpoch s)).length else 0)
  else if obj = oRetiredCount then some (retiredCount s)
  else none

/-- A row of an object that is read from where it lives, none where the dictionary holds it. -/
def derivedObj (s : State) (obj row : Nat) : Option Nat :=
  match objArea obj with
  | 0x00 => area00 s obj
  | 0x08 => area08 s obj row
  | 0x10 => area10 s obj row
  | 0x18 => area18 s obj row
  | 0x28 => area28 s obj
  | 0x30 => area30 s obj
  | 0x38 => area38 s obj
  | 0x40 => area40 s obj row
  | 0x48 => area48 s obj row
  | 0x50 => area50 s obj row
  | 0x58 => area58 s obj row
  | 0x60 => area60 s obj row
  | 0x68 => area68 s obj
  | 0x70 => area70 s obj row
  | 0x78 => area78 s obj row
  | 0x7C => area7C s obj
  | 0x7E => area7E s obj
  | _ => none

/-- A row of an object as a read returns it; none where it is unset (R16). -/
def readObj (s : State) (set obj row : Nat) : Option Nat :=
  match derivedObj s obj row with
  | some v => some v
  | none => rdOpt s set obj row

/-- The bytes of a row as little-endian fields. -/
def rowBytes (s : State) (set obj row n : Nat) : Option Bytes := (readObj s set obj row).map (leBytes n)

end Sys2Proof.Machine
end

