-- ==== Sys2Proof/Machine/DictRules.lean ====
section
/-! DEFINITION. The checks of a dictionary request (chapter 3): of the message, of each item, and of a compound write. -/

namespace Sys2Proof.Machine
open Sys2Proof

/-! ### Value ranges (step 7 of Table 3-7, R663) -/

/-- R128: an EtherType the transport may use. -/
def etherTypeOk (v : Nat) : Bool := 0x600 ≤ v && !([0x800, 0x806, 0x86DD, 0x8100, 0x88A8, 0x88F7] : List Nat).contains v

/-- An S32 field within ± `m`. -/
def within32 (v o : Nat) (m : Int) : Bool := let x := toSigned 32 (byteFld v o 4); -m ≤ x && x ≤ m

/-- A burst of a policer (Table 11-1). -/
def burstOk (v : Nat) : Bool := 9748 ≤ v && v ≤ 16777216

/-- A PATCH_TABLE row names a store (Table 5-6). -/
def patchFieldsOk (v : Nat) : Bool := byteFld v 0 1 ≤ 1 && byteFld v 1 1 ≤ 3

/-- The fields of a NAT_POOLS row (Table 9-3); the ranges hold for an unused row too (log entry 121). -/
def natRowOk (v : Nat) : Bool :=
  byteFld v 0 1 ≤ 1 && byteFld v 1 1 ≤ 1 && (List.range 7).any (fun k => byteFld v 2 2 = 64 * 2 ^ k) && 1024 ≤ byteFld v 4 2 &&
    byteFld v 6 2 ≤ 4095 && 1 ≤ byteFld v 8 4 && 1 ≤ byteFld v 0xC 4 && byteFld v 0xC 4 ≤ 65536 && byteFld v 0x30 4 ≤ 600000

/-- The fields of a BACKEND_TABLES row (Table 9-5). -/
def backendTableOk (v : Nat) : Bool :=
  byteFld v 0 1 ≤ 1 && byteFld v 1 1 ≤ 1 && byteFld v 3 1 ≤ 2 && byteFld v 8 1 ≤ 2 && 10 ≤ byteFld v 9 1 &&
    byteFld v 9 1 ≤ 100 && 100 ≤ byteFld v 0xA 2 && byteFld v 0xA 2 ≤ 1000

/-- The fields of a BACKENDS row (Table 9-6). -/
def backendRowOk (v : Nat) : Bool := (byteFld v 0 2 ≤ 255 || byteFld v 0 2 = 0xFFFF) && 1 ≤ byteFld v 2 1

/-- POOL_BUFFERS of a pool (R366). -/
def poolBuffersOk (p v : Nat) : Bool := 1024 ≤ v && v ≤ 2097151 && (p ≠ 7 || 4096 ≤ v)

/-- A QUEUE_CONFIG row (Table 11-2). -/
def queueRowOk (v : Nat) : Bool :=
  16384 ≤ byteFld v 0 4 && byteFld v 0 4 ≤ 16777216 && byteFld v 4 4 ≤ byteFld v 0 4 && 1 ≤ byteFld v 8 2 &&
    byteFld v 8 2 ≤ 4096 && byteFld v 0xA 1 ≤ 3 && byteFld v 0xB 1 ≤ 9

/-- A POLICERS row's fields (Table 11-1). -/
def policerFieldsOk (v : Nat) : Bool :=
  byteFld v 0 1 ≤ 1 && (byteFld v 1 1 ≤ 63 || (byteFld v 1 1 = 0xFF && byteFld v 0 1 = 0)) &&
    (byteFld v 2 1 ≤ 7 || byteFld v 2 1 = 0xFF) && burstOk (byteFld v 8 4) && burstOk (byteFld v 0x10 4)

/-- A GATE_CONTROL row (Table 11-4). -/
def gateRowOk (v : Nat) : Bool :=
  byteFld v 0 2 ≤ 256 && byteFld v 2 1 ≤ 128 && byteFld v 8 4 < 1000000000 && 1000 ≤ byteFld v 4 4 &&
    byteFld v 4 4 ≤ 1000000000

/-- A GATE_LISTS row (Table 11-5). -/
def gateEntryOk (v : Nat) : Bool := 100 ≤ byteFld v 0 4 && byteFld v 0 4 ≤ 1000000000

/-- A MIRROR_SESSIONS row (R423). -/
def sessionOk (v : Nat) : Bool :=
  byteFld v 0 1 ≤ 2 && byteFld v 1 1 ≤ 7 && byteFld v 2 2 ≤ 511 && 64 ≤ byteFld v 4 2 && byteFld v 4 2 ≤ 9728

/-- The ranges that are rules: one value or row alone. -/
def ruleOk (obj row v : Nat) : Bool :=
  if obj = oMirtyEthertype then etherTypeOk v
  else if obj = oBootPolicy then policyOk (row + 1) v
  else if obj = oPlRxMap || obj = oPlTxMap then laneMapOk v
  else if objArea obj = 0x10 then laneMapOk v
  else if obj = oTimeIncrement then incrementOk v
  else if obj = oSynceSource then v ≤ 511 || v = 0xFFFF
  else if obj = oTsTrim then within32 v 0 6553600 && within32 v 4 6553600
  else if obj = oPatchTable then patchFieldsOk v
  else if obj = oLf6Shift then 64 ≤ v && v ≤ 120 && v % 8 = 0
  else if obj = oSearchProfile then (List.range 4).all (fun g => groupSeg v g ≤ 7)
  else if obj = oAgeClasses then (List.range 7).all (fun k => byteFld v (4 * k) 4 ≤ 86400000)
  else if obj = oNatPools then natRowOk v
  else if obj = oBackendTables then backendTableOk v
  else if obj = oBackends then backendRowOk v
  else if obj = oPoolBuffers then poolBuffersOk row v
  else if obj = oQueueConfig then queueRowOk v
  else if obj = oShapers then 9748 ≤ byteFld v 4 4 && 9748 ≤ byteFld v 0xC 4
  else if obj = oPolicers then policerFieldsOk v
  else if obj = oColourMaps then (List.range 32).all (fun k => fld v (2 * k) 2 ≤ 2)
  else if obj = oGateControl then gateRowOk v
  else if obj = oGateLists then gateEntryOk v
  else if obj = oMirrorSessions then sessionOk v
  else if obj = oDwKind then dwKindOk row v
  else if obj = oGovKnobs then knobOk row v
  else if obj = oPerfSelect then perfSelectOk row v
  else if obj = oPreciseConfig then preciseConfigOk v
  else if obj = oEventRoute then v >>> 16 ≤ 2047
  else true

/-- Step 7: the range of an object on one value or row alone. -/
def rangeOk (r : Range) (obj row v : Nat) : Bool :=
  match r with
  | .any => true
  | .within lo hi => lo ≤ v && v ≤ hi
  | .zeroOr lo hi => v = 0 || (lo ≤ v && v ≤ hi)
  | .signed w lo hi => lo ≤ toSigned w v && toSigned w v ≤ hi
  | .time => v % 2 ^ 32 < 1000000000
  | .rule => ruleOk obj row v

/-! ### Rules that depend on state (step 9, R663) -/

/-- R173 to R175, R168: the code a write in area 20 meets. -/
def storeCode (s : State) (obj row v : Nat) : Nat :=
  if obj = oCsLoad then csLoadCode s
  else if obj = oPatchTable && s.fuse.patchEnable = 0 then 0x80
  else if (obj = oPatchTable || obj = oCsStage) && rd s oCsState = 1 then 0x83
  else if obj = oPatchTable then patchCode s (shadowSet s) row v
  else 0

/-- R129: the code a write of KEY_REVOKE meets. At generation 32 both codes apply to another value; the model answers "revoke
exhausted" (DESIGN CHOICE, log entry 134). -/
def revokeCode (s : State) (level v : Nat) : Nat :=
  if 32 ≤ keyGen s level then 0x10 else if v ≠ keyGen s level then 0x0F else 0

/-- R538: the code a write of PAIR_YIELD meets. -/
def yieldCode (s : State) (v : Nat) : Nat :=
  if v ≠ 1 then 0 else if role s ≠ 4 then 0x81 else if s.pair.partnerRole ≠ 3 then 0x80 else 0

/-- Step 9 in area 18 (R498, R514). -/
def timeCode (s : State) (obj row v : Nat) : Nat :=
  if obj = oTimeStep && !stepOk s (toSigned 64 v) then 0x0B
  else if obj = oTxsReadIndex && !txsReadOk s row v then 0x0B
  else 0

/-- Step 9 in area 68: R531, R538, R271. -/
def pairCode (s : State) (obj v : Nat) : Nat :=
  if obj = oPairClaim then (if s.fuse.claimMin ≤ v && v ≤ s.fuse.claimMax then 0 else 0x0B)
  else if obj = oPairYield then yieldCode s v
  else if obj = oFlowHashSeed && recordsHeld s ≠ 0 then 0x16
  else 0

/-- What a write of POOL_BUFFERS would leave in a pool, by the rows of the whole message. -/
def poolAfter (s : State) (rows : List (Nat × Nat)) (p : Nat) : Nat :=
  match rows.find? (fun r => r.1 = p) with
  | some r => r.2
  | none => poolBuffers s p

/-- R368, R674: the code a write of POOL_BUFFERS meets. -/
def poolCode (s : State) (rows : List (Nat × Nat)) : Nat :=
  let total := (List.range 8).foldl (fun a p => a + regionBytes p (poolAfter s rows p)) 0
  let low := ((List.range 8).find? (fun p => poolAfter s rows p ≠ poolBuffers s p)).getD 8
  if 150994944 < total then 0x80
  else if (List.range 8).any (fun p => low ≤ p && heldIn s p ≠ 0) then 0x81
  else 0

/-- Step 9 in areas 7E and 7C to 78: R62, R82, R56, R592. -/
def controlCode (s : State) (obj v : Nat) : Nat :=
  if obj = oTurnRequest || obj = oStepRequest then turnCode s v
  else if obj = oSnapRequest && v = 1 && snapBusy s then 0x18
  else if obj = oHaltRequest then haltCode s v
  else 0

/-- Step 9: the rules of the owning chapter that depend on state or on other objects; `pools` are the rows of POOL_BUFFERS that
the whole message writes. -/
def stateCode (s : State) (pools : List (Nat × Nat)) (obj row v : Nat) : Nat :=
  match objArea obj with
  | 0x00 => if objIndex obj = 0x21 then revokeCode s (objElem obj) v else 0
  | 0x08 => if obj = oBootContinue && !continueOk s v then 0x80 else 0
  | 0x10 => octetWriteCode s obj v
  | 0x18 => timeCode s obj row v
  | 0x20 => storeCode s obj row v
  | 0x28 => if obj = oLtHashSeed && !seedWritable s then 0x80 else 0
  | 0x40 => if obj = oBackendState && backendUnused s row v then 0x80 else 0
  | 0x48 => if obj = oPoolBuffers then poolCode s pools else 0
  | 0x50 => if obj = oCapReadIndex && !capReadOk s v then 0x0B else 0
  | 0x58 => if obj = oRefillMark && !refillMarkOk s v then 0x0B else 0
  | 0x60 => adminWriteCode s obj v
  | 0x68 => pairCode s obj v
  | 0x78 => if obj = oPreciseReadIndex && !preciseReadOk s v then 0x0B else 0
  | 0x7E => controlCode s obj v
  | _ => 0

/-! ### The message (R99 to R101, R107) -/

/-- COUNT of an opcode (Table 3-6). -/
def countOk (opcode cnt : Nat) : Bool :=
  if opcode = 2 || opcode = 5 then cnt = 1 else if opcode = 6 then cnt = 0 else 1 ≤ cnt && cnt ≤ 64

/-- Rows an item covers: at least one. -/
def rowsSpan (i : Item) : Nat :=
  match objDesc (Item.obj i) with
  | some d => max 1 (ceilDiv i.vlen d.type.size)
  | none => 1

/-- The object is a TABLE. -/
def isTable (obj : Nat) : Bool := match objDesc obj with
  | some d => (match d.type with
    | .table _ _ => true
    | _ => false)
  | none => false

/-- R100: two items of a write name one object, or overlapping rows of a TABLE. -/
def clash (a b : Item) : Bool :=
  Item.obj a = Item.obj b &&
    (!isTable (Item.obj a) || (a.row < b.row + rowsSpan b && b.row < a.row + rowsSpan a))

/-- Some two items of a write clash. -/
def clashes : List Item → Bool
  | [] => false
  | a :: t => t.any (clash a) || clashes t

/-- R100: the whole message is rejected. A request's STATUS, FAIL_ITEM and DETAIL are zero as its reserved fields are. -/
def badRequest (m : Msg) : Bool :=
  m.flags &&& 0xF3 ≠ 0 || 2 ≤ fld m.flags 2 2 || m.status ≠ 0 || m.failItem ≠ 0 || m.detail ≠ 0 || m.reserved ≠ 0 ||
    m.items.any (fun i => i.istatus ≠ 0 || i.reserved ≠ 0) || !countOk m.opcode m.count || m.items.length ≠ m.count ||
    !m.exact || ((m.opcode = 2 || m.opcode = 3) && clashes m.items)

/-- R107, R123, R94: the highest level a message may name on a path. -/
def allowance (s : State) (o : Origin) : Nat :=
  let own := match o.path with
    | .mgmt _ => o.keyLevel
    | .mailbox => if pcieAuth s then min o.keyLevel s.fuse.pcieCeiling else s.fuse.pcieCeiling
    | .queue q => if pcieAuth s then 0 else if q = partnerSq then o.keyLevel else sqLevel s q
    | .pairLink => 3
  if s.fuse.factoryDisabled = 1 then min own 2 else own

/-- A length with the padding of R98. -/
def padded (n : Nat) : Nat := n + padOf n

/-- R101: the message, the values of a compound write, or a read's response is too large. The size of a response is reckoned
before any item is read, from the VLEN that each item asks for, those included that fail or whose list ends early (DESIGN
CHOICE, log entry 134). -/
def tooLarge (m : Msg) : Bool :=
  8160 < 16 + m.length || (m.opcode = 3 && 4096 < m.items.foldl (fun a i => a + i.vlen) 0) ||
    ((m.opcode = 1 || m.opcode = 4 || m.opcode = 5) &&
      8160 < 16 + m.items.foldl (fun a i => a + 12 + padded (if m.opcode = 4 then 12 else i.vlen)) 0)

/-- The message-level checks in their order, the first having been made on arrival. -/
def messageCode (s : State) (o : Origin) (m : Msg) : Nat :=
  if m.opcode = 0 || 6 < m.opcode then 0x01
  else if badRequest m then 0x02
  else if allowance s o < m.level then 0x08
  else if tooLarge m then 0x0C
  else 0

/-! ### Items (Table 3-7) -/

/-- R85: the value length of an item is the one its type gives. -/
def lengthOk (t : ObjType) (vlen : Nat) : Bool :=
  match t with
  | .table r _ => 0 < vlen && vlen % r = 0
  | _ => vlen = t.size

/-- R88: the rows of an item exist. -/
def rowsOk (t : ObjType) (row vlen : Nat) : Bool :=
  match t with
  | .table r n => row + vlen / r ≤ n
  | _ => row = 0

/-- The set an item of a read is read from (R52): shadowed objects by the selector, others where they are held. -/
def readSet (s : State) (d : ObjDesc) (sel : Nat) : Nat :=
  if d.change = .shadow then (if sel = 1 then shadowSet s else activeSet s) else 0

/-- The bytes of the rows of an item, none where one of them is unset (R16). -/
def readRows (s : State) (set obj size : Nat) : List Nat → Option Bytes
  | [] => some []
  | r :: t => match rowBytes s set obj r size, readRows s set obj size t with
    | some a, some b => some (a ++ b)
    | _, _ => none

/-- One item of a READ: its code, or its value. -/
def readItem (s : State) (level sel : Nat) (i : Item) : Nat ⊕ Bytes :=
  match objDesc (Item.obj i) with
  | none => .inl 0x03
  | some d =>
    if level < d.readLevel then .inl 0x07
    else if !lengthOk d.type i.vlen then .inl 0x05
    else if !rowsOk d.type i.row i.vlen then .inl 0x06
    else match readRows s (readSet s d sel) (Item.obj i) d.type.size
        ((List.range (i.vlen / d.type.size)).map (i.row + ·)) with
      | some b => .inr b
      | none => .inl 0x04

/-- Code of a change class in a description. -/
def Change.code : Change → Nat
  | .none => 0
  | .live => 1
  | .shadow => 2
  | .halt => 3

/-- The description of an object, little-endian. -/
def description (d : ObjDesc) : Bytes :=
  leBytes 1 d.type.code ++ leBytes 1 (d.readLevel * 16 + d.writeLevel.getD 15) ++ leBytes 1 d.change.code ++
    leBytes 1 d.group ++ leBytes 4 d.type.size ++ leBytes 4 d.type.rows

/-- One item of a DESCRIBE (R657). -/
def describeItem (i : Item) : Nat ⊕ Bytes :=
  match objDesc (Item.obj i) with
  | none => .inl 0x03
  | some d => if i.vlen ≠ 12 then .inl 0x05 else if i.row ≠ 0 then .inl 0x06 else .inr (description d)

/-- Object numbers of one row of a dictionary table. -/
def descNumbers (d : ObjDesc) : List Nat :=
  ((List.range (d.hi + 1 - d.lo)).map (fun k =>
    (List.range (d.e1 + 1 - d.e0)).map (fun e => d.area * 2 ^ 24 + (d.lo + k) * 2 ^ 8 + d.e0 + e))).flatten

/-- The `n` least elements of a list above `from_`, ascending; at most `n` of them. -/
def ascending (l : List Nat) : Nat → Nat → List Nat
  | _, 0 => []
  | from_, n + 1 =>
    match l.foldl (fun best x => if x < from_ then best else match best with
        | none => some x
        | some b => if x < b then some x else some b) none with
    | some x => x :: ascending l (x + 1) n
    | none => [0xFFFFFFFF]

/-- One item of an ENUMERATE (R658). -/
def enumerateItem (i : Item) : Nat ⊕ Bytes :=
  if (areaPos i.area).isNone then .inl 0x03
  else if i.vlen = 0 || i.vlen % 4 ≠ 0 then .inl 0x05
  else if i.row ≠ 0 then .inl 0x06
  else .inr ((ascending ((objsOf i.area).map descNumbers).flatten (Item.obj i) (i.vlen / 4)).map (leBytes 4)).flatten

/-- The rows an item of a write gives, each with its value. -/
def itemRows (d : ObjDesc) (i : Item) : List (Nat × Nat) :=
  (List.range (i.vlen / d.type.size)).map (fun k => (i.row + k, leAt i.value (k * d.type.size) d.type.size))

/-- R543, Table 15-5: the object is mirrored in a pair. -/
def mirroredObj (obj : Nat) : Bool :=
  let i := objIndex obj
  let e := objElem obj
  match objArea obj with
  | 0x10 => !(i < 0x40 && 3 ≤ e && e ≤ 5) && obj ≠ oLaneTxEq
  | 0x18 => obj ≠ oTsTrim && obj ≠ oTsCal && i ≠ 0x30 && i ≠ 0x31
  | 0x68 => i = 1
  | 0x20 => true
  | 0x28 => true
  | 0x30 => true
  | 0x38 => true
  | 0x40 => true
  | 0x48 => true
  | 0x50 => true
  | 0x58 => true
  | 0x7E => true
  | _ => false

/-- R93: the lowest level that the write floor of an area allows. -/
def writeFloor (s : State) (area : Nat) : Nat :=
  match areaPos area with
  | some k => fld s.fuse.writeFloors (2 * k) 2
  | none => 0

/-- R54: what must be halted for an H object to be written is halted. -/
def haltOk (s : State) (d : ObjDesc) (obj : Nat) : Bool :=
  match d.owner with
  | .none => true
  | .octet => octetState s (if objIndex obj < 0x40 then objIndex obj else (objIndex obj - 0x100) / 8) = 0
  | .bit n => halted s n
  | .pipelines => pipesHalted s

/-- Step 8: R53, R54, and for WRITE only R58; the code with its DETAIL. -/
def classCode (s : State) (single : Bool) (d : ObjDesc) (obj : Nat) : Nat × Nat :=
  if d.change = .shadow then (if setState s ≠ 0 then (0x11, 0) else (0, 0))
  else if d.change = .halt && !haltOk s d obj then (0x14, 0)
  else if single && d.group ≠ 0 then (0x15, d.group)
  else (0, 0)

/-- The rows of POOL_BUFFERS that a message writes. -/
def poolRows (items : List Item) : List (Nat × Nat) :=
  match objDesc oPoolBuffers with
  | some d => ((items.filter (fun i => Item.obj i = oPoolBuffers)).map (itemRows d)).flatten
  | none => []

/-- One item of a write (Table 3-7): its code and DETAIL. Table 3-7 does not place the rejection of R543, which has the code of
step 3; the model makes it there (DESIGN CHOICE, log entry 134). -/
def writeCode (s : State) (path : Path) (level : Nat) (single : Bool) (pools : List (Nat × Nat)) (i : Item) : Nat × Nat :=
  let obj := Item.obj i
  match objDesc obj with
  | none => (0x03, 0)
  | some d =>
    match d.writeLevel with
    | none => (0x09, 0)
    | some w =>
      let rows := itemRows d i
      if level < max w (writeFloor s i.area) || (follows s && mirroredObj obj && path ≠ .pairLink) then (0x07, 0)
      else if !lengthOk d.type i.vlen then (0x05, 0)
      else if !rowsOk d.type i.row i.vlen then (0x06, 0)
      else if rows.any (fun r => r.2 &&& d.reserved ≠ 0) then (0x0A, 0)
      else if rows.any (fun r => !rangeOk d.range obj r.1 r.2) then (0x0B, 0)
      else
        let c := classCode s single d obj
        if c.1 ≠ 0 then c
        else (((rows.map (fun r => stateCode s pools obj r.1 r.2)).find? (· ≠ 0)).getD 0, 0)

/-- The first failing item of a write: its place, code and DETAIL. -/
def firstFailing (s : State) (path : Path) (level : Nat) (single : Bool) (pools : List (Nat × Nat)) :
    Nat → List Item → Option (Nat × Nat × Nat)
  | _, [] => none
  | n, i :: t =>
    let c := writeCode s path level single pools i
    if c.1 ≠ 0 then some (n, c.1, c.2) else firstFailing s path level single pools (n + 1) t

/-! ### Compound writes (R59 to R61) -/

/-- R61: S objects and others in one message. -/
def mixedClasses (items : List Item) : Bool :=
  items.any (fun i => isShadow (Item.obj i)) && items.any (fun i => !isShadow (Item.obj i))

/-- The rows an item names, each with its object. -/
def touchedRows (i : Item) : List (Nat × Nat) := (List.range (rowsSpan i)).map (fun k => (Item.obj i, i.row + k))

/-- Group number of an object. -/
def groupOf (obj : Nat) : Nat := match objDesc obj with
  | some d => d.group
  | none => 0

/-- Octet of an object of G1. -/
def g1Octet (obj : Nat) : Nat := if objIndex obj < 0x40 then objIndex obj else (objIndex obj - 0x100) / 8

/-- One touched row of a group agrees, on the values that stand in `s`; `set` is where shadowed objects are written. -/
def touchedOk (s : State) (set obj row : Nat) : Bool :=
  match groupOf obj with
  | 1 => g1Ok s (g1Octet obj)
  | 2 => ratesOk (shaperRates (rd s oShapers row))
  | 3 => policerOk (rdSet s set oPolicers row)
  | 4 => gateOk s set (if obj = oGateLists then row / 256 else row)
  | 8 => g8Ok s set (objIndex obj - 0x100)
  | _ => true

/-- R60: every group of a number that a compound write touches agrees. -/
def groupOk (s : State) (set : Nat) (objs : List (Nat × Nat)) (g : Nat) : Bool :=
  let mine := objs.filter (fun e => groupOf e.1 = g)
  if g = 5 then mine.isEmpty || g5Ok s set
  else if g = 6 then mine.isEmpty || g6Values s set
  else if g = 7 then mine.isEmpty || [oFlowHashSeed, oEcmpSeed, oSampleSeed].all (fun o => mine.any (fun e => e.1 = o))
  else if g = 9 then mine.isEmpty || (List.range 8).all (minimaOk s)
  else mine.all (fun e => touchedOk s set e.1 e.2)

/-- R60: the lowest group that fails on the values that would result, 0 where none does. -/
def groupCode (s : State) (set : Nat) (items : List Item) : Nat :=
  let objs := (items.map touchedRows).flatten
  ((List.range 10).find? (fun g => g ≠ 0 && !groupOk s set objs g)).getD 0

end Sys2Proof.Machine
end

