-- ==== Sys2Proof/Machine/Dictionary.lean ====
section
/-! DEFINITION. The dictionary engine (chapter 3): what an accepted write does at its live point, the answers of the six
opcodes, and the order in which requests are served. -/

namespace Sys2Proof.Machine
open Sys2Proof

/-! ### The effect of a written value (R47 to R59) -/

/-- R129: the generation of a level ends. -/
def revokeKey (level : Nat) (s : State) : State :=
  { s with fuse := { s.fuse with gens := setNth s.fuse.gens level (keyGen s level + 1) } }

/-- R127: a changed bit of MGMT_MODE restarts the link of its port 1 ms after the response. -/
def writeMgmtMode (v : Nat) (s : State) : State :=
  let changed := rd s oMgmtMode ^^^ v
  forEach ((List.range 2).filter changed.testBit) (fun t n => setMgmt n { mgmt t n with restartDue := true } t) (wr oMgmtMode v s)

/-- A write in area 00. -/
def put00 (obj v : Nat) (s : State) : State :=
  if objIndex obj = 0x21 then revokeKey (objElem obj) (wr obj v s)
  else if obj = oMgmtMode then writeMgmtMode v s
  else wr obj v s

/-- A write in area 08; RESET_REQUEST acts once its message is answered (R596). -/
def put08 (obj row v : Nat) (s : State) : State :=
  if obj = oBootPolicy then putPolicy (row + 1) v s
  else if obj = oBootContinue then bootContinue v s
  else wrRow obj row v s

/-- A write in area 10 of an object that is not shadowed. -/
def put10 (obj row v : Nat) (s : State) : State :=
  let i := objIndex obj
  if i < 0x40 && objElem obj = 0 then writeOctetEnable i v s
  else if 0x100 ≤ i && i < 0x300 && objElem obj = 0 then writePortEnable (i - 0x100) v s
  else if obj = oLaneTxEq then writeLaneTxEq row v s
  else wrRow obj row v s

/-- A write in area 18. -/
def put18 (obj row v : Nat) (s : State) : State :=
  if obj = oTimeSet then writeTimeSet v s
  else if obj = oTimeStep then writeTimeStep v s
  else if obj = oTimeSlew then writeTimeSlew v s
  else if obj = oTimeLatch then writeTimeLatch v s
  else if obj = oPpsOutEnable then writePpsOutEnable v s
  else if obj = oSynceFreq || obj = oSynceSource then synceEval (wr obj v s)
  else if obj = oCalSet then writeCalSet v s
  else if obj = oCalSync then writeCalSync v s
  else if obj = oRetentionHost then setRetention (setByteFld s.cal.retention (0x800 + 32 * row) 32 v) s
  else wrRow obj row v s

/-- A write in area 28: the filter follows its settings when the block leaves its halt (R212). -/
def put28 (obj row v : Nat) (s : State) : State :=
  if obj = oLfGroup || obj = oLf6Shift then filterStale (wrRow obj row v s) else wrRow obj row v s

/-- A write in area 60. -/
def put60 (obj row v : Nat) (s : State) : State :=
  if obj = oAdminEnable then writeAdminEnable v s
  else if obj = oLtrLatency then emit (.ltr v) (wr obj v s)
  else wrRow obj row v s

/-- PAIR_YIELD of 1 on the active (R538): one cycle of 0x00, then role 3. -/
def yieldClaim (s : State) : State := setRole 3 (setPair { s.pair with yielding := true } s)

/-- A write in area 68. PAIR_ENABLE takes effect at the next reset (R529). -/
def put68 (obj row v : Nat) (s : State) : State :=
  if obj = oPairEnable then putPairMode v s
  else if obj = oPairYield then when (v = 1) yieldClaim (wr obj v s)
  else if obj = oPairRejoin then when (v = 1 && role s = 5) (setRole 1) (wr obj v s)
  else wrRow obj row v s

/-- A write of EVENT_CLEAR (R622): a source raised in the same MCLK cycle stays pending. -/
def clearEvents (group bits : Nat) (s : State) : State :=
  let keep (b : Nat) : Bool := tabGet 0 s.ev.lastMclk (32 * group + b) = mclk s + 1
  wrRow oEventPending group
    (((List.range 32).filter (fun b => bits.testBit b && !keep b)).foldl (fun a b => clearBit a b) (rd s oEventPending group)) s

/-- A write of EVENT_ENABLE or EVENT_ROUTE: a group whose routed sources come to be pending signals (R623). -/
def put7C (obj row v : Nat) (s : State) : State :=
  if obj = oEventClear then clearEvents row v s
  else if obj = oEventEnable then sendGroupVectors s [row] (wrRow obj row v s)
  else wrRow obj row v s

/-- A write in area 7E; a turn or step that an earlier item of the message has started is not started again. -/
def put7E (r : Option Req) (obj v : Nat) (s : State) : State :=
  if obj = oTurnRequest then when (setState s = 0) (beginTurn r) (wr obj v s)
  else if obj = oStepRequest then when (setState s = 0) (beginStep r) (wr obj v s)
  else if obj = oSnapRequest then when (v = 1) (capture 0) (wr obj v s)
  else if obj = oHaltRequest then writeHaltRequest v s
  else wr obj v s

/-- A write of a row of the shadow set; what was marked corrupt in it is whole again (R626), and so is the bucket of a policer
whose burst it changes. -/
def putShadow (obj row v : Nat) (s : State) : State :=
  let set := shadowSet s
  let s := when (obj = oPolicers) (refillPolicer row (rdSet s set oPolicers row) v) s
  wrSet set obj row v { s with ep := { s.ep with corrupt := s.ep.corrupt.erase (dictKey set obj row) } }

/-- One value takes effect. -/
def putValue (r : Option Req) (obj row v : Nat) (s : State) : State :=
  if isShadow obj then putShadow obj row v s
  else match objArea obj with
    | 0x00 => put00 obj v s
    | 0x08 => put08 obj row v s
    | 0x10 => put10 obj row v s
    | 0x18 => put18 obj row v s
    | 0x20 => if obj = oCsLoad then writeCsLoad v s else wrRow obj row v s
    | 0x28 => put28 obj row v s
    | 0x40 => if obj = oBackendState then writeBackendState row v s else wrRow obj row v s
    | 0x58 => if obj = oSpillGrain then writeSpillGrain v s else wrRow obj row v s
    | 0x60 => put60 obj row v s
    | 0x68 => put68 obj row v s
    | 0x70 => if obj = oGovKnobs then writeGovKnobs row v s else wrRow obj row v s
    | 0x78 => if obj = oPerfSelect then writePerfSelect row v s
              else if obj = oPreciseConfig then writePreciseConfig v s else wrRow obj row v s
    | 0x7C => put7C obj row v s
    | 0x7E => put7E r obj v s
    | _ => wrRow obj row v s

/-- The values of an item. -/
def putItem (r : Option Req) (i : Item) (s : State) : State :=
  match objDesc (Item.obj i) with
  | some d => forEach (itemRows d i) (fun t e => putValue r (Item.obj i) e.1 e.2 t) s
  | none => s

/-- Every item of a message, at one live point (R59). -/
def putItems (r : Option Req) (items : List Item) (s : State) : State := forEach items (fun t i => putItem r i t) s

/-- The values of a message alone, in the registers: what the groups of a compound write are checked on (R60). -/
def plainItems (items : List Item) (s : State) : State :=
  forEach items (fun t i => match objDesc (Item.obj i) with
    | some d => forEach (itemRows d i)
        (fun u e => wrSet (if d.change = .shadow then shadowSet s else 0) (Item.obj i) e.1 e.2 u) t
    | none => t) s

/-! ### Writes -/

/-- What a write comes to before anything changes: STATUS, FAIL_ITEM and DETAIL (R102 to R104). -/
def writeVerdict (s : State) (path : Path) (m : Msg) : Nat × Nat × Nat :=
  match firstFailing s path m.level (m.opcode = 2) (poolRows m.items) 0 m.items with
  | some (n, code, detail) => (code, n, detail)
  | none =>
    if m.opcode = 3 && mixedClasses m.items then (0x0D, 0xFF, 0)
    else
      let g := if m.opcode = 3 then groupCode (plainItems m.items s) (shadowSet s) m.items else 0
      if g ≠ 0 then (0x15, 0xFF, g) else (0, 0xFF, 0)

/-- An item names an object. -/
def names (obj : Nat) (i : Item) : Bool := Item.obj i = obj

/-- A message starts a turn or step: its answer waits for the turn (R126). -/
def asksTurn (m : Msg) : Bool := m.items.any (fun i => names oTurnRequest i || names oStepRequest i)

/-- A message resets the device once it is answered (R596). -/
def asksReset (m : Msg) : Bool := m.items.any (names oResetRequest)

/-- An accepted write at its live point, and its answer. -/
def applyWrite (o : Origin) (m : Msg) (s : State) : State :=
  let t := putItems (some ⟨o, m⟩) m.items s
  if asksTurn m then
    if m.items.any (names oMirtyEthertype) then { t with ep := { t.ep with oldType := some (rd s oMirtyEthertype) } } else t
  else
    let t := respondAs s o (answer m 0 0xFF 0 []) t
    if asksReset m then deviceReset 3 t else t

/-- R544: an accepted write of mirrored objects is forwarded, and takes effect in both units 4,096 CCLK later. -/
def laterWrite (o : Origin) (m : Msg) (s : State) : State :=
  let at_ := s.clk.cclk + 4096
  let items := m.items.filter (fun i => mirroredObj (Item.obj i))
  let f : Msg := { m with count := items.length, items := items, length := items.foldl (fun a i => a + itemBytes i) 0 }
  let due : PairDue := { at_ := at_, req := some ⟨o, m⟩ }
  sendPair 4 (beBytes 8 at_ ++ writeMsg true f) (setPair { s.pair with due := s.pair.due ++ [due] } s)

/-- The write goes by R544; a turn or step is agreed by CONTROL messages instead (R547). -/
def forwarded (s : State) (m : Msg) : Bool :=
  partnerFollows s && !asksTurn m && m.items.any (fun i => mirroredObj (Item.obj i))

/-- Serve a WRITE or COMPOUND_WRITE. -/
def serveWrite (o : Origin) (m : Msg) (s : State) : State :=
  let v := writeVerdict s o.path m
  if v.1 ≠ 0 then respond o (answer m v.1 v.2.1 v.2.2 []) (areaOf m v.2.1) s
  else if forwarded s m then laterWrite o m s
  else applyWrite o m s

/-! ### Reads -/

/-- An item as a read response carries it. -/
def replyItem (i : Item) (r : Nat ⊕ Bytes) : Item :=
  match r with
  | .inl c => { i with vlen := 0, istatus := c, value := [] }
  | .inr b => { i with vlen := b.length, istatus := 0, value := b }

/-- The answer with items (R103): STATUS and FAIL_ITEM of the first failed one. -/
def replyItems (m : Msg) (f : Item → Nat ⊕ Bytes) : Msg :=
  let items := m.items.map (fun i => replyItem i (f i))
  match items.findIdx? (fun i => i.istatus ≠ 0) with
  | some n => answer m ((items[n]?.map (·.istatus)).getD 0) n 0 items
  | none => answer m 0 0xFF 0 items

/-- The answer of a READ, DESCRIBE, ENUMERATE or ECHO. -/
def readReply (s : State) (m : Msg) : Msg :=
  if m.opcode = 1 then replyItems m (readItem s m.level (fld m.flags 2 2))
  else if m.opcode = 4 then replyItems m describeItem
  else if m.opcode = 5 then replyItems m enumerateItem
  else answer m 0 0xFF 0 []

/-- R477: a response that neither the completion nor the response buffer of a DICT command takes. -/
def noRoomFor (o : Origin) (r : Msg) : Bool :=
  match o.path with
  | .queue _ => 1008 < 16 + r.length && (o.respMax < 16 + r.length || o.respAddr = 0)
  | _ => false

/-- Serve a message that changes nothing. -/
def serveRead (o : Origin) (m : Msg) (s : State) : State :=
  let r := readReply s m
  if noRoomFor o r then respond o (answer m 0x0C 0xFF 0 []) 0 s else respond o r (areaOf m r.failItem) s

/-! ### Service and order (R50, R124, R125) -/

/-- Serve a request: its message checks, then its items. -/
def serve (o : Origin) (m : Msg) (s : State) : State :=
  let s := wr oRequests ((rd s oRequests + 1) % 2 ^ 64) s
  let c := messageCode s o m
  if c ≠ 0 then respond o (answer m c 0xFF 0 []) 0 s
  else if m.opcode = 2 || m.opcode = 3 then serveWrite o m s
  else serveRead o m s

/-- The engine waits for the later live point of a write of its own (R544, R50). -/
def engineWaits (s : State) : Bool := s.pair.due.any (fun d => d.req.any (fun r => r.origin.path ≠ .pairLink))

/-- R125: a request that finds the engine full. A work-queue command is not fetched then: nothing happens. -/
def rejectBusy (o : Origin) (m : Msg) (s : State) : State :=
  match o.path with
  | .queue _ => s
  | _ => respond o (answer m 0x0E 0xFF 0 []) 0 (wr oBusyRejects ((rd s oBusyRejects + 1) % 2 ^ 64) s)

/-- Place of a path among the requests of one MCLK cycle (R124): the mailbox, the queues in ascending number, MGMT0, MGMT1. -/
def pathRank : Path → Nat
  | .mailbox => 0
  | .pairLink => 0
  | .queue q => q + 1
  | .mgmt n => 2 ^ 32 + n

/-- MCLK cycle in which a request of a path reaches the engine: this one, or the next where the engine has taken in this one a
request that R124 puts behind it (log entry 108). -/
def arrival (p : Path) (s : State) : Nat :=
  if s.eng.taken.1 = mclk s + 1 && pathRank p < s.eng.taken.2 then mclk s + 1 else mclk s

/-- A request takes its place behind those that go before it (R50, R124). -/
def insertWaiting (w : Waiting) (l : List Waiting) : List Waiting :=
  let first (x : Waiting) : Bool :=
    x.at_ < w.at_ || (x.at_ = w.at_ && pathRank x.req.origin.path ≤ pathRank w.req.origin.path)
  l.filter first ++ w :: l.filter (fun x => !first x)

/-- The engine takes a request and serves it. -/
def takeRequest (w : Waiting) (s : State) : State :=
  let s := when (w.at_ = mclk s)
    (fun t => { t with eng := { t.eng with taken := (mclk t + 1, pathRank w.req.origin.path) } }) s
  serve w.req.origin w.req.msg s

/-- A request reaches the engine: served at once, or in its place among those that wait. -/
def reachEngine (o : Origin) (m : Msg) (s : State) : State :=
  let w : Waiting := ⟨arrival o.path s, ⟨o, m⟩⟩
  if !s.eng.opened then s
  else if 256 ≤ s.eng.queue.length then rejectBusy o m s
  else if !s.eng.queue.isEmpty || engineWaits s || mclk s < w.at_ then
    { s with eng := { s.eng with queue := insertWaiting w s.eng.queue } }
  else takeRequest w s

/-- The first waiting request is served once nothing holds it back. -/
def serveNext (s : State) : State :=
  match s.eng.queue with
  | [] => s
  | w :: rest =>
    if engineWaits s || mclk s < w.at_ then s else takeRequest w { s with eng := { s.eng with queue := rest } }

/-- A request of one opcode: the row's name fixes the opcode that the message carries. -/
def requestOf (opcode : Nat) (o : Origin) (m : Msg) (s : State) : Host.Outcome State Fault Refusal :=
  onUnits (o.wf && m.wf) (reachEngine o { m with opcode := opcode } s)

/-- The WRITE of one value, `n` bytes, by a command that names units the device has. -/
def write1 (ok : Bool) (o : Origin) (level obj row n v : Nat) (s : State) : Host.Outcome State Fault Refusal :=
  onUnits ok (reachEngine o (writeOne level obj row (leBytes n v)) s)

end Sys2Proof.Machine
end

