-- ==== Sys2Proof/Machine/Transport.lean ====
section
/-! DEFINITION. The containers of chapter 3: Mirty transport frames on MGMT0 and MGMT1, with their authentication and replay
windows, nonce queries, inject frames, and the PCIe dictionary mailbox. -/

namespace Sys2Proof.Machine
open Sys2Proof

/-- Set the engine's state. -/
def setEng (e : Eng) (s : State) : State := { s with eng := e }

/-- Add one to a counter that is a dictionary object of area 00. -/
def countObj (obj : Nat) (s : State) : State := wr obj ((rd s obj + 1) % 2 ^ 64) s

/-! ### Replay windows (R113) -/

/-- The window after a sequence number; none where the number is not accepted. -/
def replayWindow (w : Option Window) (seq : Nat) : Option Window :=
  match w with
  | none => some ⟨seq, 1⟩
  | some x =>
    let d := (seq + 2 ^ 32 - x.high) % 2 ^ 32
    if 0 < d && d < 2 ^ 31 then some ⟨seq, (x.mask * 2 ^ d) % 2 ^ 64 ||| 1⟩
    else
      let back := (2 ^ 32 - d) % 2 ^ 32
      if back < 64 && !x.mask.testBit back then some ⟨x.high, setBit x.mask back⟩ else none

/-- Number of the window of a level and a sender. -/
def windowKey (level sender : Nat) : Nat := level * 16 + sender

/-! ### Authentication (R111, R659, R660) -/

/-- R111: the code and the key of a header with its payload are good. -/
def authentic (s : State) (h : THeader) (headerPayload code : Bytes) : Bool :=
  !levelDisabled s h.level && h.gen = keyGen s h.level && code = codeOf s h.level h.gen headerPayload

/-- R111: a frame that fails is discarded and counted; AUTH_FAIL once per second for each port. -/
def authFails (port : Nat) (s : State) : State := raiseOnce evAuthFail port port (countObj oAuthFailures s)

/-- A Mirty frame that is discarded. -/
def malformed (s : State) : State := countObj oMalformed s

/-! ### The transport (R109 to R117) -/

/-- The MGMT port receives: step 06 has passed for it and its bit of MGMT_ENABLE is 1. -/
def mgmtReceives (s : State) (n : Nat) : Bool := (mgmt s n).ready && s.eng.opened && (rd s oMgmtEnable).testBit n

/-- R112: a nonce query is answered, at most 1,000 times a second on a port. -/
def answerNonce (n : Nat) (h : THeader) (src : Nat) (s : State) : State :=
  let s := countObj oNonceQueries s
  if 1000 ≤ used s (nonceKey n) then s
  else
    let f := leBytes 6 src ++ leBytes 6 (mgmtMac s n) ++ beBytes 2 (rd s oMirtyEthertype) ++
      transportHeader 6 h.level h.gen h.sender h.seq 8 ++ leBytes 8 s.eng.nonce
    emit (.mgmt n f) (useLimit (nonceKey n) s)

/-- R662: the device refuses an inject frame. -/
def injectRefused (s : State) (level : Nat) (p : Bytes) : Bool :=
  level = 0 || !(rd s oPuntInject).testBit 0 || p.length < 4 || 15 < leAt p 0 1 || 7 < leAt p 1 1 || leAt p 2 2 ≠ 0 ||
    p.length < 64 || 9728 < p.length

/-- R117: an inject frame enters its pipeline as from HOST, and goes to a partner that follows (R545). -/
def takeInject (level : Nat) (p : Bytes) (s : State) : State :=
  if injectRefused s level p then countObj oInjectRefused s
  else
    let n := leAt p 0 1
    let cls := leAt p 1 1
    let b := p.drop 4
    enterFrame 512 n cls b none (forwardInject n cls b s)

/-- A message read from a container; one shorter than its header is read as if zeros followed, and is not exact. -/
def readAny (be : Bool) (b : Bytes) : Msg :=
  match readMsg be b with
  | some m => m
  | none =>
    match readMsg be (b ++ zeros (16 - b.length)) with
    | some m => { m with exact := false }
    | none => ⟨0, 0, 0, 0, 0, 0, 0, 0, 0, 0, false, []⟩

/-- An authenticated frame whose SEQ is accepted: a request or an inject frame. -/
def takeFrame (n : Nat) (h : THeader) (src : Nat) (payload : Bytes) (s : State) : State :=
  if h.kind = 4 then takeInject h.level payload s
  else reachEngine ⟨.mgmt n, h.level, h.gen, h.sender, h.seq, src, 0, 0, 0, false⟩ (readAny true payload) s

/-- A frame of KIND other than 5: its CODE, its reserved fields and KIND, its SEQ, in this order. -/
def authFrame (n : Nat) (h : THeader) (src : Nat) (b : Bytes) (s : State) : State :=
  let code := slice b (12 + h.len) 16
  if code.length ≠ 16 then malformed s
  else if !authentic s h (b.take (12 + h.len)) code then authFails n s
  else if h.senderHigh ≠ 0 || h.reserved ≠ 0 || (h.kind ≠ 0 && h.kind ≠ 4) then malformed s
  else
    let key := windowKey h.level h.sender
    match replayWindow (tabFind s.eng.windows key) h.seq with
    | none => countObj oReplays s
    | some w => takeFrame n h src (slice b 12 h.len) (setEng { s.eng with windows := tabInsert s.eng.windows key w } s)

/-- R109: the frame's destination is the port's own address, or broadcast for a nonce query. -/
def mgmtAddressed (s : State) (n : Nat) (frame : Bytes) (kind : Nat) : Bool :=
  leAt frame 0 6 = mgmtMac s n || (kind = 5 && leAt frame 0 6 = 2 ^ 48 - 1)

/-- A frame without FCS arrives on MGMTn. -/
def mgmtFrame (n : Nat) (frame : Bytes) (s : State) : State :=
  if !mgmtReceives s n || frame.length < 14 || 9212 < frame.length || beAt frame 12 2 ≠ rd s oMirtyEthertype then s
  else
    let b := frame.drop 14
    let h := readTHeader true b
    if b.length < 12 || h.version ≠ 1 || 8160 < h.len || !mgmtAddressed s n frame h.kind || h.kind = 6 then malformed s
    else if h.kind = 5 then answerNonce n h (leAt frame 6 6) s
    else authFrame n h (leAt frame 6 6) b s

/-- MGMT_FRAME_RECEIVED (R109). -/
def execMgmtFrameReceived (n : Nat) (frame : Bytes) (s : State) : Host.Outcome State Fault Refusal :=
  onUnits (isMgmt n) (mgmtFrame n frame s)

/-- NONCE_QUERY (R112): the frame is a transport frame of KIND 5. -/
def execNonceQuery (n : Nat) (frame : Bytes) (s : State) : Host.Outcome State Fault Refusal :=
  onUnits (isMgmt n) (mgmtFrame n frame s)

/-- INJECT_FRAME (R117): the frame is a transport frame of KIND 4. -/
def execInjectFrame (n : Nat) (frame : Bytes) (s : State) : Host.Outcome State Fault Refusal :=
  onUnits (isMgmt n) (mgmtFrame n frame s)

/-- MGMT_LINK_RESTART (R127): the link of a port whose mode was changed goes down; MGMT_LINK_CHANGE brings it up. -/
def execMgmtLinkRestart (n : Nat) (s : State) : Host.Outcome State Fault Refusal :=
  onUnits (isMgmt n)
    (if (mgmt s n).restartDue then setMgmt n { mgmt s n with restartDue := false, linkUp := false } s else s)

/-! ### The mailbox (R118 to R122) -/

/-- The request area is 8 KiB. -/
def mailboxSize : Nat := 8192

/-- A request that finishes with MB_RESP_LEN 0. -/
def mailboxFails (s : State) : State := setMb { s.eng.mb with finished := some [] } s

/-- R122: the length written to the doorbell is that of header, message and code. -/
def mailboxLengthOk (s : State) (h : THeader) (length : Nat) : Bool :=
  length ≤ mailboxSize && length = 12 + h.len + (if pcieAuth s then 16 else 0)

/-- The origin of a mailbox request: its KEY, SENDER and SEQ are echoed. -/
def mailboxOrigin (h : THeader) : Origin := ⟨.mailbox, h.level, h.gen, h.senderHigh * 16 + h.sender, h.seq, 0, 0, 0, 0, false⟩

/-- The copied request is checked and given to the engine. -/
def mailboxRequest (length : Nat) (b : Bytes) (s : State) : State :=
  let h := readTHeader false b
  let m := readAny false (slice b 12 h.len)
  if h.version ≠ 1 || !mailboxLengthOk s h length then mailboxFails (malformed s)
  else if pcieAuth s && !authentic s h (b.take (12 + h.len)) (slice b (12 + h.len) 16) then mailboxFails (authFails 2 s)
  else if h.kind ≠ 0 || h.reserved ≠ 0 || (pcieAuth s && h.senderHigh ≠ 0) then mailboxFails (malformed s)
  else if !pcieAuth s then reachEngine (mailboxOrigin h) m s
  else
    let key := windowKey h.level h.sender
    match replayWindow (tabFind s.eng.mbWindows key) h.seq with
    | none => mailboxFails (countObj oReplays s)
    | some w => reachEngine (mailboxOrigin h) m (setEng { s.eng with mbWindows := tabInsert s.eng.mbWindows key w } s)

/-- The host can reach BAR0. R120 does not say what MB_DOORBELL does before step 06 opens the engine; the write has no effect
then (DESIGN CHOICE, log entry 136). -/
def bar0 (s : State) : Bool := !s.hst.absent && !s.hst.perst && s.eng.opened

/-- MB_DOORBELL (R120, R121): the request area is copied and served, or OVERRUN set while busy. -/
def execMbDoorbell (length : Nat) (area : Bytes) (s : State) : Host.Outcome State Fault Refusal :=
  onUnits (length < 2 ^ 32)
    (if !bar0 s then s
     else if s.eng.mb.state = 1 then setMb { s.eng.mb with overrun := true } s
     else mailboxRequest length ((area ++ zeros mailboxSize).take mailboxSize)
       (setMb { s.eng.mb with state := 1, finished := none } s))

/-- MAILBOX_RESPONSE (R122): the finished response is written, STATE becomes done, and MB_VECTOR is signalled. -/
def execMailboxResponse (s : State) : Host.Outcome State Fault Refusal :=
  .next (match s.eng.mb.state, s.eng.mb.finished with
    | 1, some r =>
      sendVector (rd s oMbVector) (setMb { s.eng.mb with state := 2, respLen := r.length, response := r, finished := none } s)
    | _, _ => s)

/-- MB_OVERRUN_CLEAR (R121). -/
def execMbOverrunClear (s : State) : Host.Outcome State Fault Refusal := .next (setMb { s.eng.mb with overrun := false } s)

end Sys2Proof.Machine
end

