-- ==== Sys2Proof/Machine/Requests.lean ====
section
/-! DEFINITION. The commands that are dictionary requests: the six opcodes, DICT, and the writes of single objects that have a
row of their own in the opcode table. -/

namespace Sys2Proof.Machine
open Sys2Proof

/-- READ (R103). -/
def execRead (o : Origin) (m : Msg) (s : State) : Host.Outcome State Fault Refusal := requestOf 1 o m s

/-- WRITE (R47). -/
def execWrite (o : Origin) (m : Msg) (s : State) : Host.Outcome State Fault Refusal := requestOf 2 o m s

/-- COMPOUND_WRITE (R59). -/
def execCompoundWrite (o : Origin) (m : Msg) (s : State) : Host.Outcome State Fault Refusal := requestOf 3 o m s

/-- DESCRIBE (R657). -/
def execDescribe (o : Origin) (m : Msg) (s : State) : Host.Outcome State Fault Refusal := requestOf 4 o m s

/-- ENUMERATE (R658). -/
def execEnumerate (o : Origin) (m : Msg) (s : State) : Host.Outcome State Fault Refusal := requestOf 5 o m s

/-- ECHO (R99). -/
def execEcho (o : Origin) (m : Msg) (s : State) : Host.Outcome State Fault Refusal := requestOf 6 o m s

/-- A DICT command whose message has been read (R477, R484). -/
def dictMessage (c : SqCmd) (respMax respAddr : Nat) (message : Dma) (s : State) : State :=
  match message with
  | .fault => complete c 0x81 0x60 0 s
  | .tooLong => complete c 0x80 0x60 0 s
  | .data b => reachEngine ⟨.queue c.sq, 0, 0, 0, 0, 0, c.tag, respMax, respAddr, c.quiet⟩ (readAny false b) s

/-- DICT (R477, R123): served on every submission queue but a receive queue (R480). -/
def execDict (c : SqCmd) (respMax respAddr : Nat) (message : Dma) (s : State) : Host.Outcome State Fault Refusal :=
  onUnits c.wf
    (match sq s c.sq with
     | none => s
     | some x => if x.kind = 1 then complete c 0x89 0x60 0 s else dictMessage c respMax respAddr message s)

/-- TURN_REQUEST (R62). -/
def execTurnRequest (o : Origin) (level value : Nat) (s : State) : Host.Outcome State Fault Refusal :=
  write1 (Instr.turnRequest o level value).wf o level oTurnRequest 0 2 value s

/-- STEP_REQUEST (R72). -/
def execStepRequest (o : Origin) (level value : Nat) (s : State) : Host.Outcome State Fault Refusal :=
  write1 (Instr.stepRequest o level value).wf o level oStepRequest 0 2 value s

/-- SNAP_REQUEST (R82). -/
def execSnapRequest (o : Origin) (level value : Nat) (s : State) : Host.Outcome State Fault Refusal :=
  write1 (Instr.snapRequest o level value).wf o level oSnapRequest 0 1 value s

/-- HALT_REQUEST (R55). -/
def execHaltRequest (o : Origin) (level value : Nat) (s : State) : Host.Outcome State Fault Refusal :=
  write1 (Instr.haltRequest o level value).wf o level oHaltRequest 0 8 value s

/-- KEY_REVOKE (R129). -/
def execKeyRevoke (o : Origin) (level target value : Nat) (s : State) : Host.Outcome State Fault Refusal :=
  write1 (Instr.keyRevoke o level target value).wf o level (oKeyRevoke target) 0 1 value s

/-- MGMT_MODE (R127). -/
def execMgmtMode (o : Origin) (level value : Nat) (s : State) : Host.Outcome State Fault Refusal :=
  write1 (Instr.mgmtMode o level value).wf o level oMgmtMode 0 4 value s

/-- OCTET_ENABLE (R156). -/
def execOctetEnable (o : Origin) (level octet value : Nat) (s : State) : Host.Outcome State Fault Refusal :=
  write1 (Instr.octetEnable o level octet value).wf o level (oOctetEnable octet) 0 1 value s

/-- PORT_ENABLE (R155). -/
def execPortEnable (o : Origin) (level port value : Nat) (s : State) : Host.Outcome State Fault Refusal :=
  write1 (Instr.portEnable o level port value).wf o level (oPortEnable port) 0 1 value s

/-- CS_LOAD (R169). -/
def execCsLoad (o : Origin) (level value : Nat) (s : State) : Host.Outcome State Fault Refusal :=
  write1 (Instr.csLoad o level value).wf o level oCsLoad 0 4 value s

/-- BACKEND_STATE (R348). -/
def execBackendState (o : Origin) (level row value : Nat) (s : State) : Host.Outcome State Fault Refusal :=
  write1 (Instr.backendState o level row value).wf o level oBackendState row 1 value s

/-- ADMIN_ENABLE (R459). -/
def execAdminEnable (o : Origin) (level value : Nat) (s : State) : Host.Outcome State Fault Refusal :=
  write1 (Instr.adminEnable o level value).wf o level oAdminEnable 0 1 value s

/-- TIME_SET (R498): a TIME80 with the seconds above the nanoseconds. -/
def execTimeSet (o : Origin) (level sec ns : Nat) (s : State) : Host.Outcome State Fault Refusal :=
  write1 (Instr.timeSet o level sec ns).wf o level oTimeSet 0 10 (sec * 2 ^ 32 + ns) s

/-- TIME_STEP (R498). -/
def execTimeStep (o : Origin) (level : Nat) (ns : Int) (s : State) : Host.Outcome State Fault Refusal :=
  write1 (Instr.timeStep o level ns).wf o level oTimeStep 0 8 (ofSigned 64 ns) s

/-- TIME_SLEW (R499). -/
def execTimeSlew (o : Origin) (level : Nat) (ns : Int) (s : State) : Host.Outcome State Fault Refusal :=
  write1 (Instr.timeSlew o level ns).wf o level oTimeSlew 0 4 (ofSigned 32 ns) s

/-- TIME_LATCH (R500). -/
def execTimeLatch (o : Origin) (level value : Nat) (s : State) : Host.Outcome State Fault Refusal :=
  write1 (Instr.timeLatch o level value).wf o level oTimeLatch 0 1 value s

/-- TIME_INCREMENT (R497). -/
def execTimeIncrement (o : Origin) (level value : Nat) (s : State) : Host.Outcome State Fault Refusal :=
  write1 (Instr.timeIncrement o level value).wf o level oTimeIncrement 0 8 value s

/-- CAL_SET (R521). -/
def execCalSet (o : Origin) (level sec ns : Nat) (s : State) : Host.Outcome State Fault Refusal :=
  write1 (Instr.calSet o level sec ns).wf o level oCalSet 0 10 (sec * 2 ^ 32 + ns) s

/-- CAL_SYNC (R524). -/
def execCalSync (o : Origin) (level value : Nat) (s : State) : Host.Outcome State Fault Refusal :=
  write1 (Instr.calSync o level value).wf o level oCalSync 0 1 value s

/-- PAIR_YIELD (R538). -/
def execPairYield (o : Origin) (level value : Nat) (s : State) : Host.Outcome State Fault Refusal :=
  write1 (Instr.pairYield o level value).wf o level oPairYield 0 1 value s

/-- PAIR_REJOIN (R528). -/
def execPairRejoin (o : Origin) (level value : Nat) (s : State) : Host.Outcome State Fault Refusal :=
  write1 (Instr.pairRejoin o level value).wf o level oPairRejoin 0 1 value s

/-- PAIR_ENABLE (R529). -/
def execPairEnable (o : Origin) (level value : Nat) (s : State) : Host.Outcome State Fault Refusal :=
  write1 (Instr.pairEnable o level value).wf o level oPairEnable 0 1 value s

/-- GOV_KNOBS (R568). -/
def execGovKnobs (o : Origin) (level row value : Nat) (s : State) : Host.Outcome State Fault Refusal :=
  write1 (Instr.govKnobs o level row value).wf o level oGovKnobs row 16 value s

/-- PERF_SELECT (R586). -/
def execPerfSelect (o : Origin) (level row value : Nat) (s : State) : Host.Outcome State Fault Refusal :=
  write1 (Instr.perfSelect o level row value).wf o level oPerfSelect row 16 value s

/-- RESET_REQUEST (R596). -/
def execResetRequest (o : Origin) (level value : Nat) (s : State) : Host.Outcome State Fault Refusal :=
  write1 (Instr.resetRequest o level value).wf o level oResetRequest 0 1 value s

/-- BOOT_CONTINUE (R604). -/
def execBootContinue (o : Origin) (level value : Nat) (s : State) : Host.Outcome State Fault Refusal :=
  write1 (Instr.bootContinue o level value).wf o level oBootContinue 0 1 value s

/-- EVENT_CLEAR (R622). -/
def execEventClear (o : Origin) (level group bits : Nat) (s : State) : Host.Outcome State Fault Refusal :=
  write1 (Instr.eventClear o level group bits).wf o level oEventClear group 4 bits s

end Sys2Proof.Machine
end

