-- ==== Sys2Proof/Machine/Pair.lean ====
section
/-! DEFINITION. Pair redundancy (chapter 15): the claim bus, the messages of the pair link, digests, self-checks, and joins. -/

namespace Sys2Proof.Machine
open Sys2Proof

/-! ### Claims (R530 to R538) -/

/-- R537: the unit gives up the ports and takes role 5; LAST_FAIL and FAIL_TIME (Table 15-8). -/
def failUnit (code : Nat) (s : State) : State :=
  setRole 5 (leaveJoin (setPair { s.pair with lastFail := code, failTime := nowTime64 s } s))

/-- R535: a sampled byte is that of no unit. -/
def claimFault (s : State) (own b : Nat) : Bool := b ≠ 0 && b ≠ own && b ≠ s.pair.partnerClaim

/-- R534: what the sampled byte makes of a claiming unit: chosen, not chosen, or nothing of a unit that claims not. -/
def claimOutcome (own b : Nat) (s : State) : State :=
  if own = 0 then s
  else if b = own then (if role s = 4 then s else count (cPair 0x20) (setRole 4 s))
  else if role s = 4 then setRole 3 s
  else if role s = 1 && b ≠ 0 then setPair { s.pair with claiming := false } s
  else s

/-- A KCLK edge: the byte sampled on CLAIM_IN. -/
def claimDecision (b : Nat) (s : State) : State :=
  let own := if s.pair.claimVld then s.pair.claimOut else 0
  let s := setPair { s.pair with claimIn := b, yielding := false } s
  let s := when (claimFault s own b) (fun s => raiseOnce evClaimFault 0 b (count (cPair 0x18) s)) s
  driveClaim (claimOutcome own b s)

/-- CLAIM_DECISION (R534, R535), in a unit of a pair. -/
def execClaimDecision (b : Nat) (s : State) : Host.Outcome State Fault Refusal :=
  onUnits (isByte b) (if role s = 0 then s else claimDecision b s)

/-- FIRST_CLAIM (R536): CLAIM_IN has read 0x00 for 1,024 KCLK cycles. -/
def execFirstClaim (s : State) : Host.Outcome State Fault Refusal :=
  .next (if role s = 1 && rd s oServiceLevel = 2 && rd s oUnsyncedClaim = 1 && s.pair.claimIn = 0 then
      driveClaim (setPair { s.pair with claiming := true } s)
    else s)

/-- PRIVILEGED_FAULT (R557, R537): in a unit without a pair it is only reported, by the fault's own command. -/
def execPrivilegedFault (unit : Nat) (s : State) : Host.Outcome State Fault Refusal :=
  onUnits (unit < 3) (if role s = 0 then s else failUnit (0x20 + unit) s)

/-- SOUNDING_TEST (R558): a test of a standby ends. -/
def execSoundingTest (test : Nat) (failed : Bool) (s : State) : Host.Outcome State Fault Refusal :=
  onUnits (1 ≤ test && test ≤ 6)
    (if role s ≠ 3 then s
     else
       let s := setPair { s.pair with soundings := (s.pair.soundings + 1) % 2 ^ 32 } s
       if failed then failUnit test s else s)

/-! ### The link (R539 to R541) -/

/-- A message has arrived: the partner answers, everything sent to it is acknowledged, and what waited is sent. -/
def heard (s : State) : State :=
  sendWaiting s.pair.waiting.length
    (setPair { s.pair with partnerUp := true, replay := [], rxSeq := (s.pair.rxSeq + 1) % 2 ^ 32 } s)

/-- The digest window of the present (R552). -/
def windowNow (s : State) : Nat := ptpNow s / 2 ^ 32 / 10240

/-- A health report of the partner (R535, R559). -/
def healthReceived (report : Bytes) (claim : Nat) (s : State) : State :=
  let was := s.pair.partnerRole
  let now := leAt report 0 1
  let from_ := if now = 3 && was ≠ 3 then windowNow s + 1 else s.pair.compareFrom
  let s := heard s
  wr oPartnerHealth (leNat (report.take 32))
    (setPair { s.pair with partnerRole := now, partnerClaim := claim, compareFrom := from_ } s)

/-- HEALTH (R559). -/
def execHealth (report : Bytes) (claim : Nat) (s : State) : Host.Outcome State Fault Refusal :=
  onUnits (isByte claim) (if role s = 0 then s else healthReceived report claim s)

/-- HEALTH_TIMER (R539): every 100 µs. -/
def execHealthTimer (s : State) : Host.Outcome State Fault Refusal :=
  .next (if role s = 0 then s
    else sendPair 1 (leBytes 32 (healthReport s) ++ leBytes 1 s.pair.claimOut ++ beBytes 8 s.clk.cclk) s)

/-- RETRANSMIT_TIMEOUT (R540): a message still in the replay buffer is sent again. -/
def execRetransmitTimeout (seq : Nat) (s : State) : Host.Outcome State Fault Refusal :=
  .next (match s.pair.replay.find? (fun e => e.1 = seq) with
    | some e => count (cPair 0x38) (emit (.pair (pairFront s e.2.1 1 seq e.2.2.length) e.2.2) s)
    | none => s)

/-- PAIR_LOST (R541). -/
def execPairLost (s : State) : Host.Outcome State Fault Refusal := .next (if role s = 0 then s else pairLost s)

/-- PAIR_FRAME (R539): a frame of the partner enters a pipeline as from PAIR. -/
def execPairFrame (n cls : Nat) (b : Bytes) (s : State) : Host.Outcome State Fault Refusal :=
  onUnits (isPipe n) (if role s = 0 then s else enterFrame 514 n (cls % 8) b none (heard s))

/-! ### Digests (R551 to R556) -/

/-- No frame in any pipeline. -/
def emptyWindow : DigestWin := ⟨List.replicate 16 0, List.replicate 16 0⟩

/-- A self-check starts (R555). -/
def startCheck (s : State) : State :=
  count (cPair 0x10) (setPair { s.pair with checking := true, setsDiffer := false, mismatches := 0 } s)

/-- The objects of both configuration sets in mirrored areas, with their values. -/
def setValues (s : State) : List (Nat × Nat) :=
  s.dict.filter (fun e => isShadow (keyObj e.1) && mirroredObj (keyObj e.1))

/-- The hash of both configuration sets (R555). -/
def setsHash (s : State) : Nat := (Config.setHash (setValues s)).toNat

/-- The standby compares the hash that the active sends with its own. -/
def checkSets (h : Nat) (s : State) : State := setPair { s.pair with setsDiffer := h ≠ setsHash s } s

/-- The third mismatch in a row starts a self-check in both units. -/
def noteMismatch (s : State) : State :=
  let s := setPair { s.pair with mismatches := s.pair.mismatches + 1 } (count (cPair 0x08) s)
  if 3 ≤ s.pair.mismatches && !s.pair.checking then sendControl (.selfCheck (setsHash s)) (startCheck s) else s

/-- R554: the active compares a window once it has both digests. -/
def compareWindow (w : Nat) (s : State) : State :=
  match tabFind s.pair.closed w, tabFind s.pair.received w with
  | some a, some b =>
    let s := setPair { s.pair with closed := tabErase s.pair.closed w, received := tabErase s.pair.received w } s
    let s := count (cPair 0x00) s
    if a = b then setPair { s.pair with mismatches := 0 } s else noteMismatch s
  | _, _ => s

/-- The payload of a DIGEST message (Table 15-4a). -/
def windowBytes (w : Nat) (d : DigestWin) : Bytes :=
  beBytes 8 w ++ (d.subs.map (beBytes 8)).flatten ++ (d.counts.map (beBytes 4)).flatten

/-- A window closes: its digest is sent, and the active keeps it for comparison. -/
def closeWindow (w : Nat) (s : State) : State :=
  let d := tabGet emptyWindow s.pair.windows w
  let s := setPair { s.pair with windows := tabErase s.pair.windows w } s
  if !s.pair.partnerUp || s.pair.partnerRole ≠ 7 - role s then s
  else
    let s := sendPair 2 (windowBytes w d) s
    if role s = 4 && s.pair.compareFrom ≤ w then
      compareWindow w (setPair { s.pair with closed := tabInsert s.pair.closed w d } s)
    else s

/-- DIGEST_WINDOW_CLOSE (R552, R554): in a standby and in an active with a standby. -/
def execDigestWindowClose (w : Nat) (s : State) : Host.Outcome State Fault Refusal :=
  .next (if role s = 3 || role s = 4 then closeWindow w s
    else setPair { s.pair with windows := tabErase s.pair.windows w } s)

/-- DIGEST (R554): the partner's digest of a window. -/
def execDigest (w : Nat) (subs counts : List Nat) (s : State) : Host.Outcome State Fault Refusal :=
  .next (if role s = 0 then s
    else
      let s := heard s
      if role s = 4 && s.pair.compareFrom ≤ w then
        compareWindow w (setPair { s.pair with received := tabInsert s.pair.received w ⟨subs, counts⟩ } s)
      else s)

/-- SELF_CHECK_COMPLETE (R555, R556): a standby whose sets have another hash than the active's fails too. -/
def execSelfCheckComplete (selfFailed partnerFailed : Bool) (s : State) : Host.Outcome State Fault Refusal :=
  .next (if !s.pair.checking then s
    else
      let failed := selfFailed || (role s = 3 && s.pair.setsDiffer)
      let s := setPair { s.pair with checking := false, setsDiffer := false, mismatches := 0 } s
      if failed then raise evSelfcheckFail 0 (failUnit 0x10 s)
      else if !partnerFailed && role s = 4 then raise evDigestUnresolved 0 s
      else s)

/-! ### Ledger changes of the active (R548 to R550, R561) -/

/-- The fields of a hot part that the ledger of each unit keeps for itself: HOME_LIST and the pin. -/
def ownHot (mine theirs : Nat) : Nat :=
  let h := setByteFld theirs 0x0A 6 (byteFld mine 0x0A 6)
  if mine.testBit 70 then setBit h 70 else clearBit h 70

/-- The fingerprint of the key in a cold part. -/
def fpOf (s : State) (cold : Nat) : Nat := hashFp (hashH0 s (cKey cold))

/-- A home's list names a distance. -/
def listed (s : State) (home d : Nat) : Bool :=
  (List.range 3).any (fun i => (hHome (hotAt s home) i).testBit 15 && fld (hHome (hotAt s home) i) 11 4 = d)

/-- A primary in a slot is counted at its backend, up or down. -/
def countSlot (r : Nat) (up : Bool) (s : State) : State :=
  if isPrimary s r then countRecord (cServ (coldAt s r)) up s else s

/-- Take a record out of its slot as the active has done: no service is released, for the port map comes by its own
messages. -/
def mirrorRemove (r : Nat) (s : State) : State :=
  if hValid (hotAt s r) then clearRecord r (countSlot r false s) else s

/-- Put a record into its slot as the active has it. -/
def mirrorPut (r hot cold : Nat) (s : State) : State :=
  let old := hotAt s r
  let s := countSlot r false s
  let s := if hValid old && hDist old ≠ hDist hot then dropHome (recMinus s r (hDist old)) (hDist old) s else s
  let s := setHot r (ownHot (hotAt s r) hot) s
  let s := putSlot r { slotAt s r with cold := if lowLedger s then 0 else cold, coldBad := false } s
  let home := recMinus s r (hDist hot)
  let s := if listed s home (hDist hot) then s else addHome home (hDist hot) (fpOf s cold) s
  countSlot r true s

/-- What a change names, as a number. -/
def mirrorKey : MirrorMsg → Nat
  | .put r _ _ => 8 * r
  | .remove r => 8 * r
  | .portMap p e _ => 8 * portKey p e + 1
  | .slotTable t _ => 8 * t + 2
  | .weight r _ => 8 * r + 3
  | .generation t _ => 8 * t + 4

/-- One ledger change of the active. -/
def applyMirror (m : MirrorMsg) (s : State) : State :=
  match m with
  | .put r hot cold => if r < 2 ^ 26 && hValid hot then mirrorPut r hot cold s else s
  | .remove r => if r < 2 ^ 26 then mirrorRemove r s else s
  | .portMap p e w => if isService p then setPort1 p e w s else s
  | .slotTable t rows => if isService t then installSlots t (rows.take 4096) s else s
  | .weight r w => if r < 4096 then setBe r { be s r with eff := w } s else s
  | .generation t g =>
    if t < 64 then wrRow oServiceGen t (g % 16) (setSvc { s.svc with genAt := tabInsert s.svc.genAt t s.clk.cclk } s) else s

/-- The unit takes MIRROR messages: a standby, a joining unit whose tables are in place (R548, R561), or an active that has
taken over, of the messages which its partner sent as the active (R550, Table 15-11). -/
def takesMirror (s : State) : Bool := role s = 3 || role s = 4 || (role s = 2 && s.pair.join = 5)

/-- MIRROR (R548): applied as it arrives; during a join it is remembered, so that no BULK content replaces it. -/
def execMirror (m : MirrorMsg) (s : State) : Host.Outcome State Fault Refusal :=
  .next (if role s = 0 then s
    else
      let s := heard s
      if !takesMirror s then s
      else
        let s := if role s = 2 then setPair { s.pair with mirrored := s.pair.mirrored ++ [mirrorKey m] } s else s
        applyMirror m (count (cPair 0x30) s))

/-- A record that the active holds pinned is pinned here too, where the limits of R309 allow it. -/
def bulkPin (m : BulkMsg) (s : State) : State :=
  match m with
  | .put r hot _ => if hPinned hot then (pinRecords [r] s).getD s else s
  | _ => s

/-- BULK (R560, R561): discarded where a MIRROR has already set the same. -/
def execBulk (m : BulkMsg) (s : State) : Host.Outcome State Fault Refusal :=
  .next (if role s = 0 then s
    else
      let s := heard s
      if role s ≠ 2 || s.pair.join ≠ 5 || s.pair.mirrored.contains (mirrorKey m) then s
      else bulkPin m (applyMirror m s))

/-- The payload of a MIRROR message: a kind, then its values (log entry 40). -/
def mirrorBytes : MirrorMsg → Bytes
  | .put r hot cold => beBytes 1 1 ++ beBytes 4 r ++ leBytes 32 hot ++ leBytes 96 cold
  | .remove r => beBytes 1 2 ++ beBytes 4 r
  | .portMap p e w => beBytes 1 3 ++ beBytes 2 p ++ beBytes 4 e ++ beBytes 4 w
  | .slotTable t rows => beBytes 1 4 ++ beBytes 2 t ++ (rows.map (beBytes 2)).flatten
  | .weight r w => beBytes 1 5 ++ beBytes 2 r ++ beBytes 2 w
  | .generation t g => beBytes 1 6 ++ beBytes 1 t ++ beBytes 1 g

/-- The slot table of a backend table: rows plus 1. -/
def slotRows (s : State) (t : Nat) : List Nat := (List.range 4096).map (fun i => tabGet 0 s.svc.slotTab (t * 4096 + i))

/-- What stands now where a PAIR_MIRROR operation was issued (R549). -/
def mirrorOf (s : State) (args : List Nat) : Option MirrorMsg :=
  match args with
  | [1, r] => some (if hValid (hotAt s r) then .put r (hotAt s r) (coldAt s r) else .remove r)
  | [2, p, e] => some (.portMap p e (portEntry s p e))
  | [3, t] => some (.slotTable t (slotRows s t))
  | [4, r] => some (.weight r (be s r).eff)
  | [5, t] => some (.generation t (serviceGen s t))
  | _ => none

/-- PAIR_MIRROR (R549): the next operation is dispatched once the link has room; without a partner that follows it is
dropped. -/
def execPairMirror (s : State) : Host.Outcome State Fault Refusal :=
  .next (match nextOp s 19 14 (fun _ => true) with
    | none => s
    | some o =>
      match mirrorOf s o.args with
      | none => dispatched o s
      | some m =>
        let b := mirrorBytes m
        if !partnerFollows s then dispatched o s
        else if pairRoom s 6 b.length then sendPair 6 b (count (cPair 0x28) (dispatched o s))
        else s)

/-! ### Joins (R560) -/

/-- Objects that a join does not copy: those whose write is an order, and the halt of the joiner itself. -/
def joinSkips (obj : Nat) : Bool :=
  [oTurnRequest, oStepRequest, oSnapRequest, oHaltRequest, oTimeLatch, oTimeSet, oTimeStep, oTimeSlew, oCsLoad].contains obj

/-- Status objects that belong to the configuration sets and come with them. -/
def joinStatus (obj : Nat) : Bool :=
  [oActiveEpoch, oActiveSet, oDrainedEpoch, oServiceGen, oPatState, oPatImageId, oPatSets, oPatPatterns].contains obj

/-- A mirrored object that the active sends in step 3. -/
def joinObj (obj : Nat) : Bool :=
  mirroredObj obj && !joinSkips obj &&
    (joinStatus obj || (match objDesc obj with
      | some d => d.writeLevel.isSome
      | none => false))

/-- Every mirrored setting at its default and every table empty, before the active's arrive; commands in progress keep
their places. -/
def clearMirrored (s : State) : State :=
  { s with
    dict := s.dict.filter (fun e => !joinObj (keyObj e.1))
    lt := { s.lt with em := [], px := [], filter := [], deleted := [], refill := true, nh := [], rw := [], groups := [],
                      slots := [], learn := [] }
    rb := { s.rb with entries := [] }
    svc := { s.svc with ports := [], slotTab := [], backends := [] } }

/-- R560: the code that refuses a join: claim numbers, image, slot count. -/
def joinCode (s : State) (claim imageId imageVersion slots : Nat) : Nat :=
  if claim = rd s oPairClaim then 2
  else if imageId ≠ rd s oCsImageId || imageVersion ≠ rd s oCsImageVersion then 3
  else if slots ≠ slotsPer s then 4
  else 0

/-- Step 2: the joiner takes role 2 and halts all of its blocks; its ledger is empty before the seeds come (step 3). -/
def beginJoin (s : State) : State :=
  let s := setRole 2 (setPair { s.pair with join := 2, bulkDone := false, mirrored := [], due := [] } s)
  let s := sendControl (.joinRequest (rd s oPairClaim) (rd s oCsImageId) (rd s oCsImageVersion) (slotsPer s)) s
  writeHaltRequest (2 ^ 39 - 1) (clearMirrored (emptyLedger s))

/-- JOIN_START (R560, R542). -/
def execJoinStart (claim imageId imageVersion slots : Nat) (offset : Bool) (s : State) : Host.Outcome State Fault Refusal :=
  onUnits (isByte claim)
    (if role s ≠ 1 || !s.pair.partnerUp || s.pair.partnerRole ≠ 4 || s.pair.join ≠ 0 then s
     else
       let c := joinCode s claim imageId imageVersion slots
       if c ≠ 0 then refuseJoin c s else if offset then refuseJoin 5 s else beginJoin s)

/-- JOIN_FINISH (R560 step 6): the joiner leaves halt, takes role 3, and claims. -/
def execJoinFinish (s : State) : Host.Outcome State Fault Refusal :=
  .next (if role s = 2 && s.pair.join = 5 && s.pair.bulkDone then
      let s := writeHaltRequest 0 (count (cPair 0x48) (wr oJoinResult 1 s))
      let s := setPair { s.pair with join := 0, bulkDone := false, mirrored := [], windows := [], closed := [], received := [],
                                     mismatches := 0, checking := false, compareFrom := windowNow s + 1 } s
      setRole 3 s
    else s)

/-- The active's resynchronisation stream is as long as its state: its messages are numbered and sent, and not kept in the
replay buffer. -/
def sendBulk (kind : Nat) (body : Bytes) (s : State) : State :=
  let n := s.pair.txSeq
  setPair { s.pair with txSeq := (n + 1) % 2 ^ 32 } (emit (.pair (pairFront s kind 0 n body.length) body) s)

/-- One row of step 3 as a WRITE; SET names the set itself. -/
def joinWrite (s : State) (e : Nat × Nat) : Bytes :=
  let obj := keyObj e.1
  let n := match objDesc obj with
    | some d => d.type.size
    | none => 0
  beBytes 8 s.clk.cclk ++ writeMsg true { writeOne 3 obj (keyRow e.1) (leBytes n e.2) with flags := keySet e.1 * 4 }

/-- A COMMAND of step 4. -/
def joinCommand (s : State) (opcode : Nat) (body data : Bytes) : Bytes :=
  beBytes 8 s.clk.cclk ++ leBytes 1 opcode ++ body ++ zeros (72 - body.length) ++ data

/-- An insertion of step 4. -/
def joinInsert (s : State) (t k : Nat) : List Bytes :=
  match entryImage s t k with
  | some (b, false) => [joinCommand s 0x21 (tblBody t k 0) b]
  | _ => []

/-- Every Lookup Table in the order of its references: rewrites, next-hops, groups, prefixes, exact-match entries. -/
def joinTables (s : State) : List Bytes :=
  let live (l : List (Nat × Bool)) : List Nat := (l.filter (fun e => !e.2)).map (·.1)
  (live (s.lt.rw.map (fun e => (e.1, e.2.retired.isSome)))).flatMap (joinInsert s 4) ++
  (live (s.lt.nh.map (fun e => (e.1, e.2.retired.isSome)))).flatMap (joinInsert s 3) ++
  s.lt.groups.map (fun e => joinCommand s 0x26 (tblBody 5 e.1 e.2.size)
    ((List.range e.2.size).flatMap (fun i => leBytes 4 (((tabFind s.lt.slots (e.2.base + i)).map (·.nextHop)).getD 0)))) ++
  s.lt.px.flatMap (fun e => joinInsert s (pxTable e.2) (pxKey e.2)) ++
  s.lt.em.flatMap (fun e => joinInsert s 0 e.2.key)

/-- Every rule entry, bank by bank. -/
def joinRules (s : State) : List Bytes :=
  s.rb.entries.map (fun e =>
    let a : RuleArgs := ⟨e.1 / 2048, 1, e.1 % 2048, false, 0, 0⟩
    joinCommand s 0x31 (ruleBody a) (ruleImage s a))

/-- The pattern image, as the load that brings it. -/
def joinImage (s : State) : List Bytes :=
  if rd s oPatState = 2 then [joinCommand s 0x34 (leBytes 4 s.pa.image.length) s.pa.image] else []

/-- Step 5: records, port-map entries and slot tables. -/
def joinLedger (s : State) : List MirrorMsg :=
  (s.led.slots.filter (fun e => hValid e.2.hot)).map (fun e => .put e.1 e.2.hot e.2.cold) ++
  s.svc.ports.map (fun e => .portMap (e.1 / 2 ^ 32) (e.1 % 2 ^ 32) e.2) ++
  ((List.range 256).filter (fun t => s.svc.slotTab.any (fun e => e.1 / 4096 = t))).map (fun t => .slotTable t (slotRows s t))

/-- A joiner's request at the active: refused, or answered with steps 2 to 5. -/
def joinRequested (claim imageId imageVersion slots : Nat) (s : State) : State :=
  let c := joinCode s claim imageId imageVersion slots
  if c ≠ 0 then sendControl (.joinRefuse c) s
  else
    let s := setPair { s.pair with partnerRole := 2, forwardOff := false } s
    let now := nowStamp s
    let s := sendControl (.align s.clk.cclk now.sec now.ns) (sendControl .joinAccept s)
    let s := forEach (s.dict.filter (fun e => joinObj (keyObj e.1))) (fun t e => sendBulk 4 (joinWrite t e) t) s
    let s := sendControl .configDone s
    let s := forEach (joinTables s ++ joinRules s ++ joinImage s) (fun t b => sendBulk 5 b t) s
    let s := sendControl .tablesDone s
    sendControl .bulkDone (forEach (joinLedger s) (fun t m => sendBulk 8 (mirrorBytes m) t) s)

/-! ### CONTROL (R547, R555, R560) -/

/-- R542: the counts of the active, carried over. -/
def align (cclk sec ns : Nat) (s : State) : State :=
  setLoad 2 { s with clk := { s.clk with cclk := cclk },
                     tun := { s.tun with ptp := sec % 2 ^ 48 * perSecond + ns % 1000000000 * 2 ^ 32 } }

/-- A turn or step of the active at the standby. -/
def turnAsked (epoch : Nat) (step : Bool) (s : State) : State :=
  if role s ≠ 3 then s
  else if setState s ≠ 0 || epoch ≠ activeEpoch s then pairDiverged s
  else if step then beginStep none s else beginTurn none s

/-- T as the active has set it. -/
def turnSet (c : Nat) (s : State) : State :=
  if role s ≠ 3 then s else if setState s = 1 && s.clk.cclk ≤ c then setTurnT c s else pairDiverged s

/-- The steps of a join at the joiner. -/
def joinStep (n : Nat) (s : State) : State := if role s = 2 then setPair { s.pair with join := n } s else s

/-- A CONTROL message takes effect. -/
def control (m : ControlMsg) (s : State) : State :=
  match m with
  | .joinRequest c i v n => if role s = 4 then joinRequested c i v n s else s
  | .joinAccept => s
  | .joinRefuse c => if role s = 2 then refuseJoin c s else s
  | .align c sec ns => if role s = 2 then align c sec ns s else s
  | .configDone => joinStep 4 s
  | .tablesDone => joinStep 5 s
  | .bulkDone => if role s = 2 then setPair { s.pair with bulkDone := true } s else s
  | .selfCheck h => if role s = 3 then checkSets h (startCheck s) else s
  | .turnAsk e step => turnAsked e step s
  | .turnPass => if setState s = 1 then decideTurn (setPair { s.pair with partnerVerdict := some 0 } s) else s
  | .turnAt c => turnSet c s
  | .turnFail g => if setState s = 1 then decideTurn (setPair { s.pair with partnerVerdict := some (g + 1) } s) else s

/-- PAIR_CONTROL (R555). -/
def execPairControl (m : ControlMsg) (s : State) : Host.Outcome State Fault Refusal :=
  .next (if role s = 0 then s else control m (heard s))

/-! ### WRITE and COMMAND messages (R544 to R546) -/

/-- A row of step 3 takes effect as it is, with the effects of its object on the unit. -/
def joinPut (set obj row v : Nat) (s : State) : State :=
  if isShadow obj then wrSet set obj row v s else putValue none obj row v s

/-- A WRITE of step 3. -/
def joinItems (m : Msg) (s : State) : State :=
  forEach m.items (fun t i => match objDesc (Item.obj i) with
    | some d => forEach (itemRows d i) (fun u e => joinPut (fld m.flags 2 1) (Item.obj i) e.1 e.2 u) t
    | none => t) s

/-- The origin of a forwarded write. -/
def pairOrigin : Origin := ⟨.pairLink, 3, 0, 0, 0, 0, 0, 0, 0, true⟩

/-- Something of the active's is to take effect at its cycle; too late, it makes the unit diverge (R546). -/
def takeDue (d : PairDue) (s : State) : State :=
  if d.at_ < s.clk.cclk then pairDiverged s else setPair { s.pair with due := s.pair.due ++ [d] } s

/-- PAIR_WRITE (R544). -/
def execPairWrite (m : Msg) (live : Nat) (s : State) : Host.Outcome State Fault Refusal :=
  onUnits m.wf
    (if !follows s then when (role s ≠ 0) heard s
     else if role s = 2 && s.pair.join < 5 then joinItems m (heard s)
     else takeDue { at_ := live, req := some ⟨pairOrigin, m⟩ } (heard s))

/-- A command of a pair at its commit cycle, by its opcode (R545). -/
def commandDone (c : SqCmd) (opcode : Nat) (body data : Bytes) (s : State) : Done :=
  if opcode < 0x30 then tblPartner c opcode body data s
  else if opcode < 0x40 then rulePartner c opcode body data s
  else if opcode < 0x50 then flowPartner opcode body data s
  else capPartner c body s

/-- A command of the active on its partner: what it changes, or the divergence where it fails (R546). -/
def partnerCommand (opcode : Nat) (body data : Bytes) (s : State) : State :=
  let d := commandDone (partnerCmd s) opcode body data s
  if d.verdict.1 = 0 then d.state else if follows s then pairDiverged s else s

/-- PAIR_COMMAND (R545): during step 4 applied as it comes, later at its commit cycle. -/
def execPairCommand (opcode : Nat) (body data : Bytes) (commit : Nat) (s : State) : Host.Outcome State Fault Refusal :=
  .next (if !follows s then when (role s ≠ 0) heard s
    else if role s = 2 && s.pair.join < 5 then partnerCommand opcode body data (heard s)
    else takeDue { at_ := commit, opcode := opcode, body := body, data := data } (heard s))

/-- A write of the active on its partner at its live point. -/
def partnerWrite (m : Msg) (s : State) : State :=
  if (writeVerdict s .pairLink m).1 = 0 then putItems none m.items s else if follows s then pairDiverged s else s

/-- A write or command whose later cycle has come. -/
def runDue (d : PairDue) (s : State) : State :=
  match d.cmd, d.req with
  | some c, _ => finish c (commandDone c d.opcode d.body d.data s)
  | none, some r =>
    if r.origin.path ≠ .pairLink || r.origin ≠ pairOrigin then applyWrite r.origin r.msg s
    else if follows s || role s = 4 then partnerWrite r.msg s else s
  | none, none => if follows s || role s = 4 then partnerCommand d.opcode d.body d.data s else s

/-- The oldest write or command whose cycle has come. -/
def nextDue (s : State) : Option PairDue := s.pair.due.find? (fun d => d.at_ ≤ s.clk.cclk)

/-- Run what is due, in order of arrival, at most `fuel` of it. -/
def runDues : Nat → State → State
  | 0, s => s
  | fuel + 1, s =>
    match nextDue s with
    | none => s
    | some d => runDues fuel (runDue d (setPair { s.pair with due := s.pair.due.erase d } s))

/-- The halt of a unit that has left its join ends (R560). -/
def endJoinHalt (s : State) : State :=
  if s.pair.join = 7 && role s ≠ 2 then writeHaltRequest 0 (setPair { s.pair with join := 0 } s) else s

end Sys2Proof.Machine
end

