-- ==== Sys2Proof/Machine/Dispatch.lean ====
section
/-! DEFINITION. The dispatch: one arm per command. -/

namespace Sys2Proof.Machine
open Sys2Proof

/-- The effect of a command on everything but the queue. -/
def exec (i : Instr) (s : State) : Host.Outcome State Fault Refusal :=
  match i with
  | .secondWindowEnd => Sys2Proof.Machine.execSecondWindowEnd s
  | .frameReception port frame fcsOk => Sys2Proof.Machine.execFrameReception port frame fcsOk s
  | .headAcceptance pipe parse => Sys2Proof.Machine.execHeadAcceptance pipe parse s
  | .tableLookup fid key bad => Sys2Proof.Machine.execTableLookup fid key bad s
  | .ruleSearch fid parity actions => Sys2Proof.Machine.execRuleSearch fid parity actions s
  | .patternScan pipe words => Sys2Proof.Machine.execPatternScan pipe words s
  | .microInstruction fid word op ecc config => Sys2Proof.Machine.execMicroInstruction fid word op ecc config s
  | .csRepairComplete pipe store word => Sys2Proof.Machine.execCsRepairComplete pipe store word s
  | .flowSet fid mask connState svcAddr svcPort => Sys2Proof.Machine.execFlowSet fid mask connState svcAddr svcPort s
  | .ingressResolution fid => Sys2Proof.Machine.execIngressResolution fid s
  | .recircEnqueue fid egress => Sys2Proof.Machine.execRecircEnqueue fid egress s
  | .ledgerOperation fid ways => Sys2Proof.Machine.execLedgerOperation fid ways s
  | .hbmReadReturn slice slot hot cold => Sys2Proof.Machine.execHbmReadReturn slice slot hot cold s
  | .aliasAdmission slice => Sys2Proof.Machine.execAliasAdmission slice s
  | .aliasForward slice => Sys2Proof.Machine.execAliasForward slice s
  | .bufferGrant pool header link word stray => Sys2Proof.Machine.execBufferGrant pool header link word stray s
  | .poolStarved fid => Sys2Proof.Machine.execPoolStarved fid s
  | .bufferRelease handle owner position header => Sys2Proof.Machine.execBufferRelease handle owner position header s
  | .undertowPass => Sys2Proof.Machine.execUndertowPass s
  | .fabricStageOne => Sys2Proof.Machine.execFabricStageOne s
  | .fabricDiscard pipe middle class7 => Sys2Proof.Machine.execFabricDiscard pipe middle class7 s
  | .mcFifoHead middle class7 => Sys2Proof.Machine.execMcFifoHead middle class7 s
  | .mcPipelineStruck middle class7 pipe => Sys2Proof.Machine.execMcPipelineStruck middle class7 pipe s
  | .fabricStageTwo pipe => Sys2Proof.Machine.execFabricStageTwo pipe s
  | .mcReplication pipe => Sys2Proof.Machine.execMcReplication pipe s
  | .internalDelivery pipe => Sys2Proof.Machine.execInternalDelivery pipe s
  | .captureCompose => Sys2Proof.Machine.execCaptureCompose s
  | .transmitSelection pipe => Sys2Proof.Machine.execTransmitSelection pipe s
  | .gateEntryChange port => Sys2Proof.Machine.execGateEntryChange port s
  | .transmissionStart port egress ecc => Sys2Proof.Machine.execTransmissionStart port egress ecc s
  | .transmissionEnd port => Sys2Proof.Machine.execTransmissionEnd port s
  | .read o m => Sys2Proof.Machine.execRead o m s
  | .write o m => Sys2Proof.Machine.execWrite o m s
  | .compoundWrite o m => Sys2Proof.Machine.execCompoundWrite o m s
  | .describe o m => Sys2Proof.Machine.execDescribe o m s
  | .enumerate o m => Sys2Proof.Machine.execEnumerate o m s
  | .echo o m => Sys2Proof.Machine.execEcho o m s
  | .turnRequest o level value => Sys2Proof.Machine.execTurnRequest o level value s
  | .validationComplete => Sys2Proof.Machine.execValidationComplete s
  | .turnCycle => Sys2Proof.Machine.execTurnCycle s
  | .snapshotWritten => Sys2Proof.Machine.execSnapshotWritten s
  | .slackWaterEnd => Sys2Proof.Machine.execSlackWaterEnd s
  | .slackTimeout => Sys2Proof.Machine.execSlackTimeout s
  | .reseedingComplete => Sys2Proof.Machine.execReseedingComplete s
  | .stepRequest o level value => Sys2Proof.Machine.execStepRequest o level value s
  | .autoEpochStep => Sys2Proof.Machine.execAutoEpochStep s
  | .snapRequest o level value => Sys2Proof.Machine.execSnapRequest o level value s
  | .haltRequest o level value => Sys2Proof.Machine.execHaltRequest o level value s
  | .haltedSet block => Sys2Proof.Machine.execHaltedSet block s
  | .mgmtFrameReceived port frame => Sys2Proof.Machine.execMgmtFrameReceived port frame s
  | .nonceQuery port frame => Sys2Proof.Machine.execNonceQuery port frame s
  | .injectFrame port frame => Sys2Proof.Machine.execInjectFrame port frame s
  | .mbDoorbell length area => Sys2Proof.Machine.execMbDoorbell length area s
  | .mailboxResponse => Sys2Proof.Machine.execMailboxResponse s
  | .keyRevoke o level target value => Sys2Proof.Machine.execKeyRevoke o level target value s
  | .mgmtMode o level value => Sys2Proof.Machine.execMgmtMode o level value s
  | .mgmtLinkRestart port => Sys2Proof.Machine.execMgmtLinkRestart port s
  | .octetEnable o level octet value => Sys2Proof.Machine.execOctetEnable o level octet value s
  | .octetDrained octet => Sys2Proof.Machine.execOctetDrained octet s
  | .portEnable o level port value => Sys2Proof.Machine.execPortEnable o level port value s
  | .autonegComplete port tech fecPage eee => Sys2Proof.Machine.execAutonegComplete port tech fecPage eee s
  | .trainingComplete port => Sys2Proof.Machine.execTrainingComplete port s
  | .alignmentComplete port => Sys2Proof.Machine.execAlignmentComplete port s
  | .upHoldExpiry port => Sys2Proof.Machine.execUpHoldExpiry port s
  | .linkFault port late local_ => Sys2Proof.Machine.execLinkFault port late local_ s
  | .linkFaultCleared port => Sys2Proof.Machine.execLinkFaultCleared port s
  | .downHoldExpiry port => Sys2Proof.Machine.execDownHoldExpiry port s
  | .bringupTimeout port => Sys2Proof.Machine.execBringupTimeout port s
  | .retryWaitEnd port => Sys2Proof.Machine.execRetryWaitEnd port s
  | .fecDegraded port symbols codewords uncorrected => Sys2Proof.Machine.execFecDegraded port symbols codewords uncorrected s
  | .eeeLpiEntry port => Sys2Proof.Machine.execEeeLpiEntry port s
  | .csLoad o level value => Sys2Proof.Machine.execCsLoad o level value s
  | .csLoadComplete => Sys2Proof.Machine.execCsLoadComplete s
  | .tblRead c a ecc => Sys2Proof.Machine.execTblRead c a ecc s
  | .tblInsert c a => Sys2Proof.Machine.execTblInsert c a s
  | .tblUpdate c a => Sys2Proof.Machine.execTblUpdate c a s
  | .tblDelete c a => Sys2Proof.Machine.execTblDelete c a s
  | .tblLock c a => Sys2Proof.Machine.execTblLock c a s
  | .tblUnlock c a => Sys2Proof.Machine.execTblUnlock c a s
  | .ecmpSet c a => Sys2Proof.Machine.execEcmpSet c a s
  | .tableCommit sq tag d bad => Sys2Proof.Machine.execTableCommit sq tag d bad s
  | .lockExpired table entry => Sys2Proof.Machine.execLockExpired table entry s
  | .learnHoldoffExpiry bd mac => Sys2Proof.Machine.execLearnHoldoffExpiry bd mac s
  | .ruleRead c a => Sys2Proof.Machine.execRuleRead c a s
  | .ruleWrite c a => Sys2Proof.Machine.execRuleWrite c a s
  | .ruleClear c a => Sys2Proof.Machine.execRuleClear c a s
  | .ruleMove c a => Sys2Proof.Machine.execRuleMove c a s
  | .ruleMoveCopy sq tag => Sys2Proof.Machine.execRuleMoveCopy sq tag s
  | .rbScrub bad => Sys2Proof.Machine.execRbScrub bad s
  | .patLoad c length header => Sys2Proof.Machine.execPatLoad c length header s
  | .patLoadComplete body => Sys2Proof.Machine.execPatLoadComplete body s
  | .flowRead c a cold => Sys2Proof.Machine.execFlowRead c a cold s
  | .flowWalk c a cold => Sys2Proof.Machine.execFlowWalk c a cold s
  | .flowInsert c a image aliasKey => Sys2Proof.Machine.execFlowInsert c a image aliasKey s
  | .flowUpdate c a image => Sys2Proof.Machine.execFlowUpdate c a image s
  | .flowDelete c a => Sys2Proof.Machine.execFlowDelete c a s
  | .flowPin c a => Sys2Proof.Machine.execFlowPin c a s
  | .flowUnpin c a => Sys2Proof.Machine.execFlowUnpin c a s
  | .writeback slice slot way => Sys2Proof.Machine.execWriteback slice slot way s
  | .fold slice slot cold => Sys2Proof.Machine.execFold slice slot cold s
  | .ledgerRepair slice slot cold read => Sys2Proof.Machine.execLedgerRepair slice slot cold read s
  | .ledgerAging slice => Sys2Proof.Machine.execLedgerAging slice s
  | .natRelease pool entry => Sys2Proof.Machine.execNatRelease pool entry s
  | .portmapAudit pool entry => Sys2Proof.Machine.execPortmapAudit pool entry s
  | .counterExport => Sys2Proof.Machine.execCounterExport s
  | .learnNotice => Sys2Proof.Machine.execLearnNotice s
  | .macAging => Sys2Proof.Machine.execMacAging s
  | .emReturn => Sys2Proof.Machine.execEmReturn s
  | .filterRebuild => Sys2Proof.Machine.execFilterRebuild s
  | .captureCopy => Sys2Proof.Machine.execCaptureCopy s
  | .pairMirror => Sys2Proof.Machine.execPairMirror s
  | .farPass bad => Sys2Proof.Machine.execFarPass bad s
  | .rebalanceRun table => Sys2Proof.Machine.execRebalanceRun table s
  | .slotTableRebuild table => Sys2Proof.Machine.execSlotTableRebuild table s
  | .backendState o level row value => Sys2Proof.Machine.execBackendState o level row value s
  | .capRead c count => Sys2Proof.Machine.execCapRead c count s
  | .functionLevelReset => Sys2Proof.Machine.execFunctionLevelReset s
  | .perstN high => Sys2Proof.Machine.execPerstN high s
  | .adminEnable o level value => Sys2Proof.Machine.execAdminEnable o level value s
  | .sqDoorbell sq => Sys2Proof.Machine.execSqDoorbell sq s
  | .pushWindowDoorbell sq tail window => Sys2Proof.Machine.execPushWindowDoorbell sq tail window s
  | .sqPoll sq => Sys2Proof.Machine.execSqPoll sq s
  | .entryFetch sq first rest => Sys2Proof.Machine.execEntryFetch sq first rest s
  | .cqDoorbell cq => Sys2Proof.Machine.execCqDoorbell cq s
  | .createSq c a => Sys2Proof.Machine.execCreateSq c a s
  | .deleteSq c qid => Sys2Proof.Machine.execDeleteSq c qid s
  | .createCq c a => Sys2Proof.Machine.execCreateCq c a s
  | .deleteCq c qid => Sys2Proof.Machine.execDeleteCq c qid s
  | .modifyCq c a => Sys2Proof.Machine.execModifyCq c a s
  | .restart c qid cq block => Sys2Proof.Machine.execRestart c qid cq block s
  | .nop c => Sys2Proof.Machine.execNop c s
  | .dict c respMax respAddr message => Sys2Proof.Machine.execDict c respMax respAddr message s
  | .inject c pipe cls frame => Sys2Proof.Machine.execInject c pipe cls frame s
  | .rxPost c bufLen => Sys2Proof.Machine.execRxPost c bufLen s
  | .interruptSignal cq byCeiling => Sys2Proof.Machine.execInterruptSignal cq byCeiling s
  | .msixUnmask vector => Sys2Proof.Machine.execMsixUnmask vector s
  | .l1Entry state => Sys2Proof.Machine.execL1Entry state s
  | .l1Exit => Sys2Proof.Machine.execL1Exit s
  | .d3hotEntry d3hot pmeEn => Sys2Proof.Machine.execD3hotEntry d3hot pmeEn s
  | .d0Return => Sys2Proof.Machine.execD0Return s
  | .timeSet o level sec ns => Sys2Proof.Machine.execTimeSet o level sec ns s
  | .timeStep o level ns => Sys2Proof.Machine.execTimeStep o level ns s
  | .timeSlew o level ns => Sys2Proof.Machine.execTimeSlew o level ns s
  | .timeLatch o level value => Sys2Proof.Machine.execTimeLatch o level value s
  | .timeIncrement o level value => Sys2Proof.Machine.execTimeIncrement o level value s
  | .ppsOutEdge => Sys2Proof.Machine.execPpsOutEdge s
  | .ppsIn => Sys2Proof.Machine.execPpsIn s
  | .synceLoss => Sys2Proof.Machine.execSynceLoss s
  | .calSet o level sec ns => Sys2Proof.Machine.execCalSet o level sec ns s
  | .calSync o level value => Sys2Proof.Machine.execCalSync o level value s
  | .calSyncLoad => Sys2Proof.Machine.execCalSyncLoad s
  | .crystalStop => Sys2Proof.Machine.execCrystalStop s
  | .vbatLow => Sys2Proof.Machine.execVbatLow s
  | .claimDecision claimIn => Sys2Proof.Machine.execClaimDecision claimIn s
  | .firstClaim => Sys2Proof.Machine.execFirstClaim s
  | .privilegedFault unit => Sys2Proof.Machine.execPrivilegedFault unit s
  | .pairYield o level value => Sys2Proof.Machine.execPairYield o level value s
  | .pairRejoin o level value => Sys2Proof.Machine.execPairRejoin o level value s
  | .pairEnable o level value => Sys2Proof.Machine.execPairEnable o level value s
  | .health report claim => Sys2Proof.Machine.execHealth report claim s
  | .healthTimer => Sys2Proof.Machine.execHealthTimer s
  | .digest window subs counts => Sys2Proof.Machine.execDigest window subs counts s
  | .digestWindowClose window => Sys2Proof.Machine.execDigestWindowClose window s
  | .pairControl m => Sys2Proof.Machine.execPairControl m s
  | .selfCheckComplete selfFailed partnerFailed => Sys2Proof.Machine.execSelfCheckComplete selfFailed partnerFailed s
  | .pairWrite m live => Sys2Proof.Machine.execPairWrite m live s
  | .pairCommand opcode body data commit => Sys2Proof.Machine.execPairCommand opcode body data commit s
  | .mirror m => Sys2Proof.Machine.execMirror m s
  | .pairFrame pipe cls frame => Sys2Proof.Machine.execPairFrame pipe cls frame s
  | .bulk m => Sys2Proof.Machine.execBulk m s
  | .retransmitTimeout seq => Sys2Proof.Machine.execRetransmitTimeout seq s
  | .pairLost => Sys2Proof.Machine.execPairLost s
  | .soundingTest test failed => Sys2Proof.Machine.execSoundingTest test failed s
  | .joinStart claim imageId imageVersion slots offset => Sys2Proof.Machine.execJoinStart claim imageId imageVersion slots offset s
  | .joinFinish => Sys2Proof.Machine.execJoinFinish s
  | .energySample mv ma => Sys2Proof.Machine.execEnergySample mv ma s
  | .voltageLoop slack ack => Sys2Proof.Machine.execVoltageLoop slack ack s
  | .vregCheck mv lasting => Sys2Proof.Machine.execVregCheck mv lasting s
  | .regulatorRetry ack => Sys2Proof.Machine.execRegulatorRetry ack s
  | .slotGateLoop pipe => Sys2Proof.Machine.execSlotGateLoop pipe s
  | .engineWait pipe express => Sys2Proof.Machine.execEngineWait pipe express s
  | .bufferThresholdLoop => Sys2Proof.Machine.execBufferThresholdLoop s
  | .voltageProtection => Sys2Proof.Machine.execVoltageProtection s
  | .thermalProtection tj => Sys2Proof.Machine.execThermalProtection tj s
  | .overrideEnd knob => Sys2Proof.Machine.execOverrideEnd knob s
  | .govKnobs o level row value => Sys2Proof.Machine.execGovKnobs o level row value s
  | .perfSelect o level row value => Sys2Proof.Machine.execPerfSelect o level row value s
  | .preciseSampleWrite pipe => Sys2Proof.Machine.execPreciseSampleWrite pipe s
  | .powerOn testMode => Sys2Proof.Machine.execPowerOn testMode s
  | .resetN lowNs => Sys2Proof.Machine.execResetN lowNs s
  | .resetRequest o level value => Sys2Proof.Machine.execResetRequest o level value s
  | .thermalTrip => Sys2Proof.Machine.execThermalTrip s
  | .clockTreeFault clock => Sys2Proof.Machine.execClockTreeFault clock s
  | .railUndervoltage => Sys2Proof.Machine.execRailUndervoltage s
  | .coreRestart reason => Sys2Proof.Machine.execCoreRestart reason s
  | .bootStepComplete r => Sys2Proof.Machine.execBootStepComplete r s
  | .ledgerRebased => Sys2Proof.Machine.execLedgerRebased s
  | .bootAttemptTimeout r => Sys2Proof.Machine.execBootAttemptTimeout r s
  | .bootContinue o level value => Sys2Proof.Machine.execBootContinue o level value s
  | .controlPathRetry pcieOk mgmtOk => Sys2Proof.Machine.execControlPathRetry pcieOk mgmtOk s
  | .hbmStackLost stack => Sys2Proof.Machine.execHbmStackLost stack s
  | .ledgerFault slice limitOnly => Sys2Proof.Machine.execLedgerFault slice limitOnly s
  | .eventClear o level group bits => Sys2Proof.Machine.execEventClear o level group bits s
  | .hbmWriteComplete slice => Sys2Proof.Machine.execHbmWriteComplete slice s
  | .ledgerScrub slice slot hot cold => Sys2Proof.Machine.execLedgerScrub slice slot hot cold s
  | .sliceFlushComplete slice badTags => Sys2Proof.Machine.execSliceFlushComplete slice badTags s
  | .indexReadComplete qid cq block => Sys2Proof.Machine.execIndexReadComplete qid cq block s
  | .mbOverrunClear => Sys2Proof.Machine.execMbOverrunClear s
  | .ppsOutFall => Sys2Proof.Machine.execPpsOutFall s
  | .pmbAlert => Sys2Proof.Machine.execPmbAlert s
  | .linkLeavesL1 => Sys2Proof.Machine.execLinkLeavesL1 s
  | .mgmtLinkChange port up => Sys2Proof.Machine.execMgmtLinkChange port up s
  | .thermalTripCleared => Sys2Proof.Machine.execThermalTripCleared s
  | .tapInstructionLoaded t => Sys2Proof.Machine.execTapInstructionLoaded t s

end Sys2Proof.Machine
end

