-- ==== Sys2Proof/Machine/Idle.lean ====
section
/-! DEFINITION. What one CCLK cycle does when no command waits (log entry 6): the cycle's head slots and events are counted,
the clocks move, and what waited for a cycle or for room goes on. -/

namespace Sys2Proof.Machine
open Sys2Proof

/-- Category of Table 16-4 of a head slot that took no head: what held it, none waiting, or a head that waited for a free
engine. -/
def unusedCategory (s : State) (n : Nat) : Nat :=
  (headStall s n).getD (if (pickHead s n).isSome then 5 else 4)

/-- The head slots of a pipeline that were not used in the cycle that ends (R583). -/
def countUnused (n : Nat) (s : State) : State :=
  let c := unusedCategory s n
  let used := (slotsUsed s n).1
  forEach (List.range (2 - used)) (fun t _ => slotCategory n c {} t) s

/-- The cycle that ends is the last of a pipeline cycle (R31). -/
def pipeCycleEnds (s : State) : Bool := !halfClock s || s.clk.cclk % 2 = 1

/-- Unused slots of the sixteen pipelines. -/
def countSlots (s : State) : State := when (pipeCycleEnds s) (forEach (List.range 16) (fun t n => countUnused n t)) s

/-- Event 0x0001, cycles, of every pipeline and of the device (Table 16-6). -/
def countCycles (s : State) : State :=
  occurGlobal 0x01 1 (forEach (List.range 16) (fun t n => occur n 0x01 1 {} t) s)

/-- Event 0x0041, frames that wait for a buffer, in an FCLK cycle (Table 16-6). -/
def countWaiting (s : State) : State :=
  forEach s.buf.waiters (fun t fid =>
    match frame t fid with
    | some f => occur f.pipe 0x41 1 (occOf fid f) t
    | none => t) s

/-- Event 0x0120, gated engine groups summed over the pipelines (Table 16-6). -/
def countGated (s : State) : State :=
  occurGlobal 0x120 (s.gov.slotGate.foldl (fun a g => a + g.toNat) 0) s

/-- What is counted at the end of a cycle; once in two cycles, what FCLK counts (R380, Table 16-6). -/
def cycleEnds (s : State) : State :=
  let s := countGated (countCycles (countSlots s))
  if s.clk.cclk % 2 = 1 then applyReleases (countWaiting (countWaits s)) else s

/-- The clocks move: CCLK, TCLK at half its rate with the PTP counter (R496), and the crystal of the calendar (R520). -/
def clocks (s : State) : State :=
  let s : State := { s with clk := { s.clk with cclk := s.clk.cclk + 1 } }
  calTick (if s.clk.cclk % 2 = 0 then timeTick s else s)

/-- A turn or step that a pair was deciding, in a unit that no longer decides with a partner (R541, R547), goes on with
this unit's verdict. -/
def decideAlone (s : State) : State :=
  if setState s = 1 && !turnsTogether s then
    match s.pair.ownVerdict with
    | some 0 => setTurnT (s.clk.cclk + 1024) s
    | some (g + 1) => rejectTurn g s
    | none => s
  else s

/-- What waits for a cycle, or for room, goes on (R39, R216, R383, R441 to R443, R451). -/
def deferredGoOn (s : State) : State := flushWrites (refill (retryWaiting (startArrivals s)))

/-- What waited goes on: writes and commands whose cycle has come (R544, R545), a verdict of a unit now alone, the halt of
a unit that left its join (R560), one dictionary request (R124), held ledger operations, held completions (R491). -/
def goOn (s : State) : State :=
  flushHeld <| deferredGoOn <| runLedger (serveNext (endJoinHalt (decideAlone (runDues s.pair.due.length s))))

/-- One CCLK cycle passes. -/
def idle (s : State) : State := goOn (clocks (cycleEnds s))

end Sys2Proof.Machine
end

