-- ==== Sys2Proof/Safety.lean ====
section
/-! DEFINITION. What the statements about runs speak of: the canonical form of a state's registers and counters, and what one
step may do to the fuses, the outputs and the queue. -/

namespace Sys2Proof.Machine
open Sys2Proof

/-- Counters of BAR2 in canonical form: offsets rising, none listed at zero, each below 2^64 (R79, R83). -/
def ctrWf (t : Tab Nat) : Bool := tabWf (fun _ => 0) t && t.all (fun e => decide (e.2 < 2 ^ 64))

/-- Every register is held once, and every counter is a 64-bit value held once. -/
def State.canonical (s : State) : Bool := tabRising s.dict && ctrWf s.ctr

/-- The fuses after are those before but for key generations that have risen (R92, R129). -/
def fusesOnlyBlow (s t : State) : Prop :=
  { t.fuse with gens := s.fuse.gens } = s.fuse ∧ ∀ level, keyGen s level ≤ keyGen t level

/-- A run of `n` steps that ends in `t`. -/
def runsTo : Nat → State → State → Prop
  | 0, s, t => s = t
  | n + 1, s, t => ∃ u, step s = .next u ∧ runsTo n u t

/-- The queue of a command takes commands of at least a level, the unit follows no active, and the links of the command's chain
have been read (R475, R476, R480, R543). -/
def servesCommand (c : SqCmd) (lowest : Nat) (s : State) : Prop :=
  c.wf = true ∧ c.sq ≠ 0 ∧ follows s = false ∧ c.links ≠ .fault ∧ c.links ≠ .tooLong ∧
    ∃ x, sq s c.sq = some x ∧ x.kind ≠ 1 ∧ lowest ≤ x.level

/-- A table command starts as it comes: none waits, and none of a later queue has started in this MCLK cycle (R216). -/
def tableTurn (s : State) (c : SqCmd) : Prop :=
  s.lt.arrivals = [] ∧ ¬ (s.lt.started.1 = mclk s + 1 ∧ c.sq < s.lt.started.2)

/-- The engine takes a request of an origin as it comes: it is open, nothing waits before it or holds it back, and none that
R124 puts behind it has been taken in this MCLK cycle. -/
def engineTakes (s : State) (o : Origin) : Prop :=
  s.eng.opened = true ∧ s.eng.queue = [] ∧ engineWaits s = false ∧ arrival o.path s = mclk s

/-- The state in which the engine serves a request that it has taken, one more (R124). -/
def counted (o : Origin) (s : State) : State :=
  wr oRequests ((rd s oRequests + 1) % 2 ^ 64) { s with eng := { s.eng with taken := (mclk s + 1, pathRank o.path) } }

/-- The engine takes a write at once, every check of chapter 3 passes, and no partner unit has to take it at a later live
point. -/
def acceptsWrite (s : State) (o : Origin) (m : Msg) : Prop :=
  engineTakes s o ∧ messageCode (counted o s) o m = 0 ∧ (writeVerdict (counted o s) o.path m).1 = 0 ∧
    forwarded (counted o s) m = false

/-- No operation is under way in a flow slice, and no slot is being repaired. -/
def ledgerQuiet (s : State) : Prop := ∀ f, (slc s f).ops = [] ∧ (slc s f).repairs = []

/-- The slice of a slot takes an operation at once, and the slot is on die. -/
def slotReady (s : State) (r : Nat) : Prop :=
  sliceOpen s (recSlice r) = true ∧ sliceAccepts s (recSlice r) = true ∧ onDie s r = true

/-- The WRITE of one value of `n` bytes. -/
def oneWrite (level obj row n v : Nat) : Msg := writeOne level obj row (leBytes n v)

/-- `t` with the success of the request answered, under the transport settings of `s`. -/
def answered (s : State) (o : Origin) (m : Msg) (t : State) : State := respondAs s o (answer m 0 0xFF 0 []) t

end Sys2Proof.Machine
end

