-- ==== Sys2Proof/Certificates/Slice0/Obligations.lean ====
section
/-! DEFINITION. The statements for the provers. Each says what a command, or every step, does to the state; the register
objects are named as in DictTable.lean, and a statement that rests on a choice of the model says so. -/

open Sys2Proof Sys2Proof.Machine

/-! ### The queue, the whole machine -/

/-- A step takes the command at the front of the queue and runs it with the queue's rest.
On an empty queue a step lets one CCLK cycle pass (the model's choice, log entry 6). -/
def Obligations.StepRunsTheFrontCommand : Prop :=
  (∀ (s : State) (c : Instr) (rest : List Instr),
     step { s with pending := c :: rest } = exec c { s with pending := rest }) ∧
  (∀ s : State, s.pending = [] → step s = .next (idle s))

/-- Right after the release of reset: nothing waits; both configuration sets and every register read their defaults; every
counter reads 0; registers and counters are in canonical form; INT_N is high; no frame is in the device, and nothing has left
it. -/
def Obligations.ResetState : Prop :=
  State.reset.canonical = true ∧ State.reset.pending = [] ∧
    (∀ set obj row, rdOpt State.reset set obj row = dfltOf obj row) ∧ (∀ o, ctr State.reset o = 0) ∧
    intLow State.reset = false ∧ State.reset.pip.frames = [] ∧ State.reset.out = []

/-- A command that names units of the device completes; any other stops with the one fault, and none is refused. -/
def Obligations.EveryCommandCompletes : Prop :=
  ∀ (c : Instr) (s : State), if c.wf = true then ∃ t, exec c s = .next t else exec c s = .fault .noSuchUnit

/-- Every step, tick or command, from any state keeps the canonical form of the registers and the counters. -/
def Obligations.StepsKeepTheCanonicalForm : Prop :=
  ∀ s t : State, s.canonical = true → step s = .next t → t.canonical = true

/-- However many steps run, the fuses are those of the start but for key generations that have risen. -/
def Obligations.RunsOnlyBlowGenerationFuses : Prop :=
  ∀ (n : Nat) (s t : State), runsTo n s t → fusesOnlyBlow s t

/-- No command touches the queue.
What has left the device is never taken back, and no free value is drawn twice. -/
def Obligations.CommandsLeaveTheQueueAndOutputsGrow : Prop :=
  (∀ (c : Instr) (s t : State), exec c s = .next t → t.pending = s.pending) ∧
  (∀ s t : State, step s = .next t → s.out <+: t.out ∧ s.free ≤ t.free)

/-- A register written reads the value written, in its set; every other row of every object in every set reads as before; and
nothing but the registers changes.
Counting advances one 64-bit counter modulo 2^64 and leaves every other one and the rest of the state. -/
def Obligations.WritingAndCountingChangeOneRow : Prop :=
  (∀ (s : State) (set obj row v : Nat), obj < 2 ^ 32 → row < 2 ^ 32 →
     rdOpt (wrSet set obj row v s) set obj row = some v ∧
     (∀ set' obj' row', obj' < 2 ^ 32 → row' < 2 ^ 32 → (set', obj', row') ≠ (set, obj, row) →
       rdOpt (wrSet set obj row v s) set' obj' row' = rdOpt s set' obj' row') ∧
     { wrSet set obj row v s with dict := s.dict } = s) ∧
  (∀ (s : State) (off n : Nat), ctr (ctrAdd off n s) off = (ctr s off + n) % 2 ^ 64 ∧
     (∀ o, o ≠ off → ctr (ctrAdd off n s) o = ctr s o) ∧ { ctrAdd off n s with ctr := s.ctr } = s)

/-- R620, R621, R623: a raise counts in EVENTS_RAISED; sets the source's PENDING bit and leaves the others of its group; and
advances the COUNT of the source's log row, whose TIME is now and whose DETAIL is the raise's, or the lowest of the cycle's. Beside
registers and counters it touches only the event unit, a MGMT port's sequence, the host link and what leaves the device. -/
def Obligations.RaisingASource : Prop :=
  ∀ (s : State) (src detail : Nat), src < 512 →
    let t := raise src detail s
    rd t oEventPending (src / 32) = setBit (rd s oEventPending (src / 32)) (src % 32) ∧
    (∀ g, g < 2 ^ 32 → g ≠ src / 32 → rd t oEventPending g = rd s oEventPending g) ∧
    byteFld (rd t oEventLog src) 0 4 = (byteFld (rd s oEventLog src) 0 4 + 1) % 2 ^ 32 ∧
    rd t oEventLog src / 2 ^ 64 = nowTime80 s ∧
    byteFld (rd t oEventLog src) 4 4 =
      (if tabGet 0 s.ev.lastMclk src = mclk s + 1 then min (byteFld (rd s oEventLog src) 4 4) (detail % 2 ^ 32)
       else detail % 2 ^ 32) ∧
    ctr t (cEvent 0x00) = (ctr s (cEvent 0x00) + 1) % 2 ^ 64 ∧
    { t with dict := s.dict, ctr := s.ctr, ev := s.ev, eng := s.eng, hst := s.hst, out := s.out } = s

/-! ### Epochs, snapshots and halts (chapter 2) -/

/-- R62, R72: an accepted TURN_REQUEST starts a turn in VALIDATING and an accepted STEP_REQUEST a step that omits it; neither is
answered yet; a step sets T at once unless it waits for a half of BAR2 (R81).
R64, R65, R81: validation that fails ends the turn with the lowest failing group; one that passes sets T 1,024 cycles ahead,
unless the snapshot of T waits for a half. AUTO_EPOCH_STEP starts a step where one is due (R73).
R67: at T the epoch advances by one modulo 2^16; a turn exchanges the sets and a step does not (R72); T and its time are
recorded; TIDE_TURNED is raised; and the request is acknowledged. -/
def Obligations.TurnsAndSteps : Prop :=
  (∀ (o : Origin) (level v : Nat) (s : State), turnsTogether s = false → setState s = 0 →
     ((Instr.turnRequest o level v).wf = true → acceptsWrite s o (oneWrite level oTurnRequest 0 2 v) →
       ∃ t, exec (.turnRequest o level v) s = .next t ∧ rd t oSetState = 1 ∧ t.ep.stepping = false ∧ t.ep.passed = false ∧
         t.ep.request = some ⟨o, oneWrite level oTurnRequest 0 2 v⟩ ∧ t.ep.lastStart = s.clk.cclk ∧ t.out = s.out ∧
         rd t oActiveEpoch = rd s oActiveEpoch ∧ rd t oActiveSet = rd s oActiveSet) ∧
     ((Instr.stepRequest o level v).wf = true → acceptsWrite s o (oneWrite level oStepRequest 0 2 v) →
       ∃ t, exec (.stepRequest o level v) s = .next t ∧ t.ep.stepping = true ∧
         t.ep.request = some ⟨o, oneWrite level oStepRequest 0 2 v⟩ ∧ t.out = s.out ∧
         (if snapAtT s = true ∧ halfFree s = false then rd t oSetState = 1 ∧ t.ep.passed = true
          else rd t oSetState = 2 ∧ t.ep.turnT = s.clk.cclk + 1024) ∧
         rd t oActiveEpoch = rd s oActiveEpoch ∧ rd t oActiveSet = rd s oActiveSet)) ∧
  (∀ s : State, turnsTogether s = false →
     (validating s = true →
       (∀ g, validation s = some g → ∃ u, exec .validationComplete s = .next (acknowledge (raise evTurnRejected g u)) ∧
         rd u oSetState = 0 ∧ rd u oTurnResult = 2 ∧ rd u oFailedGroup = g ∧ rd u oActiveSet = rd s oActiveSet ∧
         rd u oActiveEpoch = rd s oActiveEpoch) ∧
       (validation s = none → ∃ t, exec .validationComplete s = .next t ∧
         (if snapAtT s = true ∧ halfFree s = false then rd t oSetState = 1 ∧ t.ep.passed = true
          else rd t oSetState = 2 ∧ t.ep.turnT = s.clk.cclk + 1024))) ∧
     (autoStepDue s = true → follows s = false → ∃ t, exec .autoEpochStep s = .next t ∧ t.ep.stepping = true ∧
       t.ep.request = none ∧ (rd t oSetState = 1 ∨ rd t oSetState = 2))) ∧
  (∀ s : State, setState s = 2 → ∃ u,
     exec .turnCycle s = .next (acknowledge (raise evTideTurned ((activeEpoch s + 1) % 2 ^ 16) u)) ∧
     rd u oActiveEpoch = (activeEpoch s + 1) % 2 ^ 16 ∧
     rd u oActiveSet = (if s.ep.stepping then activeSet s else 1 - activeSet s) ∧
     rd u oTurnCclk = s.ep.turnT ∧ rd u oTurnTime = nowTime80 s ∧ rd u oSetState = 3 ∧ u.ep.request = s.ep.request)

/-- R68 to R70, R72: slack water ends once no frame of the old epoch remains, or at its limit, when what remains is discarded;
DRAINED_EPOCH becomes the old epoch, and where no snapshot is asked for a turn goes on to reseeding and a step ends.
R71: reseeding makes the shadow set equal to the active one, which does not change, and the turn has completed. -/
def Obligations.SlackWaterAndReseeding : Prop :=
  (∀ s : State, slackRuns s = true →
     (framesOf s (oldEpoch s) = [] → snapAtSlackEnd s = false → ∃ t, exec .slackWaterEnd s = .next t ∧
       rd t oDrainedEpoch = oldEpoch s ∧
       (if s.ep.stepping then rd t oSetState = 0 ∧ rd t oTurnResult = 1 ∧ t.ep.stepping = false else rd t oSetState = 4) ∧
       t.lt = { s.lt with nh := s.lt.nh.filter (fun e => keepRetired t e.2.retired),
                          rw := s.lt.rw.filter (fun e => keepRetired t e.2.retired),
                          slots := s.lt.slots.filter (fun e => keepRetired t e.2.retired) } ∧ t.pip = s.pip ∧ t.ctr = s.ctr) ∧
     (framesOf s (oldEpoch s) ≠ [] → exec .slackTimeout s = .next (endSlack (discardOld s)) ∧
       exec .slackWaterEnd s = .next s) ∧
     (framesOf s (oldEpoch s) = [] → exec .slackTimeout s = .next s)) ∧
  (∀ s : State, setState s = 4 → activeSet s ≤ 1 → tabRising s.dict = true →
     ∃ t, exec .reseedingComplete s = .next t ∧ rd t oSetState = 0 ∧ rd t oTurnResult = 1 ∧
       (∀ obj row, obj < 2 ^ 32 → row < 2 ^ 32 → isShadow obj = true →
         rdOpt t (shadowSet s) obj row = rdOpt s (activeSet s) obj row ∧
         rdOpt t (activeSet s) obj row = rdOpt s (activeSet s) obj row) ∧
       { t with dict := s.dict, ep := s.ep } = s)

/-- R79, R82: the snapshot being written whose number is the lower completes, and SNAP_SEQ names it; a software request captures
every counter, the epoch and the cycle at once. Where what waits for a half is nothing, nothing else happens.
R55, R57: a halt that was asked for sets its HALTED bit and no other once its block is empty, and a HALT_REQUEST written
takes effect at its live point. -/
def Obligations.SnapshotsAndHalts : Prop :=
  ((∀ (s : State) (n : Nat), writingHalf s = some n → s.ep.passed = false → s.ep.turnSnapDue = false → s.ep.snapDue = false →
     exec .snapshotWritten s = .next (wr oSnapSeq (half s n).seq (setHalf n { half s n with state := 2 } s))) ∧
   (∀ (o : Origin) (level : Nat) (s : State), (Instr.snapRequest o level 1).wf = true →
     acceptsWrite s o (oneWrite level oSnapRequest 0 1 1) → ∃ t,
       exec (.snapRequest o level 1) s = .next (answered (counted o s) o (oneWrite level oSnapRequest 0 1 1) t) ∧
       half t s.ep.nextSnap = { state := 1, seq := s.ep.nextSnap, epoch := activeEpoch s, cause := 0, time := nowTime80 s,
                                cclk := s.clk.cclk, values := s.ctr } ∧
       half t (s.ep.nextSnap + 1) = half s (s.ep.nextSnap + 1) ∧ t.ep.nextSnap = s.ep.nextSnap + 1 ∧ t.ctr = s.ctr) ∧
   (∀ (o : Origin) (level : Nat) (s : State), (Instr.snapRequest o level 0).wf = true →
     acceptsWrite s o (oneWrite level oSnapRequest 0 1 0) → exec (.snapRequest o level 0) s =
       .next (answered (counted o s) o (oneWrite level oSnapRequest 0 1 0) (wr oSnapRequest 0 (counted o s))))) ∧
  ((∀ (b : Nat) (s : State), b < 39 → haltAsked s b = true → blockEmpty s b = true → ∃ t,
     exec (.haltedSet b) s = .next t ∧ halted t b = true ∧ (∀ c, c ≠ b → halted t c = halted s c) ∧
     { t with dict := s.dict } = s) ∧
   (∀ (b : Nat) (s : State), b < 39 → (haltAsked s b = false ∨ blockEmpty s b = false) →
     exec (.haltedSet b) s = .next s) ∧
   (∀ (o : Origin) (level v : Nat) (s : State), (Instr.haltRequest o level v).wf = true →
     acceptsWrite s o (oneWrite level oHaltRequest 0 8 v) →
     exec (.haltRequest o level v) s =
       .next (answered (counted o s) o (oneWrite level oHaltRequest 0 8 v) (writeHaltRequest v (counted o s)))))

/-! ### The dictionary and its containers (chapter 3) -/

/-- R103, R657, R658, R99: a request that changes nothing, reaching an engine where nothing waits, is counted and answered, and
no register but the engine's count changes when it came on the transport.
R657: a DESCRIBE item is served at any level and fails only for an object that does not exist, a VLEN other than 12 or a
ROW other than 0. R99: an ECHO has no items to answer. -/
def Obligations.ReadingRequests : Prop :=
  (∀ (o : Origin) (m : Msg) (s : State), o.wf = true → m.wf = true → engineTakes s o →
     ∀ (op : Nat) (c : Instr),
     (op = 1 ∧ c = .read o m) ∨ (op = 4 ∧ c = .describe o m) ∨ (op = 5 ∧ c = .enumerate o m) ∨ (op = 6 ∧ c = .echo o m) →
     let r := readReply (counted o s) { m with opcode := op }
     messageCode (counted o s) o { m with opcode := op } = 0 → noRoomFor o r = false →
       exec c s = .next (respond o r (areaOf { m with opcode := op } r.failItem) (counted o s)) ∧
       (∀ n, o.path = .mgmt n → ∃ t, exec c s = .next t ∧ t.dict = (counted o s).dict ∧ t.ctr = s.ctr)) ∧
  ((∀ i : Item, describeItem i = match objDesc (Item.obj i) with
     | none => .inl 0x03
     | some d => if i.vlen = 12 then (if i.row = 0 then .inr (description d) else .inl 0x06) else .inl 0x05) ∧
   (∀ d : ObjDesc, (description d).length = 12) ∧
   (∀ (s : State) (m : Msg), m.opcode = 6 → readReply s m = answer m 0 0xFF 0 []))

/-- R59, R60, R102: a write that every check lets through takes effect, all its items at one live point, and is answered; one
that a check stops changes no register but the engine's count when it came on the transport.
R477, R480, R484: the message of a DICT command reaches the engine with its queue as its path; a receive queue does not serve
DICT; a message that cannot be fetched completes with a fault. -/
def Obligations.WritingRequests : Prop :=
  (∀ (o : Origin) (m : Msg) (s : State), o.wf = true → m.wf = true → ∀ (op : Nat) (c : Instr),
     (op = 2 ∧ c = .write o m) ∨ (op = 3 ∧ c = .compoundWrite o m) →
     (acceptsWrite s o { m with opcode := op } → asksTurn m = false → asksReset m = false →
       exec c s = .next (answered (counted o s) o { m with opcode := op }
         (putItems (some ⟨o, { m with opcode := op }⟩) m.items (counted o s)))) ∧
     (engineTakes s o → messageCode (counted o s) o { m with opcode := op } = 0 →
       ∀ code item detail n, writeVerdict (counted o s) o.path { m with opcode := op } = (code, item, detail) → code ≠ 0 →
         o.path = .mgmt n → ∃ t, exec c s = .next t ∧ t.dict = (counted o s).dict ∧
           t = respond o (answer { m with opcode := op } code item detail []) (areaOf m item) (counted o s))) ∧
  (∀ (c : SqCmd) (x : Sq) (respMax respAddr : Nat) (s : State), c.wf = true → sq s c.sq = some x →
     (x.kind = 1 → ∀ d, exec (.dict c respMax respAddr d) s = .next (complete c 0x89 0x60 0 s)) ∧
     (x.kind ≠ 1 →
       (∀ b, exec (.dict c respMax respAddr (.data b)) s =
         .next (reachEngine ⟨.queue c.sq, 0, 0, 0, 0, 0, c.tag, respMax, respAddr, c.quiet⟩ (readAny false b) s)) ∧
       exec (.dict c respMax respAddr .fault) s = .next (complete c 0x81 0x60 0 s) ∧
       exec (.dict c respMax respAddr .tooLong) s = .next (complete c 0x80 0x60 0 s)))

/-- R51: a write of an S object changes the row's copy in the shadow set; the active copy, and every other row of every object,
stay. Only a write of a policer row touches anything else: the bucket of its meter, where its burst changes (log entry 78). -/
def Obligations.ShadowWrites : Prop :=
  ∀ (r : Option Req) (obj row v : Nat) (s : State), isShadow obj = true → obj < 2 ^ 32 → row < 2 ^ 32 →
    let t := putValue r obj row v s
    rdOpt t (shadowSet s) obj row = some v ∧ rdOpt t (activeSet s) obj row = rdOpt s (activeSet s) obj row ∧
    (∀ set' obj' row', obj' < 2 ^ 32 → row' < 2 ^ 32 → (set', obj', row') ≠ (shadowSet s, obj, row) →
      rdOpt t set' obj' row' = rdOpt s set' obj' row') ∧
    { t with dict := s.dict, ep := s.ep, tm := s.tm } = s ∧ (obj ≠ oPolicers → t.tm = s.tm)

/-- R109 to R113: a frame that is not authentic is only counted; an authentic request whose SEQ its window takes reaches the
engine, and one that the window has seen is counted in REPLAYS.
R112: a nonce query is counted; up to 1,000 a second on its port it is answered with RESET_NONCE, and beyond that it is not.
R113: in a window, a number is taken once: a window that has taken a number does not take it again. -/
def Obligations.TransportRequests : Prop :=
  (∀ (n : Nat) (frame : Bytes) (s : State), isMgmt n = true → mgmtReceives s n = true → 14 ≤ frame.length →
     frame.length ≤ 9212 → beAt frame 12 2 = rd s oMirtyEthertype → leAt frame 0 6 = mgmtMac s n →
     let b := frame.drop 14
     let h := readTHeader true b
     12 + h.len + 16 ≤ b.length → h.version = 1 → h.len ≤ 8160 →
     ((h.kind = 0 ∨ h.kind = 4) → authentic s h (b.take (12 + h.len)) (slice b (12 + h.len) 16) = false →
       exec (.mgmtFrameReceived n frame) s = .next (authFails n s) ∧ exec (.injectFrame n frame) s = .next (authFails n s)) ∧
     (authentic s h (b.take (12 + h.len)) (slice b (12 + h.len) 16) = true → h.senderHigh = 0 → h.reserved = 0 →
       (∀ w, replayWindow (tabFind s.eng.windows (windowKey h.level h.sender)) h.seq = some w →
         (h.kind = 0 → exec (.mgmtFrameReceived n frame) s =
           .next (reachEngine ⟨.mgmt n, h.level, h.gen, h.sender, h.seq, leAt frame 6 6, 0, 0, 0, false⟩
             (readAny true (slice b 12 h.len))
             (setEng { s.eng with windows := tabInsert s.eng.windows (windowKey h.level h.sender) w } s))) ∧
         (h.kind = 4 → injectRefused s h.level (slice b 12 h.len) = false → exec (.injectFrame n frame) s =
           .next (takeInject h.level (slice b 12 h.len)
             (setEng { s.eng with windows := tabInsert s.eng.windows (windowKey h.level h.sender) w } s)))) ∧
       (h.kind = 0 → replayWindow (tabFind s.eng.windows (windowKey h.level h.sender)) h.seq = none →
         exec (.mgmtFrameReceived n frame) s = .next (countObj oReplays s)))) ∧
  (∀ (n : Nat) (frame : Bytes) (s : State), isMgmt n = true → mgmtReceives s n = true → 26 ≤ frame.length →
     frame.length ≤ 9212 → beAt frame 12 2 = rd s oMirtyEthertype →
     (leAt frame 0 6 = mgmtMac s n ∨ leAt frame 0 6 = 2 ^ 48 - 1) →
     let h := readTHeader true (frame.drop 14)
     h.version = 1 → h.len ≤ 8160 → h.kind = 5 → tapTakes s = false → ∃ t, exec (.nonceQuery n frame) s = .next t ∧
       rd t oNonceQueries = (rd s oNonceQueries + 1) % 2 ^ 64 ∧ t.eng = s.eng ∧
       (if used s (nonceKey n) < 1000 then
         t.out = s.out ++ [.mgmt n (leBytes 6 (leAt frame 6 6) ++ leBytes 6 (mgmtMac s n) ++
           beBytes 2 (rd s oMirtyEthertype) ++ transportHeader 6 h.level h.gen h.sender h.seq 8 ++ leBytes 8 s.eng.nonce)] ∧
         used t (nonceKey n) = used s (nonceKey n) + 1
        else t.out = s.out)) ∧
  (∀ (w : Option Window) (x : Window) (seq : Nat), seq < 2 ^ 32 → (∀ y, w = some y → y.high < 2 ^ 32) →
     replayWindow w seq = some x → x.high < 2 ^ 32 ∧ replayWindow (some x) seq = none)

/-- R120 to R122: a doorbell while the mailbox is busy only sets OVERRUN; an idle mailbox becomes busy and its request is given
to the engine; the finished response is written with its length, STATE becomes done, and MB_VECTOR is signalled.
R129, R127: an accepted KEY_REVOKE ends the generation of its level and of no other; an accepted MGMT_MODE that changes a
port's bit has its link restarted after the answer, and the restart takes the link down. -/
def Obligations.MailboxAndKeys : Prop :=
  (∀ s : State,
     (∀ n area, n < 2 ^ 32 → bar0 s = true → s.eng.mb.state = 1 → exec (.mbDoorbell n area) s =
       .next { s with eng := { s.eng with mb := { s.eng.mb with overrun := true } } }) ∧
     (∀ n area, n < 2 ^ 32 → bar0 s = true → s.eng.mb.state ≠ 1 → pcieAuth s = false →
       let b := (area ++ zeros mailboxSize).take mailboxSize
       let h := readTHeader false b
       h.version = 1 → h.kind = 0 → h.reserved = 0 → n = 12 + h.len → n ≤ mailboxSize → exec (.mbDoorbell n area) s =
         .next (reachEngine (mailboxOrigin h) (readAny false (slice b 12 h.len))
           { s with eng := { s.eng with mb := { s.eng.mb with state := 1, finished := none } } })) ∧
     (∀ r, s.eng.mb.state = 1 → s.eng.mb.finished = some r → exec .mailboxResponse s =
       .next (sendVector (rd s oMbVector)
         { s with eng := { s.eng with mb := { s.eng.mb with state := 2, respLen := r.length, response := r,
                                                            finished := none } } })) ∧
     exec .mbOverrunClear s = .next { s with eng := { s.eng with mb := { s.eng.mb with overrun := false } } }) ∧
  ((∀ (o : Origin) (level target v : Nat) (s : State), (Instr.keyRevoke o level target v).wf = true →
     s.fuse.gens.length = 4 → acceptsWrite s o (oneWrite level (oKeyRevoke target) 0 1 v) → ∃ t,
       exec (.keyRevoke o level target v) s = .next (answered (counted o s) o (oneWrite level (oKeyRevoke target) 0 1 v) t) ∧
       keyGen t target = keyGen s target + 1 ∧ (∀ l, l ≠ target → keyGen t l = keyGen s l) ∧
       { t.fuse with gens := s.fuse.gens } = s.fuse ∧ t.eng = (counted o s).eng) ∧
   (∀ (o : Origin) (level v : Nat) (s : State), (Instr.mgmtMode o level v).wf = true →
     acceptsWrite s o (oneWrite level oMgmtMode 0 4 v) → ∃ t,
       exec (.mgmtMode o level v) s = .next (answered (counted o s) o (oneWrite level oMgmtMode 0 4 v) t) ∧
       rd t oMgmtMode = v ∧ (∀ n, n < 2 → mgmt t n =
         { mgmt s n with restartDue := (mgmt s n).restartDue || ((rd s oMgmtMode).testBit n != v.testBit n) })) ∧
   (∀ (n : Nat) (s : State), isMgmt n = true → (mgmt s n).restartDue = true → ∃ t,
     exec (.mgmtLinkRestart n) s = .next t ∧ mgmt t n = { mgmt s n with restartDue := false, linkUp := false } ∧
     mgmt t (1 - n) = mgmt s (1 - n) ∧ { t with eng := s.eng } = s))

/-! ### Ports (chapter 4) -/

/-- Bring-up goes on from negotiating to training, to aligning, to up-hold (Table 4-4); an attempt with no common technology, or
with one that the port did not advertise, fails; every lane of the port transmits in training; in any other state the completion
changes nothing.
R150: an attempt fails in states 2 to 4 after its 500 ms; a fault in state 5 returns the port to state 4, or fails the
attempt once the 500 ms have passed; each failure is counted and puts the port in retry wait, whose end starts an attempt. -/
def Obligations.BringUp : Prop :=
  (∀ (p : Nat) (s : State), isPort p = true →
     (linkState s p = 2 → ∀ (page : Nat) (eee : Bool),
       exec (.autonegComplete p none page eee) s = .next (failAttempt p s) ∧
       ∀ (tech : Nat × Bool), ((advertised s p).contains tech = false →
           exec (.autonegComplete p (some tech) page eee) s = .next (failAttempt p s)) ∧
         ((advertised s p).contains tech = true →
           ∃ t, exec (.autonegComplete p (some tech) page eee) s = .next t ∧ rd t (oLinkState p) = 3 ∧
             port t p = { port s p with negotiated := true, sTech := tech.2, fecPage := page, eee := eee } ∧
             t.out.length = s.out.length + modeLanes (modeOf s p) ∧
             { t with dict := s.dict, prt := s.prt, out := s.out } = s)) ∧
     (linkState s p = 3 → exec (.trainingComplete p) s = .next (wr (oLinkState p) 4 s)) ∧
     (linkState s p = 4 → exec (.alignmentComplete p) s = .next (wr (oLinkState p) 5 (setLocalFault p false s))) ∧
     (linkState s p ≠ 3 → exec (.trainingComplete p) s = .next s) ∧
     (linkState s p ≠ 4 → exec (.alignmentComplete p) s = .next s)) ∧
  (∀ (p : Nat) (s : State), isPort p = true →
     (∀ n, (port s p).fails = n → failAttempt p s =
       (let t := wr (oLinkState p) 8 (count (cPort p 0x80) (setPort p { port s p with fails := n + 1 } s))
        if n = 2 ∨ (3 < n + 1 ∧ (n - 2) % 100 = 0) then raise evLinkFail p t else t)) ∧
     (2 ≤ linkState s p → linkState s p ≤ 4 → exec (.bringupTimeout p) s = .next (failAttempt p s)) ∧
     (linkState s p = 5 → exec (.linkFault p false false) s = .next (wr (oLinkState p) 4 s) ∧
       exec (.linkFault p true false) s = .next (failAttempt p s) ∧
       exec (.linkFault p false true) s = .next (wr (oLinkState p) 4 (setLocalFault p true s)) ∧
       exec (.linkFault p true true) s = .next (failAttempt p (setLocalFault p true s))) ∧
     (linkState s p = 8 → exec (.retryWaitEnd p) s = .next (startAttempt p s)))

/-- R148: what a 25G port that has negotiated resolves, and that every other port uses FEC_MODE; RESOLVED_FEC reports it when
negotiation completes. -/
def Obligations.ResolvedFec : Prop :=
  (∀ (p : Nat) (s : State), modeSpeed (modeOf s p) = 1 → (port s p).negotiated = true →
    resolveFec s p =
      (let own := rd s (oFecAdvertise p)
       let page := (port s p).fecPage
       let base := own.testBit 0 && page.testBit 0
       let rs := own.testBit 2 || page.testBit 2
       let br := own.testBit 1 || page.testBit 1
       if (port s p).sTech then (if base && (br || rs) then 1 else 0)
       else if rs then 2 else if base && br then 1 else 0)) ∧
  (∀ (p : Nat) (s : State), (modeSpeed (modeOf s p) ≠ 1 ∨ (port s p).negotiated = false) →
    resolveFec s p = rd s (oFecMode p)) ∧
  (∀ (p : Nat) (s : State) (tech : Nat × Bool) (page : Nat) (eee : Bool), isPort p = true → linkState s p = 2 →
    (advertised s p).contains tech = true →
    ∃ t, exec (.autonegComplete p (some tech) page eee) s = .next t ∧ rd t (oResolvedFec p) = resolveFec t p)

/-- R151: state 6 is entered from state 5 with PORT_UP and from state 7 with nothing; on leaving state 7 for state 8 the port
raises PORT_DOWN, counts LINK_DOWNS and ends a frame in transmission; in state 7 it transmits and receives as if up; while it
sees local fault it sends remote fault. -/
def Obligations.LinkUpAndDown : Prop :=
  ∀ (p : Nat) (s : State), isPort p = true →
    (linkState s p = 5 → exec (.upHoldExpiry p) s =
      .next (synceFollow (raise evPortUp p (wr (oLinkState p) 6 (setPort p { port s p with fails := 0 } s))))) ∧
    (linkState s p = 6 → rd s (oDownHold p) ≠ 0 → ∀ late,
      exec (.linkFault p late false) s = .next (wr (oLinkState p) 7 s) ∧
      exec (.linkFault p late true) s = .next (wr (oLinkState p) 7 (setLocalFault p true s))) ∧
    (linkState s p = 7 → linkCarries s p = true ∧
      exec (.linkFaultCleared p) s = .next (synceFollow (wr (oLinkState p) 6 (setLocalFault p false s))) ∧
      exec (.downHoldExpiry p) s =
        .next (abortTransmission p (raise evPortDown p (count (cPort p 0x78) (wr (oLinkState p) 8
          (setPort p { port s p with cut := true } s)))))) ∧
    (∀ on, (port s p).localFault ≠ on → setLocalFault p on s =
      emit (.remoteFault p on) (setPort p { port s p with localFault := on } s))

/-- R152 and R143: the FEC window's counts are added and FEC_DEGRADED is raised once until a window at or below the threshold;
a port with agreed fast-wake EEE and no frame to transmit signals low power idle and counts the entry.
R155, R156, R158: PORT_ENABLE and OCTET_ENABLE act at their live point, and the answer follows; OCTET_STATE 1 becomes 0
once nothing is left in the device for the octet. -/
def Obligations.PortOperation : Prop :=
  (∀ (p : Nat) (s : State), isPort p = true → present s p = true →
     (∀ symbols codewords uncorrected, ∃ t, exec (.fecDegraded p symbols codewords uncorrected) s = .next t ∧
       (port t p).degraded = decide (rd s (oFecDegradeThreshold p) ≠ 0 ∧ rd s (oFecDegradeThreshold p) < symbols) ∧
       ((port s p).degraded = true → ctr t (cPort p 0x60) = (ctr s (cPort p 0x60) + codewords) % 2 ^ 64 ∧
         ctr t (cPort p 0x68) = (ctr s (cPort p 0x68) + uncorrected) % 2 ^ 64 ∧
         ctr t (cPort p 0x70) = (ctr s (cPort p 0x70) + symbols) % 2 ^ 64 ∧ t.dict = s.dict) ∧
       ((port s p).degraded = false → rd s (oFecDegradeThreshold p) ≠ 0 → rd s (oFecDegradeThreshold p) < symbols →
         (rd t oEventPending (evFecDegraded / 32)).testBit (evFecDegraded % 32) = true)) ∧
     (linkCarries s p = true → eeeAgreed s p = true → hasFrame s p = false → (port s p).lpi = false →
       exec (.eeeLpiEntry p) s = .next (count (cPort p 0x88) (setPort p { port s p with lpi := true } s)))) ∧
  ((∀ (o : Origin) (level p v : Nat) (s : State), (Instr.portEnable o level p v).wf = true →
     acceptsWrite s o (oneWrite level (oPortEnable p) 0 1 v) →
     exec (.portEnable o level p v) s =
       .next (answered (counted o s) o (oneWrite level (oPortEnable p) 0 1 v) (writePortEnable p v (counted o s)))) ∧
   (∀ (o : Origin) (level n v : Nat) (s : State), (Instr.octetEnable o level n v).wf = true →
     acceptsWrite s o (oneWrite level (oOctetEnable n) 0 1 v) →
     exec (.octetEnable o level n v) s =
       .next (answered (counted o s) o (oneWrite level (oOctetEnable n) 0 1 v) (writeOctetEnable n v (counted o s)))) ∧
   (∀ (p : Nat) (s : State), isPort p = true → present s p = true → linkState s p ≠ 6 → linkState s p ≠ 7 →
     writePortEnable p 0 s =
       (let u := setLocalFault p false (wr (oPortEnable p) 0 s)
        wr (oLinkState p) 1 (setPort p { port u p with lpi := false } u))) ∧
   (∀ (n : Nat) (s : State), isOctet n = true → octetState s n = 1 →
     exec (.octetDrained n) s =
       .next (if s.pip.frames.any (fun e => boundFor n e.2) then s else wr (oOctetState n) 0 s)))

/-! ### Reception and the pipelines (chapter 5) -/

/-- R141, R142, R22 to R25: a frame arriving on a port that carries is dropped and counted in one counter where a check fails,
and else enters staging of the lane's pipeline with the time of now, as the last of its pipeline. Under far-end
LOOPBACK the lanes send it again first. A port that carries no frame receives none, but for the rest of the one it was cut off
in (R155), which fails its FCS check.
R26, R28, R164: a pipeline that is not stalled, has a head slot left and has no more instructions to issue than one cycle
issues takes the head its sources name, and a head from a lane takes the active epoch and asks for a buffer; any other takes
none. -/
def Obligations.ReceptionAndHeads : Prop :=
  ((∀ (p : Nat) (b : Bytes) (ok : Bool) (s : State), isPort p = true → linkCarries s p = false →
     ((port s p).cut = false → exec (.frameReception p b ok) s = .next s) ∧
     ((port s p).cut = true → 64 ≤ b.length → b.length ≤ rd s (oMaxFrame p) →
       exec (.frameReception p b ok) s =
         .next (count (cPort p 0x10) (setPort p { port s p with cut := false } s)))) ∧
   (∀ (p : Nat) (b : Bytes) (ok : Bool) (s : State), isPort p = true → linkCarries s p = true →
     let u := loopFar p b s
     (rd s (oLoopback p) ≠ 2 → u = s) ∧ (rd s (oLoopback p) = 2 → u = emit (.lane p (preamble ++ b)) s) ∧
     (b.length < 64 → exec (.frameReception p b ok) s = .next (count (cPort p 0x18) u)) ∧
     (64 ≤ b.length → rd u (oMaxFrame p) < b.length → exec (.frameReception p b ok) s = .next (count (cPort p 0x20) u)) ∧
     (64 ≤ b.length → b.length ≤ rd u (oMaxFrame p) → ok = false →
       exec (.frameReception p b ok) s = .next (count (cPort p 0x10) u)) ∧
     (64 ≤ b.length → b.length ≤ rd u (oMaxFrame p) → ok = true → beAt b 12 2 = 0x8808 →
       exec (.frameReception p b ok) s = .next (count (cPort p 0x28) u)) ∧
     (64 ≤ b.length → b.length ≤ rd u (oMaxFrame p) → ok = true → beAt b 12 2 ≠ 0x8808 →
       let cls := ingressClass u (activeSet u) p b
       let ex := isExpress u (activeSet u) p cls
       (stagingHolds u (pipeOf p) b.length ex = false → exec (.frameReception p b ok) s = .next (count (cPort p 0x30) u)) ∧
       (stagingHolds u (pipeOf p) b.length ex = true → ∃ t, exec (.frameReception p b ok) s = .next t ∧
         frame t u.pip.nextFid = some { port := p, pipe := pipeOf p, bytes := b, stamp := nowStamp u, rxCclk := u.clk.cclk,
                                        express := ex, cls := cls, owner := 8 * p + cls } ∧
         (∀ fid, fid ≠ u.pip.nextFid → frame t fid = frame u fid) ∧ t.pip.nextFid = u.pip.nextFid + 1 ∧
         (pipe t (pipeOf p)).stage = (pipe u (pipeOf p)).stage ++ [u.pip.nextFid] ∧
         ctr t (cPort p 0x00) = (ctr u (cPort p 0x00) + 1) % 2 ^ 64 ∧
         ctr t (cPort p 0x08) = (ctr u (cPort p 0x08) + b.length) % 2 ^ 64 ∧ { t with pip := u.pip, ctr := u.ctr } = u)))) ∧
  (∀ (n : Nat) (r : Parse) (s : State), isPipe n = true →
     ((headStall s n).isSome = true ∨ 2 ≤ (slotsUsed s n).1 ∨ 32 ≤ stepDebt s n →
       exec (.headAcceptance n r) s = .next s) ∧
     (headStall s n = none → (slotsUsed s n).1 < 2 → stepDebt s n < 32 →
       (pickHead s n = none → exec (.headAcceptance n r) s = .next s) ∧
       (∀ fid f, pickHead s n = some fid → frame s fid = some f → exec (.headAcceptance n r) s = .next (acceptHead n fid r s) ∧
         (f.port < 512 → ∃ g, frame (acceptNew fid f s) fid = some g ∧ g.epoch = activeEpoch s ∧
           g.cls = ingressClass s (activeSet s) f.port f.bytes ∧ g.waiting = some s.clk.cclk ∧ g.bytes = f.bytes ∧
           (acceptNew fid f s).buf.waiters = s.buf.waiters ++ [fid]))))

/-- R164, R177 to R183: an instruction of a routine that may issue. One at the step limit is the step-limit fault; one whose word's
copy is bad, or that reads a corrupt configuration word, is the store-error fault; every other one takes effect whole: it
reads its word from the loaded image or the patch table of its frame's set, writes what it names in its own frame and in no
other, and a corrected word is counted. A fault delivered meanwhile ends the routine at the boundary after it.
R168 to R171: an accepted CS_LOAD starts a load; its end loads every word of a good image and clears the patches, or leaves
what was loaded, and is announced either way.
R183, R184: a bad copy is repaired while another pipeline's copy is intact; with none, every affected pipeline is asked to
halt and takes no head until a new load, and each pipeline not so marked before raises CS_ECC; a copy that is not bad needs no
repair. -/
def Obligations.InstructionsAndControlStore : Prop :=
  (∀ (fid word : Nat) (op : MicroOp) (ecc : Ecc) (config : Option Nat) (f : Frame) (s : State), frame s fid = some f →
     (mayIssue s f = false → exec (.microInstruction fid word op ecc config) s = .next s) ∧
     (mayIssue s f = true → rdCfg s f.epoch oCsStepLimit ≤ f.steps →
       exec (.microInstruction fid word op ecc config) s = .next (pipelineFault fid 6 s)) ∧
     (mayIssue s f = true → f.steps < rdCfg s f.epoch oCsStepLimit →
       let w := nextWord f word
       let u := readStore f.pipe f.epoch 2 w ecc (useCycle (issueKey f.pipe) (pipeCycle s) s)
       let bad := patched s f.epoch 2 w = false ∧ (ecc = .uncorrectable ∨ s.cs.bad.contains (badWord f.pipe 2 w) = true)
       (bad → exec (.microInstruction fid word op ecc config) s = .next (pipelineFault fid 7 u)) ∧
       (¬ bad → ∀ obj, config = some obj →
         exec (.microInstruction fid word op ecc config) s = .next (pipelineFault fid 7 (configCorrupt obj u))) ∧
       (¬ bad → config = none → f.fault = none →
         ∃ t g, exec (.microInstruction fid word op ecc config) s = .next t ∧ frame t fid = some g ∧
           { g with tResolved := f.tResolved } = microEffect op { f with steps := f.steps + 1, ir := csWord s f.epoch 2 w } ∧
           (∀ k, k ≠ fid → frame t k = frame s k) ∧ t.dict = s.dict ∧ t.led = s.led ∧ t.cs = s.cs ∧ t.out = s.out) ∧
       (¬ bad → config = none → ∀ reason, f.fault = some reason →
         ∃ t, exec (.microInstruction fid word op ecc config) s = .next (pipelineFault fid reason t) ∧
           (frame t fid).map (·.steps) = some (f.steps + 1) ∧ t.dict = s.dict ∧ t.led = s.led ∧ t.out = s.out))) ∧
  ((∀ (o : Origin) (level v : Nat) (s : State), (Instr.csLoad o level v).wf = true →
     acceptsWrite s o (oneWrite level oCsLoad 0 4 v) → ∃ t,
       exec (.csLoad o level v) s = .next (answered (counted o s) o (oneWrite level oCsLoad 0 4 v) t) ∧ rd t oCsState = 1 ∧
       t.cs = { s.cs with prevState := rd s oCsState, length := v }) ∧
   (∀ (s : State), rd s oCsState = 1 →
     let b := stagedBytes s (min s.cs.length 1048576)
     (imageResult s b s.cs.length = 1 → ∃ t, exec .csLoadComplete s = .next t ∧
       t.cs.words = imageWords b ∧ t.cs.bad = [] ∧ t.cs.release = 0 ∧ rd t oCsState = 2 ∧ rd t oCsLoadResult = 1 ∧
       rd t oCsImageId = leAt b 0x1C 4 ∧ rd t oCsImageVersion = leAt b 0x20 4) ∧
     (∀ code, imageResult s b s.cs.length = code → code ≠ 1 → ∃ t, exec .csLoadComplete s = .next t ∧
       t.cs.words = s.cs.words ∧ rd t oCsState = s.cs.prevState ∧ rd t oCsLoadResult = code)) ∧
   (∀ (s : State), rd s oCsState ≠ 1 → exec .csLoadComplete s = .next s)) ∧
  (∀ (n st w : Nat) (s : State), isPipe n = true → isStore st = true → w < 65536 →
     (s.cs.bad.contains (badWord n st w) = false → exec (.csRepairComplete n st w) s = .next s) ∧
     (s.cs.bad.contains (badWord n st w) = true →
       ((badPipes s st w).length < 16 → exec (.csRepairComplete n st w) s =
         .next { s with cs := { s.cs with bad := s.cs.bad.erase (badWord n st w) } }) ∧
       ((badPipes s st w).length = 16 → ∃ t, exec (.csRepairComplete n st w) s = .next t ∧
         (∀ k, k < 16 → haltAsked t k = true ∧ t.cs.dead.testBit k = true ∧ headStall t k = some 9) ∧
         ctr t (cEvent 0x00) % 2 ^ 64 = (ctr s (cEvent 0x00) +
           ((List.range 16).filter (fun k => !s.cs.dead.testBit k)).length) % 2 ^ 64 ∧
         { t.cs with dead := s.cs.dead } = s.cs ∧ t.pip = s.pip)))

/-! ### Lookup Tables (chapter 6) and deferred work (chapter 12) -/

/-- R201, R214, R228, R231: an exact-match lookup gives its frame the result of the entry whose key block equals the key, with the
member where it names a group, and sets the entry's HIT; a miss gives none, and an uncorrectable entry also the result-error fault.
The frame's other fields, and every other frame, stay.
R210: a prefix lookup of either family gives the result of the longest length that the filter row names and a prefix of that
length covers.
R224, R225: a MAC lookup gives the result of the destination's entry, and whether the source's entry names the frame's port. -/
def Obligations.Lookups : Prop :=
  (∀ (fid : Nat) (f : Frame) (key : Bytes) (s : State), frame s fid = some f → f.phase = .ingress → f.due.testBit 0 = true →
     inService s 32 = true →
     (emFind s (leNat (key.take 16)) = none → ∀ bad, ∃ t, exec (.tableLookup fid (.exact key) bad) s = .next t ∧
       frame t fid = some { f with results := f.results ++ [.lookup 0 none 0 0 false], due := clearBit f.due 0 } ∧
       (∀ k, k ≠ fid → frame t k = frame s k) ∧ t.lt = s.lt ∧ t.dict = s.dict) ∧
     (∀ p e bad, emFind s (leNat (key.take 16)) = some (p, e) →
       (rKind e.result ≠ 2 → e.bad = false → bad.contains (0, p) = false →
         ∃ t, exec (.tableLookup fid (.exact key) bad) s = .next t ∧
           frame t fid = some { f with results := f.results ++ [.lookup 0 (some e.result) 0 0 false], due := clearBit f.due 0 } ∧
           (∀ k, k ≠ fid → frame t k = frame s k) ∧ t.lt = { s.lt with em := tabInsert s.lt.em p { e with hit := true } } ∧
           t.dict = s.dict) ∧
       (∀ g, rKind e.result = 2 → tabFind s.lt.groups (rIndex e.result) = some g → g.bad = false → e.bad = false →
         ∃ t, exec (.tableLookup fid (.exact key) []) s = .next t ∧
           frame t fid = some { f with results := f.results ++ [.lookup 0 (some e.result) (chooseMember s f g).1 (chooseMember s f g).2 false],
                                       due := clearBit f.due 0 } ∧
           t.lt.em = tabInsert s.lt.em p { e with hit := true } ∧ t.dict = s.dict) ∧
       (rKind e.result ≠ 2 → e.bad = true ∨ bad.contains (0, p) = true →
         ∃ t, exec (.tableLookup fid (.exact key) bad) s = .next t ∧
           frame t fid = some { f with results := f.results ++ [.lookup 0 (some e.result) 0 0 false], due := clearBit f.due 0,
                                       fault := some 0x000A } ∧
           tabFind t.lt.em p = some { e with hit := true, bad := true } ∧ rd t oLtEccLast = p % 2 ^ 28))) ∧
  (∀ (fid : Nat) (f : Frame) (family vrf addr : Nat) (s : State), frame s fid = some f → f.phase = .ingress →
     inService s 32 = true → family = 4 ∨ family = 6 → vrf < 4096 → addr < 2 ^ pxWidth family →
     let bit := if family = 6 then 2 else 1
     let key := if family = 6 then LookupKey.prefix6 vrf addr else .prefix4 vrf addr
     f.due.testBit bit = true →
     (probeAll s family vrf addr 0 (lookupLengths s family vrf addr) = none → ∀ bad, ∃ t,
       exec (.tableLookup fid key bad) s = .next t ∧ t.lt = s.lt ∧
       frame t fid = some { f with results := f.results ++ [.lookup bit none 0 0 false], due := clearBit f.due bit }) ∧
     (∀ i p e bad, probeAll s family vrf addr 0 (lookupLengths s family vrf addr) = some (i, p, e) → e.bad = false →
       bad.contains (bit, p) = false → rKind e.result ≠ 2 →
       e.family = family ∧ e.vrf = vrf ∧ (lookupLengths s family vrf addr)[i]? = some e.length ∧
       (∀ j l, j < i → (lookupLengths s family vrf addr)[j]? = some l → probe s family vrf l addr = none) ∧
       ∃ t, exec (.tableLookup fid key bad) s = .next t ∧ t.lt = s.lt ∧
         frame t fid = some { f with results := f.results ++ [.lookup bit (some e.result) 0 0 false], due := clearBit f.due bit })) ∧
  (∀ (fid : Nat) (f : Frame) (bd : Nat) (s : State), frame s fid = some f → f.phase = .ingress → f.due.testBit 3 = true →
     inService s 32 = true → bd < 16384 →
     (∀ p e bad, emFind s (macKey bd (slice f.bytes 6 6)) = some (p, e) → ∃ t g r m n,
       exec (.tableLookup fid (.mac bd) bad) s = .next t ∧ frame t fid = some g ∧
       g.results = f.results ++ [.lookup 3 r m n (decide (entryPort e = some f.port))] ∧ g.due = clearBit f.due 3) ∧
     (emFind s (macKey bd (slice f.bytes 6 6)) = none →
       (emFind s (macKey bd (slice f.bytes 0 6)) = none → ∀ bad, ∃ t,
         exec (.tableLookup fid (.mac bd) bad) s = .next t ∧
         frame t fid = some { f with results := f.results ++ [.lookup 3 none 0 0 false], due := clearBit f.due 3 }) ∧
       (∀ p e bad, emFind s (macKey bd (slice f.bytes 0 6)) = some (p, e) → e.bad = false → bad.contains (0, p) = false →
         rKind e.result ≠ 2 → ∃ t, exec (.tableLookup fid (.mac bd) bad) s = .next t ∧
           frame t fid = some { f with results := f.results ++ [.lookup 3 (some e.result) 0 0 false], due := clearBit f.due 3 } ∧
           t.lt.em = tabInsert s.lt.em p { e with hit := true })))

/-- R216, R217, R221, R76: how a changing table command starts. One that comes after others of its MCLK cycle waits for its turn; one
in turn is out of range, refused as locked or as its lock has expired, refused as a duplicate or retired, or, where it needs data,
under way with its entry locked; DELETE, LOCK and UNLOCK without data commit at once in a unit that no partner follows: LOCK leaves
the queue's lock on the entry, UNLOCK takes it away. -/
def Obligations.TableCommandsStart : Prop :=
  ∀ (c : SqCmd) (a : TblArgs) (s : State), servesCommand c 1 s → ∀ (code : Nat) (i : Instr),
    (code, i) ∈ [(0x21, Instr.tblInsert c a), (0x22, .tblUpdate c a), (0x23, .tblDelete c a), (0x24, .tblLock c a),
                 (0x25, .tblUnlock c a), (0x26, .ecmpSet c a)] →
    let k := tblKey a
    let u := count (cLookup 0x78) { s with lt := { s.lt with started := (mclk s + 1, c.sq) } }
    let x : TblCmd := ⟨c, code, a.table, a.index, a.size, k, !isLocked s a.table k⟩
    (¬ tableTurn s c → ∃ t w, exec i s = .next t ∧ w ∈ t.lt.arrivals ∧ w.cmd = c ∧ w.code = code ∧ w.args = a ∧
      { t with lt := { t.lt with arrivals := s.lt.arrivals } } = s) ∧
    (tableTurn s c →
      (tblOk code a = false → exec i s = .next (complete c 0x0B 0 0 u)) ∧
      (tblOk code a = true → lockGone s a.table k c.sq = true → ∃ t, exec i s = .next (complete c 0x82 0x28 0 t) ∧
        lockGone t a.table k c.sq = false) ∧
      (tblOk code a = true → lockGone s a.table k c.sq = false →
        (lockedFor s code a.table k c.sq = true →
          exec i s = .next (complete c 0x22 0 0 (if code = 0x25 then u else count (cLookup 0x80) u))) ∧
        (lockedFor s code a.table k c.sq = false →
          (code = 0x21 → presentCode s a.table k ≠ 0 → exec i s = .next (complete c (presentCode s a.table k) 0 0 u)) ∧
          (code = 0x26 → a.size = 0 ∨ 512 < a.size → exec i s = .next (complete c 0x0B 0 0 u)) ∧
          ((code = 0x21 ∧ presentCode s a.table k = 0) ∨ code = 0x22 ∨ (code = 0x26 ∧ 1 ≤ a.size ∧ a.size ≤ 512) ∨
              (code = 0x25 ∧ c.addr ≠ 0) →
            ∃ t, exec i s = .next t ∧ t.lt.cmds = s.lt.cmds ++ [x] ∧ isLocked t a.table k = true ∧
              { t.lt with cmds := s.lt.cmds, locks := s.lt.locks, started := s.lt.started } = s.lt ∧
              { t with lt := s.lt, ctr := s.ctr } = s) ∧
          (partnerFollows s = false → (∀ y ∈ s.lt.cmds, y.cmd ≠ c) →
            code = 0x23 ∨ code = 0x24 ∨ (code = 0x25 ∧ c.addr = 0) →
            let v := beginTbl c code a u
            let d := tblDone x [] v
            exec i s = .next (finish c d) ∧
            (code = 0x23 → d.verdict = (commitDelete a.table k v).verdict ∧
              d.state = endTbl x (commitDelete a.table k v).state) ∧
            (code = 0x24 → 3 ≤ a.table ∨ presentCode s a.table k ≠ 0 → d.verdict = (0, 0) ∧
              lockOf d.state a.table k = some ⟨a.table, k, c.sq, true⟩) ∧
            (code = 0x25 → d.verdict = (0, 0) ∧
              ∀ l ∈ d.state.lt.locks, ¬ (l.table = a.table ∧ l.key = k ∧ l.hold = true ∧ l.sq = c.sq))))))

/-- R221, R222, R218, R231: the data of a table or rule command in progress commit it, and a failed read ends it; entries that the
check finds uncorrectable are marked first; TBL_READ writes the entry's image.
R74 to R76: a next-hop that an entry references is not deleted; one that none references is retired with the active epoch and
keeps its content; and a retired index takes neither an insertion nor an update. -/
def Obligations.TableCommitsAndRetirement : Prop :=
  ((∀ (q tag : Nat) (x : TblCmd) (bad : List (Nat × Nat)) (s : State), partnerFollows s = false →
     s.lt.cmds.find? (awaits s q tag) = some x →
     let u := forEach bad (fun t e => corruptAt e.1 e.2 t) s
     (∀ b : Bytes, tblNeeds x ≤ b.length → exec (.tableCommit q tag (.data b) bad) s = .next (finish x.cmd (tblDone x b u))) ∧
     (∀ b : Bytes, b.length < tblNeeds x →
       exec (.tableCommit q tag (.data b) bad) s = .next (complete x.cmd 0x82 0x60 0 (endTbl x u))) ∧
     exec (.tableCommit q tag .fault bad) s = .next (complete x.cmd 0x81 0x60 0 (endTbl x u)) ∧
     exec (.tableCommit q tag .tooLong bad) s = .next (complete x.cmd 0x80 0x60 0 (endTbl x u))) ∧
   (∀ (q tag : Nat) (x : TblCmd) (bad : List (Nat × Nat)) (s : State), partnerFollows s = false →
     s.lt.cmds.find? (awaits s q tag) = none →
     s.rb.cmds.find? (ofCommand q tag) = some x → ∀ b : Bytes, 16 ≤ b.length →
       16 + 40 * leAt b 1 1 ≤ b.length → exec (.tableCommit q tag (.data b) bad) s = .next (finish x.cmd (ruleDone x b s))) ∧
   (∀ (c : SqCmd) (a : TblArgs) (b : Bytes) (s : State), servesCommand c 0 s → tableTurn s c →
     let u := count (cLookup 0x78) { s with lt := { s.lt with started := (mclk s + 1, c.sq) } }
     (tblOk 0x20 a = false → ∀ ecc, exec (.tblRead c a ecc) s = .next (complete c 0x0B 0 0 u)) ∧
     (tblOk 0x20 a = true →
       (entryImage s a.table (tblKey a) = some (b, false) → ∀ ecc, ecc ≠ .uncorrectable →
         exec (.tblRead c a ecc) s = .next (if linksHold c b.length then complete c 0 0 0 (writeData c b u)
           else complete c 0x82 0x60 0 u)) ∧
       (entryImage s a.table (tblKey a) = some (b, true) → ∀ ecc,
         exec (.tblRead c a ecc) s = .next (complete c 0x83 0x28 0 u)) ∧
       (entryImage s a.table (tblKey a) = none → ∀ ecc,
         exec (.tblRead c a ecc) s = .next (complete c 0x23 0 0 u))))) ∧
  (∀ (k : Nat) (e : NhEntry) (s : State), tabFind s.lt.nh k = some e →
     (e.retired = none → nhRefs s k ≠ 0 → commitDelete 3 k s = failed 0x16 0 s) ∧
     (e.retired = none → nhRefs s k = 0 → e.bad = false → ∃ t, commitDelete 3 k s = succeeded t ∧
       tabFind t.lt.nh k = some { e with retired := some (activeEpoch s) } ∧
       (∀ j, j ≠ k → tabFind t.lt.nh j = tabFind s.lt.nh j) ∧ { t with lt := s.lt } = s) ∧
     (e.retired.isSome = true → ∀ b, (commitInsert 3 k b s).verdict.1 = 0x17 ∧ (commitInsert 3 k b s).state = s ∧
       (commitUpdate 3 k b s).verdict.1 = 0x17 ∧ (commitUpdate 3 k b s).state = s))

/-- R205, R209, R220, R226, R228, R229: the deferred work of the tables: a lock's limit, a station's hold-off, the dispatched
notice, rebuild and return, and a step of the aging sweep; what is not dispatched does nothing.
R431, R437, R438, R442, R443, R445, R446: a far pass runs on its grid alone; it moves into the buckets, counted, what has come within
range, and leaves every other operation on the far list; a refill follows it. A lost NAT_RELEASE is counted as an orphan resource. A
list dispatches the first of its operations that are ready, within its limit of one FCLK cycle; a halted scheduler dispatches
nothing. -/
def Obligations.DeferredTableWork : Prop :=
  (∀ s : State,
     (∀ t (b : Bytes) l, lockOf s t (leNat b) = some l → l.hold = true → exec (.lockExpired t b) s =
       .next (raise evLockExpired t (count (cLookup 0x88)
         (setLt { s.lt with locks := s.lt.locks.filter (fun l => !(l.table = t && l.key = leNat b)),
                            expired := s.lt.expired ++ [l] } s)))) ∧
     (∀ bd mac, exec (.learnHoldoffExpiry bd mac) s =
       .next { s with lt := { s.lt with learn := s.lt.learn.filter (· ≠ bd * 2 ^ 48 + mac) } }) ∧
     (∀ o, nextOp s 17 12 (fun _ => true) = some o →
       exec .filterRebuild s = .next (count (cLookup 0x50) (rebuildGroup (nth 0 o.args 0) (dispatched o s)))) ∧
     (∀ o, nextOp s 17 11 (fun _ => true) = some o → exec .emReturn s = .next (returnTo (nth 0 o.args 0) (dispatched o s))) ∧
     (∀ o, nextOp s 18 7 (fun _ => (cq s (rd s oLearnQueue)).isNone || cqTakes s (rd s oLearnQueue) 2) = some o →
       ((cq (dispatched o s) (rd s oLearnQueue)).isSome = true → exec .learnNotice s =
         .next (postSystem (rd s oLearnQueue) (completionHeader 2 0 2 0 0 0xFFFF 0 0 ++ o.body ++ zeros 16) (dispatched o s))) ∧
       (cq (dispatched o s) (rd s oLearnQueue) = none →
         exec .learnNotice s = .next (count (cLookup 0x68) (dispatched o s)))) ∧
     (∀ o, nextStep s 17 = some o → ∃ t, exec .macAging s =
       .next (forEach (s.lt.em.filter (fun e => if e.1 < overflowBase then e.1 / 4 = cursorStep s 17
         else e.1 - overflowBase + 262144 = cursorStep s 17)) (fun u e => ageEntry e.1 e.2 u) t) ∧ t.lt = s.lt ∧
         ctr t (cKind 10 0x00) = (ctr s (cKind 10 0x00) + 1) % 2 ^ 64) ∧
     (dispatches s = false → exec .macAging s = .next s ∧ exec .filterRebuild s = .next s ∧ exec .emReturn s = .next s ∧
       exec .learnNotice s = .next s)) ∧
  ((∀ (bad : List Nat) (s : State), (farDue s = false → exec (.farPass bad) s = .next s) ∧
     (farDue s = true → exec (.farPass bad) s = .next (refill (farPass bad s)))) ∧
   (∀ s : State, farDue s = decide ((s.clk.cclk - s.dw.gridFrom) % (256 * usCclk (rd s oSpillGrain)) = 0)) ∧
   (∀ s : State, (∀ o ∈ s.dw.far, o.bad = false) → let t := farPass [] s
     t.dw.buckets = s.dw.buckets ++ s.dw.far.filter (inRange s) ∧
     t.dw.far = s.dw.far.filter (fun o => !inRange s o) ∧ t.dw.onDie = s.dw.onDie ∧ t.dw.wayHeld = s.dw.wayHeld ∧
     ctr t (cWork 0x10) = (ctr s (cWork 0x10) + (s.dw.far.filter (inRange s)).length) % 2 ^ 64 ∧
     { t with dw := s.dw, ctr := s.ctr } = s) ∧
   (∀ (o : DwOp) (s : State), o.kind = 5 →
     rd (loseEntry o s) oOrphanResources = (rd s oOrphanResources + 1) % 2 ^ 32) ∧
   (∀ (o : DwOp) (s : State), ctr (loseEntry o s) (cKind o.kind 0x28) = (ctr s (cKind o.kind 0x28) + 1) % 2 ^ 64) ∧
   (∀ (l : Nat) (o : DwOp) (s : State), listFirst s l = some o →
     o ∈ readyOps s l ∧ o.notBefore ≤ s.clk.cclk ∧ inCycle s (listKey l) (fclk s) < listRate l ∧
     (∀ x ∈ readyOps s l, opBefore x o = false)) ∧
   (∀ s : State, inService s 38 = false → (∀ list kind p, nextOp s list kind p = none) ∧ (∀ kind r, nextWay s kind r = none) ∧
     (∀ c, nextStep s c = none) ∧ exec .captureCopy s = .next s ∧ exec .counterExport s = .next s ∧ exec .filterRebuild s = .next s))

/-! ### Rules and patterns (chapter 7) -/

/-- R240 to R242, R252, R254: a rule search gives its frame one result per group: the rule of lowest address that matches, with its
ACTION, or none. Every entry whose parity fails is marked with its bank's fault bit; a group whose matching rule's ACTION is found
unreadable gives the result with ERROR and the result-error fault, and the rule is marked.
R255 to R264: a scan delivers its result word to its frame: the match of the window, "no image" while no image is in service,
"no such set", or an error where it reads an uncorrectable word; halted automata start none. -/
def Obligations.RuleAndPatternSearch : Prop :=
  ((∀ (s : State) (segs : List (Nat × Nat × Nat)) (keys : List Nat) (row g a : Nat) (e : RbEntry), tabRising s.rb.entries = true →
     firstMatch s segs keys row g = some (a, e) →
       (e.valid = true ∧ (groupMask row g).testBit (a / 2048) = true ∧
         segs.any (fun x => x.1 = a / 2048 && ruleMatches s keys (groupSeg row g) x.2.1 a) = true) ∧
       ∀ b d, (b, d) ∈ s.rb.entries → d.valid = true → (groupMask row g).testBit (b / 2048) = true →
         segs.any (fun x => x.1 = b / 2048 && ruleMatches s keys (groupSeg row g) x.2.1 b) = true → a ≤ b) ∧
   (∀ (fid : Nat) (f : Frame) (s : State), frame s fid = some f → f.phase = .ingress → f.due.testBit 4 = true →
     inService s 33 = true → rd s oRbFault = 0 → (∀ a e, (a, e) ∈ s.rb.entries → e.badAction = false) →
     let row := rdCfg s f.epoch oSearchProfile (tmProfile f.tmplWord)
     let segs := linksOf s (setFor s f.epoch)
     ∃ t, exec (.ruleSearch fid [] []) s = .next t ∧
       frame t fid = some { f with
         results := f.results ++ (List.range 4).map (fun g => match firstMatch s segs f.segs row g with
           | some (a, e) => SearchResult.rule g (ruleWord true false a) e.action
           | none => SearchResult.rule g (ruleWord false false 0) 0)
         due := clearBit f.due 4 } ∧
       (∀ k, k ≠ fid → frame t k = frame s k) ∧ t.rb = s.rb ∧ t.dict = s.dict) ∧
   (∀ (fid : Nat) (f : Frame) (parity actions : List Nat) (s : State), frame s fid = some f → f.phase = .ingress →
     f.due.testBit 4 = true → inService s 33 = true → (∀ a ∈ parity, a < 131072) →
     ∃ t, exec (.ruleSearch fid parity actions) s = .next t ∧
       ∀ a ∈ parity, (rbEntry t a).bad = true ∧ (rd t oRbFault).testBit (a / 2048) = true) ∧
   (∀ (fid : Nat) (f : Frame) (actions : List Nat) (s : State), frame s fid = some f → f.phase = .ingress →
     f.due.testBit 4 = true → inService s 33 = true → rd s oRbFault = 0 → tabRising s.rb.entries = true →
     let row := rdCfg s f.epoch oSearchProfile (tmProfile f.tmplWord)
     ∃ t h, exec (.ruleSearch fid [] actions) s = .next t ∧ frame t fid = some h ∧
       ∀ g a e, g < 4 → firstMatch s (linksOf s (setFor s f.epoch)) f.segs row g = some (a, e) → actions.contains a = true →
         h.results[f.results.length + g]? = some (.rule g (ruleWord true true a) e.action) ∧ h.fault = some 0x000A ∧
         (rbEntry t a).badAction = true)) ∧
  (∀ (n fid : Nat) (f : Frame) (words : List (Nat × Ecc)) (s : State), isPipe n = true →
     (inService s 34 = false → exec (.patternScan n words) s = .next s) ∧
     (inService s 34 = true → nextScan s n = some fid → frame s fid = some f → f.due.testBit 5 = true →
       (rd s oPatState ≠ 2 → ∃ t, exec (.patternScan n words) s = .next t ∧
         frame t fid = some { f with results := f.results ++ [.scan (scanWord false 2 0 0)], due := clearBit f.due 5 }) ∧
       (rd s oPatState = 2 → rd s oPatSets ≤ rdCfg s f.epoch oScanSetMap f.template → ∃ t,
         exec (.patternScan n words) s = .next t ∧
         frame t fid = some { f with results := f.results ++ [.scan (scanWord false 3 0 0)], due := clearBit f.due 5 }) ∧
       (rd s oPatState = 2 → rdCfg s f.epoch oScanSetMap f.template < rd s oPatSets →
         (∃ x ∈ words, x.2 = .uncorrectable ∨ s.pa.bad.contains (x.1 % 2 ^ 32) = true) → ∃ t,
         exec (.patternScan n words) s = .next t ∧
         frame t fid = some { f with results := f.results ++ [.scan (scanWord false 1 0 0)], due := clearBit f.due 5,
                                     fault := some 0x000A }) ∧
       (rd s oPatState = 2 → rdCfg s f.epoch oScanSetMap f.template < rd s oPatSets →
         (∀ x ∈ words, x.2 ≠ .uncorrectable ∧ s.pa.bad.contains (x.1 % 2 ^ 32) = false) → ∃ t,
         exec (.patternScan n words) s = .next t ∧
         frame t fid = some { f with
           results := f.results ++ [.scan (match scanMatch s (rdCfg s f.epoch oScanSetMap f.template) (scanWindow f) with
             | some (p, e) => scanWord true 0 p e
             | none => scanWord false 0 0 0)]
           due := clearBit f.due 5 } ∧ (pipe t n).scans = (pipe s n).scans.erase fid)))

/-- R245 to R251, R670, R252: RULE_READ writes the rule's image; RULE_WRITE waits for its data unless a move locks its entry;
RULE_CLEAR and RULE_MOVE commit at once in a unit that no partner follows; a move's copies go on by position; and a scrub marks
each bad entry.
R260 to R262: a PAT_LOAD whose header fails leaves the image and is rejected; one whose header passes starts the load, and its
body, when it checks, puts a new image in service. -/
def Obligations.RuleAndPatternCommands : Prop :=
  (∀ (c : SqCmd) (a : RuleArgs) (s : State),
     (servesCommand c 0 s →
       (rulePlaceOk a.bank a.width a.entry = true → exec (.ruleRead c a) s =
         .next (if linksHold c (ruleImage s a).length then
             complete c 0 0 0 (writeData c (ruleImage s a) (count (cRule 0x20) s))
           else complete c 0x82 0x60 0 (count (cRule 0x20) s))) ∧
       (rulePlaceOk a.bank a.width a.entry = false → exec (.ruleRead c a) s =
         .next (complete c 0x0B 0 0 (count (cRule 0x20) s)))) ∧
     (servesCommand c 1 s →
       (63 < a.bank ∨ 2047 < a.entry → exec (.ruleWrite c a) s = .next (complete c 0x0B 0 0 (count (cRule 0x20) s))) ∧
       (a.bank ≤ 63 → a.entry ≤ 2047 →
         (moveLocks s a.bank a.entry = true → exec (.ruleWrite c a) s =
           .next (complete c 0x22 0 0 (count (cRule 0x28) (count (cRule 0x20) s)))) ∧
         (moveLocks s a.bank a.entry = false → exec (.ruleWrite c a) s =
           .next (setRb { s.rb with cmds := s.rb.cmds ++ [⟨c, 0x31, 0, a.bank, a.entry, 0, false⟩] } (count (cRule 0x20) s)))) ∧
       (partnerFollows s = false → exec (.ruleClear c a) s = .next (finish c (clearDone a (count (cRule 0x20) s))) ∧
         exec (.ruleMove c a) s = .next (finish c (moveDone c a (count (cRule 0x20) s))))) ∧
     (∀ m q tag, s.rb.moves.find? (fun m => m.cmd.sq = q && m.cmd.tag = tag) = some m →
       (opsHeld s 13).any (fun o => decide (o.args = [q, tag])) = false → exec (.ruleMoveCopy q tag) s = .next (moveCopy m s)) ∧
     (∀ m q tag o, s.rb.moves.find? (fun m => m.cmd.sq = q && m.cmd.tag = tag) = some m →
       (opsHeld s 13).any (fun o => decide (o.args = [q, tag])) = true →
       nextOp s 17 13 (fun o => decide (o.args = [q, tag])) = some o →
         exec (.ruleMoveCopy q tag) s = .next (moveCopy m (dispatched o s))) ∧
     (∀ x, x < 131072 → ∃ u, exec (.rbScrub [x]) s = .next (raise evRbParity x u) ∧
       rbEntry u x = { rbEntry s x with bad := true } ∧ (∀ y, y ≠ x → rbEntry u y = rbEntry s y) ∧
       rd u oRbFaultLast = x ∧ (rd u oRbFault).testBit (x / 2048) = true)) ∧
  ((∀ (c : SqCmd) (n : Nat) (h : Bytes) (s : State), servesCommand c 2 s → s.pa.load = none →
     (dralet h n = 0 → exec (.patLoad c n (.data h)) s =
       .next (wr oPatState 1 (setPa { s.pa with load := some (c, h.take 64) } (count (cRule 0x20) s)))) ∧
     (∀ d, d = .fault ∨ d = .tooLong → exec (.patLoad c n d) s =
       .next (complete c 0x83 0x30 0 (raise evPatLoadFail 5 (wr oPatLoadResult 5 (count (cRule 0x20) s))))) ∧
     (dralet h n ≠ 0 → exec (.patLoad c n (.data h)) s =
       .next (complete c 0x83 0x30 0 (raise evPatLoadFail (dralet h n) (wr oPatLoadResult (dralet h n) (count (cRule 0x20) s)))))) ∧
   (∀ (c : SqCmd) (n : Nat) (d : Dma) (s : State), servesCommand c 2 s → s.pa.load.isSome = true →
     exec (.patLoad c n d) s = .next (complete c 0x84 0x30 0 (count (cRule 0x20) s))) ∧
   (∀ (c : SqCmd) (h b : Bytes) (s : State), s.pa.load = some (c, h) → partnerFollows s = false →
     leAt h 0x24 4 ≤ b.length → crc32c (b.take (leAt h 0x24 4)) = leAt h 0x28 4 →
     ∃ u, exec (.patLoadComplete (.data b)) s = .next (complete c 0 0 0 (raise evPatLoaded (leAt h 0x20 4) u)) ∧
       rd u oPatState = 2 ∧ rd u oPatLoadResult = 1 ∧ rd u oPatImageId = leAt h 0x20 4 ∧ rd u oPatSets = leAt h 0x1A 1 ∧
       rd u oPatPatterns = leAt h 0x1C 2 ∧ u.pa = { s.pa with load := none, image := h ++ b.take (leAt h 0x24 4), bad := [] }) ∧
   (∀ (c : SqCmd) (h b : Bytes) (code : Nat) (s : State), s.pa.load = some (c, h) → partnerFollows s = false →
     (b.length < leAt h 0x24 4 ∧ code = 5 ∨
       leAt h 0x24 4 ≤ b.length ∧ crc32c (b.take (leAt h 0x24 4)) ≠ leAt h 0x28 4 ∧ code = 4) →
     ∃ u, exec (.patLoadComplete (.data b)) s = .next (complete c 0x83 0x30 0 (raise evPatLoadFail code u)) ∧
       rd u oPatState = 0 ∧ rd u oPatLoadResult = code ∧ u.pa = { s.pa with load := none, image := [] }) ∧
   (∀ (d : Dma) (s : State), s.pa.load = none → exec (.patLoadComplete d) s = .next s))

/-! ### Flow ledger (chapter 8) -/

/-- R286 to R288, R290: where nothing is under way in the ledger and the key's record is on die, a frame's operation is applied as
it arrives: the record's hot part counts the frame and its octets and takes its time, every other slot stays, and the frame gets
the hot part as its own update left it, with STATUS 0. -/
def Obligations.FrameHitsItsRecord : Prop :=
  ∀ (fid r : Nat) (f : Frame) (ways : List (Nat × Ecc)) (s : State), ledgerQuiet s → frame s fid = some f → f.phase = .ingress →
    f.due.testBit 6 = true → flowEnters s fid f = false → (∀ e ∈ ways, e.2 = .clean) →
    sliceOpen s (hashSlice f.h0) = true → sliceAccepts s (hashSlice f.h0) = true → crossbarTakes s (hashSlice f.h0) = true →
    lookup s (homeOf s f.h0) (hashFp f.h0) f.sig = .found r → hAlias (hotAt s r) = false →
    (hPending (hotAt s r) = false ∨ lowLedger s = true) → isStale s (setFor s f.epoch) r = false →
    (failAction s (setFor s f.epoch) r).1 = 0 →
    ∃ t g flags, exec (.ledgerOperation fid ways) s = .next t ∧ frame t fid = some g ∧
      g.results = f.results ++ [.ledger 0 flags 0 r (hotAt t r)] ∧ g.ra.flowValid = 1 ∧ g.ra.flowRecord = r ∧
      g.ledStatus = some 0 ∧ g.bytes = f.bytes ∧ g.epoch = f.epoch ∧
      hPackets (hotAt t r) = (hPackets (hotAt s r) + 1) % 2 ^ 24 ∧
      hOctets (hotAt t r) = (hOctets (hotAt s r) + frameLen f) % 2 ^ 32 ∧ hSeen (hotAt t r) = stampMs f.stamp ∧
      hSig (hotAt t r) = hSig (hotAt s r) ∧ hSvcAddr (hotAt t r) = hSvcAddr (hotAt s r) ∧
      hSvcPort (hotAt t r) = hSvcPort (hotAt s r) ∧ coldAt t r = coldAt s r ∧ (∀ k, k ≠ r → slotAt t k = slotAt s k) ∧
      (∀ k, k ≠ fid → frame t k = frame s k) ∧ ledgerQuiet t

/-- R291: a FLOW_SET of a pass that has issued none replaces, where the record is on die and nothing is under way, what its mask
names of the frame's own record, and nothing of any other slot; a second one of the pass does nothing.
R21, R29, R286, R295, R299, R307, R308, R323: how operations come to a slice. A frame's operation stays in the crossbar while the
slice's write buffer is full or four have entered it in this cycle, or one of an earlier frame of the flow has not entered; it has
the ways it reads checked, and meets exhaustion cause 4 where the slice takes none. The oldest reply key, and the oldest forwarded
operation, of a slice leave the way between slices as they enter it. -/
def Obligations.FlowFieldsAndArrivals : Prop :=
  (∀ (fid mask conn addr port : Nat) (f : Frame) (s : State), frame s fid = some f → f.phase = .ingress → f.finished = false →
     (f.flowSetDone = true ∨ f.ra.flowValid ≠ 1 → exec (.flowSet fid mask conn addr port) s = .next s) ∧
     (f.flowSetDone = false → f.ra.flowValid = 1 → ledgerQuiet s → slotReady s f.ra.flowRecord →
       isPrimary s f.ra.flowRecord = true → ∃ t, exec (.flowSet fid mask conn addr port) s = .next t ∧
         let h := hotAt s f.ra.flowRecord
         let h' := hotAt t f.ra.flowRecord
         hConn h' = (if mask.testBit 0 then conn % 2 ^ 8 else hConn h) ∧
         hSvcAddr h' = (if mask.testBit 1 then addr % 2 ^ 16 else hSvcAddr h) ∧
         hSvcPort h' = (if mask.testBit 2 then port % 2 ^ 16 else hSvcPort h) ∧
         hSig h' = hSig h ∧ hPackets h' = hPackets h ∧ hOctets h' = hOctets h ∧ hSeen h' = hSeen h ∧
         coldAt t f.ra.flowRecord = coldAt s f.ra.flowRecord ∧ (∀ k, k ≠ f.ra.flowRecord → slotAt t k = slotAt s k) ∧
         frame t fid = some { f with flowSetDone := true } ∧ (∀ k, k ≠ fid → frame t k = frame s k) ∧ ledgerQuiet t)) ∧
  ((∀ (fid : Nat) (f : Frame) (ways : List (Nat × Ecc)) (s : State), frame s fid = some f → f.phase = .ingress →
     let sl := hashSlice f.h0
     let g := { f with due := setBit (clearBit f.due 6) 7 }
     let o : LedOp := { id := s.led.nextOp, slice := sl, who := .frame fid g, key := f.key, h0 := f.h0, sig := f.sig,
                        home := homeOf s f.h0
                        touch := (ways.filter (fun e => e.2 = .uncorrectable)).map (fun e => recNo sl e.1) }
     let u := setLed { s.led with nextOp := s.led.nextOp + 1 } (cross sl (count (cTemplate (admOf g) 0x00) (putFrame fid g s)))
     (f.due.testBit 6 = false ∨ flowEnters s fid f = true ∨ sliceAccepts s sl = false ∨ crossbarTakes s sl = false →
       exec (.ledgerOperation fid ways) s = .next s) ∧
     (f.due.testBit 6 = true → flowEnters s fid f = false → sliceAccepts s sl = true → crossbarTakes s sl = true →
       (sliceOpen s sl = true → exec (.ledgerOperation fid ways) s =
         .next (runLedger (forEach ways (fun t e => wayRead (recNo sl e.1) e.2 t) (joinOp o u)))) ∧
       (sliceOpen s sl = false → exec (.ledgerOperation fid ways) s = .next (runLedger (exhaust o fid g 4 u))))) ∧
   (∀ (f : Nat) (s : State), isSlice f = true →
     (sliceAccepts s f = false ∨ crossbarTakes s f = false →
       exec (.aliasAdmission f) s = .next s ∧ exec (.aliasForward f) s = .next s) ∧
     (sliceAccepts s f = true → crossbarTakes s f = true → ∀ o,
       (s.led.replies.find? (fun o => o.slice = f) = some o → ∃ u,
         u = cross f (setLed { s.led with replies := s.led.replies.erase o } s) ∧
         (sliceOpen s f = true → exec (.aliasAdmission f) s = .next (runLedger (joinOp o u))) ∧
         (sliceOpen s f = false → exec (.aliasAdmission f) s = .next (arrive o [] u))) ∧
       (s.led.forwards.find? (fun o => o.slice = f) = some o → ∃ u,
         u = cross f (setLed { s.led with forwards := s.led.forwards.erase o } s) ∧
         (sliceOpen s f = true → exec (.aliasForward f) s = .next (runLedger (joinOp o u))) ∧
         (sliceOpen s f = false → exec (.aliasForward f) s = .next (arrive o [] u))))))

/-- R311, R312, R315, R318, R673: how flow commands start: a record outside the ledger, an image that cannot be read, a malformed
key or mask and a template of another family complete at once; any other becomes an operation of its slice.
R314, R316, R317, R285, R672: where nothing is under way in the ledger and the record is on die, a command that names a primary
by its number reaches its apply point as it arrives: FLOW_READ writes the record's image as it stands; FLOW_UPDATE, FLOW_DELETE,
FLOW_PIN and FLOW_UNPIN change the record, or fail whole, and complete. -/
def Obligations.FlowCommands : Prop :=
  ((∀ (c : SqCmd) (a : FlowArgs) (cold : Ecc) (walk : List (Nat × Ecc)) (s : State), servesCommand c 0 s →
     (a.byKey = false → recordCode s a.record = 0x0B → exec (.flowRead c a cold) s = .next (complete c 0x0B 0 0 s)) ∧
     (a.byKey = false → recordCode s a.record ≠ 0x0B → exec (.flowRead c a cold) s =
       .next (cmdOp (recSlice a.record) [] (some a.record) (.cmd c 0x40 a [] []) [(a.record, cold)] s)) ∧
     (a.byKey = true → let k := keyBlock a.key
       exec (.flowRead c a cold) s =
         .next (cmdOp (hashSlice (hashH0 s k)) k none (.cmd c 0x40 { a with key := k } [] []) [((findRec s k).getD 0, cold)] s)) ∧
     (16 ≤ a.slice ∨ slotsPer s ≤ a.record ∨ a.count = 0 ∨ 4096 < a.count →
       exec (.flowWalk c a walk) s = .next (complete c 0x0B 0 0 s)) ∧
     (a.slice < 16 → a.record < slotsPer s → a.count ≠ 0 → a.count ≤ 4096 →
       exec (.flowWalk c a walk) s = .next (cmdOp a.slice [] (some (recNo a.slice a.record)) (.cmd c 0x41 a [] [])
         (walk.map (fun e => (recNo a.slice e.1, e.2))) s))) ∧
   (∀ (c : SqCmd) (a : FlowArgs) (s : State), servesCommand c 1 s → ∀ (code : Nat) (i : Instr),
     (code, i) ∈ [(0x44, Instr.flowDelete c a), (0x45, .flowPin c a), (0x46, .flowUnpin c a)] →
     (a.byKey = false → recordCode s a.record = 0x0B → exec i s = .next (complete c 0x0B 0 0 s)) ∧
     (a.byKey = false → recordCode s a.record ≠ 0x0B →
       exec i s = .next (cmdOp (recSlice a.record) [] (some a.record) (.cmd c code a [] []) [] s)) ∧
     (a.byKey = true → let k := keyBlock a.key
       exec i s = .next (cmdOp (hashSlice (hashH0 s k)) k none (.cmd c code { a with key := k } [] []) [] s))) ∧
   (∀ (c : SqCmd) (a : FlowArgs) (image aliasKey : Dma) (s : State), servesCommand c 1 s →
     (128 ≤ a.mask → exec (.flowUpdate c a image) s = .next (complete c 0x82 0x60 0 s)) ∧
     (a.mask < 128 → image = .fault → exec (.flowUpdate c a image) s = .next (complete c 0x81 0x60 0 s)) ∧
     (∀ b, a.mask < 128 → image = .data b → 144 ≤ b.length →
       (a.byKey = false → recordCode s a.record ≠ 0x0B → exec (.flowUpdate c a image) s =
         .next (cmdOp (recSlice a.record) [] (some a.record) (.cmd c 0x43 a (b.take 144) []) [] s)) ∧
       (a.byKey = true → let k := keyBlock a.key
         exec (.flowUpdate c a image) s =
           .next (cmdOp (hashSlice (hashH0 s k)) k none (.cmd c 0x43 { a with key := k } (b.take 144) []) [] s))) ∧
     (image = .fault → exec (.flowInsert c a image aliasKey) s = .next (complete c 0x81 0x60 0 s)) ∧
     (∀ b, image = .data b → 144 ≤ b.length → a.aliasAddr = 0 → let k := imageKey s (b.take 144)
       (keyFormOk k = false → exec (.flowInsert c a image aliasKey) s = .next (complete c 0x0B 0 0 s)) ∧
       (keyFormOk k = true → kKind k ≠ rdAct s (oAdmFamily (leAt (b.take 144) 0x19 1 % 64)) →
         exec (.flowInsert c a image aliasKey) s = .next (complete c 0x83 0x38 0 s)) ∧
       (keyFormOk k = true → kKind k = rdAct s (oAdmFamily (leAt (b.take 144) 0x19 1 % 64)) →
         exec (.flowInsert c a image aliasKey) s =
           .next (cmdOp (hashSlice (hashH0 s k)) k none (.cmd c 0x42 a (b.take 144) []) [] s))) ∧
     (∀ b r, image = .data b → 144 ≤ b.length → a.aliasAddr ≠ 0 → aliasKey = .data r → 48 ≤ r.length →
       let k := imageKey s (b.take 144)
       keyFormOk k = true → keyFormOk (r.take 48) = true → kKind k = rdAct s (oAdmFamily (leAt (b.take 144) 0x19 1 % 64)) →
         (r.take 48 = k → exec (.flowInsert c a image aliasKey) s = .next (complete c 0x20 0 0 s)) ∧
         (r.take 48 ≠ k → exec (.flowInsert c a image aliasKey) s =
           .next (cmdOp (hashSlice (hashH0 s k)) k none (.cmd c 0x42 a (b.take 144) (r.take 48)) [] s))))) ∧
  (∀ (c : SqCmd) (a : FlowArgs) (s : State), a.byKey = false → a.record < 2 ^ 26 → recSlot a.record < slotsPer s → ledgerQuiet s →
     slotReady s a.record → hValid (hotAt s a.record) = true →
     (servesCommand c 0 s → ∃ u, u.led.slots = s.led.slots ∧ u.hst = s.hst ∧ u.out = s.out ∧ u.dict = s.dict ∧
       exec (.flowRead c a .clean) s =
         .next (endSweep (dropOp (recSlice a.record) s.led.nextOp (useWay a.record
           (if linksHold c (recordImage u a.record).length then complete c 0 0 0 (writeData c (recordImage u a.record) u)
            else complete c 0x82 0x60 0 u))))) ∧
     (servesCommand c 1 s → partnerFollows s = false → hAlias (hotAt s a.record) = false →
       ∀ (code : Nat) (image : Bytes) (i : Instr), image.length = 144 → a.mask < 128 →
         (code, i) ∈ [(0x43, Instr.flowUpdate c a (.data image)), (0x44, .flowDelete c a), (0x45, .flowPin c a),
                      (0x46, .flowUnpin c a)] →
         (code = 0x45 → ∀ x ∈ (pinPair s a.record).flatMap (pinSet s), onDie s x = true) →
         ∃ u, u.led.slots = s.led.slots ∧ u.hst = s.hst ∧ u.out = s.out ∧ u.dict = s.dict ∧
           (∀ k, (tabFind u.led.ways k).map (fun w => { w with used := 0 }) = (tabFind s.led.ways k).map (fun w => { w with used := 0 })) ∧
           exec i s = .next (endSweep (dropOp (recSlice a.record) s.led.nextOp (useWay a.record (finish c
             (if code = 0x43 then succeeded (updateMasked a.mask a.record image u)
              else if code = 0x44 then succeeded (removeRecord 3 a.record u)
              else if code = 0x45 then
                match pinRecords (pinPair u a.record) u with
                | some t => succeeded t
                | none => failed 0x82 0x38 u
              else succeeded (unpinRecords (pinPair u a.record) u))))))))

/-- R279: a fold that its list dispatches next moves, where nothing is under way in the ledger, the hot counts into the cold totals at
one cycle: both sums stay, modulo 2^64, and no other slot changes. -/
def Obligations.FoldKeepsTheSums : Prop :=
  ∀ (f n : Nat) (cold : Ecc) (s : State), isSlice f = true → isSlot n = true →
    let r := recNo f n
    ledgerQuiet s → takesDeferred s f = true → (nextWay s 2 r).isSome = true → cold ≠ .uncorrectable → lowLedger s = false →
    onDie s r = true →
    hValid (hotAt s r) = true → hAlias (hotAt s r) = false → hPending (hotAt s r) = false → (slotAt s r).coldBad = false →
    ∃ t, exec (.fold f n cold) s = .next t ∧ hPackets (hotAt t r) = 0 ∧ hOctets (hotAt t r) = 0 ∧
      byteFld (coldAt t r) 0x30 8 = (byteFld (coldAt s r) 0x30 8 + hPackets (hotAt s r)) % 2 ^ 64 ∧
      byteFld (coldAt t r) 0x38 8 = (byteFld (coldAt s r) 0x38 8 + hOctets (hotAt s r)) % 2 ^ 64 ∧
      hSig (hotAt t r) = hSig (hotAt s r) ∧ hConn (hotAt t r) = hConn (hotAt s r) ∧ cKey (coldAt t r) = cKey (coldAt s r) ∧
      (∀ k, k ≠ r → slotAt t k = slotAt s k) ∧ wayOp t 2 r = none ∧ t.pip = s.pip ∧ ledgerQuiet t

/-- R294, R434, R437, R439: a write-back that its list dispatches next makes, where nothing is under way in the ledger, its way clean
with the content written, and changes no record; a slice that is halted takes no write-back, no fold and no aging step; the
next step of its aging cursor becomes a visit.
R295, R297, R298, R319, R320, R324: what HBM answers: a read that is not awaited, a write of an empty buffer and a scrub that is
off do nothing; an awaited read leaves its entry and brings its slot on die, its corrected error counted, or ends by its
uncorrectable error; a write frees its entry. -/
def Obligations.LedgerMemory : Prop :=
  (∀ (f n : Nat) (s : State), isSlice f = true → isSlot n = true →
     let r := recNo f n
     (∀ w, ledgerQuiet s → takesDeferred s f = true → (nextWay s 1 r).isSome = true → tabFind s.led.ways r = some w →
       w.bad = false →
       ∃ t, exec (.writeback f n .clean) s = .next t ∧
         tabFind t.led.ways r = some { w with dirty := false, clean := hotAt s r, used := s.clk.cclk } ∧
         (∀ k, k ≠ r → tabFind t.led.ways k = tabFind s.led.ways k) ∧ t.led.slots = s.led.slots ∧
         wayOp t 1 r = none ∧ ledgerQuiet t) ∧
     (inService s (16 + f) = false → ∀ ecc,
       exec (.writeback f n ecc) s = .next s ∧ exec (.fold f n ecc) s = .next s ∧ exec (.ledgerAging f) s = .next s) ∧
     (∀ o, nextStep s f = some o → takesDeferred s f = true → s.svc.swept.testBit f = false →
       let k := cursorStep s f
       let u := stepCursor f o s
       exec (.ledgerAging f) s =
         .next (enterDeferred { id := 0, slice := f, who := .aging, home := recNo f k, slot := some (recNo f k) }
           (if k + 1 < slotsPer u then u else { u with svc := { u.svc with swept := setBit u.svc.swept f } })))) ∧
  (∀ (f n : Nat) (hot cold : Ecc) (s : State), isSlice f = true → isSlot n = true →
     let r := recNo f n
     let u := setSlc f { slc s f with reads := (slc s f).reads.erase r } s
     ((slc s f).reads.contains r = false → exec (.hbmReadReturn f n hot cold) s = .next s) ∧
     ((slc s f).reads.contains r = true →
       (hot = .uncorrectable → exec (.hbmReadReturn f n hot cold) s = .next (runLedger (hotUe r u))) ∧
       (hot = .corrected →
         exec (.hbmReadReturn f n hot cold) s = .next (runLedger (coldRead r cold (installWay r (count (cSlice f 0x68) u))))) ∧
       (hot = .clean → exec (.hbmReadReturn f n hot cold) s = .next (runLedger (coldRead r cold (installWay r u))) ∧
         onDie (installWay r u) r = true)) ∧
     ((slc s f).writes = [] → exec (.hbmWriteComplete f) s = .next s) ∧
     (∀ w l, (slc s f).writes = w :: l →
       exec (.hbmWriteComplete f) s = .next (runLedger (setSlc f { slc s f with writes := l } s))) ∧
     (rd s oScrubEnable ≠ 1 ∨ lowLedger s = true ∨ slotsPer s ≤ n → exec (.ledgerScrub f n hot cold) s = .next s) ∧
     (rd s oScrubEnable = 1 → lowLedger s = false → n < slotsPer s →
       (hot = .uncorrectable → exec (.ledgerScrub f n hot cold) s = .next (runLedger (hotUe r s))) ∧
       (hot = .corrected → exec (.ledgerScrub f n hot cold) s = .next (coldRead r cold (count (cSlice f 0x68) s))) ∧
       (hot = .clean → exec (.ledgerScrub f n hot cold) s = .next (coldRead r cold s))))

/-- R320 to R322: an uncorrectable error in a cold part sets COLD_PENDING of its record, counts and raises LEDGER_ECC, and the
record stays in service. A repair is dispatched once the operations that came before it have left its slot and its home; it reads
what it needs, ends the repair of its slot and is counted; with none to dispatch nothing happens.
R627, R557: in a unit without a pair a flow-slice fault raises LEDGER_FAULT and starts to flush the slice, and an exceeded limit
is only reported; the end of a flush leaves the slice no way that is not pinned and none dirty, and without a flush it does
nothing. -/
def Obligations.LedgerFaults : Prop :=
  ((∀ (r : Nat) (s : State), hValid (hotAt s r) = true → lowLedger s = false → onDie s r = true →
     let t := coldUe r s
     hPending (hotAt t r) = true ∧ hValid (hotAt t r) = true ∧ hSig (hotAt t r) = hSig (hotAt s r) ∧ (slotAt t r).coldBad = true ∧
     (∀ k, k ≠ r → slotAt t k = slotAt s k) ∧ rd t oLedgerUeLast = 2 ^ 31 + r ∧ t.led.slices = s.led.slices) ∧
   (∀ (f n : Nat) (cold : Ecc) (read : List (Nat × Ecc × Ecc)) (s : State), isSlice f = true → isSlot n = true →
     let r := recNo f n
     let p := fun o : DwOp =>
       o.args = [r] && sliceOpen s f && inCycle s (deferredKey f) s.clk.cclk = 0 && !repairWaits s r
     (nextOp s f 4 p = none → exec (.ledgerRepair f n cold read) s = .next s) ∧
     (∀ o, nextOp s f 4 p = some o →
       let v := dispatched o (useCycle (deferredKey f) s.clk.cclk s)
       let w := readForRepair r read (when (cold = .corrected) (count (cSlice f 0x68)) v)
       ((slc v f).repairs.contains r = false → exec (.ledgerRepair f n cold read) s = .next v) ∧
       ((slc v f).repairs.contains r = true → ∃ u,
         u = rebuildHome r (if role w = 3 then w
           else forEach (List.range 16) (fun t d => forgetSlot r d t) (loseRecord r cold w)) ∧
         exec (.ledgerRepair f n cold read) s = .next (runLedger (count (cSlice f 0x80)
           (setPair { u.pair with repairs := u.pair.repairs + 1 }
             (setSlc f { slc u f with repairs := (slc u f).repairs.erase r } u)))))))) ∧
  (∀ (f : Nat) (s : State), isSlice f = true →
     (rd s oPairEnable ≠ 1 → exec (.ledgerFault f false) s = .next (sliceFault f s) ∧
       (limitExceeded s = true → exec (.ledgerFault f true) s = .next (raise evLedgerFault f s)) ∧
       (limitExceeded s = false → exec (.ledgerFault f true) s = .next s)) ∧
     (rd s oPairEnable = 1 → ∀ l, exec (.ledgerFault f l) s = .next s) ∧
     (∀ tags, (slc s f).flushing = false → exec (.sliceFlushComplete f tags) s = .next s) ∧
     (∀ tags, (slc s f).flushing = true → ∃ u, exec (.sliceFlushComplete f tags) s = .next (runLedger u) ∧
       (slc u f).flushing = false ∧ (slc u f).ops = (slc s f).ops ∧
       (∀ r w, tabFind u.led.ways r = some w → recSlice r = f → w.dirty = false ∧ 0 < w.pins) ∧
       (∀ r, recSlice r ≠ f → tabFind u.led.ways r = tabFind s.led.ways r ∧ slotAt u r = slotAt s r)))

/-! ### Services (chapter 9) -/

/-- R340: a source translation that is granted takes, of the entries of its subscriber's block and protocol from the key's source
port on, the first that is neither used nor held; the entry then names the record as used, and no other entry changes.
R344, R345, R548: the release that its list dispatches next clears HELD of its entry and counts it, and a standby runs none; the
next step of the audit clears and counts a used entry whose record does not hold it, leaves any other, counts a visit to a used
entry, and is not made where AUDIT_PERIOD is 0.
R362, R363: the export that its list dispatches next within EXPORT_RATE that finds room is posted to EXPORT_QUEUE and counted; beyond the rate, or
without room, it is dropped and counted, and TELEM_LOSS raised at most once a second; a unit that follows an active writes none. -/
def Obligations.PortsAndTelemetry : Prop :=
  (∀ (set t pool r icmpType : Nat) (k : Bytes) (s : State) (a : AllocResult), t < 64 →
     natAlloc set t pool r icmpType k s = .inl a →
     let p := natPool s set pool
     let src := addrAt p.family k 0x08
     ∃ row i, protoMap (kProto k) icmpType = some row ∧ p.inBase ≤ src ∧ src - p.inBase < p.inCount ∧ i < 64 ∧ i < p.block ∧
       let at_ (n : Nat) : Nat := ((src - p.inBase) * 3 + row) * p.block + (kSport k % p.block + n) % p.block
       portEntry s pool (at_ i) / 2 ^ 30 = 0 ∧ (∀ n, n < i → portEntry s pool (at_ n) / 2 ^ 30 ≠ 0) ∧
       portEntry a.state pool (at_ i) = 2 ^ 31 + r ∧ (∀ e, e ≠ at_ i → portEntry a.state pool e = portEntry s pool e) ∧
       a.alloc.svcAddr = serviceGen s t * 4096 + (kSport k % p.block + i) % p.block ∧ a.alloc.svcPort = kSport k ∧
       a.state.led.slots = s.led.slots) ∧
  (∀ (pool entry : Nat) (s : State), isService pool = true →
     (role s = 3 → exec (.natRelease pool entry) s = .next s) ∧
     (role s ≠ 3 → nextOp s 16 5 (fun o => o.args.take 2 = [pool, entry]) = none → exec (.natRelease pool entry) s = .next s) ∧
     (∀ o, role s ≠ 3 → nextOp s 16 5 (fun o => o.args.take 2 = [pool, entry]) = some o →
       ((portEntry s pool entry).testBit 30 = false → exec (.natRelease pool entry) s = .next (dispatched o s)) ∧
       ((portEntry s pool entry).testBit 30 = true →
         ∃ t, exec (.natRelease pool entry) s = .next t ∧ portEntry t pool entry = portEntry s pool entry - 2 ^ 30 ∧
           (∀ e, e ≠ entry → portEntry t pool e = portEntry s pool e) ∧ t.led = s.led)) ∧
     (rd s oAuditPeriod = 0 ∨ dispatches s = false → exec (.portmapAudit pool entry) s = .next s) ∧
     (∀ o, nextStep s 16 = some o →
       ∃ t, exec (.portmapAudit pool entry) s = .next t ∧
         ctr t (cService 0x30) % 2 ^ 64 = (ctr s (cService 0x30) + b2n ((portEntry s pool entry).testBit 31)) % 2 ^ 64 ∧
         portEntry t pool entry = (if portOrphan s pool entry then 0 else portEntry s pool entry) ∧
         tabGet 0 t.svc.recovered pool = tabGet 0 s.svc.recovered pool + (if portOrphan s pool entry then 1 else 0) ∧
         (∀ e, e ≠ entry → portEntry t pool e = portEntry s pool e) ∧ t.led = s.led)) ∧
  (∀ s : State,
     (nextOp s 18 8 (fun _ => true) = none → exec .counterExport s = .next s) ∧
     (∀ o, nextOp s 18 8 (fun _ => true) = some o →
       let u := dispatched o s
       let q := rd u oExportQueue
       (follows u = true → exec .counterExport s = .next u) ∧
       (follows u = false → used u exportKey < rd u oExportRate → cqTakes u q 5 = true → exec .counterExport s = .next (count (cService 0x20)
         (postSystem q (completionHeader 3 0 5 0 0 0xFFFF 0 0 ++ o.body ++ zeros 16) (useLimit exportKey u)))) ∧
       (follows u = false → rd u oExportRate ≤ used u exportKey ∨ cqTakes u q 5 = false →
         exec .counterExport s = .next (raiseOnce evTelemLoss 0 0 (count (cService 0x28) u)))))

/-- R348, R349, R354, R365: a table that is due gets its new slot table as a whole, the other tables keep theirs, and a table that
is not due nothing; an accepted BACKEND_STATE sets the row's state, and makes its table due where the state changes.
R352, R566, R548: a run of the rebalancing loop of a table that is not valid, not balanced or not governed, or of a standby,
does nothing; any other run, with load, gives each active row that is not pinned the effective weight of the loop, rounded to a
sixteenth (log entry 15), and leaves the other rows' and every port map. -/
def Obligations.BackendTables : Prop :=
  ((∀ (t : Nat) (s : State), isService t = true →
     (s.svc.rebuild.contains t = false ∨ role s = 3 → exec (.slotTableRebuild t) s = .next s) ∧
     (s.svc.rebuild.contains t = true → role s ≠ 3 → ∃ u, exec (.slotTableRebuild t) s = .next u ∧
       (∀ i, i < 4096 → tableSlot u t i = nth none (newSlots s t) i) ∧
       (∀ k i, k ≠ t → i < 4096 → tableSlot u k i = tableSlot s k i) ∧ u.svc.rebuild = s.svc.rebuild.erase t ∧
       u.svc.backends = s.svc.backends ∧ u.svc.ports = s.svc.ports ∧ u.led = s.led)) ∧
   (∀ (o : Origin) (level row v : Nat) (s : State), (Instr.backendState o level row v).wf = true →
     acceptsWrite s o (oneWrite level oBackendState row 1 v) → ∃ t,
       exec (.backendState o level row v) s = .next (answered (counted o s) o (oneWrite level oBackendState row 1 v) t) ∧
       rd t oBackendState row = v ∧ (∀ r, r < 2 ^ 32 → r ≠ row → rd t oBackendState r = rd s oBackendState r) ∧
       (rd s oBackendState row ≠ v → isService (beOf (beRow s (activeSet s) row)) = true →
         t.svc.rebuild.contains (beOf (beRow s (activeSet s) row)) = true) ∧
       t.svc.slotTab = s.svc.slotTab ∧ t.led = s.led)) ∧
  (∀ (t : Nat) (s : State), isService t = true →
     let tab := beTable s (activeSet s) t
     (tab.valid ≠ 1 ∨ tab.mode = 0 ∨ role s = 3 ∨ rd s oGovKnobs 3 % 256 ≠ 1 → exec (.rebalanceRun t) s = .next s) ∧
     (tab.valid = 1 → tab.mode ≠ 0 → role s ≠ 3 → rd s oGovKnobs 3 % 256 = 1 →
       let active := activeRows s t
       let total := active.foldl (fun a r => a + loadOf s tab.mode r) 0
       let weights := active.foldl (fun a r => a + beWeight (beRow s (activeSet s) r)) 0
       ∃ u, exec (.rebalanceRun t) s = .next u ∧ u.svc.ports = s.svc.ports ∧ u.svc.slotTab = s.svc.slotTab ∧ u.led = s.led ∧
         (∀ r, r ∈ active → bePin (beRow s (activeSet s) r) = false → total ≠ 0 →
           let w := beWeight (beRow s (activeSet s) r)
           let want := wantOf (effWeight s r) (loadOf s tab.mode r) w total weights
           (be u r).eff = fracRound (fracMin (fracMax want (16 * w * tab.floor, 100)) (16 * w * tab.ceiling, 100))) ∧
         (∀ r, (r ∉ active ∨ bePin (beRow s (activeSet s) r) = true ∨ total = 0) → (be u r).eff = (be s r).eff) ∧
         (∀ r, (be u r).records = (be s r).records)))

/-- R357, R358: a TCP record starts in SYN_SENT on a SYN without ACK and in MIDSTREAM otherwise, any other in UNREPLIED; a
transition marked invalid keeps STATE and sets INVALID, any other clears INVALID, and MACHINE and INIT_DIR never change; a reset
closes a TCP record. -/
def Obligations.ConnectionStates : Prop :=
  (∀ (proto flags : Nat) (swapped : Bool),
    let c := connInit true proto flags swapped
    c % 16 = (if proto = 6 ∧ ¬(flags.testBit 1 = true ∧ flags.testBit 4 = false) then 8 else 0) ∧ c.testBit 5 = swapped ∧
      c.testBit 4 = false ∧ c / 64 = (if proto = 6 then 1 else if proto = 17 then 2 else 3) ∧
      connInit false proto flags swapped = 0) ∧
  (∀ (conn flags : Nat) (resp oneSided : Bool), conn / 64 ≠ 0 →
    let x := connNext conn resp oneSided flags
    (x.2 = true → x.1 % 16 = conn % 16 ∧ x.1.testBit 4 = true) ∧ (x.2 = false → x.1.testBit 4 = false) ∧
      x.1 / 32 = conn / 32 ∧ (conn / 64 = 1 → flags.testBit 2 = true → x = (conn / 32 * 32 + 7, false)))

/-! ### Buffers and the Fabric (chapter 10) -/

/-- R371, R384, R385, R387, R675: a release reaches the Buffer Pool Manager with its rotation position and is applied at the end of its
FCLK cycle, in the order of the positions. One of a handle that names no buffer, of a free buffer or under another owner is counted,
recorded and leaves every buffer and every pool as it was; any other lowers REFS by 1, and the last one frees the buffer, lowers the
owner's held count and returns the buffer to its pool; a header that cannot be read takes the buffer out of service. -/
def Obligations.BufferReleases : Prop :=
  (∀ (h owner position : Nat) (ecc : Ecc) (s : State), isRotation position = true →
    exec (.bufferRelease h owner position ecc) s =
      .next { s with buf := { s.buf with releases := s.buf.releases ++ [⟨h, owner, position, ecc⟩] } }) ∧
  (∀ (a b : Release) (s : State), s.buf.releases = [a, b] → isRotation a.position = true → isRotation b.position = true →
    let u := { s with buf := { s.buf with releases := [] } }
    applyReleases s = if b.position < a.position then applyRelease a (applyRelease b u) else applyRelease b (applyRelease a u)) ∧
  (∀ (h owner position : Nat) (s : State),
    let w := header s h
    let p := hPool h
    let t := applyRelease ⟨h, owner, position, .clean⟩ s
    (handleOk s h = false → t.buf = s.buf ∧ rd t oFreeFaultLast = freeFault 3 owner h) ∧
    (handleOk s h = true → hdrHeld w = false → t.buf = s.buf ∧ rd t oFreeFaultLast = freeFault 1 owner h) ∧
    (handleOk s h = true → hdrHeld w = true → hdrOwner w ≠ owner → t.buf = s.buf ∧ rd t oFreeFaultLast = freeFault 2 owner h) ∧
    (handleOk s h = true → hdrHeld w = true → hdrOwner w = owner → 1 < hdrRefs w →
      hdrRefs (header t h) = hdrRefs w - 1 ∧ hdrOwner (header t h) = owner ∧
      hdrHeld (header t h) = true ∧ (∀ k, k ≠ h → header t k = header s k) ∧ t.buf.held = s.buf.held ∧
      t.buf.pools = s.buf.pools ∧ { t with buf := s.buf } = s) ∧
    (handleOk s h = true → hdrHeld w = true → hdrOwner w = owner → hdrRefs w ≤ 1 →
      header t h = 0 ∧ (∀ k, k ≠ h → header t k = header s k) ∧
      heldBy t owner p = heldBy s owner p - 1 ∧ hIndex h ∈ (pool t p).cache ++ (pool t p).list ∧
      (∀ k, k ≠ p → pool t k = pool s k) ∧ ctr t (cBuf p 0x20) = (ctr s (cBuf p 0x20) + 1) % 2 ^ 64 ∧
      { t with buf := s.buf, ctr := s.ctr } = s) ∧
    (handleOk s h = true →
      applyRelease ⟨h, owner, position, .corrected⟩ s = giveUp h owner (raise evPktEcc p (count (cBuf p 0x50) s)) ∧
      hIndex h ∈ (pool (applyRelease ⟨h, owner, position, .uncorrectable⟩ s) p).quarantined))

/-- R370, R371, R373, R378 to R380, R387: the grant of a pool. A request with a bad handle is counted first. A pool that may not grant in
this cycle grants nothing; a broken link word rebuilds the list and a header that cannot be read takes its buffer out of service.
Otherwise, of the requests that could be granted a buffer, one that no other goes before gets it: STATE 1, its own owner, REFS 1, the
owner's held count one higher; a frame waits no more, an internal requester takes it with its next action. A request within the
owner's minimum needs a free buffer, a shared one a shared free buffer.
R381, R386: a frame that has waited its hold window is counted for its port and its pool, raises POOL_STARVED at most once a
second, and is discarded; any other frame stays. An undertow pass leaves no held buffer that nothing named, and none runs where
UNDERTOW_PERIOD is 0. -/
def Obligations.BufferGrants : Prop :=
  (∀ (p : Nat) (hdr link : Ecc) (word : Option Nat) (stray : Option (Nat × Nat)) (s : State), isPool p = true →
     let u := strayRequest stray s
     let v := if link = .corrected then correctedWord p u else u
     let x := match word with
       | none => some v
       | some w => (followLink v p w (poolNow v p)).map (fun y => setPool p y v)
     (stray = none → u = s) ∧
     (∀ h owner, stray = some (h, owner) →
       u = if handleOk s h = false ∨ (hPool h = 7 ∧ owner < 4128) then badHandle h owner s else s) ∧
     (∀ owner, grantable s owner p = decide (0 < (if withinMin s owner p then freeIn s p else sharedIn s p))) ∧
     (grantsNow u p = false → exec (.bufferGrant p hdr link word stray) s = .next u) ∧
     (grantsNow u p = true →
       (link = .uncorrectable → exec (.bufferGrant p hdr link word stray) s = .next (raise evPktEcc p (breakList p u))) ∧
       (link ≠ .uncorrectable → x = none → exec (.bufferGrant p hdr link word stray) s = .next (breakList p v)) ∧
       (∀ y, link ≠ .uncorrectable → x = some y →
         (hdr = .uncorrectable → exec (.bufferGrant p hdr link word stray) s = .next (quarantineNext p y)) ∧
         (hdr ≠ .uncorrectable →
           let z := if hdr = .corrected then correctedWord p y else y
           (winner z p = none ∨ (poolNow z p).cache = [] → exec (.bufferGrant p hdr link word stray) s = .next z) ∧
           (∀ r i rest, winner z p = some r → (poolNow z p).cache = i :: rest →
             r ∈ requests z p ∧ grantable z r.owner p = true ∧
             (∀ c ∈ requests z p, grantable z c.owner p = true → orderLt (grantOrder z p c) (grantOrder z p r) = false) ∧
             ∃ t, exec (.bufferGrant p hdr link word stray) s = .next t ∧
               header t (mkHandle p i) = mkHeader r.owner 1 ∧ (∀ k, k ≠ mkHandle p i → header t k = header z k) ∧
               heldBy t r.owner p = heldBy z r.owner p + 1 ∧
               (∀ fid f, r = .frame fid f → frame z fid = some f ∧
                 frame t fid = some { f with handle := some (mkHandle p i), waiting := none } ∧
                 t.buf.waiters = z.buf.waiters.filter (· != fid) ∧ (∀ k, k ≠ fid → frame t k = frame z k)) ∧
               (∀ a, r = .internal a → t.buf.granted = z.buf.granted ++ [⟨a.owner, a.pool, mkHandle p i⟩] ∧
                 t.buf.waiters = z.buf.waiters ∧ t.pip = z.pip)))))) ∧
  ((∀ (fid : Nat) (s : State), (frame s fid = none → exec (.poolStarved fid) s = .next s) ∧
     ∀ f, frame s fid = some f →
       (f.waiting = none ∨ f.handle ≠ none → exec (.poolStarved fid) s = .next s) ∧
       (f.waiting.isSome = true → f.handle = none →
         let p := framePool f
         ∃ t, t = discardFrame fid (raiseOnce evPoolStarved p p (count (cBuf p 0x18) (count (cPortBuf f.port 0x38) s))) ∧
           exec (.poolStarved fid) s = .next t ∧ frame t fid = none ∧
           (∀ k, k ≠ fid → frame t k = frame s k) ∧ fid ∉ t.buf.waiters)) ∧
   (∀ s : State, (rd s oUndertowPeriod = 0 → exec .undertowPass s = .next s) ∧
     (rd s oUndertowPeriod ≠ 0 → ∃ t, t = undertow s ∧ exec .undertowPass s = .next t ∧
       ∀ h, handleOk s h = true → header t h ≠ 0 → (namedHandles s).contains h = true)))

/-- R29, R191, R192, R290, R300, R382: a frame whose routine has ended, with its results and its buffer, that no earlier frame holds
back, resolves, with its resolved action as the 256 bits of Table 5-9 carry it: nowhere without a punt copy it is counted and discarded; beyond the recirculation limit likewise; to a port or a group it
joins its stage-one queue; to RECIRC it waits for its egress routine. Any other frame stays.
R185, R188: a rewritten frame for RECIRC joins its pipeline's recirculation queue with a new FCS and is counted as sent by port
513; a full queue, a drop and a fault of its egress routine, which is one of more than 24 instructions or of a word that cannot be
read, discard it. -/
def Obligations.IngressResolution : Prop :=
  (∀ (fid : Nat) (f : Frame) (s : State), frame s fid = some f →
     (resolveReady s fid f = false → exec (.ingressResolution fid) s = .next s) ∧
     (resolveReady s fid f = true → ∀ n reason, f.forced = some (n, reason) →
       (n ≠ 1 → exec (.ingressResolution fid) s = .next (discardFrame fid s)) ∧
       (n = 1 → exec (.ingressResolution fid) s = .next (resolveAs fid { carried f with
         ra := { (carried f).ra with destKind := 1, dest := 512, reason := reason } } s))) ∧
     (resolveReady s fid f = true → f.forced = none → ∀ g, g = carried f →
       (mainKind g = 0 → g.ra.puntCopy = 0 →
         exec (.ingressResolution fid) s = .next (discardFrame fid (count (cPipe f.pipe 0x58) s))) ∧
       (mainKind g = 3 → rdCfg s f.epoch oRecircLimit ≤ g.ra.recircCount →
         exec (.ingressResolution fid) s = .next (discardFrame fid (count (cPipe f.pipe 0x10) s))) ∧
       ((mainKind g = 1 ∨ mainKind g = 2) → g.ra.dest ≠ 512 → g.ra.puntCopy = 0 → g.ra.mirror = 0 → g.ra.sample ≠ 1 →
         ∃ t, exec (.ingressResolution fid) s = .next t ∧ frame t fid = some { g with phase := .fabric } ∧
           (∀ k, k ≠ fid → frame t k = frame s k) ∧
           tabGet [] t.fab.stage1 (s1Key f.pipe (middleOf f) (rankOf g)) =
             tabGet [] s.fab.stage1 (s1Key f.pipe (middleOf f) (rankOf g)) ++ [fid] ∧
           (∀ k, k ≠ s1Key f.pipe (middleOf f) (rankOf g) → tabGet [] t.fab.stage1 k = tabGet [] s.fab.stage1 k)) ∧
       (mainKind g = 3 → g.ra.recircCount < rdCfg s f.epoch oRecircLimit → g.ra.puntCopy = 0 → g.ra.mirror = 0 →
         g.ra.sample ≠ 1 → ∃ t, exec (.ingressResolution fid) s = .next t ∧ frame t fid = some { g with phase := .recirc } ∧
           (∀ k, k ≠ fid → frame t k = frame s k) ∧ t.fab = s.fab))) ∧
  (∀ (fid : Nat) (f : Frame) (s : State), frame s fid = some f → f.phase = .recirc →
     (pipe s f.pipe).recirc.contains fid = false →
     ∀ (e : EgressRun), ∃ r, r = egressReads f.pipe f.epoch e s ∧
     (∀ reason, r.1 = some reason →
       exec (.recircEnqueue fid e) s = .next (discardFrame fid (egressFault f.pipe reason r.2))) ∧
     (r.1 = none → e.frame = none → exec (.recircEnqueue fid e) s = .next (discardFrame fid r.2)) ∧
     (∀ b, r.1 = none → e.frame = some b → 1024 ≤ (pipe s f.pipe).recirc.length →
       exec (.recircEnqueue fid e) s = .next (discardFrame fid (count (cPipe f.pipe 0x18) r.2))) ∧
     (∀ b, r.1 = none → e.frame = some b → (pipe s f.pipe).recirc.length < 1024 →
       ∃ t, exec (.recircEnqueue fid e) s = .next t ∧
       (pipe t f.pipe).recirc = (pipe s f.pipe).recirc ++ [fid] ∧ frame t fid = some { f with bytes := b ++ fcsBytes b } ∧
       (∀ k, k ≠ fid → frame t k = frame s k) ∧ ctr t (cPort 513 0x40) = (ctr s (cPort 513 0x40) + 1) % 2 ^ 64 ∧
       ctr t (cPort 513 0x48) = (ctr s (cPort 513 0x48) + (b ++ fcsBytes b).length) % 2 ^ 64) ∧
     ((∀ w ∈ e.words, w.2 = .clean ∧ storeFault s f.pipe f.epoch 3 (w.1 % 2048) = false) →
       r = (if 24 < e.words.length then some 6 else none, s)))

/-- R389 to R392, R421: the Fabric's cycles: stage one does nothing out of service or with no descriptor, and the class 7 head that the
cycle looks at first moves where its FIFO has room; a stage-one head is discarded only where its FIFO has no room; a multicast head without a group is discarded and counted; a struck pipeline leaves the
head's mask and its reference goes; stage two takes at most two descriptors, and none where it finds none.
R392, R393, R403, R405: the descriptor that stage two takes next leaves the head of its FIFO; a unicast one for an internal port
joins the list of its pipeline's internal deliveries.
R395, R396, R422: a replicator whose pool 7 buffer is granted replicates its oldest descriptor, one copy for each of its ports;
one without a buffer, or with no descriptor, waits; a copy is never for the ingress port unless HAIRPIN is 1. -/
def Obligations.FabricDelivery : Prop :=
  ((∀ s : State, (inService s 36 = false ∨ s.fab.stage1 = [] → exec .fabricStageOne s = .next s) ∧
     (inService s 36 = true → exec .fabricStageOne s = .next (stageOne s)) ∧
     (∀ fid f, inService s 36 = true → let m := s.clk.cclk % 32
       s1Head s ((m + s.clk.cclk) % 16) m 1 = some fid → frame s fid = some f → fifoRoom s m 1 f = true →
         ∃ t g, exec .fabricStageOne s = .next t ∧ frame t fid = some g ∧
           g.phase = if isMulticast f then Phase.mcFifo else .middle)) ∧
   (∀ (n m : Nat) (c7 : Bool) (fid : Nat) (f : Frame) (s : State), isPipe n = true → isMiddle m = true →
     s1Head s n m (b2n c7) = some fid → frame s fid = some f →
     (fifoRoom s m (b2n c7) f = true → exec (.fabricDiscard n m c7) s = .next s) ∧
     (fifoRoom s m (b2n c7) f = false →
       (isMulticast f = true → exec (.fabricDiscard n m c7) s = .next (leave fid (count (cMiddle m 0x18) s))) ∧
       (isMulticast f = false → exec (.fabricDiscard n m c7) s =
         .next (leave fid (count (cEgress (egressOf f) (if c7 then 0x10 else 0x08)) s))))) ∧
   (∀ (m : Nat) (c7 : Bool) (fid : Nat) (f : Frame) (s : State), isMiddle m = true → mcHead s m (b2n c7) = some fid →
     frame s fid = some f →
     (f.phase ≠ .mcFifo → exec (.mcFifoHead m c7) s = .next s) ∧
     (f.phase = .mcFifo → mcRowOf s f.ra.dest = 0 → exec (.mcFifoHead m c7) s = .next (leave fid (count (cTm 0x00) s))) ∧
     (f.phase = .mcFifo → mcRowOf s f.ra.dest ≠ 0 → f.ra.policerValid = 0 → ∃ t, exec (.mcFifoHead m c7) s = .next t ∧
       frame t fid = some { f with phase := .middle, mcRow := mcRowOf s f.ra.dest,
                                   todo := (List.range 16).filter (fun n => mcWord (mcRowOf s f.ra.dest) n ≠ 0) } ∧
       (∀ k, k ≠ fid → frame t k = frame s k)) ∧
     (∀ j, isPipe j = true → f.phase = .middle → f.todo.contains j = true →
       exec (.mcPipelineStruck m c7 j) s = .next (mcTaken m fid j f (releaseFrameAt j f (count (cMiddle m 0x18) s)))) ∧
     (∀ j, isPipe j = true → f.phase ≠ .middle ∨ f.todo.contains j = false → exec (.mcPipelineStruck m c7 j) s = .next s)) ∧
   (∀ (j : Nat) (s : State), isPipe j = true →
     (inService s 37 = true → exec (.fabricStageTwo j) s = .next (acceptOne j (acceptOne j s))) ∧
     (inService s 37 = false ∨ pickMiddle s j = none → exec (.fabricStageTwo j) s = .next s))) ∧
  (∀ (j m c fid : Nat) (f : Frame) (s : State), j < 16 → pickMiddle s j = some (m, c, fid, false) → frame s fid = some f →
     512 ≤ (destOf f).2 →
     let t := acceptOne j s
     (tabGet [] s.fab.fifo (fifoKey m j c)).head? = some fid ∧
     tabGet [] t.fab.fifo (fifoKey m j c) = (tabGet [] s.fab.fifo (fifoKey m j c)).drop 1 ∧
     (∀ k, k ≠ fifoKey m j c → tabGet [] t.fab.fifo k = tabGet [] s.fab.fifo k) ∧
     tabGet [] t.fab.internal j = tabGet [] s.fab.internal j ++ [fid] ∧
     frame t fid = some { f with phase := .internal, tFabric := s.clk.cclk } ∧ (∀ k, k ≠ fid → frame t k = frame s k) ∧
     t.fab.stage1 = s.fab.stage1 ∧ t.tm = s.tm ∧ t.buf = s.buf) ∧
  ((∀ (j : Nat) (s : State), isPipe j = true →
     (tabGet [] s.fab.repl j = [] → exec (.mcReplication j) s = .next s) ∧
     (∀ fid rest f, tabGet [] s.fab.repl j = fid :: rest → frame s fid = some f →
       (∀ t, grantInternal 4128 7 s = (none, t) → exec (.mcReplication j) s = .next t) ∧
       (∀ h t, grantInternal 4128 7 s = (some h, t) → exec (.mcReplication j) s = .next (replicate j fid f h t)))) ∧
   (∀ (f : Frame) (j p : Nat), j < 16 → (p ∈ mcPorts f j ↔
     p / 32 = j ∧ (mcWord f.mcRow j).testBit (p % 32) = true ∧ (p ≠ f.port ∨ f.ra.hairpin = 1))))

/-! ### Traffic Manager (chapter 11) -/

/-- R408: a meter's buckets, and what a judgement does to them: red where the frame comes in red or the peak bucket is short, which
debits neither; else yellow where it comes in yellow or the committed bucket is short, which debits the peak bucket; else green,
which debits both; a bucket of an unlimited rate stays.
R153, R376, R401, R402, R412: a descriptor that passes every test of its queue is its last; one for a port that does not carry,
for a queue that is not in use, or that a test refuses, is discarded and counted; one that its share of the buffers refuses is a refusal of the governor's count too. Unicast descriptors, no
egress policer. -/
def Obligations.PolicingAndAdmission : Prop :=
  (∀ (r : Rates) (m : Meter) (colour b : Nat),
     let need : Int := (b * 2 ^ 20 : Nat)
     let x := judgement r m colour b
     (colour = 2 ∨ m.tp < need → x = (2, m)) ∧
     (colour ≠ 2 → need ≤ m.tp → colour = 1 ∨ m.tc < need →
       x.1 = 1 ∧ x.2.tc = m.tc ∧ x.2.tp = (if r.pir = 0xFFFFFFFF then m.tp else m.tp - need)) ∧
     (colour ≠ 2 → need ≤ m.tp → colour ≠ 1 → need ≤ m.tc →
       x.1 = 0 ∧ x.2.tc = (if r.cir = 0xFFFFFFFF then m.tc else m.tc - need) ∧
         x.2.tp = (if r.pir = 0xFFFFFFFF then m.tp else m.tp - need)) ∧
     (∀ now, (meterNow r (some m) now).tc ≤ ((r.cbs * 2 ^ 20 : Nat) : Int) ∧
       (meterNow r (some m) now).tp ≤ ((r.pbs * 2 ^ 20 : Nat) : Int))) ∧
  (∀ (fid p : Nat) (f : Frame) (s : State), frame s fid = some f → p < 512 → f.kind = .own →
     (rdCfg s f.epoch oTmPort p).testBit 31 = false →
     let u := putFrame fid { f with outPort := p } s
     let map := rdCfg s f.epoch (oQueueMap p)
     let q := 8 * p + fld map (3 * f.ra.cls) 3
     (linkCarries s p = false → admitQueue fid p s = discardCopy fid 0 (count (cPort p 0x50) u)) ∧
     (linkCarries s p = true → map.testBit (24 + fld map (3 * f.ra.cls) 3) = false →
       admitQueue fid p s = discardCopy fid 1 (count (cTmPort p 0x10) u)) ∧
     (linkCarries s p = true → map.testBit (24 + fld map (3 * f.ra.cls) 3) = true →
       (admitTest u q { f with outPort := p } = 1 → admitQueue fid p s = discardCopy fid 1 (count (cQueue q 0x10) u)) ∧
       (admitTest u q { f with outPort := p } = 2 → admitQueue fid p s =
         discardCopy fid 1 (count (cQueue q 0x10) { u with gov := { u.gov with refused := u.gov.refused + 1 } })) ∧
       (admitTest u q { f with outPort := p } = 0 → ∃ g, frame (admitQueue fid p s) fid = some g ∧ g.queue = q ∧
         g.phase = .queued ∧ g.bytes = f.bytes ∧ g.outPort = p ∧
         tmQueue (admitQueue fid p s) q = tmQueue s q ++ [fid] ∧
         (∀ k, k ≠ q → tmQueue (admitQueue fid p s) k = tmQueue s k) ∧
         (∀ k, k ≠ fid → frame (admitQueue fid p s) k = frame s k))))

/-- R414 to R417, R419, R420: a gate change judges the heads of its port's queues; a selection judges the heads of its ready ports
and hands on at most two; a selection takes the head of its queue, which no other queue loses, and the port holds it.
R140, R143, R153, R181, R387, R397: a port that transmits nothing starts its selection: the frame leaves behind its preamble, with
its FCS, counted for its queue; a port that does not carry, a drop of the egress routine, and its faults (a 25th instruction, a word
that cannot be read) discard it. At the end of a transmission the port is free, and its frame leaves the device. -/
def Obligations.TransmitOrderAndTransmission : Prop :=
  ((∀ (p : Nat) (s : State), isPort p = true → ∃ t, exec (.gateEntryChange p) s = .next t ∧
     t.tm.queues = s.tm.queues ∧ t.tm.selected = s.tm.selected ∧ t.dict = s.dict ∧ t.pip = s.pip ∧
     (∀ b fid f, b < 10 → (tmQueue s (queueOf p b)).head? = some fid → frame s fid = some f →
       gateOpens s (queueOf p b) f = false → fid ∈ t.tm.waited)) ∧
   (∀ (j : Nat) (s : State), isPipe j = true → (∀ p, p / 32 = j → linkCarries s p = true) → ∃ u,
     exec (.transmitSelection j) s = .next (selectOne j (selectOne j u)) ∧ u.tm.queues = s.tm.queues ∧
     u.tm.selected = s.tm.selected ∧ u.pip = s.pip ∧ u.dict = s.dict) ∧
   (∀ (j p q : Nat) (cands : List Nat) (rank fid : Nat) (f : Frame) (s : State), queueHead s q = some (fid, f) →
     let t := takeSelection j p q cands rank s
     tmQueue t q = (tmQueue s q).drop 1 ∧ (∀ k, k ≠ q → tmQueue t k = tmQueue s k) ∧ tabFind t.tm.selected p = some fid ∧
       frame t fid = some { f with tSelected := s.clk.cclk } ∧ (∀ k, k ≠ fid → frame t k = frame s k))) ∧
  (∀ (p fid : Nat) (f : Frame) (s : State), isPort p = true → frame s fid = some f →
     ((port s p).sending.isSome = true → ∀ e ecc, exec (.transmissionStart p e ecc) s = .next s) ∧
     ((port s p).sending = none → tabFind s.tm.selected p = none → ∀ e ecc,
       exec (.transmissionStart p e ecc) s = .next s) ∧
     ((port s p).sending = none → tabFind s.tm.selected p = some fid →
       let u := setTm { s.tm with selected := tabErase s.tm.selected p } s
       (linkCarries s p = false → ∀ e ecc,
         exec (.transmissionStart p e ecc) s = .next (discardCopy fid 0 (count (cPort p 0x50) u))) ∧
       (linkCarries s p = true →
         (∀ (e : EgressRun) ecc reason, (egressReads (pipeOf p) f.epoch e u).1 = some reason →
           exec (.transmissionStart p e ecc) s =
             .next (discardCopy fid 4 (egressFault (pipeOf p) reason (egressReads (pipeOf p) f.epoch e u).2))) ∧
         (∀ words, (∀ r ∈ words, r.2 = .clean ∧ storeFault s (pipeOf p) f.epoch 3 (r.1 % 2048) = false) →
           (24 < words.length → ∀ b ecc, exec (.transmissionStart p ⟨words, b⟩ ecc) s =
             .next (discardCopy fid 4 (count (cPipe (pipeOf p) 0x38) (count (cPipe (pipeOf p) 0x30) u)))) ∧
           (words.length ≤ 24 → ∀ ecc, exec (.transmissionStart p ⟨words, none⟩ ecc) s = .next (discardCopy fid 6 u)) ∧
           (words.length ≤ 24 → ∀ b, f.kind = .own → f.ra.tsAction = 0 → tapTakes s = false → ∃ t,
           exec (.transmissionStart p ⟨words, some b⟩ .clean) s = .next t ∧
           t.out = s.out ++ [.lane p (preamble ++ (b ++ fcsBytes b))] ∧ (port t p).sending = some fid ∧
           frame t fid = some { f with phase := .sending, txStamp := nowStamp s, txCclk := s.clk.cclk,
                                       txBytes := b ++ fcsBytes b } ∧
           ctr t (cQueue f.queue 0x00) = (ctr s (cQueue f.queue 0x00) + 1) % 2 ^ 64 ∧
           (∀ k, k ≠ fid → frame t k = frame s k) ∧ t.dict = s.dict)))) ∧
     ((port s p).sending = none → exec (.transmissionEnd p) s = .next s) ∧
     ((port s p).sending = some fid → exec (.transmissionEnd p) s = .next (loopNear p f.txBytes (endFrame p fid f s)) ∧
       (port (endFrame p fid f s) p).sending = none ∧ frame (endFrame p fid f s) fid = none))

/-- R383, R403, R424, R608: an internal delivery hands its pipeline's oldest descriptor to the owning block: at once where that needs
no buffer; a transport punt and a frame for the partner once their owner (4,131 or 4,130) holds a pool 6 buffer, which is released
behind it; it waits while the replay buffer has no room. A copy for capture joins the input, or is dropped and counted where the input
is full or the device is at low water.
R424 to R426: an entry goes to the slot of its index, which moves on modulo 2^32; a full ring drops it in mode 0 and gives up
its oldest in mode 1; a copy beyond the 400 M/s of R39, which is one entry in 125/32 CCLK, is dropped; a CAP_READ out of range completes with "out of range" and any other
becomes a capture copy operation with the segments of its chain; a dispatched copy moves the read index on by what it copies. -/
def Obligations.InternalDeliveryAndCapture : Prop :=
  (∀ (n : Nat) (s : State), isPipe n = true →
     (tabGet [] s.fab.internal n = [] → exec (.internalDelivery n) s = .next s) ∧
     (∀ fid rest f, tabGet [] s.fab.internal n = fid :: rest → frame s fid = some f →
       let go (t : State) : State := handOver fid f (setFab { t.fab with internal := tabPut [] t.fab.internal n rest } t)
       (pairTakes s (destOf f).2 f = false → exec (.internalDelivery n) s = .next s) ∧
       (pairTakes s (destOf f).2 f = true →
         (handOverOwner s (destOf f).2 = none → exec (.internalDelivery n) s = .next (go s)) ∧
         (∀ o t, handOverOwner s (destOf f).2 = some o → grantInternal o 6 s = (none, t) →
           exec (.internalDelivery n) s = .next t) ∧
         (∀ o h t, handOverOwner s (destOf f).2 = some o → grantInternal o 6 s = (some h, t) →
           exec (.internalDelivery n) s = .next (releaseBuffer h o (go t)))) ∧
       ((destOf f).2 = 515 →
         let u := countInternal 515 f (setFab { s.fab with internal := tabPut [] s.fab.internal n rest } s)
         (lowLedger s = false → s.cap.input.length < 4096 →
           exec (.internalDelivery n) s = .next { u with cap := { s.cap with input := s.cap.input ++ [fid] } }) ∧
         (lowLedger s = true ∨ 4096 ≤ s.cap.input.length →
           exec (.internalDelivery n) s = .next (leave fid (count (cTm 0x10) u)))) ∧
       ((destOf f).2 = 512 → rd s oPuntRoute = 0 →
         let u := countInternal 512 f (setFab { s.fab with internal := tabPut [] s.fab.internal n rest } s)
         exec (.internalDelivery n) s = .next (leave fid (sampleLeave fid f 0 false (punt f u)))))) ∧
  ((∀ (f : Frame) (s : State),
     let w := rd s oCapWriteIndex
     (ringHeld s = ringSize → rd s oCaptureMode = 0 → ringWrite f s = count (cTm 0x18) s) ∧
     (ringHeld s ≠ ringSize → tabFind (ringWrite f s).cap.ring (w % ringSize) = some (captureEntry s f w) ∧
       rd (ringWrite f s) oCapWriteIndex = (w + 1) % 2 ^ 32 ∧ rd (ringWrite f s) oCapReadIndex = rd s oCapReadIndex ∧
       (∀ k, k ≠ w % ringSize → tabFind (ringWrite f s).cap.ring k = tabFind s.cap.ring k)) ∧
     (ringHeld s = ringSize → rd s oCaptureMode ≠ 0 → rd (ringWrite f s) oCapWriteIndex = (w + 1) % 2 ^ 32 ∧
       rd (ringWrite f s) oCapReadIndex = (rd s oCapReadIndex + 1) % 2 ^ 32)) ∧
   (∀ s : State, s.cap.input = [] → exec .captureCompose s = .next s) ∧
   (∀ (fid : Nat) (rest : List Nat) (f : Frame) (s : State), s.cap.input = fid :: rest → frame s fid = some f →
     (32 * s.clk.cclk < s.cap.next → exec .captureCompose s = .next (leave fid (count (cTm 0x10) s))) ∧
     (s.cap.next ≤ 32 * s.clk.cclk →
       (∀ t, grantInternal 4132 1 s = (none, t) → exec .captureCompose s = .next t) ∧
       (∀ h t, grantInternal 4132 1 s = (some h, t) →
         exec .captureCompose s =
           .next (releaseBuffer h 4132 (leave fid (sampleLeave fid f 0 false (wroteRing (ringWrite f t)))))))) ∧
   (∀ s : State, (wroteRing s).cap.next = max s.cap.next (32 * s.clk.cclk) + 125) ∧
   (∀ (c : SqCmd) (n : Nat) (s : State), servesCommand c 1 s → partnerFollows s = false →
     (n = 0 ∨ 4096 < n → exec (.capRead c n) s = .next (complete c 0x0B 0 0 s)) ∧
     (n ≠ 0 → n ≤ 4096 → exec (.capRead c n) s = .next (issue 9 18 (capArgs c n) (linksBody c) s))) ∧
   (∀ s : State, (nextOp s 18 9 (fun _ => true) = none → exec .captureCopy s = .next s) ∧
     (∀ o, nextOp s 18 9 (fun _ => true) = some o → exec .captureCopy s = .next (captureCopy o (dispatched o s)))) ∧
   (∀ (o : DwOp) (s : State), o.body = [] → rd (captureCopy o s) oCapReadIndex =
     (rd s oCapReadIndex + copyCount s (nth 0 o.args 5)) % 2 ^ 32))

/-! ### Host Interface (chapter 13) -/

/-- R455, R468, R469, R473, R485: a doorbell of a running SQ, or a poll of one that polls, begins one read of its index block, or
asks for one more, which follows it; a push-window doorbell takes the units up to a valid TAIL from their places in the window,
and with any other value is as a doorbell of an SQ without a window; a read that ends sets TAIL, or HEAD of a CQ, or
stalls the SQ whose block cannot be read.
R457, R470, R471, R472: the queue whose turn it is, with room in its CQ and a free command buffer, has its one-unit entry
started: a command in progress with its completion reserved, and HEAD one unit on; an entry with FENCE set waits while a command of
its queue is in progress, and its queue is passed over; a queue whose turn has not come fetches nothing. -/
def Obligations.DoorbellsAndFetching : Prop :=
  (∀ (q : Nat) (s : State), isQueue q = true →
     (∀ x, sq s q = some x → x.state = 1 → busAwake s = true →
       (x.reading = false → ∃ t, exec (.sqDoorbell q) s = .next t ∧ sq t q = some { x with reading := true } ∧
         (∀ k, k ≠ q → sq t k = sq s k) ∧ t.hst.cqs = s.hst.cqs ∧ t.hst.cmds = s.hst.cmds ∧
         ctr t (cHost 0x00) = (ctr s (cHost 0x00) + 1) % 2 ^ 64 ∧ ctr t (cHost 0x08) = (ctr s (cHost 0x08) + 1) % 2 ^ 64) ∧
       (x.reading = true → exec (.sqDoorbell q) s = .next (setSq q { x with again := true } (count (cHost 0x00) s))) ∧
       (x.poll = 0 → exec (.sqPoll q) s = .next s) ∧
       (x.poll ≠ 0 → x.reading = true → exec (.sqPoll q) s = .next (setSq q { x with again := true } s)) ∧
       (x.poll ≠ 0 → x.reading = false → ∃ t, exec (.sqPoll q) s = .next t ∧ sq t q = some { x with reading := true })) ∧
     (∀ x, cq s q = some x → x.state = 1 → busAwake s = true → x.reading = false → ∃ t,
       exec (.cqDoorbell q) s = .next t ∧ cq t q = some { x with reading := true } ∧ t.hst.sqs = s.hst.sqs) ∧
     (busAwake s = false → exec (.sqDoorbell q) s = .next (count (cHost 0x00) s) ∧
       exec (.cqDoorbell q) s = .next (count (cHost 0x00) s)) ∧
     (∀ x tail w, sq s q = some x → x.state = 1 → x.push ≠ 0xFFFF → later 32 tail x.head = true → unitsTo x.head tail ≤ 128 →
       ∃ t, exec (.pushWindowDoorbell q tail w) s = .next t ∧ sq t q = some { x with
         tail := tail % 2 ^ 32, pushed := windowUnits w x.head (unitsTo x.head tail) } ∧ (∀ k, k ≠ q → sq t k = sq s k) ∧
         t.out = s.out) ∧
     (∀ x tail w, sq s q = some x → later 32 tail x.head = false ∨ 128 < unitsTo x.head tail →
       exec (.pushWindowDoorbell q tail w) s = exec (.sqDoorbell q) s) ∧
     (∀ w a n i, i < n → w.length = 4096 → slice (windowUnits w a n) (32 * i) 32 = slice w (32 * ((a + i) % 128)) 32) ∧
     (∀ x, sq s q = some x → x.state = 1 → x.reading = true → x.again = false →
       (∀ b, indexValid x.head (leAt b 0 4) x.units = true → exec (.indexReadComplete q false (.data b)) s =
         .next (setSq q { x with reading := false, again := false, tail := leAt b 0 4 }
           (setSq q { x with reading := false, again := false } s))) ∧
       (∃ t, exec (.indexReadComplete q false .fault) s = .next t ∧
         sq t q = some { x with state := 2, reading := false, again := false } ∧
         (rd t oEventPending (evWqStall / 32)).testBit (evWqStall % 32) = true)) ∧
     (∀ x b, sq s q = some x → x.state = 1 → x.reading = true → x.again = true → busAwake s = true →
       indexValid x.head (leAt b 0 4) x.units = true → ∃ t, exec (.indexReadComplete q false (.data b)) s = .next t ∧
         sq t q = some { x with reading := true, again := false, tail := leAt b 0 4 }) ∧
     (∀ x b, cq s q = some x → x.state = 1 → x.reading = true → x.again = false →
       indexValid (leAt b 0 4) x.tail x.units = true → ∃ t, exec (.indexReadComplete q true (.data b)) s = .next t ∧
         cq t q = some { x with reading := false, again := false, head := leAt b 0 4 } ∧ t.hst.sqs = s.hst.sqs)) ∧
  ((∀ (q : Nat) (first rest : Dma) (s : State), isQueue q = true →
     (nextSq s ≠ some q ∨ busAwake s = false ∨ 1024 ≤ s.hst.cmds.length ∨ 256 ≤ s.eng.queue.length →
       exec (.entryFetch q first rest) s = .next s)) ∧
   (∀ (q n h : Nat) (e : Bytes) (rest : Dma) (x : Sq) (y : Cq) (s u : State), isQueue q = true → nextSq s = some q →
     busAwake s = true → s.hst.cmds.length < 1024 → s.eng.queue.length < 256 → sq s q = some x → cq s x.cq = some y →
     x.pushed = [] → 0 < x.units → e.length = 32 → leAt e 2 1 = 1 → payloadBytes (leAt e 0 1) = some n → entryLong e n = true →
     entryReservedSet e = false → 1 ≤ unitsTo x.head x.tail → (leAt e 1 1).testBit 2 = false →
     roomFor y (completionUnits (leAt e 0 1)) = true → grantInternal 4129 4 (wakeLink s) = (some h, u) →
     (∀ d, rest ≠ .data d) →
     ∃ t, exec (.entryFetch q (.data e) rest) s = .next t ∧
       t.hst.cmds = s.hst.cmds ++ [⟨q, leAt e 4 4, leAt e 0 1, false, (leAt e 1 1).testBit 1, some h, completionUnits (leAt e 0 1)⟩] ∧
       sq t q = some { x with head := (x.head + 1) % 2 ^ 32, needs := 1, fenced := false } ∧ (∀ k, k ≠ q → sq t k = sq s k) ∧
       cq t x.cq = some { y with reserved := y.reserved + completionUnits (leAt e 0 1) } ∧
       (∀ k, k ≠ x.cq → cq t k = cq s k) ∧ t.hst.lastSq = q) ∧
   (∀ (q : Nat) (e : Bytes) (rest : Dma) (x : Sq) (s : State), isQueue q = true → nextSq s = some q → busAwake s = true →
     s.hst.cmds.length < 1024 → s.eng.queue.length < 256 → sq s q = some x → x.pushed = [] → e.length = 32 →
     (leAt e 1 1).testBit 2 = true → commandsLeft s q = true → ∃ t, exec (.entryFetch q (.data e) rest) s = .next t ∧
       sq t q = some { x with needs := completionUnits (leAt e 0 1), fenced := true } ∧ t.hst.cmds = s.hst.cmds ∧
       sqReady t q = false))

/-- R462 to R467: on SQ 0, a queue is created with its fields, running, and HEAD or TAIL 0 written to its index block, or the first
failing check completes the command and nothing changes; SQ 0 is not deleted; a CQ that an SQ uses is not deleted; a deleted queue
is gone; MODIFY_CQ changes the moderation of a CQ; RESTART sets a queue running again, where its block is valid, and fails while the
function may not read host memory. A write to host memory that it may not make is held until it may (log entry 131).
R461, R476, R480: a command of SQ 0, or of a receive queue, that these queues do not serve completes with "wrong queue"; an
admin command of another queue too; one of a queue below its lowest level with "access denied"; one of a unit that follows likewise;
and one whose chain could not be read, or reached a 65th link, with the error of Table 13-8. -/
def Obligations.QueueCommands : Prop :=
  (∀ (c : SqCmd) (z : Sq) (s : State), c.wf = true → c.sq = 0 → sq s 0 = some z →
     (∀ a, let v := createSqCode s a
       (v.1 ≠ 0 → exec (.createSq c a) s = .next (complete c v.1 v.2 0 s)) ∧
       (v.1 = 0 → exec (.createSq c a) s = .next (completeOk c (newSq a s)) ∧ sq (newSq a s) a.qid = some
           { level := a.level, kind := a.kind, cq := a.cqid, push := a.push, ring := a.ring, units := a.ringSize / 32,
             index := a.indexAddr, poll := a.poll } ∧ (∀ k, k ≠ a.qid → sq (newSq a s) k = sq s k) ∧
           (busAwake s = true → (newSq a s).out = (emit (.hostWrite (a.indexAddr + 8) (leBytes 4 0)) s).out) ∧
           (busAwake s = false → (newSq a s).out = s.out ∧
             (newSq a s).hst.heldWrites = s.hst.heldWrites ++ [(a.indexAddr + 8, leBytes 4 0)]) ∧
           sq s a.qid = none ∧ (cq s a.cqid).isSome = true ∧ a.level ≤ s.fuse.pcieCeiling)) ∧
     (∀ a, let v := createCqCode s a
       (v.1 ≠ 0 → exec (.createCq c a) s = .next (complete c v.1 v.2 0 s)) ∧
       (v.1 = 0 → exec (.createCq c a) s = .next (completeOk c (newCq a s)) ∧ cq (newCq a s) a.qid = some
           { vector := a.vector, modCount := a.modCount, hold := a.flags % 2 = 1, ring := a.ring, units := a.ringSize / 32,
             modTimer := a.modTimer, index := a.indexAddr, wakeCeiling := a.wakeCeiling } ∧
           (busAwake s = true → (newCq a s).out = (emit (.hostWrite (a.indexAddr + 8) (leBytes 4 0)) s).out) ∧
           (∀ k, k ≠ a.qid → cq (newCq a s) k = cq s k) ∧ cq s a.qid = none)) ∧
     exec (.deleteSq c 0) s = .next (complete c 0x89 0x60 0 s) ∧
     (∀ q, q ≠ 0 → sq s q = none → exec (.deleteSq c q) s = .next (complete c 0x84 0x60 0 s)) ∧
     (∀ q x, q ≠ 0 → sq s q = some x → x.deleting = none → commandsLeft s q = false →
       exec (.deleteSq c q) s =
         .next (endCommand c 0 0 0 0 [] (removeSq q (setSq q { x with state := 3, deleting := some c } s)))) ∧
     (∀ q, cq s q = none → exec (.deleteCq c q) s = .next (complete c 0x84 0x60 0 s)) ∧
     (∀ q x, cq s q = some x → (s.hst.sqs.any (fun e => e.2.cq = q) = true →
         exec (.deleteCq c q) s = .next (complete c 0x16 0 0 s)) ∧
       (s.hst.sqs.any (fun e => e.2.cq = q) = false →
         exec (.deleteCq c q) s = .next (completeOk c (removeCq q s)) ∧ cq (removeCq q s) q = none)) ∧
     (∀ a x, cq s a.qid = some x → a.ringSize = 0 → a.indexAddr = 0 → cqFieldsBad a = false →
       exec (.modifyCq c a) s = .next (completeOk c (setCq a.qid { x with
         vector := a.vector, modCount := a.modCount, hold := a.flags % 2 = 1, modTimer := a.modTimer, wakeCeiling := a.wakeCeiling } s))) ∧
     (busAwake s = false → ∀ q x b, sq s q = some x → x.state = 2 →
       exec (.restart c q false b) s = .next (complete c 0x81 0x60 0 s)) ∧
     (∀ q x b, busAwake s = true → sq s q = some x → x.state ≠ 3 → indexValid x.head (leAt b 0 4) x.units = true →
       exec (.restart c q false (.data b)) s =
         .next (completeOk c (setSq q { x with state := 1, tail := leAt b 0 4, pushed := [], needs := 1, fenced := false }
           (count (cHost 0x08) s)))) ∧
     (∀ q x b, busAwake s = true → cq s q = some x → indexValid (leAt b 0 4) x.tail x.units = true →
       exec (.restart c q true (.data b)) s =
         .next (completeOk c (resumeCq q (setCq q { x with state := 1, head := leAt b 0 4 } (count (cHost 0x08) s)))))) ∧
  ((∀ (c : SqCmd) (x : Sq) (s : State), c.wf = true → sq s c.sq = some x →
     ∀ (ta : TblArgs) (fa : FlowArgs) (d e : Dma) (ecc : Ecc) (cold : List (Nat × Ecc)) (n m : Nat) (lowest : Nat) (i : Instr),
     (lowest, i) ∈ [(0, Instr.tblRead c ta ecc), (1, .tblInsert c ta), (1, .tblDelete c ta), (0, .flowRead c fa ecc),
       (0, .flowWalk c fa cold), (1, .flowInsert c fa d e), (1, .flowUpdate c fa d), (1, .flowDelete c fa), (1, .flowPin c fa),
       (1, .flowUnpin c fa), (1, .capRead c n), (1, .inject c n m d)] →
     (c.sq = 0 ∨ x.kind = 1 → exec i s = .next (complete c 0x89 0x60 0 s)) ∧
     (c.sq ≠ 0 → x.kind ≠ 1 → x.level < lowest → exec i s = .next (complete c 0x07 0 0 s)) ∧
     (c.sq ≠ 0 → x.kind ≠ 1 → lowest ≤ x.level →
       (follows s = true → exec i s = .next (complete c 0x07 0 0 s)) ∧
       (follows s = false → c.links = .fault → exec i s = .next (complete c 0x81 0x60 0 s)) ∧
       (follows s = false → c.links = .tooLong → exec i s = .next (complete c 0x80 0x60 0 s)))) ∧
   (∀ (c : SqCmd) (x : Sq) (s : State), c.wf = true → c.sq ≠ 0 → sq s c.sq = some x →
     ∀ (a : SqArgs) (b : CqArgs) (q : Nat) (isCq : Bool) (d : Dma) (i : Instr),
     i ∈ [Instr.createSq c a, .deleteSq c q, .createCq c b, .deleteCq c q, .modifyCq c b, .restart c q isCq d] →
       exec i s = .next (complete c 0x89 0x60 0 s)) ∧
   (∀ (c : SqCmd) (x : Sq) (s : State), c.wf = true → sq s c.sq = some x → exec (.nop c) s = .next (completeOk c s)))

/-- R450, R459, R460, R599: an accepted ADMIN_ENABLE of 1 creates SQ 0 at the PCIe ceiling and CQ 0, and of 0 deletes every queue;
a Function Level Reset, and PERST_N low, delete every queue, with the locks of its commands but for those that are applied at a live
point, and return the objects of area 60 to their defaults, and leave every other object as it was (but for what a buffer that was not held would raise), and forwarding too. -/
def Obligations.AdminEnableAndFunctionReset : Prop :=
  (∀ (o : Origin) (level v : Nat) (s : State), (Instr.adminEnable o level v).wf = true →
    acceptsWrite s o (oneWrite level oAdminEnable 0 1 v) →
    exec (.adminEnable o level v) s =
      .next (answered (counted o s) o (oneWrite level oAdminEnable 0 1 v) (writeAdminEnable v (counted o s)))) ∧
  (∀ s : State, (rd s oAdminEnable ≠ 1 → ∃ x y, sq (writeAdminEnable 1 s) 0 = some x ∧ x.level = s.fuse.pcieCeiling ∧
      x.state = 1 ∧ x.ring = rd s oAdminSqRing ∧ x.units = rd s oAdminSqSize / 32 ∧ cq (writeAdminEnable 1 s) 0 = some y ∧
      y.state = 1 ∧ y.ring = rd s oAdminCqRing ∧ y.vector = rd s oAdminVector) ∧
    (writeAdminEnable 0 s).hst.sqs = [] ∧ (writeAdminEnable 0 s).hst.cqs = [] ∧ (writeAdminEnable 0 s).hst.cmds = [] ∧
    rd (writeAdminEnable 0 s) oAdminEnable = 0) ∧
  (∀ (s : State) (i : Instr), i ∈ [Instr.functionLevelReset, .perstN false] → ∃ t, exec i s = .next t ∧
    t.hst.sqs = [] ∧ t.hst.cqs = [] ∧ t.hst.cmds = [] ∧ t.hst.unmasked = [] ∧ rd t oAdminEnable = 0 ∧ t.eng.mb = {} ∧
    (∀ set obj row, obj / 2 ^ 24 ≠ 0x60 → obj ∉ [oEventLog, oEventPending, oFreeFaultLast] → obj < 2 ^ 32 → row < 2 ^ 32 →
      rdOpt t set obj row = rdOpt s set obj row) ∧
    t.lt.cmds = (s.lt.cmds.filter (fun x => s.pair.due.any (fun d => d.cmd = some x.cmd))).map orphanTbl ∧
    t.lt.locks = s.lt.locks.filter (fun l =>
      !l.hold && t.lt.cmds.any (fun x => x.own && x.table = l.table && x.key = l.key)) ∧ t.fab = s.fab ∧ t.tm = s.tm ∧ t.led.slots = s.led.slots ∧
    t.pip.pipes = s.pip.pipes ∧ t.fuse = s.fuse) ∧
  (∀ s : State, exec (.perstN true) s = .next (setHst { s.hst with perst := false } s))

/-- R480, R482: an INJECT whose frame cannot be read, or is out of range, completes with its error; any other puts the frame, with
its FCS, at the end of its pipeline's injected frames under port 512; an RX_POST on a receive queue posts its buffer as the last,
or completes with its error.
R486, R487, R489, R491 to R493: a signal that has fallen due by time takes the pending completions of a running queue, and sets
the pending bit of a masked vector; an unmasked vector is sent where it was pending, and its bit goes; L1, or a substate of it, is
entered from L0 and left with what is held written; D3hot, and Bus Master Enable 0, stop the function's access to host memory until D0 returns. -/
def Obligations.InjectionAndSignals : Prop :=
  ((∀ (c : SqCmd) (n cls : Nat) (d : Dma) (s : State), servesCommand c 1 s →
     (d = .fault → exec (.inject c n cls d) s = .next (complete c 0x81 0x60 0 s)) ∧
     (d = .tooLong → exec (.inject c n cls d) s = .next (complete c 0x80 0x60 0 s)) ∧
     (∀ b, d = .data b → 16 ≤ n ∨ 8 ≤ cls ∨ b.length < 60 ∨ 9724 < b.length →
       exec (.inject c n cls d) s = .next (complete c 0x0B 0 0 s)) ∧
     (∀ b, d = .data b → n < 16 → cls < 8 → 60 ≤ b.length → b.length ≤ 9724 → partnerFollows s = false → ∃ t,
       exec (.inject c n cls d) s = .next t ∧ frame t s.pip.nextFid = some
         { port := 512, pipe := n, bytes := b ++ fcsBytes b, stamp := nowStamp s, rxCclk := s.clk.cclk, cls := cls,
           owner := 4096 + cls, inject := some c } ∧
       (pipe t n).inject = (pipe s n).inject ++ [s.pip.nextFid] ∧ (∀ k, k ≠ s.pip.nextFid → frame t k = frame s k) ∧
       ctr t (cHost 0x70) = (ctr s (cHost 0x70) + 1) % 2 ^ 64 ∧ { t with pip := s.pip, ctr := s.ctr } = s)) ∧
   (∀ (c : SqCmd) (x : Sq) (n : Nat) (s : State), c.wf = true → sq s c.sq = some x →
     (x.kind ≠ 1 → exec (.rxPost c n) s = .next (complete c 0x89 0x60 0 s)) ∧
     (x.kind = 1 → x.level < 1 → exec (.rxPost c n) s = .next (complete c 0x07 0 0 s)) ∧
     (x.kind = 1 → 1 ≤ x.level → n < 256 ∨ 16384 < n → exec (.rxPost c n) s = .next (complete c 0x0B 0 0 s)) ∧
     (x.kind = 1 → 1 ≤ x.level → 256 ≤ n → n ≤ 16384 → x.posted.length < x.units → x.deleting = none →
       cmdOf s c.sq c.tag = none → ∃ t, exec (.rxPost c n) s = .next t ∧
         sq t c.sq = some { x with posted := x.posted ++ [⟨c.tag, c.addr, n, 0⟩] } ∧ (∀ k, k ≠ c.sq → sq t k = sq s k)))) ∧
  ((∀ (q : Nat) (c : Bool) (s : State), isQueue q = true →
     (∀ x, cq s q = some x → x.state = 1 → x.pending ≠ 0 → c = true ∨ x.modTimer ≠ 0 →
       exec (.interruptSignal q c) s = .next (signalCq q c s) ∧ (∃ y, cq (signalCq q c s) q = some y ∧ y.pending = 0) ∧
       (vectorMasked s x.vector = true → x.vector ∈ (signalCq q c s).hst.msixPending)) ∧
     (cq s q = none → exec (.interruptSignal q c) s = .next s) ∧
     (∀ x, cq s q = some x → x.state ≠ 1 ∨ x.pending = 0 → exec (.interruptSignal q c) s = .next s)) ∧
   (∀ (v : Nat) (s : State), v < 2048 →
     (s.hst.msixPending.contains v = false → ∃ t, exec (.msixUnmask v) s = .next t ∧ v ∈ t.hst.unmasked ∧ t.out = s.out ∧
       t.hst.msixPending = s.hst.msixPending) ∧
     (s.hst.msixPending.contains v = true → s.hst.functionMask = false → busAwake s = true → ∃ t,
       exec (.msixUnmask v) s = .next t ∧ v ∉ t.hst.msixPending ∧
       (tapTakes s = false → Output.msix v ∈ t.out.drop s.out.length))) ∧
   (∀ s : State, (∀ k, 1 ≤ k → k ≤ 3 →
       (s.hst.link = 0 → s.hst.absent = false → s.hst.perst = false → s.hst.lastTlp + 31250 ≤ s.clk.cclk →
         exec (.l1Entry k) s = .next (setHst { s.hst with link := k } s)) ∧
       (s.hst.link ≠ 0 ∨ s.clk.cclk < s.hst.lastTlp + 31250 → exec (.l1Entry k) s = .next s)) ∧
     (∀ i, i ∈ [Instr.l1Exit, .linkLeavesL1] → ∃ t, exec i s = .next t ∧ t.hst.link = 0 ∧
       (busAwake s = true → ∀ q x, cq t q = some x → x.state = 1 → x.held = [])) ∧
     (∀ b, ∃ t, exec (.d3hotEntry false b) s = .next t ∧ busAwake t = false ∧ t.hst.cqs = s.hst.cqs ∧ t.hst.pmeEn = b) ∧
     (∀ b, ∃ t, exec (.d3hotEntry true b) s = .next t ∧ busAwake t = false ∧ t.hst.cqs = s.hst.cqs ∧ t.hst.pmeEn = b) ∧
     (∃ t, exec .d0Return s = .next t ∧ t.hst.d3hot = false ∧ t.hst.busMaster = true ∧
       (s.hst.absent = false → s.hst.perst = false → ∀ q x, cq t q = some x → x.state = 1 → x.held = [] ∧ x.due = false))))

/-! ### Time Unit (chapter 14) -/

/-- R498 to R500, R497: an accepted write of the counter's objects acts at its live point: TIME_SET and TIME_STEP fall due at
the next tick, TIME_SLEW replaces what remains of a slew, TIME_LATCH captures the counter, and TIME_INCREMENT is held.
R515 to R519: while PPS_OUT_ENABLE is 1 the pin rises at an edge, and it falls at the end of its pulse; an edge of 1PPS_IN
within 100 ms of the previous accepted one is only counted, and one that stands is latched and counted, and loads the counter
where it is armed. -/
def Obligations.TimeWritesAndPins : Prop :=
  (∀ (o : Origin) (level : Nat) (s : State),
     (∀ sec ns, (Instr.timeSet o level sec ns).wf = true →
       acceptsWrite s o (oneWrite level oTimeSet 0 10 (sec * 2 ^ 32 + ns)) → ∃ t,
       exec (.timeSet o level sec ns) s =
         .next (answered (counted o s) o (oneWrite level oTimeSet 0 10 (sec * 2 ^ 32 + ns)) t) ∧
       t.tun = { s.tun with setDue := some (sec * 1000000000 + ns), stepDue := none }) ∧
     (∀ ns, (Instr.timeStep o level ns).wf = true → acceptsWrite s o (oneWrite level oTimeStep 0 8 (ofSigned 64 ns)) → ∃ t,
       exec (.timeStep o level ns) s = .next (answered (counted o s) o (oneWrite level oTimeStep 0 8 (ofSigned 64 ns)) t) ∧
       t.tun = { s.tun with stepDue := some (s.tun.stepDue.getD 0 + ns) }) ∧
     (∀ ns, (Instr.timeSlew o level ns).wf = true → acceptsWrite s o (oneWrite level oTimeSlew 0 4 (ofSigned 32 ns)) → ∃ t,
       exec (.timeSlew o level ns) s = .next (answered (counted o s) o (oneWrite level oTimeSlew 0 4 (ofSigned 32 ns)) t) ∧
       t.tun = { s.tun with slew := ns * 2 ^ 32 }) ∧
     ((Instr.timeLatch o level 1).wf = true → acceptsWrite s o (oneWrite level oTimeLatch 0 1 1) → ∃ t,
       exec (.timeLatch o level 1) s = .next (answered (counted o s) o (oneWrite level oTimeLatch 0 1 1) t) ∧
       rd t oTimeLatched = time80 (stampOf s.tun.ptp) ∧ rd t oTimeLatchedFrac = (stampOf s.tun.ptp).frac ∧
       rd t oTimeLatchedCclk = s.clk.cclk - s.clk.cclk % 2 ∧ t.tun = s.tun) ∧
     ((Instr.timeLatch o level 0).wf = true → acceptsWrite s o (oneWrite level oTimeLatch 0 1 0) →
       exec (.timeLatch o level 0) s =
         .next (answered (counted o s) o (oneWrite level oTimeLatch 0 1 0) (wr oTimeLatch 0 (counted o s)))) ∧
     (∀ v, (Instr.timeIncrement o level v).wf = true → acceptsWrite s o (oneWrite level oTimeIncrement 0 8 v) → ∃ t,
       exec (.timeIncrement o level v) s = .next (answered (counted o s) o (oneWrite level oTimeIncrement 0 8 v) t) ∧
       timeIncrement t = v ∧ t.tun = s.tun)) ∧
  (∀ s : State,
     (rd s oPpsOutEnable = 1 → exec .ppsOutEdge s = .next { s with tun := { s.tun with ppsOut := true } }) ∧
     (rd s oPpsOutEnable ≠ 1 → exec .ppsOutEdge s = .next s) ∧
     exec .ppsOutFall s = .next { s with tun := { s.tun with ppsOut := false } } ∧
     (rd s oPpsInEnable = 1 → ppsGlitch s = true → exec .ppsIn s = .next (count (cTime 0x10) s)) ∧
     (rd s oPpsInEnable = 1 → ppsGlitch s = false → ∃ u,
       exec .ppsIn s = .next (ppsLoad (raise evPpsIn ((stampOf s.tun.ptp).sec % 2 ^ 32) (count (cTime 0x08) u))) ∧
       rd u oPpsInTime = time80 (stampOf s.tun.ptp) ∧ rd u oPpsInFrac = (stampOf s.tun.ptp).frac ∧
       rd u oPpsInCount = (rd s oPpsInCount + 1) % 2 ^ 32 ∧ u.tun = { s.tun with ppsAt := s.clk.cclk + 1 }) ∧
     (synceState s = 3 → rd s oSynceState ≠ 3 → exec .synceLoss s =
       .next (raise evSynceLoss (rd s oSynceSource) (count (cTime 0x18) (wr oSynceState 3 s)))) ∧
     (synceState s = 3 → rd s oSynceState = 3 → exec .synceLoss s = .next (wr oSynceState 3 s)))

/-- R520 to R522, R524: CAL_SET waits for the next crystal cycle, which loads the calendar clock and makes it valid; every other
crystal cycle counts one 32,768th of a second; a written CAL_SYNC waits for the next whole second of
PTP time, which is loaded with no sub-second count; a stopped crystal or a low VBAT makes the clock invalid and is announced at
the next start-up. -/
def Obligations.CalendarClock : Prop :=
  (∀ (o : Origin) (level sec ns : Nat) (s : State), (Instr.calSet o level sec ns).wf = true →
    acceptsWrite s o (oneWrite level oCalSet 0 10 (sec * 2 ^ 32 + ns)) → ∃ t,
    exec (.calSet o level sec ns) s = .next (answered (counted o s) o (oneWrite level oCalSet 0 10 (sec * 2 ^ 32 + ns)) t) ∧
    t.cal = { s.cal with load := some (sec, ns * 32768 / 1000000000) } ∧ t.tun = s.tun) ∧
  (∀ s : State, let p := s.cal.part + (32768 * (10000000 + toSigned 32 (rd s oCalTrim))).toNat
    (p < crystalParts → calTick s = { s with cal := { s.cal with part := p } }) ∧
    (crystalParts ≤ p → ∀ sec sub, s.cal.load = some (sec, sub) → (calTick s).cal =
      { s.cal with part := p - crystalParts, seconds := sec, sub := sub, valid := true, load := none }) ∧
    (crystalParts ≤ p → s.cal.load = none → s.cal.valid = true ∨ s.cal.stopped = false → s.cal.sub < 32768 →
      (calTick s).cal = { s.cal with
        part := p - crystalParts, sub := (s.cal.sub + 1) % 32768,
        seconds := if s.cal.sub = 32767 then (s.cal.seconds + 1) % 2 ^ 48 else s.cal.seconds })) ∧
  (∀ (o : Origin) (level : Nat) (s : State), (Instr.calSync o level 1).wf = true →
    acceptsWrite s o (oneWrite level oCalSync 0 1 1) → ∃ t,
    exec (.calSync o level 1) s = .next (answered (counted o s) o (oneWrite level oCalSync 0 1 1) t) ∧
    t.tun = { s.tun with calSync := true } ∧ t.cal = s.cal) ∧
  (∀ s : State, s.tun.calSync = true → exec .calSyncLoad s =
    .next { s with tun := { s.tun with calSync := false },
                   cal := { s.cal with seconds := (nowStamp s).sec % 2 ^ 48, sub := 0, part := 0, valid := true,
                                       load := none } }) ∧
  (∀ s : State, ∃ t, exec .crystalStop s = .next t ∧ calState t % 2 = 0 ∧ (calState t).testBit 1 = true ∧
    t.cal.seconds = s.cal.seconds ∧ t.cal.invalidDue = true ∧ { t with cal := s.cal } = s) ∧
  (∀ s : State, ∃ t, exec .vbatLow s = .next t ∧ calState t % 2 = 0 ∧ (calState t).testBit 2 = true ∧
    t.cal.seconds = s.cal.seconds ∧ t.cal.invalidDue = true ∧ { t with cal := s.cal } = s)

/-! ### Pair redundancy (chapter 15) -/

/-- R534 to R538, R557, R558: a claiming unit that samples its own byte is active and sets HOLD; one that samples another byte is
not active, and claims without HOLD or not at all; an active then is standby; an unsynced unit claims after a silent bus where UNSYNCED_CLAIM is 1; a privileged fault, and a failed
sounding test of a standby, drive 0x00 and take role 5; a yielding active drives 0x00 and takes role 3; a unit without a pair does
none of these. -/
def Obligations.ClaimBus : Prop :=
  (∀ (b : Nat) (s : State), isByte b = true → (role s = 0 → exec (.claimDecision b) s = .next s) ∧
    (role s ≠ 0 → s.pair.claimVld = true → s.pair.claimOut = b → b ≠ 0 → ∃ t, exec (.claimDecision b) s = .next t ∧
      role t = 4 ∧ t.pair.claimVld = true ∧ t.pair.claimOut = 0x80 + rd s oPairClaim ∧ t.pair.claimIn = b) ∧
    (role s = 4 → s.pair.claimVld = true → s.pair.claimOut ≠ 0 → s.pair.claimOut ≠ b → ∃ t,
      exec (.claimDecision b) s = .next t ∧ role t = 3 ∧ t.pair.claimOut = rd s oPairClaim ∧ t.pair.claimIn = b) ∧
    (role s ≠ 0 → s.pair.claimVld = true → s.pair.claimOut ≠ 0 → s.pair.claimOut ≠ b → ∃ t,
      exec (.claimDecision b) s = .next t ∧ role t ≠ 4 ∧
      (t.pair.claimOut = 0 ∨ t.pair.claimOut = rd s oPairClaim))) ∧
  (∀ s : State, (role s ≠ 1 ∨ rd s oUnsyncedClaim ≠ 1 ∨ s.pair.claimIn ≠ 0 → exec .firstClaim s = .next s) ∧
    (role s = 1 → rd s oServiceLevel = 2 → rd s oUnsyncedClaim = 1 → s.pair.claimIn = 0 → s.pair.yielding = false →
      ∃ t, exec .firstClaim s = .next t ∧ t.pair.claiming = true ∧ t.pair.claimVld = true ∧
        t.pair.claimOut = rd s oPairClaim ∧ role t = 1)) ∧
  (∀ (u : Nat) (s : State), u < 3 → (role s = 0 → exec (.privilegedFault u) s = .next s) ∧
    (role s ≠ 0 → s.pair.yielding = false → ∃ t, exec (.privilegedFault u) s = .next t ∧ role t = 5 ∧
      t.pair.claimOut = 0 ∧ t.pair.claimVld = true ∧ t.pair.lastFail = 0x20 + u)) ∧
  (∀ (k : Nat) (s : State), 1 ≤ k → k ≤ 6 → (role s ≠ 3 → ∀ x, exec (.soundingTest k x) s = .next s) ∧
    (role s = 3 → s.pair.yielding = false → (∃ t, exec (.soundingTest k true) s = .next t ∧ role t = 5 ∧ t.pair.claimOut = 0 ∧
        t.pair.lastFail = k) ∧
      exec (.soundingTest k false) s = .next (setPair { s.pair with soundings := (s.pair.soundings + 1) % 2 ^ 32 } s))) ∧
  (∀ (o : Origin) (level v : Nat) (s : State),
    ((Instr.pairYield o level v).wf = true → acceptsWrite s o (oneWrite level oPairYield 0 1 v) →
      exec (.pairYield o level v) s = .next (answered (counted o s) o (oneWrite level oPairYield 0 1 v)
        (when (v = 1) yieldClaim (wr oPairYield v (counted o s))))) ∧
    ((Instr.pairRejoin o level v).wf = true → acceptsWrite s o (oneWrite level oPairRejoin 0 1 v) →
      exec (.pairRejoin o level v) s = .next (answered (counted o s) o (oneWrite level oPairRejoin 0 1 v)
        (when (v = 1 && role s = 5) (setRole 1) (wr oPairRejoin v (counted o s))))) ∧
    ((Instr.pairEnable o level v).wf = true → acceptsWrite s o (oneWrite level oPairEnable 0 1 v) →
      exec (.pairEnable o level v) s = .next (answered (counted o s) o (oneWrite level oPairEnable 0 1 v)
        (putPairMode v (counted o s))))) ∧
  (∀ s : State, role (yieldClaim s) = 3 ∧ (yieldClaim s).pair.claimOut = 0 ∧ rd (putPairMode 1 s) oPairEnable = rd s oPairEnable)

/-- R535, R539 to R541, R549, R559: the pair link. A unit without a pair takes nothing; a HEALTH report is kept with the partner's
role and claim; the timer sends this unit's; a message not acknowledged is sent again, counted; losing the partner raises PAIR_LOST
and ends forwarding of an active, a standby's role and a join; a partner's frame enters its pipeline as from port 514. -/
def Obligations.PairLink : Prop :=
  (∀ (report : Bytes) (claim : Nat) (s : State), isByte claim = true → role s = 0 → exec (.health report claim) s = .next s) ∧
  (∀ (report : Bytes) (claim : Nat) (s : State), isByte claim = true → role s ≠ 0 → ∃ t,
    exec (.health report claim) s = .next t ∧ t.pair.partnerRole = leAt report 0 1 ∧ t.pair.partnerClaim = claim ∧
    t.pair.partnerUp = true ∧ rd t oPartnerHealth = leNat (report.take 32) ∧ role t = role s) ∧
  (∀ s : State, (role s = 0 → exec .healthTimer s = .next s) ∧ (role s ≠ 0 → exec .healthTimer s =
    .next (sendPair 1 (leBytes 32 (healthReport s) ++ leBytes 1 s.pair.claimOut ++ beBytes 8 s.clk.cclk) s))) ∧
  (∀ (seq : Nat) (s : State), (s.pair.replay.find? (fun e => e.1 = seq) = none →
      exec (.retransmitTimeout seq) s = .next s) ∧
    (∀ e, s.pair.replay.find? (fun e => e.1 = seq) = some e → exec (.retransmitTimeout seq) s =
      .next (count (cPair 0x38) (emit (.pair (pairFront s e.2.1 1 seq e.2.2.length) e.2.2) s)))) ∧
  (∀ s : State, (role s = 0 → exec .pairLost s = .next s) ∧
    (role s = 4 → ∃ t, exec .pairLost s = .next t ∧ role t = 4 ∧ t.pair.forwardOff = true ∧ t.pair.partnerUp = false ∧
      (rd t oEventPending (evPairLost / 32)).testBit (evPairLost % 32) = true) ∧
    (role s = 3 → ∃ t, exec .pairLost s = .next t ∧ role t = 1 ∧ t.pair.partnerUp = false) ∧
    (role s = 2 → ∃ t, exec .pairLost s = .next t ∧ role t = 1 ∧ rd t oJoinResult = 6)) ∧
  (∀ (n cls : Nat) (b : Bytes) (s : State), isPipe n = true → (role s = 0 → exec (.pairFrame n cls b) s = .next s) ∧
    (role s ≠ 0 → ∃ t, exec (.pairFrame n cls b) s = .next t ∧ frame t s.pip.nextFid = some
        { port := 514, pipe := n, bytes := b ++ fcsBytes b, stamp := nowStamp s, rxCclk := s.clk.cclk, cls := cls % 8,
          owner := 8 * 514 + cls % 8 } ∧
      (pipe t n).inject = (pipe s n).inject ++ [s.pip.nextFid] ∧ (∀ k, k ≠ s.pip.nextFid → frame t k = frame s k))) ∧
  (∀ s : State, (nextOp s 19 14 (fun _ => true) = none → exec .pairMirror s = .next s) ∧
    (∀ o, nextOp s 19 14 (fun _ => true) = some o → partnerFollows s = false →
      exec .pairMirror s = .next (dispatched o s)) ∧
    (∀ o m, nextOp s 19 14 (fun _ => true) = some o → mirrorOf s o.args = some m → partnerFollows s = true →
      (pairRoom s 6 (mirrorBytes m).length = true →
        exec .pairMirror s = .next (sendPair 6 (mirrorBytes m) (count (cPair 0x28) (dispatched o s)))) ∧
      (pairRoom s 6 (mirrorBytes m).length = false → exec .pairMirror s = .next s)))

/-- R552, R554 to R556: a window that closes with a standby is sent; the active compares a window of which it has both digests,
counts it and, where they differ, the mismatch; the third in a row starts a self-check in both units; a unit whose self-check fails,
or a standby whose configuration sets have another hash than the active's, takes role 5 and raises SELFCHECK_FAIL; where neither fails, the active raises DIGEST_UNRESOLVED. -/
def Obligations.Digests : Prop :=
  (∀ (w : Nat) (s : State), (role s ≠ 3 → role s ≠ 4 → exec (.digestWindowClose w) s =
      .next (setPair { s.pair with windows := tabErase s.pair.windows w } s)) ∧
    (role s = 3 ∨ role s = 4 → s.pair.partnerUp = true → s.pair.partnerRole = 7 - role s → role s = 3 ∨ w < s.pair.compareFrom →
      exec (.digestWindowClose w) s = .next (sendPair 2 (windowBytes w (tabGet emptyWindow s.pair.windows w))
        (setPair { s.pair with windows := tabErase s.pair.windows w } s))) ∧
    (role s = 4 → s.pair.partnerUp = true → s.pair.partnerRole = 3 → s.pair.compareFrom ≤ w →
      let d := tabGet emptyWindow s.pair.windows w
      let u := sendPair 2 (windowBytes w d) (setPair { s.pair with windows := tabErase s.pair.windows w } s)
      exec (.digestWindowClose w) s = .next (compareWindow w (setPair { u.pair with closed := tabInsert u.pair.closed w d } u)))) ∧
  (∀ (w : Nat) (subs counts : List Nat) (s : State), (role s = 0 → exec (.digest w subs counts) s = .next s) ∧
    (role s ≠ 0 → role s ≠ 4 → exec (.digest w subs counts) s = .next (heard s)) ∧
    (∀ a, role s = 4 → s.pair.compareFrom ≤ w → tabFind s.pair.closed w = some a →
      (a = ⟨subs, counts⟩ → ∃ t, exec (.digest w subs counts) s = .next t ∧ t.pair.mismatches = 0 ∧
        ctr t (cPair 0x00) = (ctr s (cPair 0x00) + 1) % 2 ^ 64 ∧ tabFind t.pair.closed w = none ∧ role t = 4) ∧
      (a ≠ ⟨subs, counts⟩ → s.pair.mismatches + 1 < 3 → ∃ t, exec (.digest w subs counts) s = .next t ∧
        t.pair.mismatches = s.pair.mismatches + 1 ∧ ctr t (cPair 0x08) = (ctr s (cPair 0x08) + 1) % 2 ^ 64 ∧
        t.pair.checking = s.pair.checking) ∧
      (a ≠ ⟨subs, counts⟩ → 3 ≤ s.pair.mismatches + 1 → s.pair.checking = false → ∃ t,
        exec (.digest w subs counts) s = .next t ∧ t.pair.checking = true))) ∧
  (∀ (a b : Bool) (s : State), (s.pair.checking = false → exec (.selfCheckComplete a b) s = .next s) ∧
    (s.pair.checking = true → s.pair.yielding = false →
      (a = true ∨ (role s = 3 ∧ s.pair.setsDiffer = true) → ∃ t, exec (.selfCheckComplete a b) s = .next t ∧ role t = 5 ∧ t.pair.claimOut = 0 ∧
        t.pair.lastFail = 0x10 ∧ t.pair.checking = false ∧
        (rd t oEventPending (evSelfcheckFail / 32)).testBit (evSelfcheckFail % 32) = true) ∧
      (a = false → b = false → role s = 4 → ∃ t, exec (.selfCheckComplete a b) s = .next t ∧ role t = 4 ∧
        t.pair.checking = false ∧ t.pair.mismatches = 0 ∧
        (rd t oEventPending (evDigestUnresolved / 32)).testBit (evDigestUnresolved % 32) = true)))

/-- R543 to R546, R548, R560, R561: a standby, and an active that has taken over, take each MIRROR as it arrives (log entry 148); a joiner takes MIRROR and BULK content once its tables
are in place, and BULK content for nothing that a MIRROR has set; a WRITE or COMMAND of the active is kept for its cycle, or, too
late, makes the standby raise PAIR_DIVERGED and take role 1.
R542, R547, R555, R560: joins. An unsynced unit with an active partner refuses a join by its first failing item, with JOIN_RESULT
and role 1, or takes role 2 and halts every block; a joiner whose tables and ledger have come leaves the halt and takes role 3; each
CONTROL message that a unit's role takes moves the join on, refuses it, starts a self-check, or is answered. -/
def Obligations.MirrorsAndJoins : Prop :=
  ((∀ (m : MirrorMsg) (s : State), (role s = 0 → exec (.mirror m) s = .next s ∧ exec (.bulk m) s = .next s) ∧
     (role s = 3 → exec (.mirror m) s = .next (applyMirror m (count (cPair 0x30) (heard s))) ∧
       exec (.bulk m) s = .next (heard s)) ∧
     (role s = 4 → exec (.mirror m) s = .next (applyMirror m (count (cPair 0x30) (heard s)))) ∧
     (role s = 1 ∨ role s = 5 → exec (.mirror m) s = .next (heard s)) ∧
     (role s = 2 → s.pair.join = 5 → (s.pair.mirrored.contains (mirrorKey m) = true → exec (.bulk m) s = .next (heard s)) ∧
       (s.pair.mirrored.contains (mirrorKey m) = false → exec (.bulk m) s = .next (bulkPin m (applyMirror m (heard s)))) ∧
       ∃ t u, exec (.mirror m) s = .next (applyMirror m t) ∧ t = count (cPair 0x30) u ∧
         u.pair.mirrored = s.pair.mirrored ++ [mirrorKey m])) ∧
   (∀ (m : Msg) (live opcode commit : Nat) (body data : Bytes) (s : State), m.wf = true →
     (role s = 0 → exec (.pairWrite m live) s = .next s ∧ exec (.pairCommand opcode body data commit) s = .next s) ∧
     (role s = 3 →
       (s.clk.cclk ≤ live → exec (.pairWrite m live) s = .next (setPair { (heard s).pair with
         due := s.pair.due ++ [{ at_ := live, req := some ⟨pairOrigin, m⟩ }] } (heard s))) ∧
       (live < s.clk.cclk → ∃ t, exec (.pairWrite m live) s = .next t ∧ role t = 1 ∧
         (rd t oEventPending (evPairDiverged / 32)).testBit (evPairDiverged % 32) = true) ∧
       (s.clk.cclk ≤ commit → exec (.pairCommand opcode body data commit) s = .next (setPair { (heard s).pair with
         due := s.pair.due ++ [{ at_ := commit, opcode := opcode, body := body, data := data }] } (heard s))) ∧
       (commit < s.clk.cclk → ∃ t, exec (.pairCommand opcode body data commit) s = .next t ∧ role t = 1)))) ∧
  ((∀ (claim i v n : Nat) (offset : Bool) (s : State), isByte claim = true →
     (role s ≠ 1 ∨ s.pair.partnerUp = false ∨ s.pair.partnerRole ≠ 4 ∨ s.pair.join ≠ 0 →
       exec (.joinStart claim i v n offset) s = .next s) ∧
     (role s = 1 → s.pair.partnerUp = true → s.pair.partnerRole = 4 → s.pair.join = 0 →
       (joinCode s claim i v n ≠ 0 → ∃ t, exec (.joinStart claim i v n offset) s = .next t ∧ role t = 1 ∧
         rd t oJoinResult = joinCode s claim i v n) ∧
       (joinCode s claim i v n = 0 → offset = true → ∃ t, exec (.joinStart claim i v n offset) s = .next t ∧ role t = 1 ∧
         rd t oJoinResult = 5) ∧
       (joinCode s claim i v n = 0 → offset = false → exec (.joinStart claim i v n offset) s = .next (beginJoin s)))) ∧
   (∀ s : State, (role s ≠ 2 ∨ s.pair.join ≠ 5 ∨ s.pair.bulkDone = false → exec .joinFinish s = .next s) ∧
     (role s = 2 → s.pair.join = 5 → s.pair.bulkDone = true →
       let u := writeHaltRequest 0 (count (cPair 0x48) (wr oJoinResult 1 s))
       ∃ t, exec .joinFinish s = .next t ∧ role t = 3 ∧ t.pair.join = 0 ∧ t.pair.bulkDone = false ∧
         rd t oJoinResult = rd u oJoinResult ∧ t.pair.compareFrom = windowNow u + 1 ∧ t.pair.claimVld = true ∧
         t.led = u.led ∧ t.cs = u.cs)) ∧
   (∀ (m : ControlMsg) (s : State), (role s = 0 → exec (.pairControl m) s = .next s) ∧
     (role s ≠ 0 → exec (.pairControl m) s = .next (control m (heard s)))) ∧
   (∀ s : State, (role s = 2 → control .configDone s = setPair { s.pair with join := 4 } s ∧
       control .tablesDone s = setPair { s.pair with join := 5 } s ∧
       control .bulkDone s = setPair { s.pair with bulkDone := true } s ∧
       (∀ c, ∃ t, control (.joinRefuse c) s = t ∧ role t = 1 ∧ rd t oJoinResult = c) ∧
       (∀ c sec ns, (control (.align c sec ns) s).clk.cclk = c)) ∧
     (role s = 3 → ∀ h, (control (.selfCheck h) s).pair.checking = true ∧
       (control (.selfCheck h) s).pair.setsDiffer = decide (h ≠ setsHash s)) ∧
     (role s = 4 → ∀ c i v n, joinCode s c i v n ≠ 0 →
       control (.joinRequest c i v n) s = sendControl (.joinRefuse (joinCode s c i v n)) s)))

/-! ### Energy and measurement (chapter 16) -/

/-- R566 to R569, R571: where no override, hold or lost regulator stands in the way, a period of the voltage loop moves VCORE by at
most 5 mV towards its demand bounded by FLOOR and CEILING, its pin, or its safe value.
R564, R570, R639: a sample adds its product to the energy; a difference above 15 mV that lasts holds VCORE and raises
VREG_FAULT, and the hold ends below 15 mV; a regulator that does not answer is tried again until it does; an alert raises VREG_FAULT
and asks for STATUS_WORD. -/
def Obligations.VoltageAndRegulator : Prop :=
  (∀ (slack : Int) (s : State), s.gov.noRegulator = false → s.gov.holding = false → s.gov.voltOver = false →
     s.gov.bootPin = false → ∃ t, exec (.voltageLoop slack true) s = .next t ∧
       t.gov.vcore = stepTo 5 s.gov.vcore (knobTarget 0 (knob s 0) (voltageDemand s (knob s 0) slack)) ∧
       t.gov.vDemand = voltageDemand s (knob s 0) slack ∧ t.gov.vcore - s.gov.vcore ≤ 5 ∧ s.gov.vcore - t.gov.vcore ≤ 5 ∧
       ((knob s 0).enable = 1 → (knob s 0).pin ≠ 1 → (knob s 0).floor ≤ (knob s 0).ceiling →
         (knob s 0).floor ≤ s.gov.vcore → s.gov.vcore ≤ (knob s 0).ceiling →
         (knob s 0).floor ≤ t.gov.vcore ∧ t.gov.vcore ≤ (knob s 0).ceiling)) ∧
  ((∀ (mv ma : Nat) (s : State), ∃ t, exec (.energySample mv ma) s = .next t ∧ t.gov.energy = s.gov.energy + mv * ma ∧
     ctr t (cGlobal 0x100) = (s.gov.energy + mv * ma) / 1000 % 2 ^ 64 ∧ rd t oVcoreMeasured = mv % 2 ^ 16) ∧
   (∀ (mv : Nat) (lasting : Bool) (s : State),
     (s.gov.holding = false → 15 < voutDiff s mv → lasting = true → ∃ t, exec (.vregCheck mv lasting) s = .next t ∧
       t.gov.holding = true ∧ (rd t oGovState).testBit 1 = true ∧ t.gov.vcore = s.gov.vcore ∧
       (rd t oEventPending (evVregFault / 32)).testBit (evVregFault % 32) = true) ∧
     (s.gov.holding = false → voutDiff s mv ≤ 15 ∨ lasting = false →
       exec (.vregCheck mv lasting) s = .next (wr oVcoreMeasured (mv % 2 ^ 16) s)) ∧
     (s.gov.holding = true → voutDiff s mv < 15 → ∃ t, exec (.vregCheck mv lasting) s = .next t ∧ t.gov.holding = false ∧
       (rd t oGovState).testBit 1 = s.gov.noRegulator)) ∧
   (∀ (ack : Bool) (s : State), (s.gov.noRegulator = false ∨ ack = false → exec (.regulatorRetry ack) s = .next s) ∧
     (s.gov.noRegulator = true → ack = true → ∃ t, exec (.regulatorRetry ack) s = .next t ∧ t.gov.noRegulator = false)) ∧
   (∀ s : State, exec .pmbAlert s =
     .next (raise evVregFault (voutDiff s (rd s oVcoreMeasured)) (setGov { s.gov with statusDue := true } s))))

/-- R566, R567, R573, R574, R576: a period of a pipeline's slot gating moves it by at most one towards its demand, and leaves it
during a thermal override; a waiting head lowers it by one, an express head to FLOOR, never while the knob is pinned, off or
overridden; a period of the buffer thresholds moves DT_ADJUST by at most one and starts the count of refusals anew.
R578 to R581: voltage protection raises VCORE by 20 mV and never above 820 mV; thermal protection at its limit raises SLOT_GATE
of every pipeline by one up to 3, and below it only notes the temperature; the start and the end of an override are logged.
R566, R586, R592: an accepted GOV_KNOBS row sets its knob; an accepted PERF_SELECT row clears its counter; the oldest complete
sample of a pipeline goes into the row of its index, or is lost where the buffer is full in MODE 0. -/
def Obligations.GatingProtectionAndSamples : Prop :=
  ((∀ (n : Nat) (s : State), isPipe n = true → s.gov.slotGate.length = 16 → ∃ t,
     exec (.slotGateLoop n) s = .next t ∧ (pipe t n).issued = 0 ∧
     (s.gov.heatOver = true → t.gov.slotGate = s.gov.slotGate) ∧
     (s.gov.heatOver = false → slotGate t n = stepTo 1 (slotGate s n) (knobTarget 1 (knob s 1)
         (if (knob s 1).enable = 1 then gateDemand (slotGate s n) (pipe s n).issued else slotGate s n)) ∧
       (∀ k, k ≠ n → slotGate t k = slotGate s k))) ∧
   (∀ (n : Nat) (express : Bool) (s : State), isPipe n = true → s.gov.slotGate.length = 16 →
     ((knob s 1).enable ≠ 1 ∨ (knob s 1).pin = 1 ∨ s.gov.heatOver = true ∨ slotGate s n ≤ (knob s 1).floor →
       exec (.engineWait n express) s = .next s) ∧
     ((knob s 1).enable = 1 → (knob s 1).pin ≠ 1 → s.gov.heatOver = false → (knob s 1).floor < slotGate s n → ∃ t,
       exec (.engineWait n express) s = .next t ∧ slotGate t n = (if express then (knob s 1).floor else slotGate s n - 1) ∧
       (∀ k, k ≠ n → slotGate t k = slotGate s k) ∧ { t with gov := s.gov } = s)) ∧
   (∀ s : State, ∃ t, exec .bufferThresholdLoop s = .next t ∧ t.gov.refused = 0 ∧
     t.gov.dtAdjust = stepTo 1 s.gov.dtAdjust (knobTarget 2 (knob s 2)
       (if (knob s 2).enable = 1 then dtDemandOf s else s.gov.dtAdjust)) ∧ t.buf = s.buf)) ∧
  ((∀ s : State, (s.gov.noRegulator = true → exec .voltageProtection s = .next s) ∧
     (s.gov.noRegulator = false → ∃ t, exec .voltageProtection s = .next t ∧ t.gov.vcore = min 820 (s.gov.vcore + 20) ∧
       t.gov.voltOver = true ∧ (s.gov.voltOver = false → rd t oOverrideNext = (rd s oOverrideNext + 1) % 16 ∧
         (rd t oEventPending (evGovOverride / 32)).testBit (evGovOverride % 32) = true))) ∧
   (∀ (tj : Int) (s : State), rd s oThermalLimit < 2 ^ 15 →
     (tj < rd s oThermalLimit → exec (.thermalProtection tj) s = .next (wr oTjMax ((tj % 2 ^ 16).toNat) s)) ∧
     ((rd s oThermalLimit : Int) ≤ tj → ∃ t, exec (.thermalProtection tj) s = .next t ∧
       t.gov.slotGate = s.gov.slotGate.map (fun g => min 3 (g + 1)) ∧ t.gov.heatOver = true ∧
       (s.gov.heatOver = false → rd t oOverrideNext = (rd s oOverrideNext + 1) % 16))) ∧
   (∀ s : State, (s.gov.voltOver = false → exec (.overrideEnd 0) s = .next s) ∧
     (s.gov.heatOver = false → exec (.overrideEnd 1) s = .next s) ∧
     (s.gov.voltOver = true → ∃ t, exec (.overrideEnd 0) s = .next t ∧ t.gov.voltOver = false ∧
       t.gov.vcore = s.gov.vcore ∧ rd t oOverrideNext = (rd s oOverrideNext + 1) % 16) ∧
     (s.gov.heatOver = true → ∃ t, exec (.overrideEnd 1) s = .next t ∧ t.gov.heatOver = false ∧
       t.gov.slotGate = s.gov.slotGate ∧ rd t oOverrideNext = (rd s oOverrideNext + 1) % 16))) ∧
  ((∀ (o : Origin) (level row v : Nat) (s : State), (Instr.govKnobs o level row v).wf = true →
     acceptsWrite s o (oneWrite level oGovKnobs row 16 v) →
     exec (.govKnobs o level row v) s =
       .next (answered (counted o s) o (oneWrite level oGovKnobs row 16 v) (writeGovKnobs row v (counted o s))) ∧
     rd (writeGovKnobs row v (counted o s)) oGovKnobs row = v) ∧
   (∀ (o : Origin) (level row v : Nat) (s : State), (Instr.perfSelect o level row v).wf = true →
     acceptsWrite s o (oneWrite level oPerfSelect row 16 v) →
     exec (.perfSelect o level row v) s =
       .next (answered (counted o s) o (oneWrite level oPerfSelect row 16 v) (writePerfSelect row v (counted o s))) ∧
     rd (writePerfSelect row v (counted o s)) oPerfSelect row = v ∧ ctr (writePerfSelect row v (counted o s)) (perfCell row) = 0) ∧
   (∀ (n : Nat) (s : State), isPipe n = true →
     let w := rd s oPreciseWriteIndex
     (s.perf.done.find? (fun e => e.1 = n) = none → exec (.preciseSampleWrite n) s = .next s) ∧
     (∀ e, s.perf.done.find? (fun e => e.1 = n) = some e → (w + 2 ^ 32 - rd s oPreciseReadIndex) % 2 ^ 32 ≠ 4096 →
       ∃ t, exec (.preciseSampleWrite n) s = .next t ∧ rd t oPreciseBuffer (w % 4096) = e.2 ∧
         rd t oPreciseWriteIndex = (w + 1) % 2 ^ 32 ∧ t.perf.done = s.perf.done.erase e) ∧
     (∀ e, s.perf.done.find? (fun e => e.1 = n) = some e → (w + 2 ^ 32 - rd s oPreciseReadIndex) % 2 ^ 32 = 4096 →
       byteFld (rd s oPreciseConfig) 1 1 = 0 → ∃ t, exec (.preciseSampleWrite n) s = .next t ∧
         rd t oPreciseWriteIndex = w ∧ ctr t (cGlobal 0x128) = (ctr s (cGlobal 0x128) + 1) % 2 ^ 64)))

/-! ### Start-up, events and faults (chapters 17 and 18) -/

/-- R597: a device reset leaves every block at its reset state and every object at its default but for what start-up itself
writes (the cause, the step, and the events it raises); the fuses, the calendar clock and the commands that wait stay, and the
retention RAM but for the boot record that start-up keeps in it; the cause is reported; the boot sequencer starts at step 01, unless TEST_MODE holds
the device (R634). -/
def Obligations.DeviceReset : Prop :=
  ∀ (cause : Nat) (s : State), let t := deviceReset cause s
    rd t oResetCause = cause ∧ t.fuse = s.fuse ∧ t.pending = s.pending ∧ t.clk = {} ∧ t.ep = {} ∧ t.prt = {} ∧ t.pip = {} ∧
    t.cs = {} ∧ t.lt = {} ∧ t.rb = {} ∧ t.pa = {} ∧ t.led = {} ∧ t.svc = {} ∧ t.buf = {} ∧ t.fab = {} ∧ t.tm = {} ∧
    t.cap = {} ∧ t.dw = {} ∧ t.tun = {} ∧ t.pair = {} ∧ t.gov = {} ∧ t.perf = {} ∧
    (∀ set obj row, obj < 2 ^ 32 → row < 2 ^ 32 → obj ∉ [oResetCause, oBootStep, oEventLog, oEventPending] →
      rdOpt t set obj row = dfltOf obj row) ∧
    { t.cal with retention := s.cal.retention, invalidDue := s.cal.invalidDue } = s.cal ∧
    (s.pins.testMode = true → t.boot.held = 1 ∧ t.cal = s.cal ∧ t.eng = {}) ∧
    (s.pins.testMode = false → t.boot.held = 0 ∧ rd t oBootStep = 1)

/-- R596, R642 to R644, R653: what resets the device, with its cause; a low of RESET_N under 1 µs does nothing; a thermal trip
holds the device in reset until it clears, and no other reset ends that hold.
R598: a Control Core restart ends a turn whose T is not set with TURN_RESULT 2 and FAILED_GROUP 0, empties every replay
window, refills RESET_NONCE, leaves no request waiting and raises CORE_RESTART; a second one within 10 s resets the device. -/
def Obligations.ResetsAndRestarts : Prop :=
  (∀ s : State,
     (∀ tm, exec (.powerOn tm) s = .next (deviceReset 1 { s with pins := { s.pins with testMode := tm } })) ∧
     (∀ ns, ns < 1000 → exec (.resetN ns) s = .next s) ∧
     (∀ ns, 10000 ≤ ns → s.boot.held ≠ 3 → exec (.resetN ns) s = .next (deviceReset 2 s)) ∧
     (s.boot.held ≠ 3 → exec .railUndervoltage s = .next (deviceReset 1 s)) ∧
     (∃ t, exec .thermalTrip s = .next t ∧ t.boot.held = 3 ∧ rd t oResetCause = 4 ∧ stepRunning t = none ∧
       t.fuse = s.fuse ∧ t.cal = s.cal ∧ t.pip = {} ∧ t.led = {}) ∧
     (s.boot.held = 3 → exec .thermalTripCleared s = .next (deviceReset 4 s) ∧ exec .railUndervoltage s = .next s) ∧
     (∀ c, c < 4 → pairEnabled s = false → s.boot.held ≠ 3 →
       exec (.clockTreeFault c) s = .next (deviceReset 5 (raise evClockFault c s))) ∧
     (pairEnabled s = false → exec (.clockTreeFault 4) s = .next s) ∧
     (∀ (o : Origin) (level : Nat), (Instr.resetRequest o level 0xA5).wf = true →
       acceptsWrite s o (oneWrite level oResetRequest 0 1 0xA5) → exec (.resetRequest o level 0xA5) s =
         .next (deviceReset 3 (answered (counted o s) o (oneWrite level oResetRequest 0 1 0xA5)
           (wr oResetRequest 0xA5 (counted o s)))))) ∧
  (∀ (reason : Nat) (s : State), (reason = 1 ∨ reason = 2) →
     (s.boot.restartAt = 0 → s.eng.queue = [] → s.ep.request = none → s.pair.due = [] →
       ∃ u, exec (.coreRestart reason) s = .next (raise evCoreRestart reason u) ∧
         u.eng = { s.eng with queue := [], nonce := Config.random s.free % 2 ^ 64, windows := [], mbWindows := [] } ∧
         (if setState s = 1 then rd u oSetState = 0 ∧ rd u oTurnResult = 2 ∧ rd u oFailedGroup = 0 else u.dict = s.dict) ∧
         ctr u (cEvent 0x18) = (ctr s (cEvent 0x18) + 1) % 2 ^ 64 ∧ u.led = s.led ∧ u.pip = s.pip ∧ u.lt = s.lt ∧
         u.hst = s.hst ∧ u.dw = s.dw ∧ u.gov = s.gov ∧ u.tun = s.tun) ∧
     (s.boot.restartAt ≠ 0 → s.clk.cclk + 1 < s.boot.restartAt + 15625000000 → s.boot.held ≠ 3 →
       exec (.coreRestart reason) s = .next (deviceReset 6 s)))

/-- R600 to R605: an attempt in which nothing failed ends the step; three failed attempts of a fixed step hold the device with
INT_N low; an attempt that times out fails; the step at which the boot stopped starts again at BOOT_CONTINUE; and steps 05 and 06
run again while no control path is left. -/
def Obligations.BootSteps : Prop :=
  (∀ (k : Nat) (r : StepResult) (s : State), stepRunning s = some k →
    stepMayEnd k (if k = 8 || k = 9 || k = 14 then 0 else r.failed) s = true →
    exec (.bootStepComplete r) s = .next (attemptEnds k (if k = 8 || k = 9 || k = 14 then 0 else r.failed) s)) ∧
  (∀ (k : Nat) (s : State), ∃ u, attemptEnds k 0 s = endStep k u ∧ u.boot.skipped = s.boot.skipped ∧
      { u with boot := s.boot } = s) ∧
  (∀ (k failed : Nat) (s : State), k ≤ 4 → failed &&& andNot (stepRes s k) (s.boot.passed ||| s.boot.skipped) ≠ 0 →
    ∃ t, attemptEnds k failed s = t ∧
      (3 ≤ t.boot.attempts → t.boot.held = 2 ∧ intLow t = true) ∧ (t.boot.attempts < 3 → t.boot.held = s.boot.held) ∧
      t.boot.attempts = s.boot.attempts +
        b2n (andNot (andNot (stepRes s k) (s.boot.passed ||| s.boot.skipped)) s.boot.altRes ≠ 0) ∧ t.dict = s.dict) ∧
  (∀ (k : Nat) (r : StepResult) (s : State), stepRunning s = some k → 5 ≤ k → k ≤ 13 → k ≠ 9 → s.boot.stopped = false →
    byteFld (policyRow s k) 4 4 ≠ 0 → r.failed &&& stepRes s k ≠ 0 →
    exec (.bootAttemptTimeout r) s = .next (attemptEnds k r.failed s)) ∧
  (∀ (o : Origin) (level v : Nat) (s : State), (Instr.bootContinue o level v).wf = true →
    acceptsWrite s o (oneWrite level oBootContinue 0 1 v) → exec (.bootContinue o level v) s =
      .next (answered (counted o s) o (oneWrite level oBootContinue 0 1 v) (bootContinue v (counted o s)))) ∧
  (∀ (pcie : Bool) (m : Nat) (s : State), s.hst.absent = true → (mgmt s 0).ready = false → (mgmt s 1).ready = false →
    s.eng.opened = true → ∃ t, exec (.controlPathRetry pcie m) s = .next t ∧ t.hst = { s.hst with absent := !pcie } ∧
      (mgmt t 0).ready = m.testBit 0 ∧ (mgmt t 1).ready = m.testBit 1 ∧ { t with hst := s.hst, eng := s.eng } = s) ∧
  (∀ (pcie : Bool) (m : Nat) (s : State), s.hst.absent = false ∨ (mgmt s 0).ready = true ∨ (mgmt s 1).ready = true →
    exec (.controlPathRetry pcie m) s = .next s)

/-- R622: EVENT_CLEAR clears the PENDING bits written 1 of its group but those raised in this MCLK cycle, and no other.
R613: in a unit without a pair, a stack lost in service leaves empty port maps; with the ledger on die, it is marked, counted
and announced, and nothing of the maps changes. R326: a rebase that ends clears the flag of the on-die ledger, what waited for it goes
on, and step 14 ends with it.
R664, R624, R649: a window of one second ends and every limit counts anew; a MGMT link changes; the TAP takes the balls. -/
def Obligations.EventsStacksAndLinks : Prop :=
  (∀ (o : Origin) (level group bits : Nat) (s : State), (Instr.eventClear o level group bits).wf = true →
     acceptsWrite s o (oneWrite level oEventClear group 4 bits) → ∃ t,
       exec (.eventClear o level group bits) s =
         .next (answered (counted o s) o (oneWrite level oEventClear group 4 bits) t) ∧
       (∀ b, b < 32 → (rd t oEventPending group).testBit b =
         ((rd s oEventPending group).testBit b &&
           (!bits.testBit b || decide (tabGet 0 s.ev.lastMclk (32 * group + b) = mclk s + 1)))) ∧
       (∀ g, g < 2 ^ 32 → g ≠ group → rd t oEventPending g = rd s oEventPending g) ∧ t.ev = s.ev) ∧
  ((∀ (n : Nat) (s : State), isStack n = true → pairEnabled s = false → rd s oStackState n ≤ 1 → 12 ≤ rd s oBootStep →
     exec (.hbmStackLost n) s = .next (when (bootDone (stackLost n s)) writeHistory (stackLost n s)) ∧
     (lowLedger s = false → (stackLost n s).svc.ports = []) ∧
     (lowLedger s = true → rd (stackLost n s) oStackState n = 3 ∧ (stackLost n s).svc = s.svc ∧
       ctr (stackLost n s) (cEvent 0x20) = (ctr s (cEvent 0x20) + 1) % 2 ^ 64 ∧
       (rd (stackLost n s) oEventPending (evHbmStackLost / 32)).testBit (evHbmStackLost % 32) = true)) ∧
   (∀ s : State, rd s oLedgerState = 2 → let u := runLedger (clearFlag 0 (endRebase 1 s))
     (rd u oBootStep ≠ 14 → exec .ledgerRebased s = .next u) ∧
     (rd u oBootStep = 14 → exec .ledgerRebased s = .next (attemptEnds 14 0 u))) ∧
   (∀ s : State, rd s oLedgerState ≠ 2 → exec .ledgerRebased s = .next s)) ∧
  (∀ s : State,
     (∃ t, exec .secondWindowEnd s = .next t ∧ (∀ key, used t key = 0) ∧ t.pair = { s.pair with repairs := 0, errors := 0 } ∧
       { t with ev := s.ev, pair := s.pair } = s) ∧
     (∀ n up, isMgmt n = true → ∃ t, exec (.mgmtLinkChange n up) s = .next t ∧ mgmt t n = { mgmt s n with linkUp := up } ∧
       mgmt t (1 - n) = mgmt s (1 - n) ∧ { t with eng := s.eng } = s) ∧
     (∀ i, exec (.tapInstructionLoaded i) s = .next { s with pins := { s.pins with tap := i } }))
end

