-- ==== Sys2Proof/Laws/State.lean ====
section
/-! SUPPORT. The shared updates of State, field by field: an update leaves every field but its own as it stands. -/

set_option Elab.async false

namespace Sys2Proof.Machine
open Sys2Proof

@[simp] theorem wrSet_clk {s : State} {set obj row v : Nat} : (wrSet set obj row v s).clk = s.clk := rfl
@[simp] theorem wrSet_cal {s : State} {set obj row v : Nat} : (wrSet set obj row v s).cal = s.cal := rfl
@[simp] theorem wrSet_fuse {s : State} {set obj row v : Nat} : (wrSet set obj row v s).fuse = s.fuse := rfl
@[simp] theorem wrSet_ctr {s : State} {set obj row v : Nat} : (wrSet set obj row v s).ctr = s.ctr := rfl
@[simp] theorem wrSet_ev {s : State} {set obj row v : Nat} : (wrSet set obj row v s).ev = s.ev := rfl
@[simp] theorem wrSet_eng {s : State} {set obj row v : Nat} : (wrSet set obj row v s).eng = s.eng := rfl
@[simp] theorem wrSet_ep {s : State} {set obj row v : Nat} : (wrSet set obj row v s).ep = s.ep := rfl
@[simp] theorem wrSet_prt {s : State} {set obj row v : Nat} : (wrSet set obj row v s).prt = s.prt := rfl
@[simp] theorem wrSet_pip {s : State} {set obj row v : Nat} : (wrSet set obj row v s).pip = s.pip := rfl
@[simp] theorem wrSet_cs {s : State} {set obj row v : Nat} : (wrSet set obj row v s).cs = s.cs := rfl
@[simp] theorem wrSet_lt {s : State} {set obj row v : Nat} : (wrSet set obj row v s).lt = s.lt := rfl
@[simp] theorem wrSet_rb {s : State} {set obj row v : Nat} : (wrSet set obj row v s).rb = s.rb := rfl
@[simp] theorem wrSet_pa {s : State} {set obj row v : Nat} : (wrSet set obj row v s).pa = s.pa := rfl
@[simp] theorem wrSet_led {s : State} {set obj row v : Nat} : (wrSet set obj row v s).led = s.led := rfl
@[simp] theorem wrSet_svc {s : State} {set obj row v : Nat} : (wrSet set obj row v s).svc = s.svc := rfl
@[simp] theorem wrSet_buf {s : State} {set obj row v : Nat} : (wrSet set obj row v s).buf = s.buf := rfl
@[simp] theorem wrSet_fab {s : State} {set obj row v : Nat} : (wrSet set obj row v s).fab = s.fab := rfl
@[simp] theorem wrSet_tm {s : State} {set obj row v : Nat} : (wrSet set obj row v s).tm = s.tm := rfl
@[simp] theorem wrSet_cap {s : State} {set obj row v : Nat} : (wrSet set obj row v s).cap = s.cap := rfl
@[simp] theorem wrSet_dw {s : State} {set obj row v : Nat} : (wrSet set obj row v s).dw = s.dw := rfl
@[simp] theorem wrSet_hst {s : State} {set obj row v : Nat} : (wrSet set obj row v s).hst = s.hst := rfl
@[simp] theorem wrSet_tun {s : State} {set obj row v : Nat} : (wrSet set obj row v s).tun = s.tun := rfl
@[simp] theorem wrSet_pair {s : State} {set obj row v : Nat} : (wrSet set obj row v s).pair = s.pair := rfl
@[simp] theorem wrSet_gov {s : State} {set obj row v : Nat} : (wrSet set obj row v s).gov = s.gov := rfl
@[simp] theorem wrSet_perf {s : State} {set obj row v : Nat} : (wrSet set obj row v s).perf = s.perf := rfl
@[simp] theorem wrSet_boot {s : State} {set obj row v : Nat} : (wrSet set obj row v s).boot = s.boot := rfl
@[simp] theorem wrSet_pins {s : State} {set obj row v : Nat} : (wrSet set obj row v s).pins = s.pins := rfl
@[simp] theorem wrSet_free {s : State} {set obj row v : Nat} : (wrSet set obj row v s).free = s.free := rfl
@[simp] theorem wrSet_out {s : State} {set obj row v : Nat} : (wrSet set obj row v s).out = s.out := rfl
@[simp] theorem wrSet_pending {s : State} {set obj row v : Nat} : (wrSet set obj row v s).pending = s.pending := rfl

@[simp] theorem wrRow_clk {s : State} {obj row v : Nat} : (wrRow obj row v s).clk = s.clk := rfl
@[simp] theorem wrRow_cal {s : State} {obj row v : Nat} : (wrRow obj row v s).cal = s.cal := rfl
@[simp] theorem wrRow_fuse {s : State} {obj row v : Nat} : (wrRow obj row v s).fuse = s.fuse := rfl
@[simp] theorem wrRow_ctr {s : State} {obj row v : Nat} : (wrRow obj row v s).ctr = s.ctr := rfl
@[simp] theorem wrRow_ev {s : State} {obj row v : Nat} : (wrRow obj row v s).ev = s.ev := rfl
@[simp] theorem wrRow_eng {s : State} {obj row v : Nat} : (wrRow obj row v s).eng = s.eng := rfl
@[simp] theorem wrRow_ep {s : State} {obj row v : Nat} : (wrRow obj row v s).ep = s.ep := rfl
@[simp] theorem wrRow_prt {s : State} {obj row v : Nat} : (wrRow obj row v s).prt = s.prt := rfl
@[simp] theorem wrRow_pip {s : State} {obj row v : Nat} : (wrRow obj row v s).pip = s.pip := rfl
@[simp] theorem wrRow_cs {s : State} {obj row v : Nat} : (wrRow obj row v s).cs = s.cs := rfl
@[simp] theorem wrRow_lt {s : State} {obj row v : Nat} : (wrRow obj row v s).lt = s.lt := rfl
@[simp] theorem wrRow_rb {s : State} {obj row v : Nat} : (wrRow obj row v s).rb = s.rb := rfl
@[simp] theorem wrRow_pa {s : State} {obj row v : Nat} : (wrRow obj row v s).pa = s.pa := rfl
@[simp] theorem wrRow_led {s : State} {obj row v : Nat} : (wrRow obj row v s).led = s.led := rfl
@[simp] theorem wrRow_svc {s : State} {obj row v : Nat} : (wrRow obj row v s).svc = s.svc := rfl
@[simp] theorem wrRow_buf {s : State} {obj row v : Nat} : (wrRow obj row v s).buf = s.buf := rfl
@[simp] theorem wrRow_fab {s : State} {obj row v : Nat} : (wrRow obj row v s).fab = s.fab := rfl
@[simp] theorem wrRow_tm {s : State} {obj row v : Nat} : (wrRow obj row v s).tm = s.tm := rfl
@[simp] theorem wrRow_cap {s : State} {obj row v : Nat} : (wrRow obj row v s).cap = s.cap := rfl
@[simp] theorem wrRow_dw {s : State} {obj row v : Nat} : (wrRow obj row v s).dw = s.dw := rfl
@[simp] theorem wrRow_hst {s : State} {obj row v : Nat} : (wrRow obj row v s).hst = s.hst := rfl
@[simp] theorem wrRow_tun {s : State} {obj row v : Nat} : (wrRow obj row v s).tun = s.tun := rfl
@[simp] theorem wrRow_pair {s : State} {obj row v : Nat} : (wrRow obj row v s).pair = s.pair := rfl
@[simp] theorem wrRow_gov {s : State} {obj row v : Nat} : (wrRow obj row v s).gov = s.gov := rfl
@[simp] theorem wrRow_perf {s : State} {obj row v : Nat} : (wrRow obj row v s).perf = s.perf := rfl
@[simp] theorem wrRow_boot {s : State} {obj row v : Nat} : (wrRow obj row v s).boot = s.boot := rfl
@[simp] theorem wrRow_pins {s : State} {obj row v : Nat} : (wrRow obj row v s).pins = s.pins := rfl
@[simp] theorem wrRow_free {s : State} {obj row v : Nat} : (wrRow obj row v s).free = s.free := rfl
@[simp] theorem wrRow_out {s : State} {obj row v : Nat} : (wrRow obj row v s).out = s.out := rfl
@[simp] theorem wrRow_pending {s : State} {obj row v : Nat} : (wrRow obj row v s).pending = s.pending := rfl

@[simp] theorem wr_clk {s : State} {obj v : Nat} : (wr obj v s).clk = s.clk := rfl
@[simp] theorem wr_cal {s : State} {obj v : Nat} : (wr obj v s).cal = s.cal := rfl
@[simp] theorem wr_fuse {s : State} {obj v : Nat} : (wr obj v s).fuse = s.fuse := rfl
@[simp] theorem wr_ctr {s : State} {obj v : Nat} : (wr obj v s).ctr = s.ctr := rfl
@[simp] theorem wr_ev {s : State} {obj v : Nat} : (wr obj v s).ev = s.ev := rfl
@[simp] theorem wr_eng {s : State} {obj v : Nat} : (wr obj v s).eng = s.eng := rfl
@[simp] theorem wr_ep {s : State} {obj v : Nat} : (wr obj v s).ep = s.ep := rfl
@[simp] theorem wr_prt {s : State} {obj v : Nat} : (wr obj v s).prt = s.prt := rfl
@[simp] theorem wr_pip {s : State} {obj v : Nat} : (wr obj v s).pip = s.pip := rfl
@[simp] theorem wr_cs {s : State} {obj v : Nat} : (wr obj v s).cs = s.cs := rfl
@[simp] theorem wr_lt {s : State} {obj v : Nat} : (wr obj v s).lt = s.lt := rfl
@[simp] theorem wr_rb {s : State} {obj v : Nat} : (wr obj v s).rb = s.rb := rfl
@[simp] theorem wr_pa {s : State} {obj v : Nat} : (wr obj v s).pa = s.pa := rfl
@[simp] theorem wr_led {s : State} {obj v : Nat} : (wr obj v s).led = s.led := rfl
@[simp] theorem wr_svc {s : State} {obj v : Nat} : (wr obj v s).svc = s.svc := rfl
@[simp] theorem wr_buf {s : State} {obj v : Nat} : (wr obj v s).buf = s.buf := rfl
@[simp] theorem wr_fab {s : State} {obj v : Nat} : (wr obj v s).fab = s.fab := rfl
@[simp] theorem wr_tm {s : State} {obj v : Nat} : (wr obj v s).tm = s.tm := rfl
@[simp] theorem wr_cap {s : State} {obj v : Nat} : (wr obj v s).cap = s.cap := rfl
@[simp] theorem wr_dw {s : State} {obj v : Nat} : (wr obj v s).dw = s.dw := rfl
@[simp] theorem wr_hst {s : State} {obj v : Nat} : (wr obj v s).hst = s.hst := rfl
@[simp] theorem wr_tun {s : State} {obj v : Nat} : (wr obj v s).tun = s.tun := rfl
@[simp] theorem wr_pair {s : State} {obj v : Nat} : (wr obj v s).pair = s.pair := rfl
@[simp] theorem wr_gov {s : State} {obj v : Nat} : (wr obj v s).gov = s.gov := rfl
@[simp] theorem wr_perf {s : State} {obj v : Nat} : (wr obj v s).perf = s.perf := rfl
@[simp] theorem wr_boot {s : State} {obj v : Nat} : (wr obj v s).boot = s.boot := rfl
@[simp] theorem wr_pins {s : State} {obj v : Nat} : (wr obj v s).pins = s.pins := rfl
@[simp] theorem wr_free {s : State} {obj v : Nat} : (wr obj v s).free = s.free := rfl
@[simp] theorem wr_out {s : State} {obj v : Nat} : (wr obj v s).out = s.out := rfl
@[simp] theorem wr_pending {s : State} {obj v : Nat} : (wr obj v s).pending = s.pending := rfl

@[simp] theorem ctrSet_clk {s : State} {off v : Nat} : (ctrSet off v s).clk = s.clk := rfl
@[simp] theorem ctrSet_cal {s : State} {off v : Nat} : (ctrSet off v s).cal = s.cal := rfl
@[simp] theorem ctrSet_fuse {s : State} {off v : Nat} : (ctrSet off v s).fuse = s.fuse := rfl
@[simp] theorem ctrSet_dict {s : State} {off v : Nat} : (ctrSet off v s).dict = s.dict := rfl
@[simp] theorem ctrSet_ev {s : State} {off v : Nat} : (ctrSet off v s).ev = s.ev := rfl
@[simp] theorem ctrSet_eng {s : State} {off v : Nat} : (ctrSet off v s).eng = s.eng := rfl
@[simp] theorem ctrSet_ep {s : State} {off v : Nat} : (ctrSet off v s).ep = s.ep := rfl
@[simp] theorem ctrSet_prt {s : State} {off v : Nat} : (ctrSet off v s).prt = s.prt := rfl
@[simp] theorem ctrSet_pip {s : State} {off v : Nat} : (ctrSet off v s).pip = s.pip := rfl
@[simp] theorem ctrSet_cs {s : State} {off v : Nat} : (ctrSet off v s).cs = s.cs := rfl
@[simp] theorem ctrSet_lt {s : State} {off v : Nat} : (ctrSet off v s).lt = s.lt := rfl
@[simp] theorem ctrSet_rb {s : State} {off v : Nat} : (ctrSet off v s).rb = s.rb := rfl
@[simp] theorem ctrSet_pa {s : State} {off v : Nat} : (ctrSet off v s).pa = s.pa := rfl
@[simp] theorem ctrSet_led {s : State} {off v : Nat} : (ctrSet off v s).led = s.led := rfl
@[simp] theorem ctrSet_svc {s : State} {off v : Nat} : (ctrSet off v s).svc = s.svc := rfl
@[simp] theorem ctrSet_buf {s : State} {off v : Nat} : (ctrSet off v s).buf = s.buf := rfl
@[simp] theorem ctrSet_fab {s : State} {off v : Nat} : (ctrSet off v s).fab = s.fab := rfl
@[simp] theorem ctrSet_tm {s : State} {off v : Nat} : (ctrSet off v s).tm = s.tm := rfl
@[simp] theorem ctrSet_cap {s : State} {off v : Nat} : (ctrSet off v s).cap = s.cap := rfl
@[simp] theorem ctrSet_dw {s : State} {off v : Nat} : (ctrSet off v s).dw = s.dw := rfl
@[simp] theorem ctrSet_hst {s : State} {off v : Nat} : (ctrSet off v s).hst = s.hst := rfl
@[simp] theorem ctrSet_tun {s : State} {off v : Nat} : (ctrSet off v s).tun = s.tun := rfl
@[simp] theorem ctrSet_pair {s : State} {off v : Nat} : (ctrSet off v s).pair = s.pair := rfl
@[simp] theorem ctrSet_gov {s : State} {off v : Nat} : (ctrSet off v s).gov = s.gov := rfl
@[simp] theorem ctrSet_perf {s : State} {off v : Nat} : (ctrSet off v s).perf = s.perf := rfl
@[simp] theorem ctrSet_boot {s : State} {off v : Nat} : (ctrSet off v s).boot = s.boot := rfl
@[simp] theorem ctrSet_pins {s : State} {off v : Nat} : (ctrSet off v s).pins = s.pins := rfl
@[simp] theorem ctrSet_free {s : State} {off v : Nat} : (ctrSet off v s).free = s.free := rfl
@[simp] theorem ctrSet_out {s : State} {off v : Nat} : (ctrSet off v s).out = s.out := rfl
@[simp] theorem ctrSet_pending {s : State} {off v : Nat} : (ctrSet off v s).pending = s.pending := rfl

@[simp] theorem ctrAdd_clk {s : State} {off v : Nat} : (ctrAdd off v s).clk = s.clk := rfl
@[simp] theorem ctrAdd_cal {s : State} {off v : Nat} : (ctrAdd off v s).cal = s.cal := rfl
@[simp] theorem ctrAdd_fuse {s : State} {off v : Nat} : (ctrAdd off v s).fuse = s.fuse := rfl
@[simp] theorem ctrAdd_dict {s : State} {off v : Nat} : (ctrAdd off v s).dict = s.dict := rfl
@[simp] theorem ctrAdd_ev {s : State} {off v : Nat} : (ctrAdd off v s).ev = s.ev := rfl
@[simp] theorem ctrAdd_eng {s : State} {off v : Nat} : (ctrAdd off v s).eng = s.eng := rfl
@[simp] theorem ctrAdd_ep {s : State} {off v : Nat} : (ctrAdd off v s).ep = s.ep := rfl
@[simp] theorem ctrAdd_prt {s : State} {off v : Nat} : (ctrAdd off v s).prt = s.prt := rfl
@[simp] theorem ctrAdd_pip {s : State} {off v : Nat} : (ctrAdd off v s).pip = s.pip := rfl
@[simp] theorem ctrAdd_cs {s : State} {off v : Nat} : (ctrAdd off v s).cs = s.cs := rfl
@[simp] theorem ctrAdd_lt {s : State} {off v : Nat} : (ctrAdd off v s).lt = s.lt := rfl
@[simp] theorem ctrAdd_rb {s : State} {off v : Nat} : (ctrAdd off v s).rb = s.rb := rfl
@[simp] theorem ctrAdd_pa {s : State} {off v : Nat} : (ctrAdd off v s).pa = s.pa := rfl
@[simp] theorem ctrAdd_led {s : State} {off v : Nat} : (ctrAdd off v s).led = s.led := rfl
@[simp] theorem ctrAdd_svc {s : State} {off v : Nat} : (ctrAdd off v s).svc = s.svc := rfl
@[simp] theorem ctrAdd_buf {s : State} {off v : Nat} : (ctrAdd off v s).buf = s.buf := rfl
@[simp] theorem ctrAdd_fab {s : State} {off v : Nat} : (ctrAdd off v s).fab = s.fab := rfl
@[simp] theorem ctrAdd_tm {s : State} {off v : Nat} : (ctrAdd off v s).tm = s.tm := rfl
@[simp] theorem ctrAdd_cap {s : State} {off v : Nat} : (ctrAdd off v s).cap = s.cap := rfl
@[simp] theorem ctrAdd_dw {s : State} {off v : Nat} : (ctrAdd off v s).dw = s.dw := rfl
@[simp] theorem ctrAdd_hst {s : State} {off v : Nat} : (ctrAdd off v s).hst = s.hst := rfl
@[simp] theorem ctrAdd_tun {s : State} {off v : Nat} : (ctrAdd off v s).tun = s.tun := rfl
@[simp] theorem ctrAdd_pair {s : State} {off v : Nat} : (ctrAdd off v s).pair = s.pair := rfl
@[simp] theorem ctrAdd_gov {s : State} {off v : Nat} : (ctrAdd off v s).gov = s.gov := rfl
@[simp] theorem ctrAdd_perf {s : State} {off v : Nat} : (ctrAdd off v s).perf = s.perf := rfl
@[simp] theorem ctrAdd_boot {s : State} {off v : Nat} : (ctrAdd off v s).boot = s.boot := rfl
@[simp] theorem ctrAdd_pins {s : State} {off v : Nat} : (ctrAdd off v s).pins = s.pins := rfl
@[simp] theorem ctrAdd_free {s : State} {off v : Nat} : (ctrAdd off v s).free = s.free := rfl
@[simp] theorem ctrAdd_out {s : State} {off v : Nat} : (ctrAdd off v s).out = s.out := rfl
@[simp] theorem ctrAdd_pending {s : State} {off v : Nat} : (ctrAdd off v s).pending = s.pending := rfl

@[simp] theorem count_clk {s : State} {off : Nat} : (count off s).clk = s.clk := rfl
@[simp] theorem count_cal {s : State} {off : Nat} : (count off s).cal = s.cal := rfl
@[simp] theorem count_fuse {s : State} {off : Nat} : (count off s).fuse = s.fuse := rfl
@[simp] theorem count_dict {s : State} {off : Nat} : (count off s).dict = s.dict := rfl
@[simp] theorem count_ev {s : State} {off : Nat} : (count off s).ev = s.ev := rfl
@[simp] theorem count_eng {s : State} {off : Nat} : (count off s).eng = s.eng := rfl
@[simp] theorem count_ep {s : State} {off : Nat} : (count off s).ep = s.ep := rfl
@[simp] theorem count_prt {s : State} {off : Nat} : (count off s).prt = s.prt := rfl
@[simp] theorem count_pip {s : State} {off : Nat} : (count off s).pip = s.pip := rfl
@[simp] theorem count_cs {s : State} {off : Nat} : (count off s).cs = s.cs := rfl
@[simp] theorem count_lt {s : State} {off : Nat} : (count off s).lt = s.lt := rfl
@[simp] theorem count_rb {s : State} {off : Nat} : (count off s).rb = s.rb := rfl
@[simp] theorem count_pa {s : State} {off : Nat} : (count off s).pa = s.pa := rfl
@[simp] theorem count_led {s : State} {off : Nat} : (count off s).led = s.led := rfl
@[simp] theorem count_svc {s : State} {off : Nat} : (count off s).svc = s.svc := rfl
@[simp] theorem count_buf {s : State} {off : Nat} : (count off s).buf = s.buf := rfl
@[simp] theorem count_fab {s : State} {off : Nat} : (count off s).fab = s.fab := rfl
@[simp] theorem count_tm {s : State} {off : Nat} : (count off s).tm = s.tm := rfl
@[simp] theorem count_cap {s : State} {off : Nat} : (count off s).cap = s.cap := rfl
@[simp] theorem count_dw {s : State} {off : Nat} : (count off s).dw = s.dw := rfl
@[simp] theorem count_hst {s : State} {off : Nat} : (count off s).hst = s.hst := rfl
@[simp] theorem count_tun {s : State} {off : Nat} : (count off s).tun = s.tun := rfl
@[simp] theorem count_pair {s : State} {off : Nat} : (count off s).pair = s.pair := rfl
@[simp] theorem count_gov {s : State} {off : Nat} : (count off s).gov = s.gov := rfl
@[simp] theorem count_perf {s : State} {off : Nat} : (count off s).perf = s.perf := rfl
@[simp] theorem count_boot {s : State} {off : Nat} : (count off s).boot = s.boot := rfl
@[simp] theorem count_pins {s : State} {off : Nat} : (count off s).pins = s.pins := rfl
@[simp] theorem count_free {s : State} {off : Nat} : (count off s).free = s.free := rfl
@[simp] theorem count_out {s : State} {off : Nat} : (count off s).out = s.out := rfl
@[simp] theorem count_pending {s : State} {off : Nat} : (count off s).pending = s.pending := rfl

@[simp] theorem useLimit_clk {s : State} {key : Nat} : (useLimit key s).clk = s.clk := rfl
@[simp] theorem useLimit_cal {s : State} {key : Nat} : (useLimit key s).cal = s.cal := rfl
@[simp] theorem useLimit_fuse {s : State} {key : Nat} : (useLimit key s).fuse = s.fuse := rfl
@[simp] theorem useLimit_dict {s : State} {key : Nat} : (useLimit key s).dict = s.dict := rfl
@[simp] theorem useLimit_ctr {s : State} {key : Nat} : (useLimit key s).ctr = s.ctr := rfl
@[simp] theorem useLimit_eng {s : State} {key : Nat} : (useLimit key s).eng = s.eng := rfl
@[simp] theorem useLimit_ep {s : State} {key : Nat} : (useLimit key s).ep = s.ep := rfl
@[simp] theorem useLimit_prt {s : State} {key : Nat} : (useLimit key s).prt = s.prt := rfl
@[simp] theorem useLimit_pip {s : State} {key : Nat} : (useLimit key s).pip = s.pip := rfl
@[simp] theorem useLimit_cs {s : State} {key : Nat} : (useLimit key s).cs = s.cs := rfl
@[simp] theorem useLimit_lt {s : State} {key : Nat} : (useLimit key s).lt = s.lt := rfl
@[simp] theorem useLimit_rb {s : State} {key : Nat} : (useLimit key s).rb = s.rb := rfl
@[simp] theorem useLimit_pa {s : State} {key : Nat} : (useLimit key s).pa = s.pa := rfl
@[simp] theorem useLimit_led {s : State} {key : Nat} : (useLimit key s).led = s.led := rfl
@[simp] theorem useLimit_svc {s : State} {key : Nat} : (useLimit key s).svc = s.svc := rfl
@[simp] theorem useLimit_buf {s : State} {key : Nat} : (useLimit key s).buf = s.buf := rfl
@[simp] theorem useLimit_fab {s : State} {key : Nat} : (useLimit key s).fab = s.fab := rfl
@[simp] theorem useLimit_tm {s : State} {key : Nat} : (useLimit key s).tm = s.tm := rfl
@[simp] theorem useLimit_cap {s : State} {key : Nat} : (useLimit key s).cap = s.cap := rfl
@[simp] theorem useLimit_dw {s : State} {key : Nat} : (useLimit key s).dw = s.dw := rfl
@[simp] theorem useLimit_hst {s : State} {key : Nat} : (useLimit key s).hst = s.hst := rfl
@[simp] theorem useLimit_tun {s : State} {key : Nat} : (useLimit key s).tun = s.tun := rfl
@[simp] theorem useLimit_pair {s : State} {key : Nat} : (useLimit key s).pair = s.pair := rfl
@[simp] theorem useLimit_gov {s : State} {key : Nat} : (useLimit key s).gov = s.gov := rfl
@[simp] theorem useLimit_perf {s : State} {key : Nat} : (useLimit key s).perf = s.perf := rfl
@[simp] theorem useLimit_boot {s : State} {key : Nat} : (useLimit key s).boot = s.boot := rfl
@[simp] theorem useLimit_pins {s : State} {key : Nat} : (useLimit key s).pins = s.pins := rfl
@[simp] theorem useLimit_free {s : State} {key : Nat} : (useLimit key s).free = s.free := rfl
@[simp] theorem useLimit_out {s : State} {key : Nat} : (useLimit key s).out = s.out := rfl
@[simp] theorem useLimit_pending {s : State} {key : Nat} : (useLimit key s).pending = s.pending := rfl

@[simp] theorem putFrame_clk {s : State} {fid : Nat} {f : Frame} : (putFrame fid f s).clk = s.clk := rfl
@[simp] theorem putFrame_cal {s : State} {fid : Nat} {f : Frame} : (putFrame fid f s).cal = s.cal := rfl
@[simp] theorem putFrame_fuse {s : State} {fid : Nat} {f : Frame} : (putFrame fid f s).fuse = s.fuse := rfl
@[simp] theorem putFrame_dict {s : State} {fid : Nat} {f : Frame} : (putFrame fid f s).dict = s.dict := rfl
@[simp] theorem putFrame_ctr {s : State} {fid : Nat} {f : Frame} : (putFrame fid f s).ctr = s.ctr := rfl
@[simp] theorem putFrame_ev {s : State} {fid : Nat} {f : Frame} : (putFrame fid f s).ev = s.ev := rfl
@[simp] theorem putFrame_eng {s : State} {fid : Nat} {f : Frame} : (putFrame fid f s).eng = s.eng := rfl
@[simp] theorem putFrame_ep {s : State} {fid : Nat} {f : Frame} : (putFrame fid f s).ep = s.ep := rfl
@[simp] theorem putFrame_prt {s : State} {fid : Nat} {f : Frame} : (putFrame fid f s).prt = s.prt := rfl
@[simp] theorem putFrame_cs {s : State} {fid : Nat} {f : Frame} : (putFrame fid f s).cs = s.cs := rfl
@[simp] theorem putFrame_lt {s : State} {fid : Nat} {f : Frame} : (putFrame fid f s).lt = s.lt := rfl
@[simp] theorem putFrame_rb {s : State} {fid : Nat} {f : Frame} : (putFrame fid f s).rb = s.rb := rfl
@[simp] theorem putFrame_pa {s : State} {fid : Nat} {f : Frame} : (putFrame fid f s).pa = s.pa := rfl
@[simp] theorem putFrame_led {s : State} {fid : Nat} {f : Frame} : (putFrame fid f s).led = s.led := rfl
@[simp] theorem putFrame_svc {s : State} {fid : Nat} {f : Frame} : (putFrame fid f s).svc = s.svc := rfl
@[simp] theorem putFrame_buf {s : State} {fid : Nat} {f : Frame} : (putFrame fid f s).buf = s.buf := rfl
@[simp] theorem putFrame_fab {s : State} {fid : Nat} {f : Frame} : (putFrame fid f s).fab = s.fab := rfl
@[simp] theorem putFrame_tm {s : State} {fid : Nat} {f : Frame} : (putFrame fid f s).tm = s.tm := rfl
@[simp] theorem putFrame_cap {s : State} {fid : Nat} {f : Frame} : (putFrame fid f s).cap = s.cap := rfl
@[simp] theorem putFrame_dw {s : State} {fid : Nat} {f : Frame} : (putFrame fid f s).dw = s.dw := rfl
@[simp] theorem putFrame_hst {s : State} {fid : Nat} {f : Frame} : (putFrame fid f s).hst = s.hst := rfl
@[simp] theorem putFrame_tun {s : State} {fid : Nat} {f : Frame} : (putFrame fid f s).tun = s.tun := rfl
@[simp] theorem putFrame_pair {s : State} {fid : Nat} {f : Frame} : (putFrame fid f s).pair = s.pair := rfl
@[simp] theorem putFrame_gov {s : State} {fid : Nat} {f : Frame} : (putFrame fid f s).gov = s.gov := rfl
@[simp] theorem putFrame_perf {s : State} {fid : Nat} {f : Frame} : (putFrame fid f s).perf = s.perf := rfl
@[simp] theorem putFrame_boot {s : State} {fid : Nat} {f : Frame} : (putFrame fid f s).boot = s.boot := rfl
@[simp] theorem putFrame_pins {s : State} {fid : Nat} {f : Frame} : (putFrame fid f s).pins = s.pins := rfl
@[simp] theorem putFrame_free {s : State} {fid : Nat} {f : Frame} : (putFrame fid f s).free = s.free := rfl
@[simp] theorem putFrame_out {s : State} {fid : Nat} {f : Frame} : (putFrame fid f s).out = s.out := rfl
@[simp] theorem putFrame_pending {s : State} {fid : Nat} {f : Frame} : (putFrame fid f s).pending = s.pending := rfl

@[simp] theorem dropFrame_clk {s : State} {fid : Nat} : (dropFrame fid s).clk = s.clk := rfl
@[simp] theorem dropFrame_cal {s : State} {fid : Nat} : (dropFrame fid s).cal = s.cal := rfl
@[simp] theorem dropFrame_fuse {s : State} {fid : Nat} : (dropFrame fid s).fuse = s.fuse := rfl
@[simp] theorem dropFrame_dict {s : State} {fid : Nat} : (dropFrame fid s).dict = s.dict := rfl
@[simp] theorem dropFrame_ctr {s : State} {fid : Nat} : (dropFrame fid s).ctr = s.ctr := rfl
@[simp] theorem dropFrame_ev {s : State} {fid : Nat} : (dropFrame fid s).ev = s.ev := rfl
@[simp] theorem dropFrame_eng {s : State} {fid : Nat} : (dropFrame fid s).eng = s.eng := rfl
@[simp] theorem dropFrame_ep {s : State} {fid : Nat} : (dropFrame fid s).ep = s.ep := rfl
@[simp] theorem dropFrame_prt {s : State} {fid : Nat} : (dropFrame fid s).prt = s.prt := rfl
@[simp] theorem dropFrame_cs {s : State} {fid : Nat} : (dropFrame fid s).cs = s.cs := rfl
@[simp] theorem dropFrame_lt {s : State} {fid : Nat} : (dropFrame fid s).lt = s.lt := rfl
@[simp] theorem dropFrame_rb {s : State} {fid : Nat} : (dropFrame fid s).rb = s.rb := rfl
@[simp] theorem dropFrame_pa {s : State} {fid : Nat} : (dropFrame fid s).pa = s.pa := rfl
@[simp] theorem dropFrame_led {s : State} {fid : Nat} : (dropFrame fid s).led = s.led := rfl
@[simp] theorem dropFrame_svc {s : State} {fid : Nat} : (dropFrame fid s).svc = s.svc := rfl
@[simp] theorem dropFrame_buf {s : State} {fid : Nat} : (dropFrame fid s).buf = s.buf := rfl
@[simp] theorem dropFrame_fab {s : State} {fid : Nat} : (dropFrame fid s).fab = s.fab := rfl
@[simp] theorem dropFrame_tm {s : State} {fid : Nat} : (dropFrame fid s).tm = s.tm := rfl
@[simp] theorem dropFrame_cap {s : State} {fid : Nat} : (dropFrame fid s).cap = s.cap := rfl
@[simp] theorem dropFrame_dw {s : State} {fid : Nat} : (dropFrame fid s).dw = s.dw := rfl
@[simp] theorem dropFrame_hst {s : State} {fid : Nat} : (dropFrame fid s).hst = s.hst := rfl
@[simp] theorem dropFrame_tun {s : State} {fid : Nat} : (dropFrame fid s).tun = s.tun := rfl
@[simp] theorem dropFrame_pair {s : State} {fid : Nat} : (dropFrame fid s).pair = s.pair := rfl
@[simp] theorem dropFrame_gov {s : State} {fid : Nat} : (dropFrame fid s).gov = s.gov := rfl
@[simp] theorem dropFrame_perf {s : State} {fid : Nat} : (dropFrame fid s).perf = s.perf := rfl
@[simp] theorem dropFrame_boot {s : State} {fid : Nat} : (dropFrame fid s).boot = s.boot := rfl
@[simp] theorem dropFrame_pins {s : State} {fid : Nat} : (dropFrame fid s).pins = s.pins := rfl
@[simp] theorem dropFrame_free {s : State} {fid : Nat} : (dropFrame fid s).free = s.free := rfl
@[simp] theorem dropFrame_out {s : State} {fid : Nat} : (dropFrame fid s).out = s.out := rfl
@[simp] theorem dropFrame_pending {s : State} {fid : Nat} : (dropFrame fid s).pending = s.pending := rfl

@[simp] theorem setPipe_clk {s : State} {n : Nat} {p : PipeSt} : (setPipe n p s).clk = s.clk := rfl
@[simp] theorem setPipe_cal {s : State} {n : Nat} {p : PipeSt} : (setPipe n p s).cal = s.cal := rfl
@[simp] theorem setPipe_fuse {s : State} {n : Nat} {p : PipeSt} : (setPipe n p s).fuse = s.fuse := rfl
@[simp] theorem setPipe_dict {s : State} {n : Nat} {p : PipeSt} : (setPipe n p s).dict = s.dict := rfl
@[simp] theorem setPipe_ctr {s : State} {n : Nat} {p : PipeSt} : (setPipe n p s).ctr = s.ctr := rfl
@[simp] theorem setPipe_ev {s : State} {n : Nat} {p : PipeSt} : (setPipe n p s).ev = s.ev := rfl
@[simp] theorem setPipe_eng {s : State} {n : Nat} {p : PipeSt} : (setPipe n p s).eng = s.eng := rfl
@[simp] theorem setPipe_ep {s : State} {n : Nat} {p : PipeSt} : (setPipe n p s).ep = s.ep := rfl
@[simp] theorem setPipe_prt {s : State} {n : Nat} {p : PipeSt} : (setPipe n p s).prt = s.prt := rfl
@[simp] theorem setPipe_cs {s : State} {n : Nat} {p : PipeSt} : (setPipe n p s).cs = s.cs := rfl
@[simp] theorem setPipe_lt {s : State} {n : Nat} {p : PipeSt} : (setPipe n p s).lt = s.lt := rfl
@[simp] theorem setPipe_rb {s : State} {n : Nat} {p : PipeSt} : (setPipe n p s).rb = s.rb := rfl
@[simp] theorem setPipe_pa {s : State} {n : Nat} {p : PipeSt} : (setPipe n p s).pa = s.pa := rfl
@[simp] theorem setPipe_led {s : State} {n : Nat} {p : PipeSt} : (setPipe n p s).led = s.led := rfl
@[simp] theorem setPipe_svc {s : State} {n : Nat} {p : PipeSt} : (setPipe n p s).svc = s.svc := rfl
@[simp] theorem setPipe_buf {s : State} {n : Nat} {p : PipeSt} : (setPipe n p s).buf = s.buf := rfl
@[simp] theorem setPipe_fab {s : State} {n : Nat} {p : PipeSt} : (setPipe n p s).fab = s.fab := rfl
@[simp] theorem setPipe_tm {s : State} {n : Nat} {p : PipeSt} : (setPipe n p s).tm = s.tm := rfl
@[simp] theorem setPipe_cap {s : State} {n : Nat} {p : PipeSt} : (setPipe n p s).cap = s.cap := rfl
@[simp] theorem setPipe_dw {s : State} {n : Nat} {p : PipeSt} : (setPipe n p s).dw = s.dw := rfl
@[simp] theorem setPipe_hst {s : State} {n : Nat} {p : PipeSt} : (setPipe n p s).hst = s.hst := rfl
@[simp] theorem setPipe_tun {s : State} {n : Nat} {p : PipeSt} : (setPipe n p s).tun = s.tun := rfl
@[simp] theorem setPipe_pair {s : State} {n : Nat} {p : PipeSt} : (setPipe n p s).pair = s.pair := rfl
@[simp] theorem setPipe_gov {s : State} {n : Nat} {p : PipeSt} : (setPipe n p s).gov = s.gov := rfl
@[simp] theorem setPipe_perf {s : State} {n : Nat} {p : PipeSt} : (setPipe n p s).perf = s.perf := rfl
@[simp] theorem setPipe_boot {s : State} {n : Nat} {p : PipeSt} : (setPipe n p s).boot = s.boot := rfl
@[simp] theorem setPipe_pins {s : State} {n : Nat} {p : PipeSt} : (setPipe n p s).pins = s.pins := rfl
@[simp] theorem setPipe_free {s : State} {n : Nat} {p : PipeSt} : (setPipe n p s).free = s.free := rfl
@[simp] theorem setPipe_out {s : State} {n : Nat} {p : PipeSt} : (setPipe n p s).out = s.out := rfl
@[simp] theorem setPipe_pending {s : State} {n : Nat} {p : PipeSt} : (setPipe n p s).pending = s.pending := rfl

@[simp] theorem setPort_clk {s : State} {p : Nat} {x : PortSt} : (setPort p x s).clk = s.clk := rfl
@[simp] theorem setPort_cal {s : State} {p : Nat} {x : PortSt} : (setPort p x s).cal = s.cal := rfl
@[simp] theorem setPort_fuse {s : State} {p : Nat} {x : PortSt} : (setPort p x s).fuse = s.fuse := rfl
@[simp] theorem setPort_dict {s : State} {p : Nat} {x : PortSt} : (setPort p x s).dict = s.dict := rfl
@[simp] theorem setPort_ctr {s : State} {p : Nat} {x : PortSt} : (setPort p x s).ctr = s.ctr := rfl
@[simp] theorem setPort_ev {s : State} {p : Nat} {x : PortSt} : (setPort p x s).ev = s.ev := rfl
@[simp] theorem setPort_eng {s : State} {p : Nat} {x : PortSt} : (setPort p x s).eng = s.eng := rfl
@[simp] theorem setPort_ep {s : State} {p : Nat} {x : PortSt} : (setPort p x s).ep = s.ep := rfl
@[simp] theorem setPort_pip {s : State} {p : Nat} {x : PortSt} : (setPort p x s).pip = s.pip := rfl
@[simp] theorem setPort_cs {s : State} {p : Nat} {x : PortSt} : (setPort p x s).cs = s.cs := rfl
@[simp] theorem setPort_lt {s : State} {p : Nat} {x : PortSt} : (setPort p x s).lt = s.lt := rfl
@[simp] theorem setPort_rb {s : State} {p : Nat} {x : PortSt} : (setPort p x s).rb = s.rb := rfl
@[simp] theorem setPort_pa {s : State} {p : Nat} {x : PortSt} : (setPort p x s).pa = s.pa := rfl
@[simp] theorem setPort_led {s : State} {p : Nat} {x : PortSt} : (setPort p x s).led = s.led := rfl
@[simp] theorem setPort_svc {s : State} {p : Nat} {x : PortSt} : (setPort p x s).svc = s.svc := rfl
@[simp] theorem setPort_buf {s : State} {p : Nat} {x : PortSt} : (setPort p x s).buf = s.buf := rfl
@[simp] theorem setPort_fab {s : State} {p : Nat} {x : PortSt} : (setPort p x s).fab = s.fab := rfl
@[simp] theorem setPort_tm {s : State} {p : Nat} {x : PortSt} : (setPort p x s).tm = s.tm := rfl
@[simp] theorem setPort_cap {s : State} {p : Nat} {x : PortSt} : (setPort p x s).cap = s.cap := rfl
@[simp] theorem setPort_dw {s : State} {p : Nat} {x : PortSt} : (setPort p x s).dw = s.dw := rfl
@[simp] theorem setPort_hst {s : State} {p : Nat} {x : PortSt} : (setPort p x s).hst = s.hst := rfl
@[simp] theorem setPort_tun {s : State} {p : Nat} {x : PortSt} : (setPort p x s).tun = s.tun := rfl
@[simp] theorem setPort_pair {s : State} {p : Nat} {x : PortSt} : (setPort p x s).pair = s.pair := rfl
@[simp] theorem setPort_gov {s : State} {p : Nat} {x : PortSt} : (setPort p x s).gov = s.gov := rfl
@[simp] theorem setPort_perf {s : State} {p : Nat} {x : PortSt} : (setPort p x s).perf = s.perf := rfl
@[simp] theorem setPort_boot {s : State} {p : Nat} {x : PortSt} : (setPort p x s).boot = s.boot := rfl
@[simp] theorem setPort_pins {s : State} {p : Nat} {x : PortSt} : (setPort p x s).pins = s.pins := rfl
@[simp] theorem setPort_free {s : State} {p : Nat} {x : PortSt} : (setPort p x s).free = s.free := rfl
@[simp] theorem setPort_out {s : State} {p : Nat} {x : PortSt} : (setPort p x s).out = s.out := rfl
@[simp] theorem setPort_pending {s : State} {p : Nat} {x : PortSt} : (setPort p x s).pending = s.pending := rfl

@[simp] theorem setLink_clk {s : State} {p st : Nat} : (setLink p st s).clk = s.clk := rfl
@[simp] theorem setLink_cal {s : State} {p st : Nat} : (setLink p st s).cal = s.cal := rfl
@[simp] theorem setLink_fuse {s : State} {p st : Nat} : (setLink p st s).fuse = s.fuse := rfl
@[simp] theorem setLink_ctr {s : State} {p st : Nat} : (setLink p st s).ctr = s.ctr := rfl
@[simp] theorem setLink_ev {s : State} {p st : Nat} : (setLink p st s).ev = s.ev := rfl
@[simp] theorem setLink_eng {s : State} {p st : Nat} : (setLink p st s).eng = s.eng := rfl
@[simp] theorem setLink_ep {s : State} {p st : Nat} : (setLink p st s).ep = s.ep := rfl
@[simp] theorem setLink_prt {s : State} {p st : Nat} : (setLink p st s).prt = s.prt := rfl
@[simp] theorem setLink_pip {s : State} {p st : Nat} : (setLink p st s).pip = s.pip := rfl
@[simp] theorem setLink_cs {s : State} {p st : Nat} : (setLink p st s).cs = s.cs := rfl
@[simp] theorem setLink_lt {s : State} {p st : Nat} : (setLink p st s).lt = s.lt := rfl
@[simp] theorem setLink_rb {s : State} {p st : Nat} : (setLink p st s).rb = s.rb := rfl
@[simp] theorem setLink_pa {s : State} {p st : Nat} : (setLink p st s).pa = s.pa := rfl
@[simp] theorem setLink_led {s : State} {p st : Nat} : (setLink p st s).led = s.led := rfl
@[simp] theorem setLink_svc {s : State} {p st : Nat} : (setLink p st s).svc = s.svc := rfl
@[simp] theorem setLink_buf {s : State} {p st : Nat} : (setLink p st s).buf = s.buf := rfl
@[simp] theorem setLink_fab {s : State} {p st : Nat} : (setLink p st s).fab = s.fab := rfl
@[simp] theorem setLink_tm {s : State} {p st : Nat} : (setLink p st s).tm = s.tm := rfl
@[simp] theorem setLink_cap {s : State} {p st : Nat} : (setLink p st s).cap = s.cap := rfl
@[simp] theorem setLink_dw {s : State} {p st : Nat} : (setLink p st s).dw = s.dw := rfl
@[simp] theorem setLink_hst {s : State} {p st : Nat} : (setLink p st s).hst = s.hst := rfl
@[simp] theorem setLink_tun {s : State} {p st : Nat} : (setLink p st s).tun = s.tun := rfl
@[simp] theorem setLink_pair {s : State} {p st : Nat} : (setLink p st s).pair = s.pair := rfl
@[simp] theorem setLink_gov {s : State} {p st : Nat} : (setLink p st s).gov = s.gov := rfl
@[simp] theorem setLink_perf {s : State} {p st : Nat} : (setLink p st s).perf = s.perf := rfl
@[simp] theorem setLink_boot {s : State} {p st : Nat} : (setLink p st s).boot = s.boot := rfl
@[simp] theorem setLink_pins {s : State} {p st : Nat} : (setLink p st s).pins = s.pins := rfl
@[simp] theorem setLink_free {s : State} {p st : Nat} : (setLink p st s).free = s.free := rfl
@[simp] theorem setLink_out {s : State} {p st : Nat} : (setLink p st s).out = s.out := rfl
@[simp] theorem setLink_pending {s : State} {p st : Nat} : (setLink p st s).pending = s.pending := rfl

@[simp] theorem setPair_clk {s : State} {p : Pair} : (setPair p s).clk = s.clk := rfl
@[simp] theorem setPair_cal {s : State} {p : Pair} : (setPair p s).cal = s.cal := rfl
@[simp] theorem setPair_fuse {s : State} {p : Pair} : (setPair p s).fuse = s.fuse := rfl
@[simp] theorem setPair_dict {s : State} {p : Pair} : (setPair p s).dict = s.dict := rfl
@[simp] theorem setPair_ctr {s : State} {p : Pair} : (setPair p s).ctr = s.ctr := rfl
@[simp] theorem setPair_ev {s : State} {p : Pair} : (setPair p s).ev = s.ev := rfl
@[simp] theorem setPair_eng {s : State} {p : Pair} : (setPair p s).eng = s.eng := rfl
@[simp] theorem setPair_ep {s : State} {p : Pair} : (setPair p s).ep = s.ep := rfl
@[simp] theorem setPair_prt {s : State} {p : Pair} : (setPair p s).prt = s.prt := rfl
@[simp] theorem setPair_pip {s : State} {p : Pair} : (setPair p s).pip = s.pip := rfl
@[simp] theorem setPair_cs {s : State} {p : Pair} : (setPair p s).cs = s.cs := rfl
@[simp] theorem setPair_lt {s : State} {p : Pair} : (setPair p s).lt = s.lt := rfl
@[simp] theorem setPair_rb {s : State} {p : Pair} : (setPair p s).rb = s.rb := rfl
@[simp] theorem setPair_pa {s : State} {p : Pair} : (setPair p s).pa = s.pa := rfl
@[simp] theorem setPair_led {s : State} {p : Pair} : (setPair p s).led = s.led := rfl
@[simp] theorem setPair_svc {s : State} {p : Pair} : (setPair p s).svc = s.svc := rfl
@[simp] theorem setPair_buf {s : State} {p : Pair} : (setPair p s).buf = s.buf := rfl
@[simp] theorem setPair_fab {s : State} {p : Pair} : (setPair p s).fab = s.fab := rfl
@[simp] theorem setPair_tm {s : State} {p : Pair} : (setPair p s).tm = s.tm := rfl
@[simp] theorem setPair_cap {s : State} {p : Pair} : (setPair p s).cap = s.cap := rfl
@[simp] theorem setPair_dw {s : State} {p : Pair} : (setPair p s).dw = s.dw := rfl
@[simp] theorem setPair_hst {s : State} {p : Pair} : (setPair p s).hst = s.hst := rfl
@[simp] theorem setPair_tun {s : State} {p : Pair} : (setPair p s).tun = s.tun := rfl
@[simp] theorem setPair_gov {s : State} {p : Pair} : (setPair p s).gov = s.gov := rfl
@[simp] theorem setPair_perf {s : State} {p : Pair} : (setPair p s).perf = s.perf := rfl
@[simp] theorem setPair_boot {s : State} {p : Pair} : (setPair p s).boot = s.boot := rfl
@[simp] theorem setPair_pins {s : State} {p : Pair} : (setPair p s).pins = s.pins := rfl
@[simp] theorem setPair_free {s : State} {p : Pair} : (setPair p s).free = s.free := rfl
@[simp] theorem setPair_out {s : State} {p : Pair} : (setPair p s).out = s.out := rfl
@[simp] theorem setPair_pending {s : State} {p : Pair} : (setPair p s).pending = s.pending := rfl

@[simp] theorem setBoot_clk {s : State} {b : Boot} : (setBoot b s).clk = s.clk := rfl
@[simp] theorem setBoot_cal {s : State} {b : Boot} : (setBoot b s).cal = s.cal := rfl
@[simp] theorem setBoot_fuse {s : State} {b : Boot} : (setBoot b s).fuse = s.fuse := rfl
@[simp] theorem setBoot_dict {s : State} {b : Boot} : (setBoot b s).dict = s.dict := rfl
@[simp] theorem setBoot_ctr {s : State} {b : Boot} : (setBoot b s).ctr = s.ctr := rfl
@[simp] theorem setBoot_ev {s : State} {b : Boot} : (setBoot b s).ev = s.ev := rfl
@[simp] theorem setBoot_eng {s : State} {b : Boot} : (setBoot b s).eng = s.eng := rfl
@[simp] theorem setBoot_ep {s : State} {b : Boot} : (setBoot b s).ep = s.ep := rfl
@[simp] theorem setBoot_prt {s : State} {b : Boot} : (setBoot b s).prt = s.prt := rfl
@[simp] theorem setBoot_pip {s : State} {b : Boot} : (setBoot b s).pip = s.pip := rfl
@[simp] theorem setBoot_cs {s : State} {b : Boot} : (setBoot b s).cs = s.cs := rfl
@[simp] theorem setBoot_lt {s : State} {b : Boot} : (setBoot b s).lt = s.lt := rfl
@[simp] theorem setBoot_rb {s : State} {b : Boot} : (setBoot b s).rb = s.rb := rfl
@[simp] theorem setBoot_pa {s : State} {b : Boot} : (setBoot b s).pa = s.pa := rfl
@[simp] theorem setBoot_led {s : State} {b : Boot} : (setBoot b s).led = s.led := rfl
@[simp] theorem setBoot_svc {s : State} {b : Boot} : (setBoot b s).svc = s.svc := rfl
@[simp] theorem setBoot_buf {s : State} {b : Boot} : (setBoot b s).buf = s.buf := rfl
@[simp] theorem setBoot_fab {s : State} {b : Boot} : (setBoot b s).fab = s.fab := rfl
@[simp] theorem setBoot_tm {s : State} {b : Boot} : (setBoot b s).tm = s.tm := rfl
@[simp] theorem setBoot_cap {s : State} {b : Boot} : (setBoot b s).cap = s.cap := rfl
@[simp] theorem setBoot_dw {s : State} {b : Boot} : (setBoot b s).dw = s.dw := rfl
@[simp] theorem setBoot_hst {s : State} {b : Boot} : (setBoot b s).hst = s.hst := rfl
@[simp] theorem setBoot_tun {s : State} {b : Boot} : (setBoot b s).tun = s.tun := rfl
@[simp] theorem setBoot_pair {s : State} {b : Boot} : (setBoot b s).pair = s.pair := rfl
@[simp] theorem setBoot_gov {s : State} {b : Boot} : (setBoot b s).gov = s.gov := rfl
@[simp] theorem setBoot_perf {s : State} {b : Boot} : (setBoot b s).perf = s.perf := rfl
@[simp] theorem setBoot_pins {s : State} {b : Boot} : (setBoot b s).pins = s.pins := rfl
@[simp] theorem setBoot_free {s : State} {b : Boot} : (setBoot b s).free = s.free := rfl
@[simp] theorem setBoot_out {s : State} {b : Boot} : (setBoot b s).out = s.out := rfl
@[simp] theorem setBoot_pending {s : State} {b : Boot} : (setBoot b s).pending = s.pending := rfl

@[simp] theorem setGov_clk {s : State} {g : Gov} : (setGov g s).clk = s.clk := rfl
@[simp] theorem setGov_cal {s : State} {g : Gov} : (setGov g s).cal = s.cal := rfl
@[simp] theorem setGov_fuse {s : State} {g : Gov} : (setGov g s).fuse = s.fuse := rfl
@[simp] theorem setGov_dict {s : State} {g : Gov} : (setGov g s).dict = s.dict := rfl
@[simp] theorem setGov_ctr {s : State} {g : Gov} : (setGov g s).ctr = s.ctr := rfl
@[simp] theorem setGov_ev {s : State} {g : Gov} : (setGov g s).ev = s.ev := rfl
@[simp] theorem setGov_eng {s : State} {g : Gov} : (setGov g s).eng = s.eng := rfl
@[simp] theorem setGov_ep {s : State} {g : Gov} : (setGov g s).ep = s.ep := rfl
@[simp] theorem setGov_prt {s : State} {g : Gov} : (setGov g s).prt = s.prt := rfl
@[simp] theorem setGov_pip {s : State} {g : Gov} : (setGov g s).pip = s.pip := rfl
@[simp] theorem setGov_cs {s : State} {g : Gov} : (setGov g s).cs = s.cs := rfl
@[simp] theorem setGov_lt {s : State} {g : Gov} : (setGov g s).lt = s.lt := rfl
@[simp] theorem setGov_rb {s : State} {g : Gov} : (setGov g s).rb = s.rb := rfl
@[simp] theorem setGov_pa {s : State} {g : Gov} : (setGov g s).pa = s.pa := rfl
@[simp] theorem setGov_led {s : State} {g : Gov} : (setGov g s).led = s.led := rfl
@[simp] theorem setGov_svc {s : State} {g : Gov} : (setGov g s).svc = s.svc := rfl
@[simp] theorem setGov_buf {s : State} {g : Gov} : (setGov g s).buf = s.buf := rfl
@[simp] theorem setGov_fab {s : State} {g : Gov} : (setGov g s).fab = s.fab := rfl
@[simp] theorem setGov_tm {s : State} {g : Gov} : (setGov g s).tm = s.tm := rfl
@[simp] theorem setGov_cap {s : State} {g : Gov} : (setGov g s).cap = s.cap := rfl
@[simp] theorem setGov_dw {s : State} {g : Gov} : (setGov g s).dw = s.dw := rfl
@[simp] theorem setGov_hst {s : State} {g : Gov} : (setGov g s).hst = s.hst := rfl
@[simp] theorem setGov_tun {s : State} {g : Gov} : (setGov g s).tun = s.tun := rfl
@[simp] theorem setGov_pair {s : State} {g : Gov} : (setGov g s).pair = s.pair := rfl
@[simp] theorem setGov_perf {s : State} {g : Gov} : (setGov g s).perf = s.perf := rfl
@[simp] theorem setGov_boot {s : State} {g : Gov} : (setGov g s).boot = s.boot := rfl
@[simp] theorem setGov_pins {s : State} {g : Gov} : (setGov g s).pins = s.pins := rfl
@[simp] theorem setGov_free {s : State} {g : Gov} : (setGov g s).free = s.free := rfl
@[simp] theorem setGov_out {s : State} {g : Gov} : (setGov g s).out = s.out := rfl
@[simp] theorem setGov_pending {s : State} {g : Gov} : (setGov g s).pending = s.pending := rfl

@[simp] theorem setDw_clk {s : State} {d : Dw} : (setDw d s).clk = s.clk := rfl
@[simp] theorem setDw_cal {s : State} {d : Dw} : (setDw d s).cal = s.cal := rfl
@[simp] theorem setDw_fuse {s : State} {d : Dw} : (setDw d s).fuse = s.fuse := rfl
@[simp] theorem setDw_dict {s : State} {d : Dw} : (setDw d s).dict = s.dict := rfl
@[simp] theorem setDw_ctr {s : State} {d : Dw} : (setDw d s).ctr = s.ctr := rfl
@[simp] theorem setDw_ev {s : State} {d : Dw} : (setDw d s).ev = s.ev := rfl
@[simp] theorem setDw_eng {s : State} {d : Dw} : (setDw d s).eng = s.eng := rfl
@[simp] theorem setDw_ep {s : State} {d : Dw} : (setDw d s).ep = s.ep := rfl
@[simp] theorem setDw_prt {s : State} {d : Dw} : (setDw d s).prt = s.prt := rfl
@[simp] theorem setDw_pip {s : State} {d : Dw} : (setDw d s).pip = s.pip := rfl
@[simp] theorem setDw_cs {s : State} {d : Dw} : (setDw d s).cs = s.cs := rfl
@[simp] theorem setDw_lt {s : State} {d : Dw} : (setDw d s).lt = s.lt := rfl
@[simp] theorem setDw_rb {s : State} {d : Dw} : (setDw d s).rb = s.rb := rfl
@[simp] theorem setDw_pa {s : State} {d : Dw} : (setDw d s).pa = s.pa := rfl
@[simp] theorem setDw_led {s : State} {d : Dw} : (setDw d s).led = s.led := rfl
@[simp] theorem setDw_svc {s : State} {d : Dw} : (setDw d s).svc = s.svc := rfl
@[simp] theorem setDw_buf {s : State} {d : Dw} : (setDw d s).buf = s.buf := rfl
@[simp] theorem setDw_fab {s : State} {d : Dw} : (setDw d s).fab = s.fab := rfl
@[simp] theorem setDw_tm {s : State} {d : Dw} : (setDw d s).tm = s.tm := rfl
@[simp] theorem setDw_cap {s : State} {d : Dw} : (setDw d s).cap = s.cap := rfl
@[simp] theorem setDw_hst {s : State} {d : Dw} : (setDw d s).hst = s.hst := rfl
@[simp] theorem setDw_tun {s : State} {d : Dw} : (setDw d s).tun = s.tun := rfl
@[simp] theorem setDw_pair {s : State} {d : Dw} : (setDw d s).pair = s.pair := rfl
@[simp] theorem setDw_gov {s : State} {d : Dw} : (setDw d s).gov = s.gov := rfl
@[simp] theorem setDw_perf {s : State} {d : Dw} : (setDw d s).perf = s.perf := rfl
@[simp] theorem setDw_boot {s : State} {d : Dw} : (setDw d s).boot = s.boot := rfl
@[simp] theorem setDw_pins {s : State} {d : Dw} : (setDw d s).pins = s.pins := rfl
@[simp] theorem setDw_free {s : State} {d : Dw} : (setDw d s).free = s.free := rfl
@[simp] theorem setDw_out {s : State} {d : Dw} : (setDw d s).out = s.out := rfl
@[simp] theorem setDw_pending {s : State} {d : Dw} : (setDw d s).pending = s.pending := rfl

@[simp] theorem setLed_clk {s : State} {l : Led} : (setLed l s).clk = s.clk := rfl
@[simp] theorem setLed_cal {s : State} {l : Led} : (setLed l s).cal = s.cal := rfl
@[simp] theorem setLed_fuse {s : State} {l : Led} : (setLed l s).fuse = s.fuse := rfl
@[simp] theorem setLed_dict {s : State} {l : Led} : (setLed l s).dict = s.dict := rfl
@[simp] theorem setLed_ctr {s : State} {l : Led} : (setLed l s).ctr = s.ctr := rfl
@[simp] theorem setLed_ev {s : State} {l : Led} : (setLed l s).ev = s.ev := rfl
@[simp] theorem setLed_eng {s : State} {l : Led} : (setLed l s).eng = s.eng := rfl
@[simp] theorem setLed_ep {s : State} {l : Led} : (setLed l s).ep = s.ep := rfl
@[simp] theorem setLed_prt {s : State} {l : Led} : (setLed l s).prt = s.prt := rfl
@[simp] theorem setLed_pip {s : State} {l : Led} : (setLed l s).pip = s.pip := rfl
@[simp] theorem setLed_cs {s : State} {l : Led} : (setLed l s).cs = s.cs := rfl
@[simp] theorem setLed_lt {s : State} {l : Led} : (setLed l s).lt = s.lt := rfl
@[simp] theorem setLed_rb {s : State} {l : Led} : (setLed l s).rb = s.rb := rfl
@[simp] theorem setLed_pa {s : State} {l : Led} : (setLed l s).pa = s.pa := rfl
@[simp] theorem setLed_svc {s : State} {l : Led} : (setLed l s).svc = s.svc := rfl
@[simp] theorem setLed_buf {s : State} {l : Led} : (setLed l s).buf = s.buf := rfl
@[simp] theorem setLed_fab {s : State} {l : Led} : (setLed l s).fab = s.fab := rfl
@[simp] theorem setLed_tm {s : State} {l : Led} : (setLed l s).tm = s.tm := rfl
@[simp] theorem setLed_cap {s : State} {l : Led} : (setLed l s).cap = s.cap := rfl
@[simp] theorem setLed_dw {s : State} {l : Led} : (setLed l s).dw = s.dw := rfl
@[simp] theorem setLed_hst {s : State} {l : Led} : (setLed l s).hst = s.hst := rfl
@[simp] theorem setLed_tun {s : State} {l : Led} : (setLed l s).tun = s.tun := rfl
@[simp] theorem setLed_pair {s : State} {l : Led} : (setLed l s).pair = s.pair := rfl
@[simp] theorem setLed_gov {s : State} {l : Led} : (setLed l s).gov = s.gov := rfl
@[simp] theorem setLed_perf {s : State} {l : Led} : (setLed l s).perf = s.perf := rfl
@[simp] theorem setLed_boot {s : State} {l : Led} : (setLed l s).boot = s.boot := rfl
@[simp] theorem setLed_pins {s : State} {l : Led} : (setLed l s).pins = s.pins := rfl
@[simp] theorem setLed_free {s : State} {l : Led} : (setLed l s).free = s.free := rfl
@[simp] theorem setLed_out {s : State} {l : Led} : (setLed l s).out = s.out := rfl
@[simp] theorem setLed_pending {s : State} {l : Led} : (setLed l s).pending = s.pending := rfl

@[simp] theorem setSlc_clk {s : State} {f : Nat} {x : SliceSt} : (setSlc f x s).clk = s.clk := rfl
@[simp] theorem setSlc_cal {s : State} {f : Nat} {x : SliceSt} : (setSlc f x s).cal = s.cal := rfl
@[simp] theorem setSlc_fuse {s : State} {f : Nat} {x : SliceSt} : (setSlc f x s).fuse = s.fuse := rfl
@[simp] theorem setSlc_dict {s : State} {f : Nat} {x : SliceSt} : (setSlc f x s).dict = s.dict := rfl
@[simp] theorem setSlc_ctr {s : State} {f : Nat} {x : SliceSt} : (setSlc f x s).ctr = s.ctr := rfl
@[simp] theorem setSlc_ev {s : State} {f : Nat} {x : SliceSt} : (setSlc f x s).ev = s.ev := rfl
@[simp] theorem setSlc_eng {s : State} {f : Nat} {x : SliceSt} : (setSlc f x s).eng = s.eng := rfl
@[simp] theorem setSlc_ep {s : State} {f : Nat} {x : SliceSt} : (setSlc f x s).ep = s.ep := rfl
@[simp] theorem setSlc_prt {s : State} {f : Nat} {x : SliceSt} : (setSlc f x s).prt = s.prt := rfl
@[simp] theorem setSlc_pip {s : State} {f : Nat} {x : SliceSt} : (setSlc f x s).pip = s.pip := rfl
@[simp] theorem setSlc_cs {s : State} {f : Nat} {x : SliceSt} : (setSlc f x s).cs = s.cs := rfl
@[simp] theorem setSlc_lt {s : State} {f : Nat} {x : SliceSt} : (setSlc f x s).lt = s.lt := rfl
@[simp] theorem setSlc_rb {s : State} {f : Nat} {x : SliceSt} : (setSlc f x s).rb = s.rb := rfl
@[simp] theorem setSlc_pa {s : State} {f : Nat} {x : SliceSt} : (setSlc f x s).pa = s.pa := rfl
@[simp] theorem setSlc_svc {s : State} {f : Nat} {x : SliceSt} : (setSlc f x s).svc = s.svc := rfl
@[simp] theorem setSlc_buf {s : State} {f : Nat} {x : SliceSt} : (setSlc f x s).buf = s.buf := rfl
@[simp] theorem setSlc_fab {s : State} {f : Nat} {x : SliceSt} : (setSlc f x s).fab = s.fab := rfl
@[simp] theorem setSlc_tm {s : State} {f : Nat} {x : SliceSt} : (setSlc f x s).tm = s.tm := rfl
@[simp] theorem setSlc_cap {s : State} {f : Nat} {x : SliceSt} : (setSlc f x s).cap = s.cap := rfl
@[simp] theorem setSlc_dw {s : State} {f : Nat} {x : SliceSt} : (setSlc f x s).dw = s.dw := rfl
@[simp] theorem setSlc_hst {s : State} {f : Nat} {x : SliceSt} : (setSlc f x s).hst = s.hst := rfl
@[simp] theorem setSlc_tun {s : State} {f : Nat} {x : SliceSt} : (setSlc f x s).tun = s.tun := rfl
@[simp] theorem setSlc_pair {s : State} {f : Nat} {x : SliceSt} : (setSlc f x s).pair = s.pair := rfl
@[simp] theorem setSlc_gov {s : State} {f : Nat} {x : SliceSt} : (setSlc f x s).gov = s.gov := rfl
@[simp] theorem setSlc_perf {s : State} {f : Nat} {x : SliceSt} : (setSlc f x s).perf = s.perf := rfl
@[simp] theorem setSlc_boot {s : State} {f : Nat} {x : SliceSt} : (setSlc f x s).boot = s.boot := rfl
@[simp] theorem setSlc_pins {s : State} {f : Nat} {x : SliceSt} : (setSlc f x s).pins = s.pins := rfl
@[simp] theorem setSlc_free {s : State} {f : Nat} {x : SliceSt} : (setSlc f x s).free = s.free := rfl
@[simp] theorem setSlc_out {s : State} {f : Nat} {x : SliceSt} : (setSlc f x s).out = s.out := rfl
@[simp] theorem setSlc_pending {s : State} {f : Nat} {x : SliceSt} : (setSlc f x s).pending = s.pending := rfl

@[simp] theorem setLt_clk {s : State} {l : Lt} : (setLt l s).clk = s.clk := rfl
@[simp] theorem setLt_cal {s : State} {l : Lt} : (setLt l s).cal = s.cal := rfl
@[simp] theorem setLt_fuse {s : State} {l : Lt} : (setLt l s).fuse = s.fuse := rfl
@[simp] theorem setLt_dict {s : State} {l : Lt} : (setLt l s).dict = s.dict := rfl
@[simp] theorem setLt_ctr {s : State} {l : Lt} : (setLt l s).ctr = s.ctr := rfl
@[simp] theorem setLt_ev {s : State} {l : Lt} : (setLt l s).ev = s.ev := rfl
@[simp] theorem setLt_eng {s : State} {l : Lt} : (setLt l s).eng = s.eng := rfl
@[simp] theorem setLt_ep {s : State} {l : Lt} : (setLt l s).ep = s.ep := rfl
@[simp] theorem setLt_prt {s : State} {l : Lt} : (setLt l s).prt = s.prt := rfl
@[simp] theorem setLt_pip {s : State} {l : Lt} : (setLt l s).pip = s.pip := rfl
@[simp] theorem setLt_cs {s : State} {l : Lt} : (setLt l s).cs = s.cs := rfl
@[simp] theorem setLt_rb {s : State} {l : Lt} : (setLt l s).rb = s.rb := rfl
@[simp] theorem setLt_pa {s : State} {l : Lt} : (setLt l s).pa = s.pa := rfl
@[simp] theorem setLt_led {s : State} {l : Lt} : (setLt l s).led = s.led := rfl
@[simp] theorem setLt_svc {s : State} {l : Lt} : (setLt l s).svc = s.svc := rfl
@[simp] theorem setLt_buf {s : State} {l : Lt} : (setLt l s).buf = s.buf := rfl
@[simp] theorem setLt_fab {s : State} {l : Lt} : (setLt l s).fab = s.fab := rfl
@[simp] theorem setLt_tm {s : State} {l : Lt} : (setLt l s).tm = s.tm := rfl
@[simp] theorem setLt_cap {s : State} {l : Lt} : (setLt l s).cap = s.cap := rfl
@[simp] theorem setLt_dw {s : State} {l : Lt} : (setLt l s).dw = s.dw := rfl
@[simp] theorem setLt_hst {s : State} {l : Lt} : (setLt l s).hst = s.hst := rfl
@[simp] theorem setLt_tun {s : State} {l : Lt} : (setLt l s).tun = s.tun := rfl
@[simp] theorem setLt_pair {s : State} {l : Lt} : (setLt l s).pair = s.pair := rfl
@[simp] theorem setLt_gov {s : State} {l : Lt} : (setLt l s).gov = s.gov := rfl
@[simp] theorem setLt_perf {s : State} {l : Lt} : (setLt l s).perf = s.perf := rfl
@[simp] theorem setLt_boot {s : State} {l : Lt} : (setLt l s).boot = s.boot := rfl
@[simp] theorem setLt_pins {s : State} {l : Lt} : (setLt l s).pins = s.pins := rfl
@[simp] theorem setLt_free {s : State} {l : Lt} : (setLt l s).free = s.free := rfl
@[simp] theorem setLt_out {s : State} {l : Lt} : (setLt l s).out = s.out := rfl
@[simp] theorem setLt_pending {s : State} {l : Lt} : (setLt l s).pending = s.pending := rfl

@[simp] theorem setRb_clk {s : State} {r : Rb} : (setRb r s).clk = s.clk := rfl
@[simp] theorem setRb_cal {s : State} {r : Rb} : (setRb r s).cal = s.cal := rfl
@[simp] theorem setRb_fuse {s : State} {r : Rb} : (setRb r s).fuse = s.fuse := rfl
@[simp] theorem setRb_dict {s : State} {r : Rb} : (setRb r s).dict = s.dict := rfl
@[simp] theorem setRb_ctr {s : State} {r : Rb} : (setRb r s).ctr = s.ctr := rfl
@[simp] theorem setRb_ev {s : State} {r : Rb} : (setRb r s).ev = s.ev := rfl
@[simp] theorem setRb_eng {s : State} {r : Rb} : (setRb r s).eng = s.eng := rfl
@[simp] theorem setRb_ep {s : State} {r : Rb} : (setRb r s).ep = s.ep := rfl
@[simp] theorem setRb_prt {s : State} {r : Rb} : (setRb r s).prt = s.prt := rfl
@[simp] theorem setRb_pip {s : State} {r : Rb} : (setRb r s).pip = s.pip := rfl
@[simp] theorem setRb_cs {s : State} {r : Rb} : (setRb r s).cs = s.cs := rfl
@[simp] theorem setRb_lt {s : State} {r : Rb} : (setRb r s).lt = s.lt := rfl
@[simp] theorem setRb_pa {s : State} {r : Rb} : (setRb r s).pa = s.pa := rfl
@[simp] theorem setRb_led {s : State} {r : Rb} : (setRb r s).led = s.led := rfl
@[simp] theorem setRb_svc {s : State} {r : Rb} : (setRb r s).svc = s.svc := rfl
@[simp] theorem setRb_buf {s : State} {r : Rb} : (setRb r s).buf = s.buf := rfl
@[simp] theorem setRb_fab {s : State} {r : Rb} : (setRb r s).fab = s.fab := rfl
@[simp] theorem setRb_tm {s : State} {r : Rb} : (setRb r s).tm = s.tm := rfl
@[simp] theorem setRb_cap {s : State} {r : Rb} : (setRb r s).cap = s.cap := rfl
@[simp] theorem setRb_dw {s : State} {r : Rb} : (setRb r s).dw = s.dw := rfl
@[simp] theorem setRb_hst {s : State} {r : Rb} : (setRb r s).hst = s.hst := rfl
@[simp] theorem setRb_tun {s : State} {r : Rb} : (setRb r s).tun = s.tun := rfl
@[simp] theorem setRb_pair {s : State} {r : Rb} : (setRb r s).pair = s.pair := rfl
@[simp] theorem setRb_gov {s : State} {r : Rb} : (setRb r s).gov = s.gov := rfl
@[simp] theorem setRb_perf {s : State} {r : Rb} : (setRb r s).perf = s.perf := rfl
@[simp] theorem setRb_boot {s : State} {r : Rb} : (setRb r s).boot = s.boot := rfl
@[simp] theorem setRb_pins {s : State} {r : Rb} : (setRb r s).pins = s.pins := rfl
@[simp] theorem setRb_free {s : State} {r : Rb} : (setRb r s).free = s.free := rfl
@[simp] theorem setRb_out {s : State} {r : Rb} : (setRb r s).out = s.out := rfl
@[simp] theorem setRb_pending {s : State} {r : Rb} : (setRb r s).pending = s.pending := rfl

@[simp] theorem setPa_clk {s : State} {p : Pa} : (setPa p s).clk = s.clk := rfl
@[simp] theorem setPa_cal {s : State} {p : Pa} : (setPa p s).cal = s.cal := rfl
@[simp] theorem setPa_fuse {s : State} {p : Pa} : (setPa p s).fuse = s.fuse := rfl
@[simp] theorem setPa_dict {s : State} {p : Pa} : (setPa p s).dict = s.dict := rfl
@[simp] theorem setPa_ctr {s : State} {p : Pa} : (setPa p s).ctr = s.ctr := rfl
@[simp] theorem setPa_ev {s : State} {p : Pa} : (setPa p s).ev = s.ev := rfl
@[simp] theorem setPa_eng {s : State} {p : Pa} : (setPa p s).eng = s.eng := rfl
@[simp] theorem setPa_ep {s : State} {p : Pa} : (setPa p s).ep = s.ep := rfl
@[simp] theorem setPa_prt {s : State} {p : Pa} : (setPa p s).prt = s.prt := rfl
@[simp] theorem setPa_pip {s : State} {p : Pa} : (setPa p s).pip = s.pip := rfl
@[simp] theorem setPa_cs {s : State} {p : Pa} : (setPa p s).cs = s.cs := rfl
@[simp] theorem setPa_lt {s : State} {p : Pa} : (setPa p s).lt = s.lt := rfl
@[simp] theorem setPa_rb {s : State} {p : Pa} : (setPa p s).rb = s.rb := rfl
@[simp] theorem setPa_led {s : State} {p : Pa} : (setPa p s).led = s.led := rfl
@[simp] theorem setPa_svc {s : State} {p : Pa} : (setPa p s).svc = s.svc := rfl
@[simp] theorem setPa_buf {s : State} {p : Pa} : (setPa p s).buf = s.buf := rfl
@[simp] theorem setPa_fab {s : State} {p : Pa} : (setPa p s).fab = s.fab := rfl
@[simp] theorem setPa_tm {s : State} {p : Pa} : (setPa p s).tm = s.tm := rfl
@[simp] theorem setPa_cap {s : State} {p : Pa} : (setPa p s).cap = s.cap := rfl
@[simp] theorem setPa_dw {s : State} {p : Pa} : (setPa p s).dw = s.dw := rfl
@[simp] theorem setPa_hst {s : State} {p : Pa} : (setPa p s).hst = s.hst := rfl
@[simp] theorem setPa_tun {s : State} {p : Pa} : (setPa p s).tun = s.tun := rfl
@[simp] theorem setPa_pair {s : State} {p : Pa} : (setPa p s).pair = s.pair := rfl
@[simp] theorem setPa_gov {s : State} {p : Pa} : (setPa p s).gov = s.gov := rfl
@[simp] theorem setPa_perf {s : State} {p : Pa} : (setPa p s).perf = s.perf := rfl
@[simp] theorem setPa_boot {s : State} {p : Pa} : (setPa p s).boot = s.boot := rfl
@[simp] theorem setPa_pins {s : State} {p : Pa} : (setPa p s).pins = s.pins := rfl
@[simp] theorem setPa_free {s : State} {p : Pa} : (setPa p s).free = s.free := rfl
@[simp] theorem setPa_out {s : State} {p : Pa} : (setPa p s).out = s.out := rfl
@[simp] theorem setPa_pending {s : State} {p : Pa} : (setPa p s).pending = s.pending := rfl

@[simp] theorem setSvc_clk {s : State} {v : Svc} : (setSvc v s).clk = s.clk := rfl
@[simp] theorem setSvc_cal {s : State} {v : Svc} : (setSvc v s).cal = s.cal := rfl
@[simp] theorem setSvc_fuse {s : State} {v : Svc} : (setSvc v s).fuse = s.fuse := rfl
@[simp] theorem setSvc_dict {s : State} {v : Svc} : (setSvc v s).dict = s.dict := rfl
@[simp] theorem setSvc_ctr {s : State} {v : Svc} : (setSvc v s).ctr = s.ctr := rfl
@[simp] theorem setSvc_ev {s : State} {v : Svc} : (setSvc v s).ev = s.ev := rfl
@[simp] theorem setSvc_eng {s : State} {v : Svc} : (setSvc v s).eng = s.eng := rfl
@[simp] theorem setSvc_ep {s : State} {v : Svc} : (setSvc v s).ep = s.ep := rfl
@[simp] theorem setSvc_prt {s : State} {v : Svc} : (setSvc v s).prt = s.prt := rfl
@[simp] theorem setSvc_pip {s : State} {v : Svc} : (setSvc v s).pip = s.pip := rfl
@[simp] theorem setSvc_cs {s : State} {v : Svc} : (setSvc v s).cs = s.cs := rfl
@[simp] theorem setSvc_lt {s : State} {v : Svc} : (setSvc v s).lt = s.lt := rfl
@[simp] theorem setSvc_rb {s : State} {v : Svc} : (setSvc v s).rb = s.rb := rfl
@[simp] theorem setSvc_pa {s : State} {v : Svc} : (setSvc v s).pa = s.pa := rfl
@[simp] theorem setSvc_led {s : State} {v : Svc} : (setSvc v s).led = s.led := rfl
@[simp] theorem setSvc_buf {s : State} {v : Svc} : (setSvc v s).buf = s.buf := rfl
@[simp] theorem setSvc_fab {s : State} {v : Svc} : (setSvc v s).fab = s.fab := rfl
@[simp] theorem setSvc_tm {s : State} {v : Svc} : (setSvc v s).tm = s.tm := rfl
@[simp] theorem setSvc_cap {s : State} {v : Svc} : (setSvc v s).cap = s.cap := rfl
@[simp] theorem setSvc_dw {s : State} {v : Svc} : (setSvc v s).dw = s.dw := rfl
@[simp] theorem setSvc_hst {s : State} {v : Svc} : (setSvc v s).hst = s.hst := rfl
@[simp] theorem setSvc_tun {s : State} {v : Svc} : (setSvc v s).tun = s.tun := rfl
@[simp] theorem setSvc_pair {s : State} {v : Svc} : (setSvc v s).pair = s.pair := rfl
@[simp] theorem setSvc_gov {s : State} {v : Svc} : (setSvc v s).gov = s.gov := rfl
@[simp] theorem setSvc_perf {s : State} {v : Svc} : (setSvc v s).perf = s.perf := rfl
@[simp] theorem setSvc_boot {s : State} {v : Svc} : (setSvc v s).boot = s.boot := rfl
@[simp] theorem setSvc_pins {s : State} {v : Svc} : (setSvc v s).pins = s.pins := rfl
@[simp] theorem setSvc_free {s : State} {v : Svc} : (setSvc v s).free = s.free := rfl
@[simp] theorem setSvc_out {s : State} {v : Svc} : (setSvc v s).out = s.out := rfl
@[simp] theorem setSvc_pending {s : State} {v : Svc} : (setSvc v s).pending = s.pending := rfl

@[simp] theorem setTm_clk {s : State} {t : Tm} : (setTm t s).clk = s.clk := rfl
@[simp] theorem setTm_cal {s : State} {t : Tm} : (setTm t s).cal = s.cal := rfl
@[simp] theorem setTm_fuse {s : State} {t : Tm} : (setTm t s).fuse = s.fuse := rfl
@[simp] theorem setTm_dict {s : State} {t : Tm} : (setTm t s).dict = s.dict := rfl
@[simp] theorem setTm_ctr {s : State} {t : Tm} : (setTm t s).ctr = s.ctr := rfl
@[simp] theorem setTm_ev {s : State} {t : Tm} : (setTm t s).ev = s.ev := rfl
@[simp] theorem setTm_eng {s : State} {t : Tm} : (setTm t s).eng = s.eng := rfl
@[simp] theorem setTm_ep {s : State} {t : Tm} : (setTm t s).ep = s.ep := rfl
@[simp] theorem setTm_prt {s : State} {t : Tm} : (setTm t s).prt = s.prt := rfl
@[simp] theorem setTm_pip {s : State} {t : Tm} : (setTm t s).pip = s.pip := rfl
@[simp] theorem setTm_cs {s : State} {t : Tm} : (setTm t s).cs = s.cs := rfl
@[simp] theorem setTm_lt {s : State} {t : Tm} : (setTm t s).lt = s.lt := rfl
@[simp] theorem setTm_rb {s : State} {t : Tm} : (setTm t s).rb = s.rb := rfl
@[simp] theorem setTm_pa {s : State} {t : Tm} : (setTm t s).pa = s.pa := rfl
@[simp] theorem setTm_led {s : State} {t : Tm} : (setTm t s).led = s.led := rfl
@[simp] theorem setTm_svc {s : State} {t : Tm} : (setTm t s).svc = s.svc := rfl
@[simp] theorem setTm_buf {s : State} {t : Tm} : (setTm t s).buf = s.buf := rfl
@[simp] theorem setTm_fab {s : State} {t : Tm} : (setTm t s).fab = s.fab := rfl
@[simp] theorem setTm_cap {s : State} {t : Tm} : (setTm t s).cap = s.cap := rfl
@[simp] theorem setTm_dw {s : State} {t : Tm} : (setTm t s).dw = s.dw := rfl
@[simp] theorem setTm_hst {s : State} {t : Tm} : (setTm t s).hst = s.hst := rfl
@[simp] theorem setTm_tun {s : State} {t : Tm} : (setTm t s).tun = s.tun := rfl
@[simp] theorem setTm_pair {s : State} {t : Tm} : (setTm t s).pair = s.pair := rfl
@[simp] theorem setTm_gov {s : State} {t : Tm} : (setTm t s).gov = s.gov := rfl
@[simp] theorem setTm_perf {s : State} {t : Tm} : (setTm t s).perf = s.perf := rfl
@[simp] theorem setTm_boot {s : State} {t : Tm} : (setTm t s).boot = s.boot := rfl
@[simp] theorem setTm_pins {s : State} {t : Tm} : (setTm t s).pins = s.pins := rfl
@[simp] theorem setTm_free {s : State} {t : Tm} : (setTm t s).free = s.free := rfl
@[simp] theorem setTm_out {s : State} {t : Tm} : (setTm t s).out = s.out := rfl
@[simp] theorem setTm_pending {s : State} {t : Tm} : (setTm t s).pending = s.pending := rfl

@[simp] theorem setFab_clk {s : State} {f : Fab} : (setFab f s).clk = s.clk := rfl
@[simp] theorem setFab_cal {s : State} {f : Fab} : (setFab f s).cal = s.cal := rfl
@[simp] theorem setFab_fuse {s : State} {f : Fab} : (setFab f s).fuse = s.fuse := rfl
@[simp] theorem setFab_dict {s : State} {f : Fab} : (setFab f s).dict = s.dict := rfl
@[simp] theorem setFab_ctr {s : State} {f : Fab} : (setFab f s).ctr = s.ctr := rfl
@[simp] theorem setFab_ev {s : State} {f : Fab} : (setFab f s).ev = s.ev := rfl
@[simp] theorem setFab_eng {s : State} {f : Fab} : (setFab f s).eng = s.eng := rfl
@[simp] theorem setFab_ep {s : State} {f : Fab} : (setFab f s).ep = s.ep := rfl
@[simp] theorem setFab_prt {s : State} {f : Fab} : (setFab f s).prt = s.prt := rfl
@[simp] theorem setFab_pip {s : State} {f : Fab} : (setFab f s).pip = s.pip := rfl
@[simp] theorem setFab_cs {s : State} {f : Fab} : (setFab f s).cs = s.cs := rfl
@[simp] theorem setFab_lt {s : State} {f : Fab} : (setFab f s).lt = s.lt := rfl
@[simp] theorem setFab_rb {s : State} {f : Fab} : (setFab f s).rb = s.rb := rfl
@[simp] theorem setFab_pa {s : State} {f : Fab} : (setFab f s).pa = s.pa := rfl
@[simp] theorem setFab_led {s : State} {f : Fab} : (setFab f s).led = s.led := rfl
@[simp] theorem setFab_svc {s : State} {f : Fab} : (setFab f s).svc = s.svc := rfl
@[simp] theorem setFab_buf {s : State} {f : Fab} : (setFab f s).buf = s.buf := rfl
@[simp] theorem setFab_tm {s : State} {f : Fab} : (setFab f s).tm = s.tm := rfl
@[simp] theorem setFab_cap {s : State} {f : Fab} : (setFab f s).cap = s.cap := rfl
@[simp] theorem setFab_dw {s : State} {f : Fab} : (setFab f s).dw = s.dw := rfl
@[simp] theorem setFab_hst {s : State} {f : Fab} : (setFab f s).hst = s.hst := rfl
@[simp] theorem setFab_tun {s : State} {f : Fab} : (setFab f s).tun = s.tun := rfl
@[simp] theorem setFab_pair {s : State} {f : Fab} : (setFab f s).pair = s.pair := rfl
@[simp] theorem setFab_gov {s : State} {f : Fab} : (setFab f s).gov = s.gov := rfl
@[simp] theorem setFab_perf {s : State} {f : Fab} : (setFab f s).perf = s.perf := rfl
@[simp] theorem setFab_boot {s : State} {f : Fab} : (setFab f s).boot = s.boot := rfl
@[simp] theorem setFab_pins {s : State} {f : Fab} : (setFab f s).pins = s.pins := rfl
@[simp] theorem setFab_free {s : State} {f : Fab} : (setFab f s).free = s.free := rfl
@[simp] theorem setFab_out {s : State} {f : Fab} : (setFab f s).out = s.out := rfl
@[simp] theorem setFab_pending {s : State} {f : Fab} : (setFab f s).pending = s.pending := rfl

@[simp] theorem setHst_clk {s : State} {h : Hst} : (setHst h s).clk = s.clk := rfl
@[simp] theorem setHst_cal {s : State} {h : Hst} : (setHst h s).cal = s.cal := rfl
@[simp] theorem setHst_fuse {s : State} {h : Hst} : (setHst h s).fuse = s.fuse := rfl
@[simp] theorem setHst_dict {s : State} {h : Hst} : (setHst h s).dict = s.dict := rfl
@[simp] theorem setHst_ctr {s : State} {h : Hst} : (setHst h s).ctr = s.ctr := rfl
@[simp] theorem setHst_ev {s : State} {h : Hst} : (setHst h s).ev = s.ev := rfl
@[simp] theorem setHst_eng {s : State} {h : Hst} : (setHst h s).eng = s.eng := rfl
@[simp] theorem setHst_ep {s : State} {h : Hst} : (setHst h s).ep = s.ep := rfl
@[simp] theorem setHst_prt {s : State} {h : Hst} : (setHst h s).prt = s.prt := rfl
@[simp] theorem setHst_pip {s : State} {h : Hst} : (setHst h s).pip = s.pip := rfl
@[simp] theorem setHst_cs {s : State} {h : Hst} : (setHst h s).cs = s.cs := rfl
@[simp] theorem setHst_lt {s : State} {h : Hst} : (setHst h s).lt = s.lt := rfl
@[simp] theorem setHst_rb {s : State} {h : Hst} : (setHst h s).rb = s.rb := rfl
@[simp] theorem setHst_pa {s : State} {h : Hst} : (setHst h s).pa = s.pa := rfl
@[simp] theorem setHst_led {s : State} {h : Hst} : (setHst h s).led = s.led := rfl
@[simp] theorem setHst_svc {s : State} {h : Hst} : (setHst h s).svc = s.svc := rfl
@[simp] theorem setHst_buf {s : State} {h : Hst} : (setHst h s).buf = s.buf := rfl
@[simp] theorem setHst_fab {s : State} {h : Hst} : (setHst h s).fab = s.fab := rfl
@[simp] theorem setHst_tm {s : State} {h : Hst} : (setHst h s).tm = s.tm := rfl
@[simp] theorem setHst_cap {s : State} {h : Hst} : (setHst h s).cap = s.cap := rfl
@[simp] theorem setHst_dw {s : State} {h : Hst} : (setHst h s).dw = s.dw := rfl
@[simp] theorem setHst_tun {s : State} {h : Hst} : (setHst h s).tun = s.tun := rfl
@[simp] theorem setHst_pair {s : State} {h : Hst} : (setHst h s).pair = s.pair := rfl
@[simp] theorem setHst_gov {s : State} {h : Hst} : (setHst h s).gov = s.gov := rfl
@[simp] theorem setHst_perf {s : State} {h : Hst} : (setHst h s).perf = s.perf := rfl
@[simp] theorem setHst_boot {s : State} {h : Hst} : (setHst h s).boot = s.boot := rfl
@[simp] theorem setHst_pins {s : State} {h : Hst} : (setHst h s).pins = s.pins := rfl
@[simp] theorem setHst_free {s : State} {h : Hst} : (setHst h s).free = s.free := rfl
@[simp] theorem setHst_out {s : State} {h : Hst} : (setHst h s).out = s.out := rfl
@[simp] theorem setHst_pending {s : State} {h : Hst} : (setHst h s).pending = s.pending := rfl

@[simp] theorem setEng_clk {s : State} {e : Eng} : (setEng e s).clk = s.clk := rfl
@[simp] theorem setEng_cal {s : State} {e : Eng} : (setEng e s).cal = s.cal := rfl
@[simp] theorem setEng_fuse {s : State} {e : Eng} : (setEng e s).fuse = s.fuse := rfl
@[simp] theorem setEng_dict {s : State} {e : Eng} : (setEng e s).dict = s.dict := rfl
@[simp] theorem setEng_ctr {s : State} {e : Eng} : (setEng e s).ctr = s.ctr := rfl
@[simp] theorem setEng_ev {s : State} {e : Eng} : (setEng e s).ev = s.ev := rfl
@[simp] theorem setEng_ep {s : State} {e : Eng} : (setEng e s).ep = s.ep := rfl
@[simp] theorem setEng_prt {s : State} {e : Eng} : (setEng e s).prt = s.prt := rfl
@[simp] theorem setEng_pip {s : State} {e : Eng} : (setEng e s).pip = s.pip := rfl
@[simp] theorem setEng_cs {s : State} {e : Eng} : (setEng e s).cs = s.cs := rfl
@[simp] theorem setEng_lt {s : State} {e : Eng} : (setEng e s).lt = s.lt := rfl
@[simp] theorem setEng_rb {s : State} {e : Eng} : (setEng e s).rb = s.rb := rfl
@[simp] theorem setEng_pa {s : State} {e : Eng} : (setEng e s).pa = s.pa := rfl
@[simp] theorem setEng_led {s : State} {e : Eng} : (setEng e s).led = s.led := rfl
@[simp] theorem setEng_svc {s : State} {e : Eng} : (setEng e s).svc = s.svc := rfl
@[simp] theorem setEng_buf {s : State} {e : Eng} : (setEng e s).buf = s.buf := rfl
@[simp] theorem setEng_fab {s : State} {e : Eng} : (setEng e s).fab = s.fab := rfl
@[simp] theorem setEng_tm {s : State} {e : Eng} : (setEng e s).tm = s.tm := rfl
@[simp] theorem setEng_cap {s : State} {e : Eng} : (setEng e s).cap = s.cap := rfl
@[simp] theorem setEng_dw {s : State} {e : Eng} : (setEng e s).dw = s.dw := rfl
@[simp] theorem setEng_hst {s : State} {e : Eng} : (setEng e s).hst = s.hst := rfl
@[simp] theorem setEng_tun {s : State} {e : Eng} : (setEng e s).tun = s.tun := rfl
@[simp] theorem setEng_pair {s : State} {e : Eng} : (setEng e s).pair = s.pair := rfl
@[simp] theorem setEng_gov {s : State} {e : Eng} : (setEng e s).gov = s.gov := rfl
@[simp] theorem setEng_perf {s : State} {e : Eng} : (setEng e s).perf = s.perf := rfl
@[simp] theorem setEng_boot {s : State} {e : Eng} : (setEng e s).boot = s.boot := rfl
@[simp] theorem setEng_pins {s : State} {e : Eng} : (setEng e s).pins = s.pins := rfl
@[simp] theorem setEng_free {s : State} {e : Eng} : (setEng e s).free = s.free := rfl
@[simp] theorem setEng_out {s : State} {e : Eng} : (setEng e s).out = s.out := rfl
@[simp] theorem setEng_pending {s : State} {e : Eng} : (setEng e s).pending = s.pending := rfl

@[simp] theorem setMb_clk {s : State} {m : Mailbox} : (setMb m s).clk = s.clk := rfl
@[simp] theorem setMb_cal {s : State} {m : Mailbox} : (setMb m s).cal = s.cal := rfl
@[simp] theorem setMb_fuse {s : State} {m : Mailbox} : (setMb m s).fuse = s.fuse := rfl
@[simp] theorem setMb_dict {s : State} {m : Mailbox} : (setMb m s).dict = s.dict := rfl
@[simp] theorem setMb_ctr {s : State} {m : Mailbox} : (setMb m s).ctr = s.ctr := rfl
@[simp] theorem setMb_ev {s : State} {m : Mailbox} : (setMb m s).ev = s.ev := rfl
@[simp] theorem setMb_ep {s : State} {m : Mailbox} : (setMb m s).ep = s.ep := rfl
@[simp] theorem setMb_prt {s : State} {m : Mailbox} : (setMb m s).prt = s.prt := rfl
@[simp] theorem setMb_pip {s : State} {m : Mailbox} : (setMb m s).pip = s.pip := rfl
@[simp] theorem setMb_cs {s : State} {m : Mailbox} : (setMb m s).cs = s.cs := rfl
@[simp] theorem setMb_lt {s : State} {m : Mailbox} : (setMb m s).lt = s.lt := rfl
@[simp] theorem setMb_rb {s : State} {m : Mailbox} : (setMb m s).rb = s.rb := rfl
@[simp] theorem setMb_pa {s : State} {m : Mailbox} : (setMb m s).pa = s.pa := rfl
@[simp] theorem setMb_led {s : State} {m : Mailbox} : (setMb m s).led = s.led := rfl
@[simp] theorem setMb_svc {s : State} {m : Mailbox} : (setMb m s).svc = s.svc := rfl
@[simp] theorem setMb_buf {s : State} {m : Mailbox} : (setMb m s).buf = s.buf := rfl
@[simp] theorem setMb_fab {s : State} {m : Mailbox} : (setMb m s).fab = s.fab := rfl
@[simp] theorem setMb_tm {s : State} {m : Mailbox} : (setMb m s).tm = s.tm := rfl
@[simp] theorem setMb_cap {s : State} {m : Mailbox} : (setMb m s).cap = s.cap := rfl
@[simp] theorem setMb_dw {s : State} {m : Mailbox} : (setMb m s).dw = s.dw := rfl
@[simp] theorem setMb_hst {s : State} {m : Mailbox} : (setMb m s).hst = s.hst := rfl
@[simp] theorem setMb_tun {s : State} {m : Mailbox} : (setMb m s).tun = s.tun := rfl
@[simp] theorem setMb_pair {s : State} {m : Mailbox} : (setMb m s).pair = s.pair := rfl
@[simp] theorem setMb_gov {s : State} {m : Mailbox} : (setMb m s).gov = s.gov := rfl
@[simp] theorem setMb_perf {s : State} {m : Mailbox} : (setMb m s).perf = s.perf := rfl
@[simp] theorem setMb_boot {s : State} {m : Mailbox} : (setMb m s).boot = s.boot := rfl
@[simp] theorem setMb_pins {s : State} {m : Mailbox} : (setMb m s).pins = s.pins := rfl
@[simp] theorem setMb_free {s : State} {m : Mailbox} : (setMb m s).free = s.free := rfl
@[simp] theorem setMb_out {s : State} {m : Mailbox} : (setMb m s).out = s.out := rfl
@[simp] theorem setMb_pending {s : State} {m : Mailbox} : (setMb m s).pending = s.pending := rfl

@[simp] theorem setPair_pair {s : State} {p : Pair} : (setPair p s).pair = p := rfl
@[simp] theorem setBoot_boot {s : State} {b : Boot} : (setBoot b s).boot = b := rfl
@[simp] theorem setGov_gov {s : State} {g : Gov} : (setGov g s).gov = g := rfl
@[simp] theorem setDw_dw {s : State} {d : Dw} : (setDw d s).dw = d := rfl
@[simp] theorem setLed_led {s : State} {l : Led} : (setLed l s).led = l := rfl
@[simp] theorem setLt_lt {s : State} {l : Lt} : (setLt l s).lt = l := rfl
@[simp] theorem setRb_rb {s : State} {r : Rb} : (setRb r s).rb = r := rfl
@[simp] theorem setPa_pa {s : State} {p : Pa} : (setPa p s).pa = p := rfl
@[simp] theorem setSvc_svc {s : State} {v : Svc} : (setSvc v s).svc = v := rfl
@[simp] theorem setTm_tm {s : State} {t : Tm} : (setTm t s).tm = t := rfl
@[simp] theorem setFab_fab {s : State} {f : Fab} : (setFab f s).fab = f := rfl
@[simp] theorem setHst_hst {s : State} {h : Hst} : (setHst h s).hst = h := rfl
@[simp] theorem setEng_eng {s : State} {e : Eng} : (setEng e s).eng = e := rfl

end Sys2Proof.Machine
end

