-- ==== Sys2Proof/Laws/Tables.lean ====
section
/-! SUPPORT. Laws of the sparse tables of Machine/Bits.lean: what a key reads as after each change, and that every change keeps
the canonical form. -/

set_option Elab.async false

namespace Sys2Proof.Machine
open Sys2Proof

variable {α : Type}

theorem tabFind_insert (t : Tab α) (k j : Nat) (v : α) :
    tabFind (tabInsert t k v) j = if j = k then some v else tabFind t j := by
  induction t with
  | nil => simp only [tabInsert, tabFind, eq_comm]
  | cons e t ih =>
    simp only [tabInsert]
    split
    · simp only [tabFind, eq_comm]
    · split
      · rename_i h
        subst h
        simp only [tabFind]
        by_cases h : e.1 = j
        · simp [h]
        · simp [h, Ne.symm h]
      · rename_i h
        simp only [tabFind, ih]
        by_cases g : e.1 = j
        · have : j ≠ k := fun e' => h (e'.symm.trans g.symm)
          simp [g, this]
        · simp [g]

@[simp] theorem tabFind_insert_self (t : Tab α) (k : Nat) (v : α) : tabFind (tabInsert t k v) k = some v := by
  simp [tabFind_insert]

theorem tabFind_erase (t : Tab α) (k j : Nat) : tabFind (tabErase t k) j = if j = k then none else tabFind t j := by
  unfold tabErase
  induction t with
  | nil => simp [tabFind]
  | cons e t ih =>
    rw [List.filter_cons]
    by_cases h : e.1 = k
    · rw [if_neg (by simp [h]), ih]
      by_cases g : j = k
      · simp [g]
      · simp [g, tabFind, h, Ne.symm g]
    · rw [if_pos (by simpa using h)]
      simp only [tabFind, ih]
      by_cases g : e.1 = j
      · have : j ≠ k := fun e' => h (g.trans e')
        simp [g, this]
      · simp [g]

@[simp] theorem tabFind_erase_self (t : Tab α) (k : Nat) : tabFind (tabErase t k) k = none := by simp [tabFind_erase]

theorem tabGet_put [DecidableEq α] (d : α) (t : Tab α) (k j : Nat) (v : α) :
    tabGet d (tabPut d t k v) j = if j = k then v else tabGet d t j := by
  unfold tabGet tabPut
  split
  · rename_i h
    rw [tabFind_erase]
    split <;> simp [h]
  · rw [tabFind_insert]
    split <;> simp

@[simp] theorem tabGet_put_self [DecidableEq α] (d : α) (t : Tab α) (k : Nat) (v : α) : tabGet d (tabPut d t k v) k = v := by
  simp [tabGet_put]

/-! ### The canonical form -/

theorem tabRising_iff (t : Tab α) : tabRising t = true ↔ t.Pairwise (fun a b => a.1 < b.1) := by
  induction t with
  | nil => simp [tabRising]
  | cons a t ih =>
    cases t with
    | nil => simp [tabRising]
    | cons b t =>
      simp only [tabRising, Bool.and_eq_true, decide_eq_true_eq, ih, List.pairwise_cons]
      constructor
      · rintro ⟨h, g, p⟩
        refine ⟨?_, g, p⟩
        intro x hx
        rcases List.mem_cons.mp hx with rfl | hx
        · exact h
        · exact h.trans (g x hx)
      · rintro ⟨h, g, p⟩
        exact ⟨h b (by simp), g, p⟩

theorem tabRising_filter (t : Tab α) (p : Nat × α → Bool) (h : tabRising t = true) : tabRising (t.filter p) = true := by
  rw [tabRising_iff] at *
  exact h.sublist List.filter_sublist

theorem tabRising_erase (t : Tab α) (k : Nat) (h : tabRising t = true) : tabRising (tabErase t k) = true :=
  tabRising_filter t _ h

theorem mem_tabInsert (t : Tab α) (k : Nat) (v : α) (x : Nat × α) (h : x ∈ tabInsert t k v) : x = (k, v) ∨ x ∈ t := by
  induction t with
  | nil => simpa [tabInsert] using h
  | cons e t ih =>
    simp only [tabInsert] at h
    split at h
    · simpa using h
    · split at h
      · rcases List.mem_cons.mp h with h | h
        · exact .inl h
        · exact .inr (List.mem_cons_of_mem _ h)
      · rcases List.mem_cons.mp h with h | h
        · exact .inr (by simp [h])
        · rcases ih h with h | h
          · exact .inl h
          · exact .inr (List.mem_cons_of_mem _ h)

theorem tabRising_insert (t : Tab α) (k : Nat) (v : α) (h : tabRising t = true) : tabRising (tabInsert t k v) = true := by
  rw [tabRising_iff] at *
  induction t with
  | nil => simp [tabInsert]
  | cons e t ih =>
    rw [List.pairwise_cons] at h
    simp only [tabInsert]
    split
    · rename_i g
      refine List.pairwise_cons.mpr ⟨fun x hx => ?_, List.pairwise_cons.mpr h⟩
      rcases List.mem_cons.mp hx with rfl | hx
      · exact g
      · exact g.trans (h.1 x hx)
    · split
      · rename_i g
        subst g
        exact List.pairwise_cons.mpr h
      · rename_i g g'
        refine List.pairwise_cons.mpr ⟨fun x hx => ?_, ih h.2⟩
        rcases mem_tabInsert t k v x hx with rfl | hx
        · exact lt_of_le_of_ne (Nat.le_of_not_lt g) (fun e' => g' e'.symm)
        · exact h.1 x hx

theorem tabRising_put [DecidableEq α] (d : α) (t : Tab α) (k : Nat) (v : α) (h : tabRising t = true) :
    tabRising (tabPut d t k v) = true := by
  unfold tabPut
  split
  · exact tabRising_erase t k h
  · exact tabRising_insert t k v h

theorem tabWf_put [DecidableEq α] (d : α) (t : Tab α) (k : Nat) (v : α) (h : tabWf (fun _ => d) t = true) :
    tabWf (fun _ => d) (tabPut d t k v) = true := by
  simp only [tabWf, Bool.and_eq_true, List.all_eq_true, decide_eq_true_eq] at *
  refine ⟨tabRising_put d t k v h.1, fun x hx => ?_⟩
  unfold tabPut at hx
  split at hx
  · exact h.2 x (List.mem_of_mem_filter hx)
  · rename_i g
    rcases mem_tabInsert t k v x hx with rfl | hx
    · exact g
    · exact h.2 x hx

end Sys2Proof.Machine
end

