-- ==== Sys2Proof/Laws/Registers.lean ====
section
/-! SUPPORT. Laws of the registers and counters: what a read gives after each write, and what the WRITE of one value comes to
once the engine takes it. -/

set_option Elab.async false

namespace Sys2Proof.Machine
open Sys2Proof

/-- Two rows share a dictionary key only where they are one row of one object in one set. -/
theorem dictKey_inj {set obj row set' obj' row' : Nat} (ho : obj < 2 ^ 32) (hr : row < 2 ^ 32) (ho' : obj' < 2 ^ 32)
    (hr' : row' < 2 ^ 32) : dictKey set obj row = dictKey set' obj' row' ↔ set = set' ∧ obj = obj' ∧ row = row' := by
  unfold dictKey
  omega

/-- Two rows of one object have different keys. -/
theorem dictKey_row {set obj r r' : Nat} (h : r ≠ r') : dictKey set obj r ≠ dictKey set obj r' := by
  unfold dictKey
  exact fun e => h (Nat.add_left_cancel e)

/-- Rows of two objects have different keys. -/
theorem dictKey_obj {set obj obj' r r' : Nat} (h : obj ≠ obj') (ho : obj < 2 ^ 32) (hr : r < 2 ^ 32) (ho' : obj' < 2 ^ 32)
    (hr' : r' < 2 ^ 32) : dictKey set obj r ≠ dictKey set obj' r' := fun e => h ((dictKey_inj ho hr ho' hr').mp e).2.1

/-- What the dictionary holds at a key after a write. -/
theorem dictPut_find (t : Tab Nat) (set obj row v k : Nat) :
    (match tabFind (dictPut t set obj row v) k with
      | some x => some x
      | none => if k = dictKey set obj row then dfltOf obj row else none) =
    if k = dictKey set obj row then some v else tabFind t k := by
  unfold dictPut
  cases hd : dfltOf obj row with
  | none =>
    simp only [tabFind_insert]
    by_cases hk : k = dictKey set obj row
    · simp [hk]
    · simp only [if_neg hk]; cases tabFind t k <;> rfl
  | some d =>
    simp only [tabPut]
    by_cases hv : v = d
    · rw [if_pos hv, tabFind_erase]
      by_cases hk : k = dictKey set obj row
      · simp [hk, hv]
      · simp only [if_neg hk]; cases tabFind t k <;> rfl
    · rw [if_neg hv, tabFind_insert]
      by_cases hk : k = dictKey set obj row
      · simp [hk]
      · simp only [if_neg hk]; cases tabFind t k <;> rfl

@[simp] theorem rdOpt_wrSet_self (s : State) (set obj row v : Nat) : rdOpt (wrSet set obj row v s) set obj row = some v := by
  have h := dictPut_find s.dict set obj row v (dictKey set obj row)
  simp only [if_true] at h
  exact h

theorem dictPut_find_ne {t : Tab Nat} {set obj row v k : Nat} (h : k ≠ dictKey set obj row) :
    tabFind (dictPut t set obj row v) k = tabFind t k := by
  have g := dictPut_find t set obj row v k
  simp only [if_neg h] at g
  rw [← g]
  cases tabFind (dictPut t set obj row v) k <;> rfl

/-- Another row reads as before. -/
theorem rdOpt_wrSet_ne {s : State} {set obj row v set' obj' row' : Nat}
    (h : dictKey set' obj' row' ≠ dictKey set obj row) :
    rdOpt (wrSet set obj row v s) set' obj' row' = rdOpt s set' obj' row' := by
  unfold rdOpt
  rw [show (wrSet set obj row v s).dict = dictPut s.dict set obj row v from rfl, dictPut_find_ne h]

/-! Reading as a function of the dictionary alone: rewriting with `rd_at` and the lemmas of `dictAt` evaluates reads of any
record update. -/

/-- A row that a dictionary holds. -/
def dictAt (t : Tab Nat) (set obj row : Nat) : Option Nat :=
  match tabFind t (dictKey set obj row) with
  | some v => some v
  | none => dfltOf obj row

theorem rdOpt_at (s : State) (set obj row : Nat) : rdOpt s set obj row = dictAt s.dict set obj row := rfl
theorem rdSet_at (s : State) (set obj row : Nat) : rdSet s set obj row = (dictAt s.dict set obj row).getD 0 := rfl
theorem rd_at (s : State) (obj row : Nat) : rd s obj row = (dictAt s.dict 0 obj row).getD 0 := rfl
theorem ctr_at (s : State) (o : Nat) : ctr s o = tabGet 0 s.ctr o := rfl

theorem wrSet_dict (s : State) (set obj row v : Nat) : (wrSet set obj row v s).dict = dictPut s.dict set obj row v := rfl
theorem wrRow_dict (s : State) (obj row v : Nat) : (wrRow obj row v s).dict = dictPut s.dict 0 obj row v := rfl
theorem wr_dict (s : State) (obj v : Nat) : (wr obj v s).dict = dictPut s.dict 0 obj 0 v := rfl

@[simp] theorem dictAt_put_self (t : Tab Nat) (set obj row v : Nat) :
    dictAt (dictPut t set obj row v) set obj row = some v := by
  have h := dictPut_find t set obj row v (dictKey set obj row)
  simp only [if_true] at h
  exact h

theorem dictAt_put_ne {t : Tab Nat} {set obj row v set' obj' row' : Nat} (h : dictKey set' obj' row' ≠ dictKey set obj row) :
    dictAt (dictPut t set obj row v) set' obj' row' = dictAt t set' obj' row' := by
  unfold dictAt
  rw [dictPut_find_ne h]

@[simp] theorem rdSet_wrSet_self (s : State) (set obj row v : Nat) : rdSet (wrSet set obj row v s) set obj row = v := by
  simp [rdSet]

@[simp] theorem rd_wr_self (s : State) (obj v : Nat) : rd (wr obj v s) obj = v := by simp [rd, wr]

@[simp] theorem rd_wrRow_self (s : State) (obj row v : Nat) : rd (wrRow obj row v s) obj row = v := by simp [rd, wrRow]

theorem rd_wr_ne {s : State} {obj v obj' row' : Nat} (h : dictKey 0 obj' row' ≠ dictKey 0 obj 0) :
    rd (wr obj v s) obj' row' = rd s obj' row' := by
  simp only [rd, rdSet, wr, rdOpt_wrSet_ne h]

theorem rd_wrRow_ne {s : State} {obj row v obj' row' : Nat} (h : dictKey 0 obj' row' ≠ dictKey 0 obj row) :
    rd (wrRow obj row v s) obj' row' = rd s obj' row' := by
  simp only [rd, rdSet, wrRow, rdOpt_wrSet_ne h]

/-- A counter after one is set. -/
theorem ctr_ctrSet (s : State) (off v o : Nat) : ctr (ctrSet off v s) o = if o = off then v % 2 ^ 64 else ctr s o := by
  simp only [ctr, ctrSet, tabGet_put]

theorem ctr_ctrAdd (s : State) (off n o : Nat) :
    ctr (ctrAdd off n s) o = if o = off then (ctr s off + n) % 2 ^ 64 else ctr s o := by
  simp only [ctrAdd, ctr_ctrSet]

theorem ctr_count (s : State) (off o : Nat) : ctr (count off s) o = if o = off then (ctr s off + 1) % 2 ^ 64 else ctr s o :=
  ctr_ctrAdd s off 1 o

/-! ### Registers read the same where the dictionary is the same -/

theorem rd_congr {s t : State} (h : t.dict = s.dict) (obj row : Nat) : rd t obj row = rd s obj row := by
  simp only [rd, rdSet, rdOpt, h]

theorem rdSet_congr {s t : State} (h : t.dict = s.dict) (set obj row : Nat) : rdSet t set obj row = rdSet s set obj row := by
  simp only [rdSet, rdOpt, h]

theorem ctr_congr {s t : State} (h : t.ctr = s.ctr) (o : Nat) : ctr t o = ctr s o := by simp only [ctr, h]

/-! ### The WRITE of one value -/

theorem leBytes_length (n v : Nat) : (leBytes n v).length = n := by
  induction n generalizing v with
  | zero => rfl
  | succ n ih => simp [leBytes, ih]

theorem leNat_leBytes (n v : Nat) : leNat (leBytes n v) = v % 256 ^ n := by
  induction n generalizing v with
  | zero => simp [leBytes, leNat, Nat.mod_one]
  | succ n ih =>
    rw [leBytes, leNat, ih, BitVec.toNat_ofNat, show (256 : Nat) ^ (n + 1) = 256 * 256 ^ n from Nat.pow_succ']
    exact (Nat.mod_mul (x := v) (a := 256) (b := 256 ^ n)).symm

/-- The packed number of a writeOne's item is the object's. -/
theorem writeOne_obj (obj : Nat) :
    ((obj / 2 ^ 24) <<< 24) + ((obj / 2 ^ 8 % 2 ^ 16) <<< 8) + obj % 2 ^ 8 = obj := by
  simp only [Nat.shiftLeft_eq]
  omega

/-- The WRITE of one value puts that value. -/
theorem putItems_one {obj n : Nat} {d : ObjDesc} (hd : objDesc obj = some d) (hn : d.type.size = n) (hpos : 0 < n)
    (r : Option Req) (level row v : Nat) (s : State) :
    putItems r (writeOne level obj row (leBytes n v)).items s = putValue r obj row (v % 256 ^ n) s := by
  have hobj : Item.obj ⟨obj / 2 ^ 24, obj / 2 ^ 8 % 2 ^ 16, obj % 2 ^ 8, row, (leBytes n v).length, 0, 0, leBytes n v⟩ = obj :=
    writeOne_obj obj
  have hrows : itemRows d ⟨obj / 2 ^ 24, obj / 2 ^ 8 % 2 ^ 16, obj % 2 ^ 8, row, (leBytes n v).length, 0, 0, leBytes n v⟩ =
      [(row, v % 256 ^ n)] := by
    simp only [itemRows, leBytes_length, hn, Nat.div_self hpos, List.range_one, List.map_cons, List.map_nil, Nat.zero_mul,
      Nat.add_zero]
    simp only [leAt, slice, List.drop_zero, List.take_of_length_le (le_of_eq (leBytes_length n v)), leNat_leBytes]
  simp only [putItems, forEach, writeOne, List.foldl_cons, List.foldl_nil, putItem, hobj, hd, hrows]

theorem writeOne_names (level obj row x : Nat) (v : Bytes) : (writeOne level obj row v).items.any (names x) = decide (obj = x) := by
  have hobj : Item.obj ⟨obj / 2 ^ 24, obj / 2 ^ 8 % 2 ^ 16, obj % 2 ^ 8, row, v.length, 0, 0, v⟩ = obj := writeOne_obj obj
  simp only [writeOne, List.any_cons, List.any_nil, Bool.or_false, names, hobj]

theorem writeOne_asksReset (level obj row : Nat) (v : Bytes) :
    asksReset (writeOne level obj row v) = decide (obj = oResetRequest) := writeOne_names level obj row oResetRequest v

theorem writeOne_asksTurn (level obj row : Nat) (v : Bytes) :
    asksTurn (writeOne level obj row v) = decide (obj = oTurnRequest ∨ obj = oStepRequest) := by
  have hobj : Item.obj ⟨obj / 2 ^ 24, obj / 2 ^ 8 % 2 ^ 16, obj % 2 ^ 8, row, v.length, 0, 0, v⟩ = obj := writeOne_obj obj
  simp only [asksTurn, writeOne, List.any_cons, List.any_nil, Bool.or_false, names, hobj, Bool.decide_or]

/-- A request of an origin that the engine takes as it comes is served at once. -/
theorem reachEngine_taken {s : State} {o : Origin} (h : engineTakes s o) (m : Msg) :
    reachEngine o m s = serve o m { s with eng := { s.eng with taken := (mclk s + 1, pathRank o.path) } } := by
  obtain ⟨ho, hq, hw, ha⟩ := h
  unfold reachEngine takeRequest Machine.when
  simp [ho, hq, hw, ha]

/-- What the engine serves: the checks of the message, then the opcode. -/
theorem serve_counted (o : Origin) (m : Msg) (s : State) :
    serve o m { s with eng := { s.eng with taken := (mclk s + 1, pathRank o.path) } } =
      (if messageCode (counted o s) o m ≠ 0 then
        respond o (answer m (messageCode (counted o s) o m) 0xFF 0 []) 0 (counted o s)
      else if m.opcode = 2 || m.opcode = 3 then serveWrite o m (counted o s)
      else serveRead o m (counted o s)) := rfl

/-- A WRITE of one value that the engine takes at once: the value is put and the success answered; a turn or step is answered
later (R67), and a reset follows its answer (R596). -/
theorem write1_taken {ok : Bool} {o : Origin} {level obj row n v : Nat} {s : State} {d : ObjDesc} (hok : ok = true)
    (h : acceptsWrite s o (oneWrite level obj row n v)) (hd : objDesc obj = some d) (hn : d.type.size = n) (hpos : 0 < n) :
    write1 ok o level obj row n v s = .next
      (let m := oneWrite level obj row n v
       let t := putValue (some ⟨o, m⟩) obj row (v % 256 ^ n) (counted o s)
       if obj = oTurnRequest ∨ obj = oStepRequest then t
       else if obj = oResetRequest then deviceReset 3 (answered (counted o s) o m t)
       else answered (counted o s) o m t) := by
  obtain ⟨ht, hm, hv, hf⟩ := h
  have hp := putItems_one hd hn hpos (some ⟨o, oneWrite level obj row n v⟩) level row v (counted o s)
  unfold oneWrite at *
  rw [write1, onUnits, if_pos hok, reachEngine_taken ht, serve_counted]
  simp only [hm]
  rw [if_neg (by simp), if_pos (by simp [writeOne])]
  simp only [serveWrite, hv, hf, Bool.false_eq_true, if_false, ne_eq, not_true_eq_false, applyWrite, writeOne_asksTurn,
    writeOne_asksReset, writeOne_names, decide_eq_true_eq, answered]
  rw [hp]
  by_cases hobj : obj = oTurnRequest ∨ obj = oStepRequest
  · rw [if_pos hobj, if_pos hobj, if_neg (by rcases hobj with rfl | rfl <;> decide)]
  · rw [if_neg hobj, if_neg hobj]

/-! ### The rows of the objects that a command's operand numbers -/

theorem objDesc_portEnable {p : Nat} (h : isPort p = true) : ∃ d, objDesc (oPortEnable p) = some d ∧ d.type.size = 1 := by
  have key : ∀ p, p < 512 → (objDesc (oPortEnable p)).map (fun d => d.type.size) = some 1 := by decide +kernel
  have := key p (by simpa [isPort] using h)
  cases hd : objDesc (oPortEnable p) with
  | none => simp [hd] at this
  | some d => exact ⟨d, rfl, by simpa [hd] using this⟩

theorem objDesc_octetEnable {n : Nat} (h : isOctet n = true) : ∃ d, objDesc (oOctetEnable n) = some d ∧ d.type.size = 1 := by
  have key : ∀ p, p < 64 → (objDesc (oOctetEnable p)).map (fun d => d.type.size) = some 1 := by decide +kernel
  have := key n (by simpa [isOctet] using h)
  cases hd : objDesc (oOctetEnable n) with
  | none => simp [hd] at this
  | some d => exact ⟨d, rfl, by simpa [hd] using this⟩

theorem objDesc_keyRevoke {l : Nat} (h : isLevel l = true) : ∃ d, objDesc (oKeyRevoke l) = some d ∧ d.type.size = 1 := by
  have key : ∀ p, p < 4 → (objDesc (oKeyRevoke p)).map (fun d => d.type.size) = some 1 := by decide +kernel
  have := key l (by simpa [isLevel] using h)
  cases hd : objDesc (oKeyRevoke l) with
  | none => simp [hd] at this
  | some d => exact ⟨d, rfl, by simpa [hd] using this⟩

theorem putValue_portEnable {p : Nat} (h : isPort p = true) (r : Option Req) (v : Nat) (s : State) :
    putValue r (oPortEnable p) 0 v s = writePortEnable p v s := by
  have key : ∀ p, p < 512 → isShadow (oPortEnable p) = false ∧ objArea (oPortEnable p) = 0x10 ∧
      objIndex (oPortEnable p) = 0x100 + p ∧ objElem (oPortEnable p) = 0 := by decide +kernel
  have hp : p < 512 := by simpa [isPort] using h
  obtain ⟨h1, h2, h3, h4⟩ := key p hp
  unfold putValue
  simp only [h1, h2, Bool.false_eq_true, if_false]
  unfold put10
  simp only [h3, h4]
  rw [if_neg (by simp; omega), if_pos (by simp; omega), Nat.add_sub_cancel_left]

theorem putValue_octetEnable {n : Nat} (h : isOctet n = true) (r : Option Req) (v : Nat) (s : State) :
    putValue r (oOctetEnable n) 0 v s = writeOctetEnable n v s := by
  have key : ∀ p, p < 64 → isShadow (oOctetEnable p) = false ∧ objArea (oOctetEnable p) = 0x10 ∧
      objIndex (oOctetEnable p) = p ∧ objElem (oOctetEnable p) = 0 := by decide +kernel
  have hn : n < 64 := by simpa [isOctet] using h
  obtain ⟨h1, h2, h3, h4⟩ := key n hn
  unfold putValue
  simp only [h1, h2, Bool.false_eq_true, if_false]
  unfold put10
  simp only [h3, h4]
  rw [if_pos (by simp; omega)]

theorem putValue_keyRevoke {l : Nat} (h : isLevel l = true) (r : Option Req) (v : Nat) (s : State) :
    putValue r (oKeyRevoke l) 0 v s = revokeKey l (wr (oKeyRevoke l) v s) := by
  have key : ∀ p, p < 4 → isShadow (oKeyRevoke p) = false ∧ objArea (oKeyRevoke p) = 0 ∧
      objIndex (oKeyRevoke p) = 0x21 ∧ objElem (oKeyRevoke p) = p := by decide +kernel
  have hl : l < 4 := by simpa [isLevel] using h
  obtain ⟨h1, h2, h3, h4⟩ := key l hl
  unfold putValue
  simp only [h1, h2, Bool.false_eq_true, if_false]
  unfold put00
  simp only [h3, h4, if_true]

end Sys2Proof.Machine
end

