-- ==== Sys2Proof/Laws/Events.lean ====
section
/-! SUPPORT. Laws of the event unit: what a raise writes, and what it leaves. -/

set_option Elab.async false

namespace Sys2Proof.Machine
open Sys2Proof

@[simp] theorem sendTlp_dict (o : Output) (s : State) : (sendTlp o s).dict = s.dict := by
  unfold sendTlp emit
  split <;> rfl

@[simp] theorem sendTlp_ctr (o : Output) (s : State) : (sendTlp o s).ctr = s.ctr := by
  unfold sendTlp emit
  split <;> rfl

@[simp] theorem sendVector_dict (v : Nat) (s : State) : (sendVector v s).dict = s.dict := by
  unfold sendVector
  split
  · unfold pendVector
    split <;> rfl
  · exact sendTlp_dict _ _

@[simp] theorem sendVector_ctr (v : Nat) (s : State) : (sendVector v s).ctr = s.ctr := by
  unfold sendVector
  split
  · unfold pendVector
    split <;> rfl
  · exact sendTlp_ctr _ _

@[simp] theorem sendGroupVectors_dict (b : State) (gs : List Nat) (s : State) : (sendGroupVectors b gs s).dict = s.dict := by
  unfold sendGroupVectors forEach
  induction gs generalizing s with
  | nil => rfl
  | cons g t ih => rw [List.foldl_cons, ih]; split <;> simp

@[simp] theorem sendGroupVectors_ctr (b : State) (gs : List Nat) (s : State) : (sendGroupVectors b gs s).ctr = s.ctr := by
  unfold sendGroupVectors forEach
  induction gs generalizing s with
  | nil => rfl
  | cons g t ih => rw [List.foldl_cons, ih]; split <;> simp

@[simp] theorem sendObserver_dict (n k : Nat) (p : Bytes) (s : State) : (sendObserver n k p s).dict = s.dict := by
  unfold sendObserver setMgmt emit
  simp only
  split <;> split <;> rfl

@[simp] theorem sendObserver_ctr (n k : Nat) (p : Bytes) (s : State) : (sendObserver n k p s).ctr = s.ctr := by
  unfold sendObserver setMgmt emit
  simp only
  split <;> split <;> rfl

@[simp] theorem sendNotice_dict (n src : Nat) (s : State) : (sendNotice n src s).dict = s.dict := by
  unfold sendNotice
  split
  · rfl
  · rw [sendObserver_dict]; rfl

/-- A notice counts itself sent or dropped and nothing else. -/
theorem sendNotice_ctr (n src : Nat) (s : State) {o : Nat} (h8 : o ≠ cEvent 0x08) (h10 : o ≠ cEvent 0x10) :
    ctr (sendNotice n src s) o = ctr s o := by
  unfold sendNotice
  split
  · rw [ctr_count, if_neg h10]
  · rw [ctr_congr (sendObserver_ctr _ _ _ _), ctr_count, if_neg h8]; rfl

theorem when_dict {c : Bool} {f : State → State} (s : State) (h : ∀ t, (f t).dict = t.dict) : (when c f s).dict = s.dict := by
  unfold Machine.when
  split
  · exact h s
  · rfl

/-- The registers after a raise: the log row of the source and the PENDING row of its group are written. -/
theorem raise_dict (src detail : Nat) (s : State) : (raise src detail s).dict =
    (wrRow oEventPending (src / 32) (setBit (rd s oEventPending (src / 32)) (src % 32))
      (wrRow oEventLog src (logRow src detail s) s)).dict := by
  unfold raise
  extract_lets g m t1 e t2 t3 t4 r t5
  rw [when_dict _ (fun t => sendNotice_dict _ _ t)]
  show t5.dict = _
  rw [show t5.dict = t4.dict from when_dict _ (fun t => sendNotice_dict _ _ t),
    show t4.dict = t3.dict from sendGroupVectors_dict _ _ _]
  have hu : t2.dict = (wrRow oEventLog src (logRow src detail s) s).dict := by
    show (wrRow oEventLog src (logRow src detail s) (count (cEvent 0x00) s)).dict = _
    generalize logRow src detail s = l
    rfl
  have hr : rd t2 oEventPending g = rd s oEventPending (src / 32) := by
    rw [rd_congr hu, rd_wrRow_ne (by unfold dictKey oEventPending oEventLog; omega)]
  show (wrRow oEventPending g (setBit (rd t2 oEventPending g) (src % 32)) t2).dict = _
  rw [hr]
  simp only [wrRow, wrSet] at hu ⊢
  rw [hu]

/-- A register that is no row of EVENT_PENDING or EVENT_LOG reads the same after a raise. -/
theorem rd_raise_ne {src detail : Nat} {s : State} {obj row : Nat}
    (hp : dictKey 0 obj row ≠ dictKey 0 oEventPending (src / 32)) (hl : dictKey 0 obj row ≠ dictKey 0 oEventLog src) :
    rd (raise src detail s) obj row = rd s obj row := by
  rw [rd_congr (raise_dict src detail s), rd_wrRow_ne hp, rd_wrRow_ne hl]

theorem when_ctr {c : Bool} {f : State → State} (s : State) {o : Nat} (h : ∀ t, ctr (f t) o = ctr t o) :
    ctr (when c f s) o = ctr s o := by
  unfold Machine.when
  split
  · exact h s
  · rfl

/-- A raise counts itself in EVENTS_RAISED; no other counter but the two of the notices moves. -/
theorem raise_ctr (src detail : Nat) (s : State) {o : Nat} (h8 : o ≠ cEvent 0x08) (h10 : o ≠ cEvent 0x10) :
    ctr (raise src detail s) o = ctr (count (cEvent 0x00) s) o := by
  unfold raise
  extract_lets g m t1 e t2 t3 t4 r t5
  have h5 : ctr t5 o = ctr t4 o := when_ctr _ (fun s => sendNotice_ctr _ _ s h8 h10)
  have h4 : ctr t4 o = ctr t3 o := ctr_congr (sendGroupVectors_ctr _ _ _) _
  have h3 : ctr t3 o = ctr t2 o := ctr_congr wrRow_ctr _
  have h0 (x : State) (y : Ev) : ctr { x with ev := y } o = ctr x o := rfl
  have h2 : ctr t2 o = ctr t1 o := h0 t1 _
  have h1 : ctr t1 o = ctr (count (cEvent 0x00) s) o := ctr_congr wrRow_ctr _
  rw [when_ctr _ (fun s => sendNotice_ctr _ _ s h8 h10), h5, h4, h3, h2, h1]

theorem logDetail_lt (src detail : Nat) (s : State) : logDetail src detail s < 2 ^ 32 := by
  unfold logDetail
  have := Nat.mod_lt detail (show 2 ^ 32 > 0 by decide)
  split <;> omega

theorem logParts (a b c : Nat) (ha : a < 2 ^ 32) (hc : c < 2 ^ 32) :
    byteFld (a + c * 2 ^ 32 + b * 2 ^ 64) 0 4 = a ∧ byteFld (a + c * 2 ^ 32 + b * 2 ^ 64) 4 4 = c ∧
      (a + c * 2 ^ 32 + b * 2 ^ 64) / 2 ^ 64 = b := by
  have h (x n : Nat) : byteFld x n 4 = x / 2 ^ (8 * n) % 2 ^ 32 := by unfold byteFld fld; rw [Nat.shiftRight_eq_div_pow]
  rw [h, h]
  refine ⟨?_, ?_, ?_⟩ <;> omega

/-- COUNT of the EVENT_LOG row after a raise. -/
theorem logRow_count (src detail : Nat) (s : State) :
    byteFld (logRow src detail s) 0 4 = (byteFld (rd s oEventLog src) 0 4 + 1) % 2 ^ 32 := by
  unfold logRow
  exact (logParts _ _ _ (Nat.mod_lt _ (by decide)) (logDetail_lt _ _ _)).1

/-- DETAIL of the EVENT_LOG row after a raise. -/
theorem logRow_detail (src detail : Nat) (s : State) : byteFld (logRow src detail s) 4 4 = logDetail src detail s := by
  unfold logRow
  exact (logParts _ _ _ (Nat.mod_lt _ (by decide)) (logDetail_lt _ _ _)).2.1

/-- TIME of the EVENT_LOG row after a raise. -/
theorem logRow_time (src detail : Nat) (s : State) : logRow src detail s / 2 ^ 64 = nowTime80 s := by
  unfold logRow
  exact (logParts _ _ _ (Nat.mod_lt _ (by decide)) (logDetail_lt _ _ _)).2.2

end Sys2Proof.Machine
end

