-- ==== Sys2Proof/Laws/Frames.lean ====
section
/-! SUPPORT. What the shared operations leave as it was: measurement, events, the end of a command, the leaving of a frame, deferred
operations. Each relation gives the unchanged fields one by one. -/

set_option linter.all false
set_option Elab.async false

namespace Sys2Proof.Machine
open Sys2Proof

/-- Between `s` and `t` nothing has changed beyond what measurement may change: the counters, the measurement unit, the free values. -/
def Measured (s t : State) : Prop :=
  { t with perf := s.perf, ctr := s.ctr, free := s.free } = s

theorem Measured.eq {s t : State} (h : Measured s t) : { t with perf := s.perf, ctr := s.ctr, free := s.free } = s := h

theorem Measured.refl (s : State) : Measured s s := rfl

theorem Measured.trans {s t u : State} (h : Measured s t) (g : Measured t u) : Measured s u := by
  have e := congrArg (fun x : State => { x with perf := s.perf, ctr := s.ctr, free := s.free }) g.eq
  exact e.trans h.eq

theorem measured_mk {s₀ s : State} {x_perf x_ctr x_free} :
    Measured s₀ (State.mk s.clk s.cal s.fuse s.dict x_ctr s.ev s.eng s.ep s.prt s.pip s.cs s.lt s.rb s.pa s.led s.svc s.buf s.fab s.tm s.cap s.dw s.hst s.tun s.pair s.gov x_perf s.boot s.pins x_free s.out s.pending) ↔ Measured s₀ s := Iff.rfl

theorem Measured.when {s₀ : State} {c : Bool} {f : State → State} {s : State} (h : ∀ t, Measured t (f t)) (hs : Measured s₀ s) :
    Measured s₀ (when c f s) := by
  unfold Machine.when
  split
  · exact hs.trans (h s)
  · exact hs

theorem Measured.forEach {α : Type} {s₀ : State} {l : List α} {f : State → α → State} {s : State}
    (h : ∀ t a, Measured t (f t a)) (hs : Measured s₀ s) : Measured s₀ (forEach l f s) := by
  unfold Machine.forEach
  induction l generalizing s with
  | nil => exact hs
  | cons a t ih => exact ih (hs.trans (h s a))

theorem Measured.clk {s t : State} (h : Measured s t) : t.clk = s.clk := by have e := congrArg State.clk h.eq; exact e
theorem Measured.cal {s t : State} (h : Measured s t) : t.cal = s.cal := by have e := congrArg State.cal h.eq; exact e
theorem Measured.fuse {s t : State} (h : Measured s t) : t.fuse = s.fuse := by have e := congrArg State.fuse h.eq; exact e
theorem Measured.dict {s t : State} (h : Measured s t) : t.dict = s.dict := by have e := congrArg State.dict h.eq; exact e
theorem Measured.ev {s t : State} (h : Measured s t) : t.ev = s.ev := by have e := congrArg State.ev h.eq; exact e
theorem Measured.eng {s t : State} (h : Measured s t) : t.eng = s.eng := by have e := congrArg State.eng h.eq; exact e
theorem Measured.ep {s t : State} (h : Measured s t) : t.ep = s.ep := by have e := congrArg State.ep h.eq; exact e
theorem Measured.prt {s t : State} (h : Measured s t) : t.prt = s.prt := by have e := congrArg State.prt h.eq; exact e
theorem Measured.pip {s t : State} (h : Measured s t) : t.pip = s.pip := by have e := congrArg State.pip h.eq; exact e
theorem Measured.cs {s t : State} (h : Measured s t) : t.cs = s.cs := by have e := congrArg State.cs h.eq; exact e
theorem Measured.lt {s t : State} (h : Measured s t) : t.lt = s.lt := by have e := congrArg State.lt h.eq; exact e
theorem Measured.rb {s t : State} (h : Measured s t) : t.rb = s.rb := by have e := congrArg State.rb h.eq; exact e
theorem Measured.pa {s t : State} (h : Measured s t) : t.pa = s.pa := by have e := congrArg State.pa h.eq; exact e
theorem Measured.led {s t : State} (h : Measured s t) : t.led = s.led := by have e := congrArg State.led h.eq; exact e
theorem Measured.svc {s t : State} (h : Measured s t) : t.svc = s.svc := by have e := congrArg State.svc h.eq; exact e
theorem Measured.buf {s t : State} (h : Measured s t) : t.buf = s.buf := by have e := congrArg State.buf h.eq; exact e
theorem Measured.fab {s t : State} (h : Measured s t) : t.fab = s.fab := by have e := congrArg State.fab h.eq; exact e
theorem Measured.tm {s t : State} (h : Measured s t) : t.tm = s.tm := by have e := congrArg State.tm h.eq; exact e
theorem Measured.cap {s t : State} (h : Measured s t) : t.cap = s.cap := by have e := congrArg State.cap h.eq; exact e
theorem Measured.dw {s t : State} (h : Measured s t) : t.dw = s.dw := by have e := congrArg State.dw h.eq; exact e
theorem Measured.hst {s t : State} (h : Measured s t) : t.hst = s.hst := by have e := congrArg State.hst h.eq; exact e
theorem Measured.tun {s t : State} (h : Measured s t) : t.tun = s.tun := by have e := congrArg State.tun h.eq; exact e
theorem Measured.pair {s t : State} (h : Measured s t) : t.pair = s.pair := by have e := congrArg State.pair h.eq; exact e
theorem Measured.gov {s t : State} (h : Measured s t) : t.gov = s.gov := by have e := congrArg State.gov h.eq; exact e
theorem Measured.boot {s t : State} (h : Measured s t) : t.boot = s.boot := by have e := congrArg State.boot h.eq; exact e
theorem Measured.pins {s t : State} (h : Measured s t) : t.pins = s.pins := by have e := congrArg State.pins h.eq; exact e
theorem Measured.out {s t : State} (h : Measured s t) : t.out = s.out := by have e := congrArg State.out h.eq; exact e
theorem Measured.pending {s t : State} (h : Measured s t) : t.pending = s.pending := by have e := congrArg State.pending h.eq; exact e

theorem ctrSet_measured {s₀ : State} (off v : Nat) (s : State) (hs : Measured s₀ s) : Measured s₀ (ctrSet off v s) := hs.trans (by
  unfold ctrSet
  repeat' (first | (with_reducible exact Measured.refl _) | (with_reducible assumption) | (simp only [measured_mk]) | (intro _) | split))

theorem ctrAdd_measured {s₀ : State} (off n : Nat) (s : State) (hs : Measured s₀ s) : Measured s₀ (ctrAdd off n s) := hs.trans (by
  unfold ctrAdd
  repeat' (first | (with_reducible exact Measured.refl _) | (with_reducible assumption) | (simp only [measured_mk]) | (with_reducible apply ctrSet_measured) | (intro _) | split))

theorem count_measured {s₀ : State} (off : Nat) (s : State) (hs : Measured s₀ s) : Measured s₀ (count off s) := hs.trans (by
  unfold count
  repeat' (first | (with_reducible exact Measured.refl _) | (with_reducible assumption) | (simp only [measured_mk]) | (with_reducible apply ctrAdd_measured) | (intro _) | split))

theorem ctrMax_measured {s₀ : State} (off v : Nat) (s : State) (hs : Measured s₀ s) : Measured s₀ (ctrMax off v s) := hs.trans (by
  unfold ctrMax
  repeat' (first | (with_reducible exact Measured.refl _) | (with_reducible assumption) | (simp only [measured_mk]) | (with_reducible apply ctrSet_measured) | (intro _) | split))

theorem drawFree_measured {s₀ s : State} (hs : Measured s₀ s) : Measured s₀ (drawFree s).2 := hs

theorem drawRandom_measured {s₀ s : State} (hs : Measured s₀ s) : Measured s₀ (drawRandom s).2 := hs

theorem drawChoice_measured {s₀ s : State} (hs : Measured s₀ s) : Measured s₀ (drawChoice s).2 := hs

theorem perfCount_measured {s₀ : State} (row n : Nat) (s : State) (hs : Measured s₀ s) : Measured s₀ (perfCount row n s) := hs.trans (by
  unfold perfCount
  repeat' (first | (with_reducible exact Measured.refl _) | (with_reducible assumption) | (simp only [measured_mk]) | (with_reducible apply ctrAdd_measured) | (with_reducible apply count_measured) | (intro _) | split))

theorem perfOccur_measured {s₀ : State} (scope : Nat → Bool) (event n : Nat) (o : Occ) (s : State) (hs : Measured s₀ s) : Measured s₀ (perfOccur scope event n o s) := hs.trans (by
  unfold perfOccur
  repeat' (first | (with_reducible exact Measured.refl _) | (with_reducible assumption) | (simp only [measured_mk]) | (with_reducible apply Measured.forEach) | (with_reducible apply perfCount_measured) | (intro _) | split))

theorem nextMark_measured {s₀ : State} (v : Nat) (s : State) (hs : Measured s₀ s) : Measured s₀ (nextMark v s).2 := hs.trans (by
  unfold nextMark
  repeat' (first | (with_reducible exact Measured.refl _) | (with_reducible assumption) | (simp only [measured_mk]) | (with_reducible apply drawRandom_measured) | (intro _) | split))

theorem setMark_measured {s₀ : State} (n c m : Nat) (s : State) (hs : Measured s₀ s) : Measured s₀ (setMark n c m s) := hs.trans (by
  unfold setMark
  repeat' (first | (with_reducible exact Measured.refl _) | (with_reducible assumption) | (simp only [measured_mk]) | (with_reducible apply count_measured) | (intro _) | split))

theorem sampleDone_measured {s₀ : State} (n entry : Nat) (s : State) (hs : Measured s₀ s) : Measured s₀ (sampleDone n entry s) := hs.trans (by
  unfold sampleDone
  repeat' (first | (with_reducible exact Measured.refl _) | (with_reducible assumption) | (simp only [measured_mk]) | (intro _) | split))

theorem sampleEnds_measured {s₀ : State} (fid : Nat) (f : Frame) (s : State) (hs : Measured s₀ s) : Measured s₀ (sampleEnds fid f s) := hs.trans (by
  unfold sampleEnds
  repeat' (first | (with_reducible exact Measured.refl _) | (with_reducible assumption) | (simp only [measured_mk]) | (with_reducible apply sampleDone_measured) | (intro _) | split))

theorem beginSample_measured {s₀ : State} (n kind fid : Nat) (f : Frame) (s : State) (hs : Measured s₀ s) : Measured s₀ (beginSample n kind fid f s) := hs.trans (by
  unfold beginSample
  repeat' (first | (with_reducible exact Measured.refl _) | (with_reducible assumption) | (simp only [measured_mk]) | (with_reducible apply sampleDone_measured) | (with_reducible apply count_measured) | (intro _) | split))

theorem preciseOccur_measured {s₀ : State} (n event : Nat) (o : Occ) (s : State) (hs : Measured s₀ s) : Measured s₀ (preciseOccur n event o s) := hs.trans (by
  unfold preciseOccur
  repeat' (first | (with_reducible exact Measured.refl _) | (with_reducible assumption) | (simp only [measured_mk]) | (with_reducible apply count_measured) | (with_reducible apply setMark_measured) | (with_reducible apply nextMark_measured) | (with_reducible apply beginSample_measured) | (intro _) | split))

theorem occur_measured {s₀ : State} (n event k : Nat) (o : Occ) (s : State) (hs : Measured s₀ s) : Measured s₀ (occur n event k o s) := hs.trans (by
  unfold occur
  repeat' (first | (with_reducible exact Measured.refl _) | (with_reducible assumption) | (simp only [measured_mk]) | (with_reducible apply preciseOccur_measured) | (with_reducible apply perfOccur_measured) | (intro _) | split))

theorem occurGlobal_measured {s₀ : State} (event k : Nat) (s : State) (hs : Measured s₀ s) : Measured s₀ (occurGlobal event k s) := hs.trans (by
  unfold occurGlobal
  repeat' (first | (with_reducible exact Measured.refl _) | (with_reducible assumption) | (simp only [measured_mk]) | (with_reducible apply perfOccur_measured) | (intro _) | split))

theorem slotCategory_measured {s₀ : State} (n c : Nat) (o : Occ) (s : State) (hs : Measured s₀ s) : Measured s₀ (slotCategory n c o s) := hs.trans (by
  unfold slotCategory
  repeat' (first | (with_reducible exact Measured.refl _) | (with_reducible assumption) | (simp only [measured_mk]) | (with_reducible apply occur_measured) | (with_reducible apply count_measured) | (intro _) | split))

theorem sampleBoundary_measured {s₀ : State} (fid word : Nat) (f : Frame) (s : State) (hs : Measured s₀ s) : Measured s₀ (sampleBoundary fid word f s) := hs.trans (by
  unfold sampleBoundary
  repeat' (first | (with_reducible exact Measured.refl _) | (with_reducible assumption) | (simp only [measured_mk]) | (with_reducible apply sampleDone_measured) | (intro _) | split))

theorem sampleLeave_measured {s₀ : State} (fid : Nat) (f : Frame) (egress : Nat) (discarded : Bool) (s : State) (hs : Measured s₀ s) : Measured s₀ (sampleLeave fid f egress discarded s) := hs.trans (by
  unfold sampleLeave
  repeat' (first | (with_reducible exact Measured.refl _) | (with_reducible assumption) | (simp only [measured_mk]) | (with_reducible apply sampleEnds_measured) | (with_reducible apply sampleDone_measured) | (intro _) | split))

/-- Between `s` and `t` nothing has changed beyond what a raised event may change: registers, counters, the event unit, a MGMT port's sequence, the host link, what leaves the device. -/
def Noted (s t : State) : Prop :=
  { t with dict := s.dict, ctr := s.ctr, ev := s.ev, eng := s.eng, hst := s.hst, out := s.out } = s

theorem Noted.eq {s t : State} (h : Noted s t) : { t with dict := s.dict, ctr := s.ctr, ev := s.ev, eng := s.eng, hst := s.hst, out := s.out } = s := h

theorem Noted.refl (s : State) : Noted s s := rfl

theorem Noted.trans {s t u : State} (h : Noted s t) (g : Noted t u) : Noted s u := by
  have e := congrArg (fun x : State => { x with dict := s.dict, ctr := s.ctr, ev := s.ev, eng := s.eng, hst := s.hst, out := s.out }) g.eq
  exact e.trans h.eq

theorem noted_mk {s₀ s : State} {x_dict x_ctr x_ev x_eng x_hst x_out} :
    Noted s₀ (State.mk s.clk s.cal s.fuse x_dict x_ctr x_ev x_eng s.ep s.prt s.pip s.cs s.lt s.rb s.pa s.led s.svc s.buf s.fab s.tm s.cap s.dw x_hst s.tun s.pair s.gov s.perf s.boot s.pins s.free x_out s.pending) ↔ Noted s₀ s := Iff.rfl

theorem Noted.when {s₀ : State} {c : Bool} {f : State → State} {s : State} (h : ∀ t, Noted t (f t)) (hs : Noted s₀ s) :
    Noted s₀ (when c f s) := by
  unfold Machine.when
  split
  · exact hs.trans (h s)
  · exact hs

theorem Noted.forEach {α : Type} {s₀ : State} {l : List α} {f : State → α → State} {s : State}
    (h : ∀ t a, Noted t (f t a)) (hs : Noted s₀ s) : Noted s₀ (forEach l f s) := by
  unfold Machine.forEach
  induction l generalizing s with
  | nil => exact hs
  | cons a t ih => exact ih (hs.trans (h s a))

theorem Noted.clk {s t : State} (h : Noted s t) : t.clk = s.clk := by have e := congrArg State.clk h.eq; exact e
theorem Noted.cal {s t : State} (h : Noted s t) : t.cal = s.cal := by have e := congrArg State.cal h.eq; exact e
theorem Noted.fuse {s t : State} (h : Noted s t) : t.fuse = s.fuse := by have e := congrArg State.fuse h.eq; exact e
theorem Noted.ep {s t : State} (h : Noted s t) : t.ep = s.ep := by have e := congrArg State.ep h.eq; exact e
theorem Noted.prt {s t : State} (h : Noted s t) : t.prt = s.prt := by have e := congrArg State.prt h.eq; exact e
theorem Noted.pip {s t : State} (h : Noted s t) : t.pip = s.pip := by have e := congrArg State.pip h.eq; exact e
theorem Noted.cs {s t : State} (h : Noted s t) : t.cs = s.cs := by have e := congrArg State.cs h.eq; exact e
theorem Noted.lt {s t : State} (h : Noted s t) : t.lt = s.lt := by have e := congrArg State.lt h.eq; exact e
theorem Noted.rb {s t : State} (h : Noted s t) : t.rb = s.rb := by have e := congrArg State.rb h.eq; exact e
theorem Noted.pa {s t : State} (h : Noted s t) : t.pa = s.pa := by have e := congrArg State.pa h.eq; exact e
theorem Noted.led {s t : State} (h : Noted s t) : t.led = s.led := by have e := congrArg State.led h.eq; exact e
theorem Noted.svc {s t : State} (h : Noted s t) : t.svc = s.svc := by have e := congrArg State.svc h.eq; exact e
theorem Noted.buf {s t : State} (h : Noted s t) : t.buf = s.buf := by have e := congrArg State.buf h.eq; exact e
theorem Noted.fab {s t : State} (h : Noted s t) : t.fab = s.fab := by have e := congrArg State.fab h.eq; exact e
theorem Noted.tm {s t : State} (h : Noted s t) : t.tm = s.tm := by have e := congrArg State.tm h.eq; exact e
theorem Noted.cap {s t : State} (h : Noted s t) : t.cap = s.cap := by have e := congrArg State.cap h.eq; exact e
theorem Noted.dw {s t : State} (h : Noted s t) : t.dw = s.dw := by have e := congrArg State.dw h.eq; exact e
theorem Noted.tun {s t : State} (h : Noted s t) : t.tun = s.tun := by have e := congrArg State.tun h.eq; exact e
theorem Noted.pair {s t : State} (h : Noted s t) : t.pair = s.pair := by have e := congrArg State.pair h.eq; exact e
theorem Noted.gov {s t : State} (h : Noted s t) : t.gov = s.gov := by have e := congrArg State.gov h.eq; exact e
theorem Noted.perf {s t : State} (h : Noted s t) : t.perf = s.perf := by have e := congrArg State.perf h.eq; exact e
theorem Noted.boot {s t : State} (h : Noted s t) : t.boot = s.boot := by have e := congrArg State.boot h.eq; exact e
theorem Noted.pins {s t : State} (h : Noted s t) : t.pins = s.pins := by have e := congrArg State.pins h.eq; exact e
theorem Noted.free {s t : State} (h : Noted s t) : t.free = s.free := by have e := congrArg State.free h.eq; exact e
theorem Noted.pending {s t : State} (h : Noted s t) : t.pending = s.pending := by have e := congrArg State.pending h.eq; exact e

theorem emit_noted {s₀ : State} (o : Output) (s : State) (hs : Noted s₀ s) : Noted s₀ (emit o s) := hs.trans (by
  unfold emit
  repeat' (first | (with_reducible exact Noted.refl _) | (with_reducible assumption) | (simp only [noted_mk]) | (intro _) | split))

theorem wrSet_noted {s₀ : State} (set obj row v : Nat) (s : State) (hs : Noted s₀ s) : Noted s₀ (wrSet set obj row v s) := hs.trans (by
  unfold wrSet
  repeat' (first | (with_reducible exact Noted.refl _) | (with_reducible assumption) | (simp only [noted_mk]) | (intro _) | split))

theorem wrRow_noted {s₀ : State} (obj row v : Nat) (s : State) (hs : Noted s₀ s) : Noted s₀ (wrRow obj row v s) := hs.trans (by
  unfold wrRow
  repeat' (first | (with_reducible exact Noted.refl _) | (with_reducible assumption) | (simp only [noted_mk]) | (with_reducible apply wrSet_noted) | (intro _) | split))

theorem wr_noted {s₀ : State} (obj v : Nat) (s : State) (hs : Noted s₀ s) : Noted s₀ (wr obj v s) := hs.trans (by
  unfold wr
  repeat' (first | (with_reducible exact Noted.refl _) | (with_reducible assumption) | (simp only [noted_mk]) | (with_reducible apply wrSet_noted) | (intro _) | split))

theorem ctrSet_noted {s₀ : State} (off v : Nat) (s : State) (hs : Noted s₀ s) : Noted s₀ (ctrSet off v s) := hs.trans (by
  unfold ctrSet
  repeat' (first | (with_reducible exact Noted.refl _) | (with_reducible assumption) | (simp only [noted_mk]) | (intro _) | split))

theorem ctrAdd_noted {s₀ : State} (off n : Nat) (s : State) (hs : Noted s₀ s) : Noted s₀ (ctrAdd off n s) := hs.trans (by
  unfold ctrAdd
  repeat' (first | (with_reducible exact Noted.refl _) | (with_reducible assumption) | (simp only [noted_mk]) | (with_reducible apply ctrSet_noted) | (intro _) | split))

theorem count_noted {s₀ : State} (off : Nat) (s : State) (hs : Noted s₀ s) : Noted s₀ (count off s) := hs.trans (by
  unfold count
  repeat' (first | (with_reducible exact Noted.refl _) | (with_reducible assumption) | (simp only [noted_mk]) | (with_reducible apply ctrAdd_noted) | (intro _) | split))

theorem ctrMax_noted {s₀ : State} (off v : Nat) (s : State) (hs : Noted s₀ s) : Noted s₀ (ctrMax off v s) := hs.trans (by
  unfold ctrMax
  repeat' (first | (with_reducible exact Noted.refl _) | (with_reducible assumption) | (simp only [noted_mk]) | (with_reducible apply ctrSet_noted) | (intro _) | split))

theorem useLimit_noted {s₀ : State} (key : Nat) (s : State) (hs : Noted s₀ s) : Noted s₀ (useLimit key s) := hs.trans (by
  unfold useLimit
  repeat' (first | (with_reducible exact Noted.refl _) | (with_reducible assumption) | (simp only [noted_mk]) | (intro _) | split))

theorem setMgmt_noted {s₀ : State} (n : Nat) (m : Mgmt) (s : State) (hs : Noted s₀ s) : Noted s₀ (setMgmt n m s) := hs.trans (by
  unfold setMgmt
  repeat' (first | (with_reducible exact Noted.refl _) | (with_reducible assumption) | (simp only [noted_mk]) | (intro _) | split))

theorem sendObserver_noted {s₀ : State} (n kind : Nat) (payload : Bytes) (s : State) (hs : Noted s₀ s) : Noted s₀ (sendObserver n kind payload s) := hs.trans (by
  unfold sendObserver
  repeat' (first | (with_reducible exact Noted.refl _) | (with_reducible assumption) | (simp only [noted_mk]) | (with_reducible apply setMgmt_noted) | (with_reducible apply emit_noted) | (intro _) | split))

theorem sendTlp_noted {s₀ : State} (o : Output) (s : State) (hs : Noted s₀ s) : Noted s₀ (sendTlp o s) := hs.trans (by
  unfold sendTlp
  repeat' (first | (with_reducible exact Noted.refl _) | (with_reducible assumption) | (simp only [noted_mk]) | (with_reducible apply emit_noted) | (intro _) | split))

theorem pendVector_noted {s₀ : State} (v : Nat) (s : State) (hs : Noted s₀ s) : Noted s₀ (pendVector v s) := hs.trans (by
  unfold pendVector
  repeat' (first | (with_reducible exact Noted.refl _) | (with_reducible assumption) | (simp only [noted_mk]) | (intro _) | split))

theorem sendVector_noted {s₀ : State} (v : Nat) (s : State) (hs : Noted s₀ s) : Noted s₀ (sendVector v s) := hs.trans (by
  unfold sendVector
  repeat' (first | (with_reducible exact Noted.refl _) | (with_reducible assumption) | (simp only [noted_mk]) | (with_reducible apply pendVector_noted) | (with_reducible apply sendTlp_noted) | (intro _) | split))

theorem sendGroupVectors_noted {s₀ : State} (before : State) (groups : List Nat) (s : State) (hs : Noted s₀ s) : Noted s₀ (sendGroupVectors before groups s) := hs.trans (by
  unfold sendGroupVectors
  repeat' (first | (with_reducible exact Noted.refl _) | (with_reducible assumption) | (simp only [noted_mk]) | (with_reducible apply Noted.forEach) | (with_reducible apply sendVector_noted) | (intro _) | split))

theorem sendNotice_noted {s₀ : State} (n src : Nat) (s : State) (hs : Noted s₀ s) : Noted s₀ (sendNotice n src s) := hs.trans (by
  unfold sendNotice
  repeat' (first | (with_reducible exact Noted.refl _) | (with_reducible assumption) | (simp only [noted_mk]) | (with_reducible apply count_noted) | (with_reducible apply sendObserver_noted) | (with_reducible apply useLimit_noted) | (intro _) | split))

theorem raise_noted {s₀ : State} (src detail : Nat) (s : State) (hs : Noted s₀ s) : Noted s₀ (raise src detail s) :=
  hs.trans (by
  unfold raise
  extract_lets g m t1 e t2 t3 t4 r t5
  have h1 : Noted s t1 := wrRow_noted _ _ _ _ (count_noted _ _ (Noted.refl s))
  have h2 : Noted s t2 := noted_mk.mpr h1
  have h3 : Noted s t3 := wrRow_noted _ _ _ _ h2
  have h4 : Noted s t4 := sendGroupVectors_noted _ _ _ h3
  exact Noted.when (fun t => sendNotice_noted _ _ _ (Noted.refl t)) (Noted.when (fun t => sendNotice_noted _ _ _ (Noted.refl t)) h4))

theorem raiseOnce_noted {s₀ : State} (src scope detail : Nat) (s : State) (hs : Noted s₀ s) : Noted s₀ (raiseOnce src scope detail s) := hs.trans (by
  unfold raiseOnce
  repeat' (first | (with_reducible exact Noted.refl _) | (with_reducible assumption) | (simp only [noted_mk]) | (with_reducible apply raise_noted) | (with_reducible apply useLimit_noted) | (intro _) | split))

/-- Between `s` and `t` nothing has changed beyond what the end of a command may change: what an event does, buffers, locks. -/
def Ended (s t : State) : Prop :=
  { t with dict := s.dict, ctr := s.ctr, ev := s.ev, eng := s.eng, hst := s.hst, out := s.out, perf := s.perf, free := s.free, buf := s.buf, lt := s.lt } = s

theorem Ended.eq {s t : State} (h : Ended s t) : { t with dict := s.dict, ctr := s.ctr, ev := s.ev, eng := s.eng, hst := s.hst, out := s.out, perf := s.perf, free := s.free, buf := s.buf, lt := s.lt } = s := h

theorem Ended.refl (s : State) : Ended s s := rfl

theorem Ended.trans {s t u : State} (h : Ended s t) (g : Ended t u) : Ended s u := by
  have e := congrArg (fun x : State => { x with dict := s.dict, ctr := s.ctr, ev := s.ev, eng := s.eng, hst := s.hst, out := s.out, perf := s.perf, free := s.free, buf := s.buf, lt := s.lt }) g.eq
  exact e.trans h.eq

theorem ended_mk {s₀ s : State} {x_dict x_ctr x_ev x_eng x_hst x_out x_perf x_free x_buf x_lt} :
    Ended s₀ (State.mk s.clk s.cal s.fuse x_dict x_ctr x_ev x_eng s.ep s.prt s.pip s.cs x_lt s.rb s.pa s.led s.svc x_buf s.fab s.tm s.cap s.dw x_hst s.tun s.pair s.gov x_perf s.boot s.pins x_free x_out s.pending) ↔ Ended s₀ s := Iff.rfl

theorem Ended.when {s₀ : State} {c : Bool} {f : State → State} {s : State} (h : ∀ t, Ended t (f t)) (hs : Ended s₀ s) :
    Ended s₀ (when c f s) := by
  unfold Machine.when
  split
  · exact hs.trans (h s)
  · exact hs

theorem Ended.forEach {α : Type} {s₀ : State} {l : List α} {f : State → α → State} {s : State}
    (h : ∀ t a, Ended t (f t a)) (hs : Ended s₀ s) : Ended s₀ (forEach l f s) := by
  unfold Machine.forEach
  induction l generalizing s with
  | nil => exact hs
  | cons a t ih => exact ih (hs.trans (h s a))

theorem Ended.clk {s t : State} (h : Ended s t) : t.clk = s.clk := by have e := congrArg State.clk h.eq; exact e
theorem Ended.cal {s t : State} (h : Ended s t) : t.cal = s.cal := by have e := congrArg State.cal h.eq; exact e
theorem Ended.fuse {s t : State} (h : Ended s t) : t.fuse = s.fuse := by have e := congrArg State.fuse h.eq; exact e
theorem Ended.ep {s t : State} (h : Ended s t) : t.ep = s.ep := by have e := congrArg State.ep h.eq; exact e
theorem Ended.prt {s t : State} (h : Ended s t) : t.prt = s.prt := by have e := congrArg State.prt h.eq; exact e
theorem Ended.pip {s t : State} (h : Ended s t) : t.pip = s.pip := by have e := congrArg State.pip h.eq; exact e
theorem Ended.cs {s t : State} (h : Ended s t) : t.cs = s.cs := by have e := congrArg State.cs h.eq; exact e
theorem Ended.rb {s t : State} (h : Ended s t) : t.rb = s.rb := by have e := congrArg State.rb h.eq; exact e
theorem Ended.pa {s t : State} (h : Ended s t) : t.pa = s.pa := by have e := congrArg State.pa h.eq; exact e
theorem Ended.led {s t : State} (h : Ended s t) : t.led = s.led := by have e := congrArg State.led h.eq; exact e
theorem Ended.svc {s t : State} (h : Ended s t) : t.svc = s.svc := by have e := congrArg State.svc h.eq; exact e
theorem Ended.fab {s t : State} (h : Ended s t) : t.fab = s.fab := by have e := congrArg State.fab h.eq; exact e
theorem Ended.tm {s t : State} (h : Ended s t) : t.tm = s.tm := by have e := congrArg State.tm h.eq; exact e
theorem Ended.cap {s t : State} (h : Ended s t) : t.cap = s.cap := by have e := congrArg State.cap h.eq; exact e
theorem Ended.dw {s t : State} (h : Ended s t) : t.dw = s.dw := by have e := congrArg State.dw h.eq; exact e
theorem Ended.tun {s t : State} (h : Ended s t) : t.tun = s.tun := by have e := congrArg State.tun h.eq; exact e
theorem Ended.pair {s t : State} (h : Ended s t) : t.pair = s.pair := by have e := congrArg State.pair h.eq; exact e
theorem Ended.gov {s t : State} (h : Ended s t) : t.gov = s.gov := by have e := congrArg State.gov h.eq; exact e
theorem Ended.boot {s t : State} (h : Ended s t) : t.boot = s.boot := by have e := congrArg State.boot h.eq; exact e
theorem Ended.pins {s t : State} (h : Ended s t) : t.pins = s.pins := by have e := congrArg State.pins h.eq; exact e
theorem Ended.pending {s t : State} (h : Ended s t) : t.pending = s.pending := by have e := congrArg State.pending h.eq; exact e

theorem emit_ended {s₀ : State} (o : Output) (s : State) (hs : Ended s₀ s) : Ended s₀ (emit o s) := hs.trans (by
  unfold emit
  repeat' (first | (with_reducible exact Ended.refl _) | (with_reducible assumption) | (simp only [ended_mk]) | (intro _) | split))

theorem wrSet_ended {s₀ : State} (set obj row v : Nat) (s : State) (hs : Ended s₀ s) : Ended s₀ (wrSet set obj row v s) := hs.trans (by
  unfold wrSet
  repeat' (first | (with_reducible exact Ended.refl _) | (with_reducible assumption) | (simp only [ended_mk]) | (intro _) | split))

theorem wrRow_ended {s₀ : State} (obj row v : Nat) (s : State) (hs : Ended s₀ s) : Ended s₀ (wrRow obj row v s) := hs.trans (by
  unfold wrRow
  repeat' (first | (with_reducible exact Ended.refl _) | (with_reducible assumption) | (simp only [ended_mk]) | (with_reducible apply wrSet_ended) | (intro _) | split))

theorem wr_ended {s₀ : State} (obj v : Nat) (s : State) (hs : Ended s₀ s) : Ended s₀ (wr obj v s) := hs.trans (by
  unfold wr
  repeat' (first | (with_reducible exact Ended.refl _) | (with_reducible assumption) | (simp only [ended_mk]) | (with_reducible apply wrSet_ended) | (intro _) | split))

theorem ctrSet_ended {s₀ : State} (off v : Nat) (s : State) (hs : Ended s₀ s) : Ended s₀ (ctrSet off v s) := hs.trans (by
  unfold ctrSet
  repeat' (first | (with_reducible exact Ended.refl _) | (with_reducible assumption) | (simp only [ended_mk]) | (intro _) | split))

theorem ctrAdd_ended {s₀ : State} (off n : Nat) (s : State) (hs : Ended s₀ s) : Ended s₀ (ctrAdd off n s) := hs.trans (by
  unfold ctrAdd
  repeat' (first | (with_reducible exact Ended.refl _) | (with_reducible assumption) | (simp only [ended_mk]) | (with_reducible apply ctrSet_ended) | (intro _) | split))

theorem count_ended {s₀ : State} (off : Nat) (s : State) (hs : Ended s₀ s) : Ended s₀ (count off s) := hs.trans (by
  unfold count
  repeat' (first | (with_reducible exact Ended.refl _) | (with_reducible assumption) | (simp only [ended_mk]) | (with_reducible apply ctrAdd_ended) | (intro _) | split))

theorem ctrMax_ended {s₀ : State} (off v : Nat) (s : State) (hs : Ended s₀ s) : Ended s₀ (ctrMax off v s) := hs.trans (by
  unfold ctrMax
  repeat' (first | (with_reducible exact Ended.refl _) | (with_reducible assumption) | (simp only [ended_mk]) | (with_reducible apply ctrSet_ended) | (intro _) | split))

theorem raise_ended {s₀ : State} (src detail : Nat) (s : State) (hs : Ended s₀ s) : Ended s₀ (raise src detail s) :=
  hs.trans (by have e := congrArg (fun x : State => { x with dict := s.dict, ctr := s.ctr, ev := s.ev, eng := s.eng, hst := s.hst, out := s.out, perf := s.perf, free := s.free, buf := s.buf, lt := s.lt }) ((raise_noted src detail s (Noted.refl s)).eq); exact e)

theorem raiseOnce_ended {s₀ : State} (src scope detail : Nat) (s : State) (hs : Ended s₀ s) : Ended s₀ (raiseOnce src scope detail s) :=
  hs.trans (by have e := congrArg (fun x : State => { x with dict := s.dict, ctr := s.ctr, ev := s.ev, eng := s.eng, hst := s.hst, out := s.out, perf := s.perf, free := s.free, buf := s.buf, lt := s.lt }) ((raiseOnce_noted src scope detail s (Noted.refl s)).eq); exact e)

theorem sendTlp_ended {s₀ : State} (o : Output) (s : State) (hs : Ended s₀ s) : Ended s₀ (sendTlp o s) :=
  hs.trans (by have e := congrArg (fun x : State => { x with dict := s.dict, ctr := s.ctr, ev := s.ev, eng := s.eng, hst := s.hst, out := s.out, perf := s.perf, free := s.free, buf := s.buf, lt := s.lt }) ((sendTlp_noted o s (Noted.refl s)).eq); exact e)

theorem hostWrite_ended {s₀ : State} (a : Nat) (b : Bytes) (s : State) (hs : Ended s₀ s) : Ended s₀ (hostWrite a b s) := hs.trans (by
  unfold hostWrite
  repeat' (first | (with_reducible exact Ended.refl _) | (with_reducible assumption) | (simp only [ended_mk]) | (with_reducible apply sendTlp_ended) | (intro _) | split))

theorem flushWrites_ended {s₀ : State} (s : State) (hs : Ended s₀ s) : Ended s₀ (flushWrites s) := hs.trans (by
  unfold flushWrites
  repeat' (first | (with_reducible exact Ended.refl _) | (with_reducible assumption) | (simp only [ended_mk]) | (with_reducible apply Ended.forEach) | (with_reducible apply sendTlp_ended) | (with_reducible apply hostWrite_ended) | (intro _) | split))

theorem pendVector_ended {s₀ : State} (v : Nat) (s : State) (hs : Ended s₀ s) : Ended s₀ (pendVector v s) := hs.trans (by
  unfold pendVector
  repeat' (first | (with_reducible exact Ended.refl _) | (with_reducible assumption) | (simp only [ended_mk]) | (intro _) | split))

theorem sendVector_ended {s₀ : State} (v : Nat) (s : State) (hs : Ended s₀ s) : Ended s₀ (sendVector v s) := hs.trans (by
  unfold sendVector
  repeat' (first | (with_reducible exact Ended.refl _) | (with_reducible assumption) | (simp only [ended_mk]) | (with_reducible apply pendVector_ended) | (with_reducible apply sendTlp_ended) | (intro _) | split))

theorem setPool_ended {s₀ : State} (p : Nat) (x : PoolSt) (s : State) (hs : Ended s₀ s) : Ended s₀ (setPool p x s) := hs.trans (by
  unfold setPool
  repeat' (first | (with_reducible exact Ended.refl _) | (with_reducible assumption) | (simp only [ended_mk]) | (intro _) | split))

theorem setHeader_ended {s₀ : State} (h w : Nat) (s : State) (hs : Ended s₀ s) : Ended s₀ (setHeader h w s) := hs.trans (by
  unfold setHeader
  repeat' (first | (with_reducible exact Ended.refl _) | (with_reducible assumption) | (simp only [ended_mk]) | (intro _) | split))

theorem setHeld_ended {s₀ : State} (owner p n : Nat) (s : State) (hs : Ended s₀ s) : Ended s₀ (setHeld owner p n s) := hs.trans (by
  unfold setHeld
  repeat' (first | (with_reducible exact Ended.refl _) | (with_reducible assumption) | (simp only [ended_mk]) | (intro _) | split))

theorem breakList_ended {s₀ : State} (p : Nat) (s : State) (hs : Ended s₀ s) : Ended s₀ (breakList p s) := hs.trans (by
  unfold breakList
  repeat' (first | (with_reducible exact Ended.refl _) | (with_reducible assumption) | (simp only [ended_mk]) | (with_reducible apply setPool_ended) | (with_reducible apply raise_ended) | (with_reducible apply count_ended) | (intro _) | split))

theorem returnBuffer_ended {s₀ : State} (h : Nat) (s : State) (hs : Ended s₀ s) : Ended s₀ (returnBuffer h s) := hs.trans (by
  unfold returnBuffer
  repeat' (first | (with_reducible exact Ended.refl _) | (with_reducible assumption) | (simp only [ended_mk]) | (with_reducible apply setPool_ended) | (intro _) | split))

theorem badHandle_ended {s₀ : State} (h owner : Nat) (s : State) (hs : Ended s₀ s) : Ended s₀ (badHandle h owner s) := hs.trans (by
  unfold badHandle
  repeat' (first | (with_reducible exact Ended.refl _) | (with_reducible assumption) | (simp only [ended_mk]) | (with_reducible apply raiseOnce_ended) | (with_reducible apply wr_ended) | (with_reducible apply count_ended) | (intro _) | split))

theorem sendRelease_ended {s₀ : State} (r : Release) (s : State) (hs : Ended s₀ s) : Ended s₀ (sendRelease r s) := hs.trans (by
  unfold sendRelease
  repeat' (first | (with_reducible exact Ended.refl _) | (with_reducible assumption) | (simp only [ended_mk]) | (intro _) | split))

theorem releaseBuffer_ended {s₀ : State} (h owner : Nat) (s : State) (hs : Ended s₀ s) : Ended s₀ (releaseBuffer h owner s) := hs.trans (by
  unfold releaseBuffer
  repeat' (first | (with_reducible exact Ended.refl _) | (with_reducible assumption) | (simp only [ended_mk]) | (with_reducible apply sendRelease_ended) | (intro _) | split))

theorem raiseRefs_ended {s₀ : State} (h n : Nat) (s : State) (hs : Ended s₀ s) : Ended s₀ (raiseRefs h n s) := hs.trans (by
  unfold raiseRefs
  repeat' (first | (with_reducible exact Ended.refl _) | (with_reducible assumption) | (simp only [ended_mk]) | (with_reducible apply setHeader_ended) | (intro _) | split))

theorem moveCharge_ended {s₀ : State} (h owner : Nat) (s : State) (hs : Ended s₀ s) : Ended s₀ (moveCharge h owner s) := hs.trans (by
  unfold moveCharge
  repeat' (first | (with_reducible exact Ended.refl _) | (with_reducible assumption) | (simp only [ended_mk]) | (with_reducible apply setHeld_ended) | (with_reducible apply setHeader_ended) | (intro _) | split))

theorem releaseFrameAt_ended {s₀ : State} (position : Nat) (f : Frame) (s : State) (hs : Ended s₀ s) : Ended s₀ (releaseFrameAt position f s) := hs.trans (by
  unfold releaseFrameAt
  repeat' (first | (with_reducible exact Ended.refl _) | (with_reducible assumption) | (simp only [ended_mk]) | (with_reducible apply sendRelease_ended) | (intro _) | split))

theorem releaseFrame_ended {s₀ : State} (f : Frame) (s : State) (hs : Ended s₀ s) : Ended s₀ (releaseFrame f s) := hs.trans (by
  unfold releaseFrame
  repeat' (first | (with_reducible exact Ended.refl _) | (with_reducible assumption) | (simp only [ended_mk]) | (with_reducible apply releaseFrameAt_ended) | (intro _) | split))

theorem setSq_ended {s₀ : State} (q : Nat) (x : Sq) (s : State) (hs : Ended s₀ s) : Ended s₀ (setSq q x s) := hs.trans (by
  unfold setSq
  repeat' (first | (with_reducible exact Ended.refl _) | (with_reducible assumption) | (simp only [ended_mk]) | (intro _) | split))

theorem setCq_ended {s₀ : State} (q : Nat) (x : Cq) (s : State) (hs : Ended s₀ s) : Ended s₀ (setCq q x s) := hs.trans (by
  unfold setCq
  repeat' (first | (with_reducible exact Ended.refl _) | (with_reducible assumption) | (simp only [ended_mk]) | (intro _) | split))

theorem writeEntry_ended {s₀ : State} (q : Nat) (b : Bytes) (s : State) (hs : Ended s₀ s) : Ended s₀ (writeEntry q b s) := hs.trans (by
  unfold writeEntry
  repeat' (first | (with_reducible exact Ended.refl _) | (with_reducible assumption) | (simp only [ended_mk]) | (with_reducible apply Ended.when) | (with_reducible apply hostWrite_ended) | (with_reducible apply flushWrites_ended) | (with_reducible apply setCq_ended) | (intro _) | split))

theorem releaseStaging_ended {s₀ : State} (h : Option Nat) (s : State) (hs : Ended s₀ s) : Ended s₀ (releaseStaging h s) := hs.trans (by
  unfold releaseStaging
  repeat' (first | (with_reducible exact Ended.refl _) | (with_reducible assumption) | (simp only [ended_mk]) | (with_reducible apply releaseBuffer_ended) | (intro _) | split))

theorem writeHeld_ended {s₀ : State} (q : Nat) (s : State) (hs : Ended s₀ s) : Ended s₀ (writeHeld q s) := hs.trans (by
  unfold writeHeld
  repeat' (first | (with_reducible exact Ended.refl _) | (with_reducible assumption) | (simp only [ended_mk]) | (with_reducible apply setCq_ended) | (with_reducible apply Ended.forEach) | (with_reducible apply releaseStaging_ended) | (with_reducible apply writeEntry_ended) | (intro _) | split))

theorem writeTail_ended {s₀ : State} (q : Nat) (s : State) (hs : Ended s₀ s) : Ended s₀ (writeTail q s) := hs.trans (by
  unfold writeTail
  repeat' (first | (with_reducible exact Ended.refl _) | (with_reducible assumption) | (simp only [ended_mk]) | (with_reducible apply hostWrite_ended) | (intro _) | split))

theorem leaveL1_ended {s₀ : State} (s : State) (hs : Ended s₀ s) : Ended s₀ (leaveL1 s) := hs.trans (by
  unfold leaveL1
  repeat' (first | (with_reducible exact Ended.refl _) | (with_reducible assumption) | (simp only [ended_mk]) | (with_reducible apply Ended.forEach) | (with_reducible apply writeTail_ended) | (with_reducible apply writeHeld_ended) | (intro _) | split))

theorem sendSignalVector_ended {s₀ : State} (v : Nat) (s : State) (hs : Ended s₀ s) : Ended s₀ (sendSignalVector v s) := hs.trans (by
  unfold sendSignalVector
  repeat' (first | (with_reducible exact Ended.refl _) | (with_reducible assumption) | (simp only [ended_mk]) | (with_reducible apply pendVector_ended) | (with_reducible apply sendTlp_ended) | (intro _) | split))

theorem signalCq_ended {s₀ : State} (q : Nat) (ceiling : Bool) (s : State) (hs : Ended s₀ s) : Ended s₀ (signalCq q ceiling s) := hs.trans (by
  unfold signalCq
  repeat' (first | (with_reducible exact Ended.refl _) | (with_reducible assumption) | (simp only [ended_mk]) | (with_reducible apply count_ended) | (with_reducible apply Ended.when) | (with_reducible apply setCq_ended) | (with_reducible apply pendVector_ended) | (with_reducible apply sendTlp_ended) | (with_reducible apply sendSignalVector_ended) | (with_reducible apply writeTail_ended) | (with_reducible apply writeHeld_ended) | (intro _) | split))

theorem signalByCount_ended {s₀ : State} (q : Nat) (s : State) (hs : Ended s₀ s) : Ended s₀ (signalByCount q s) := hs.trans (by
  unfold signalByCount
  repeat' (first | (with_reducible exact Ended.refl _) | (with_reducible assumption) | (simp only [ended_mk]) | (with_reducible apply signalCq_ended) | (intro _) | split))

theorem postEntry_ended {s₀ : State} (q : Nat) (b : Bytes) (counts : Bool) (h : Option Nat) (s : State) (hs : Ended s₀ s) : Ended s₀ (postEntry q b counts h s) := hs.trans (by
  unfold postEntry
  repeat' (first | (with_reducible exact Ended.refl _) | (with_reducible assumption) | (simp only [ended_mk]) | (with_reducible apply releaseStaging_ended) | (with_reducible apply setCq_ended) | (with_reducible apply signalByCount_ended) | (with_reducible apply leaveL1_ended) | (with_reducible apply writeEntry_ended) | (with_reducible apply Ended.when) | (with_reducible apply writeHeld_ended) | (intro _) | split))

theorem unreserve_ended {s₀ : State} (q n : Nat) (s : State) (hs : Ended s₀ s) : Ended s₀ (unreserve q n s) := hs.trans (by
  unfold unreserve
  repeat' (first | (with_reducible exact Ended.refl _) | (with_reducible assumption) | (simp only [ended_mk]) | (with_reducible apply setCq_ended) | (intro _) | split))

theorem releaseLocks_ended {s₀ : State} (q : Nat) (s : State) (hs : Ended s₀ s) : Ended s₀ (releaseLocks q s) := hs.trans (by
  unfold releaseLocks
  repeat' (first | (with_reducible exact Ended.refl _) | (with_reducible assumption) | (simp only [ended_mk]) | (intro _) | split))

theorem removeSq_ended {s₀ : State} (q : Nat) (s : State) (hs : Ended s₀ s) : Ended s₀ (removeSq q s) := hs.trans (by
  unfold removeSq
  repeat' (first | (with_reducible exact Ended.refl _) | (with_reducible assumption) | (simp only [ended_mk]) | (with_reducible apply unreserve_ended) | (with_reducible apply releaseLocks_ended) | (intro _) | split))

theorem endCommand_ended {s₀ : State} (c : SqCmd) (status area skipped result : Nat) (extra : Bytes) (s : State) (hs : Ended s₀ s) : Ended s₀ (endCommand c status area skipped result extra s) := hs.trans (by
  unfold endCommand
  repeat' (first | (with_reducible exact Ended.refl _) | (with_reducible assumption) | (simp only [ended_mk]) | (with_reducible apply unreserve_ended) | (with_reducible apply releaseStaging_ended) | (with_reducible apply Ended.when) | (with_reducible apply count_ended) | (with_reducible apply postEntry_ended) | (intro _) | split))

theorem finishDeletion_ended {s₀ : State} (q : Nat) (s : State) (hs : Ended s₀ s) : Ended s₀ (finishDeletion q s) := hs.trans (by
  unfold finishDeletion
  repeat' (first | (with_reducible exact Ended.refl _) | (with_reducible assumption) | (simp only [ended_mk]) | (with_reducible apply endCommand_ended) | (with_reducible apply removeSq_ended) | (intro _) | split))

theorem complete_ended {s₀ : State} (c : SqCmd) (status area result : Nat) (s : State) (hs : Ended s₀ s) : Ended s₀ (complete c status area result s) := hs.trans (by
  unfold complete
  repeat' (first | (with_reducible exact Ended.refl _) | (with_reducible assumption) | (simp only [ended_mk]) | (with_reducible apply finishDeletion_ended) | (with_reducible apply endCommand_ended) | (intro _) | split))

theorem completeOk_ended {s₀ : State} (c : SqCmd) (s : State) (hs : Ended s₀ s) : Ended s₀ (completeOk c s) := hs.trans (by
  unfold completeOk
  repeat' (first | (with_reducible exact Ended.refl _) | (with_reducible assumption) | (simp only [ended_mk]) | (with_reducible apply complete_ended) | (intro _) | split))

theorem writeSegs_ends (l : List (Nat × Nat)) (b : Bytes) (s : State) : Ended s (writeSegs l b s) := by
  induction l generalizing b s with
  | nil => exact Ended.refl s
  | cons e t ih =>
    unfold writeSegs
    split
    · exact Ended.refl s
    · exact (hostWrite_ended _ _ _ (Ended.refl s)).trans (ih _ _)

theorem writeSegs_ended {s₀ : State} (l : List (Nat × Nat)) (b : Bytes) (s : State) (hs : Ended s₀ s) :
    Ended s₀ (writeSegs l b s) := hs.trans (writeSegs_ends l b s)

theorem writeData_ended {s₀ : State} (c : SqCmd) (b : Bytes) (s : State) (hs : Ended s₀ s) : Ended s₀ (writeData c b s) := hs.trans (by
  unfold writeData
  repeat' (first | (with_reducible exact Ended.refl _) | (with_reducible assumption) | (simp only [ended_mk]) | (with_reducible apply writeSegs_ended) | (with_reducible apply hostWrite_ended) | (intro _) | split))

theorem occur_ended {s₀ : State} (n event k : Nat) (o : Occ) (s : State) (hs : Ended s₀ s) : Ended s₀ (occur n event k o s) :=
  hs.trans (by have e := congrArg (fun x : State => { x with dict := s.dict, ctr := s.ctr, ev := s.ev, eng := s.eng, hst := s.hst, out := s.out, perf := s.perf, free := s.free, buf := s.buf, lt := s.lt }) ((occur_measured n event k o s (Measured.refl s)).eq); exact e)

theorem occurGlobal_ended {s₀ : State} (event k : Nat) (s : State) (hs : Ended s₀ s) : Ended s₀ (occurGlobal event k s) :=
  hs.trans (by have e := congrArg (fun x : State => { x with dict := s.dict, ctr := s.ctr, ev := s.ev, eng := s.eng, hst := s.hst, out := s.out, perf := s.perf, free := s.free, buf := s.buf, lt := s.lt }) ((occurGlobal_measured event k s (Measured.refl s)).eq); exact e)

/-- Between `s` and `t` nothing has changed beyond what a frame that leaves the device may change: what the end of a command does, and every queue of frames. -/
def Left (s t : State) : Prop :=
  { t with dict := s.dict, ctr := s.ctr, ev := s.ev, eng := s.eng, hst := s.hst, out := s.out, perf := s.perf, free := s.free, buf := s.buf, lt := s.lt, pip := s.pip, fab := s.fab, tm := s.tm, cap := s.cap } = s

theorem Left.eq {s t : State} (h : Left s t) : { t with dict := s.dict, ctr := s.ctr, ev := s.ev, eng := s.eng, hst := s.hst, out := s.out, perf := s.perf, free := s.free, buf := s.buf, lt := s.lt, pip := s.pip, fab := s.fab, tm := s.tm, cap := s.cap } = s := h

theorem Left.refl (s : State) : Left s s := rfl

theorem Left.trans {s t u : State} (h : Left s t) (g : Left t u) : Left s u := by
  have e := congrArg (fun x : State => { x with dict := s.dict, ctr := s.ctr, ev := s.ev, eng := s.eng, hst := s.hst, out := s.out, perf := s.perf, free := s.free, buf := s.buf, lt := s.lt, pip := s.pip, fab := s.fab, tm := s.tm, cap := s.cap }) g.eq
  exact e.trans h.eq

theorem left_mk {s₀ s : State} {x_dict x_ctr x_ev x_eng x_hst x_out x_perf x_free x_buf x_lt x_pip x_fab x_tm x_cap} :
    Left s₀ (State.mk s.clk s.cal s.fuse x_dict x_ctr x_ev x_eng s.ep s.prt x_pip s.cs x_lt s.rb s.pa s.led s.svc x_buf x_fab x_tm x_cap s.dw x_hst s.tun s.pair s.gov x_perf s.boot s.pins x_free x_out s.pending) ↔ Left s₀ s := Iff.rfl

theorem Left.when {s₀ : State} {c : Bool} {f : State → State} {s : State} (h : ∀ t, Left t (f t)) (hs : Left s₀ s) :
    Left s₀ (when c f s) := by
  unfold Machine.when
  split
  · exact hs.trans (h s)
  · exact hs

theorem Left.forEach {α : Type} {s₀ : State} {l : List α} {f : State → α → State} {s : State}
    (h : ∀ t a, Left t (f t a)) (hs : Left s₀ s) : Left s₀ (forEach l f s) := by
  unfold Machine.forEach
  induction l generalizing s with
  | nil => exact hs
  | cons a t ih => exact ih (hs.trans (h s a))

theorem Left.clk {s t : State} (h : Left s t) : t.clk = s.clk := by have e := congrArg State.clk h.eq; exact e
theorem Left.cal {s t : State} (h : Left s t) : t.cal = s.cal := by have e := congrArg State.cal h.eq; exact e
theorem Left.fuse {s t : State} (h : Left s t) : t.fuse = s.fuse := by have e := congrArg State.fuse h.eq; exact e
theorem Left.ep {s t : State} (h : Left s t) : t.ep = s.ep := by have e := congrArg State.ep h.eq; exact e
theorem Left.prt {s t : State} (h : Left s t) : t.prt = s.prt := by have e := congrArg State.prt h.eq; exact e
theorem Left.cs {s t : State} (h : Left s t) : t.cs = s.cs := by have e := congrArg State.cs h.eq; exact e
theorem Left.rb {s t : State} (h : Left s t) : t.rb = s.rb := by have e := congrArg State.rb h.eq; exact e
theorem Left.pa {s t : State} (h : Left s t) : t.pa = s.pa := by have e := congrArg State.pa h.eq; exact e
theorem Left.led {s t : State} (h : Left s t) : t.led = s.led := by have e := congrArg State.led h.eq; exact e
theorem Left.svc {s t : State} (h : Left s t) : t.svc = s.svc := by have e := congrArg State.svc h.eq; exact e
theorem Left.dw {s t : State} (h : Left s t) : t.dw = s.dw := by have e := congrArg State.dw h.eq; exact e
theorem Left.tun {s t : State} (h : Left s t) : t.tun = s.tun := by have e := congrArg State.tun h.eq; exact e
theorem Left.pair {s t : State} (h : Left s t) : t.pair = s.pair := by have e := congrArg State.pair h.eq; exact e
theorem Left.gov {s t : State} (h : Left s t) : t.gov = s.gov := by have e := congrArg State.gov h.eq; exact e
theorem Left.boot {s t : State} (h : Left s t) : t.boot = s.boot := by have e := congrArg State.boot h.eq; exact e
theorem Left.pins {s t : State} (h : Left s t) : t.pins = s.pins := by have e := congrArg State.pins h.eq; exact e
theorem Left.pending {s t : State} (h : Left s t) : t.pending = s.pending := by have e := congrArg State.pending h.eq; exact e

theorem emit_left {s₀ : State} (o : Output) (s : State) (hs : Left s₀ s) : Left s₀ (emit o s) := hs.trans (by
  unfold emit
  repeat' (first | (with_reducible exact Left.refl _) | (with_reducible assumption) | (simp only [left_mk]) | (intro _) | split))

theorem wrSet_left {s₀ : State} (set obj row v : Nat) (s : State) (hs : Left s₀ s) : Left s₀ (wrSet set obj row v s) := hs.trans (by
  unfold wrSet
  repeat' (first | (with_reducible exact Left.refl _) | (with_reducible assumption) | (simp only [left_mk]) | (intro _) | split))

theorem wrRow_left {s₀ : State} (obj row v : Nat) (s : State) (hs : Left s₀ s) : Left s₀ (wrRow obj row v s) := hs.trans (by
  unfold wrRow
  repeat' (first | (with_reducible exact Left.refl _) | (with_reducible assumption) | (simp only [left_mk]) | (with_reducible apply wrSet_left) | (intro _) | split))

theorem wr_left {s₀ : State} (obj v : Nat) (s : State) (hs : Left s₀ s) : Left s₀ (wr obj v s) := hs.trans (by
  unfold wr
  repeat' (first | (with_reducible exact Left.refl _) | (with_reducible assumption) | (simp only [left_mk]) | (with_reducible apply wrSet_left) | (intro _) | split))

theorem ctrSet_left {s₀ : State} (off v : Nat) (s : State) (hs : Left s₀ s) : Left s₀ (ctrSet off v s) := hs.trans (by
  unfold ctrSet
  repeat' (first | (with_reducible exact Left.refl _) | (with_reducible assumption) | (simp only [left_mk]) | (intro _) | split))

theorem ctrAdd_left {s₀ : State} (off n : Nat) (s : State) (hs : Left s₀ s) : Left s₀ (ctrAdd off n s) := hs.trans (by
  unfold ctrAdd
  repeat' (first | (with_reducible exact Left.refl _) | (with_reducible assumption) | (simp only [left_mk]) | (with_reducible apply ctrSet_left) | (intro _) | split))

theorem count_left {s₀ : State} (off : Nat) (s : State) (hs : Left s₀ s) : Left s₀ (count off s) := hs.trans (by
  unfold count
  repeat' (first | (with_reducible exact Left.refl _) | (with_reducible assumption) | (simp only [left_mk]) | (with_reducible apply ctrAdd_left) | (intro _) | split))

theorem ctrMax_left {s₀ : State} (off v : Nat) (s : State) (hs : Left s₀ s) : Left s₀ (ctrMax off v s) := hs.trans (by
  unfold ctrMax
  repeat' (first | (with_reducible exact Left.refl _) | (with_reducible assumption) | (simp only [left_mk]) | (with_reducible apply ctrSet_left) | (intro _) | split))

theorem raise_left {s₀ : State} (src detail : Nat) (s : State) (hs : Left s₀ s) : Left s₀ (raise src detail s) :=
  hs.trans (by have e := congrArg (fun x : State => { x with dict := s.dict, ctr := s.ctr, ev := s.ev, eng := s.eng, hst := s.hst, out := s.out, perf := s.perf, free := s.free, buf := s.buf, lt := s.lt, pip := s.pip, fab := s.fab, tm := s.tm, cap := s.cap }) ((raise_noted src detail s (Noted.refl s)).eq); exact e)

theorem raiseOnce_left {s₀ : State} (src scope detail : Nat) (s : State) (hs : Left s₀ s) : Left s₀ (raiseOnce src scope detail s) :=
  hs.trans (by have e := congrArg (fun x : State => { x with dict := s.dict, ctr := s.ctr, ev := s.ev, eng := s.eng, hst := s.hst, out := s.out, perf := s.perf, free := s.free, buf := s.buf, lt := s.lt, pip := s.pip, fab := s.fab, tm := s.tm, cap := s.cap }) ((raiseOnce_noted src scope detail s (Noted.refl s)).eq); exact e)

theorem sendTlp_left {s₀ : State} (o : Output) (s : State) (hs : Left s₀ s) : Left s₀ (sendTlp o s) :=
  hs.trans (by have e := congrArg (fun x : State => { x with dict := s.dict, ctr := s.ctr, ev := s.ev, eng := s.eng, hst := s.hst, out := s.out, perf := s.perf, free := s.free, buf := s.buf, lt := s.lt, pip := s.pip, fab := s.fab, tm := s.tm, cap := s.cap }) ((sendTlp_noted o s (Noted.refl s)).eq); exact e)

theorem sendRelease_left {s₀ : State} (r : Release) (s : State) (hs : Left s₀ s) : Left s₀ (sendRelease r s) :=
  hs.trans (by have e := congrArg (fun x : State => { x with dict := s.dict, ctr := s.ctr, ev := s.ev, eng := s.eng, hst := s.hst, out := s.out, perf := s.perf, free := s.free, buf := s.buf, lt := s.lt, pip := s.pip, fab := s.fab, tm := s.tm, cap := s.cap }) ((sendRelease_ended r s (Ended.refl s)).eq); exact e)

theorem releaseBuffer_left {s₀ : State} (h owner : Nat) (s : State) (hs : Left s₀ s) : Left s₀ (releaseBuffer h owner s) :=
  hs.trans (by have e := congrArg (fun x : State => { x with dict := s.dict, ctr := s.ctr, ev := s.ev, eng := s.eng, hst := s.hst, out := s.out, perf := s.perf, free := s.free, buf := s.buf, lt := s.lt, pip := s.pip, fab := s.fab, tm := s.tm, cap := s.cap }) ((releaseBuffer_ended h owner s (Ended.refl s)).eq); exact e)

theorem releaseFrameAt_left {s₀ : State} (position : Nat) (f : Frame) (s : State) (hs : Left s₀ s) : Left s₀ (releaseFrameAt position f s) :=
  hs.trans (by have e := congrArg (fun x : State => { x with dict := s.dict, ctr := s.ctr, ev := s.ev, eng := s.eng, hst := s.hst, out := s.out, perf := s.perf, free := s.free, buf := s.buf, lt := s.lt, pip := s.pip, fab := s.fab, tm := s.tm, cap := s.cap }) ((releaseFrameAt_ended position f s (Ended.refl s)).eq); exact e)

theorem releaseFrame_left {s₀ : State} (f : Frame) (s : State) (hs : Left s₀ s) : Left s₀ (releaseFrame f s) :=
  hs.trans (by have e := congrArg (fun x : State => { x with dict := s.dict, ctr := s.ctr, ev := s.ev, eng := s.eng, hst := s.hst, out := s.out, perf := s.perf, free := s.free, buf := s.buf, lt := s.lt, pip := s.pip, fab := s.fab, tm := s.tm, cap := s.cap }) ((releaseFrame_ended f s (Ended.refl s)).eq); exact e)

theorem raiseRefs_left {s₀ : State} (h n : Nat) (s : State) (hs : Left s₀ s) : Left s₀ (raiseRefs h n s) :=
  hs.trans (by have e := congrArg (fun x : State => { x with dict := s.dict, ctr := s.ctr, ev := s.ev, eng := s.eng, hst := s.hst, out := s.out, perf := s.perf, free := s.free, buf := s.buf, lt := s.lt, pip := s.pip, fab := s.fab, tm := s.tm, cap := s.cap }) ((raiseRefs_ended h n s (Ended.refl s)).eq); exact e)

theorem moveCharge_left {s₀ : State} (h owner : Nat) (s : State) (hs : Left s₀ s) : Left s₀ (moveCharge h owner s) :=
  hs.trans (by have e := congrArg (fun x : State => { x with dict := s.dict, ctr := s.ctr, ev := s.ev, eng := s.eng, hst := s.hst, out := s.out, perf := s.perf, free := s.free, buf := s.buf, lt := s.lt, pip := s.pip, fab := s.fab, tm := s.tm, cap := s.cap }) ((moveCharge_ended h owner s (Ended.refl s)).eq); exact e)

theorem releaseStaging_left {s₀ : State} (h : Option Nat) (s : State) (hs : Left s₀ s) : Left s₀ (releaseStaging h s) :=
  hs.trans (by have e := congrArg (fun x : State => { x with dict := s.dict, ctr := s.ctr, ev := s.ev, eng := s.eng, hst := s.hst, out := s.out, perf := s.perf, free := s.free, buf := s.buf, lt := s.lt, pip := s.pip, fab := s.fab, tm := s.tm, cap := s.cap }) ((releaseStaging_ended h s (Ended.refl s)).eq); exact e)

theorem completeOk_left {s₀ : State} (c : SqCmd) (s : State) (hs : Left s₀ s) : Left s₀ (completeOk c s) :=
  hs.trans (by have e := congrArg (fun x : State => { x with dict := s.dict, ctr := s.ctr, ev := s.ev, eng := s.eng, hst := s.hst, out := s.out, perf := s.perf, free := s.free, buf := s.buf, lt := s.lt, pip := s.pip, fab := s.fab, tm := s.tm, cap := s.cap }) ((completeOk_ended c s (Ended.refl s)).eq); exact e)

theorem putFrame_left {s₀ : State} (fid : Nat) (f : Frame) (s : State) (hs : Left s₀ s) : Left s₀ (putFrame fid f s) := hs.trans (by
  unfold putFrame
  repeat' (first | (with_reducible exact Left.refl _) | (with_reducible assumption) | (simp only [left_mk]) | (intro _) | split))

theorem modFrame_left {s₀ : State} (fid : Nat) (g : Frame → Frame) (s : State) (hs : Left s₀ s) : Left s₀ (modFrame fid g s) := hs.trans (by
  unfold modFrame
  repeat' (first | (with_reducible exact Left.refl _) | (with_reducible assumption) | (simp only [left_mk]) | (with_reducible apply putFrame_left) | (intro _) | split))

theorem dropFrame_left {s₀ : State} (fid : Nat) (s : State) (hs : Left s₀ s) : Left s₀ (dropFrame fid s) := hs.trans (by
  unfold dropFrame
  repeat' (first | (with_reducible exact Left.refl _) | (with_reducible assumption) | (simp only [left_mk]) | (intro _) | split))

theorem setPipe_left {s₀ : State} (n : Nat) (p : PipeSt) (s : State) (hs : Left s₀ s) : Left s₀ (setPipe n p s) := hs.trans (by
  unfold setPipe
  repeat' (first | (with_reducible exact Left.refl _) | (with_reducible assumption) | (simp only [left_mk]) | (intro _) | split))

theorem occur_left {s₀ : State} (n event k : Nat) (o : Occ) (s : State) (hs : Left s₀ s) : Left s₀ (occur n event k o s) :=
  hs.trans (by have e := congrArg (fun x : State => { x with dict := s.dict, ctr := s.ctr, ev := s.ev, eng := s.eng, hst := s.hst, out := s.out, perf := s.perf, free := s.free, buf := s.buf, lt := s.lt, pip := s.pip, fab := s.fab, tm := s.tm, cap := s.cap }) ((occur_measured n event k o s (Measured.refl s)).eq); exact e)

theorem occurGlobal_left {s₀ : State} (event k : Nat) (s : State) (hs : Left s₀ s) : Left s₀ (occurGlobal event k s) :=
  hs.trans (by have e := congrArg (fun x : State => { x with dict := s.dict, ctr := s.ctr, ev := s.ev, eng := s.eng, hst := s.hst, out := s.out, perf := s.perf, free := s.free, buf := s.buf, lt := s.lt, pip := s.pip, fab := s.fab, tm := s.tm, cap := s.cap }) ((occurGlobal_measured event k s (Measured.refl s)).eq); exact e)

theorem slotCategory_left {s₀ : State} (n c : Nat) (o : Occ) (s : State) (hs : Left s₀ s) : Left s₀ (slotCategory n c o s) :=
  hs.trans (by have e := congrArg (fun x : State => { x with dict := s.dict, ctr := s.ctr, ev := s.ev, eng := s.eng, hst := s.hst, out := s.out, perf := s.perf, free := s.free, buf := s.buf, lt := s.lt, pip := s.pip, fab := s.fab, tm := s.tm, cap := s.cap }) ((slotCategory_measured n c o s (Measured.refl s)).eq); exact e)

theorem sampleLeave_left {s₀ : State} (fid : Nat) (f : Frame) (egress : Nat) (discarded : Bool) (s : State) (hs : Left s₀ s) : Left s₀ (sampleLeave fid f egress discarded s) :=
  hs.trans (by have e := congrArg (fun x : State => { x with dict := s.dict, ctr := s.ctr, ev := s.ev, eng := s.eng, hst := s.hst, out := s.out, perf := s.perf, free := s.free, buf := s.buf, lt := s.lt, pip := s.pip, fab := s.fab, tm := s.tm, cap := s.cap }) ((sampleLeave_measured fid f egress discarded s (Measured.refl s)).eq); exact e)

theorem unlink_left {s₀ : State} (fid : Nat) (s : State) (hs : Left s₀ s) : Left s₀ (unlink fid s) := hs.trans (by
  unfold unlink
  repeat' (first | (with_reducible exact Left.refl _) | (with_reducible assumption) | (simp only [left_mk]) | (intro _) | split))

theorem finishInject_left {s₀ : State} (f : Frame) (s : State) (hs : Left s₀ s) : Left s₀ (finishInject f s) := hs.trans (by
  unfold finishInject
  repeat' (first | (with_reducible exact Left.refl _) | (with_reducible assumption) | (simp only [left_mk]) | (with_reducible apply completeOk_left) | (intro _) | split))

theorem releaseOwed_left {s₀ : State} (f : Frame) (s : State) (hs : Left s₀ s) : Left s₀ (releaseOwed f s) := hs.trans (by
  unfold releaseOwed
  repeat' (first | (with_reducible exact Left.refl _) | (with_reducible assumption) | (simp only [left_mk]) | (with_reducible apply Left.forEach) | (with_reducible apply releaseFrameAt_left) | (intro _) | split))

theorem leave_left {s₀ : State} (fid : Nat) (s : State) (hs : Left s₀ s) : Left s₀ (leave fid s) := hs.trans (by
  unfold leave
  repeat' (first | (with_reducible exact Left.refl _) | (with_reducible assumption) | (simp only [left_mk]) | (with_reducible apply finishInject_left) | (with_reducible apply releaseOwed_left) | (with_reducible apply dropFrame_left) | (with_reducible apply unlink_left) | (with_reducible apply sampleLeave_left) | (intro _) | split))

theorem mcFail_left {s₀ : State} (f : Frame) (reason : Nat) (s : State) (hs : Left s₀ s) : Left s₀ (mcFail f reason s) := hs.trans (by
  unfold mcFail
  repeat' (first | (with_reducible exact Left.refl _) | (with_reducible assumption) | (simp only [left_mk]) | (with_reducible apply Left.when) | (with_reducible apply count_left) | (intro _) | split))

theorem discardCopy_left {s₀ : State} (fid reason : Nat) (s : State) (hs : Left s₀ s) : Left s₀ (discardCopy fid reason s) := hs.trans (by
  unfold discardCopy
  repeat' (first | (with_reducible exact Left.refl _) | (with_reducible assumption) | (simp only [left_mk]) | (with_reducible apply leave_left) | (with_reducible apply mcFail_left) | (intro _) | split))

theorem wasteSlot_left {s₀ : State} (fid : Nat) (f : Frame) (s : State) (hs : Left s₀ s) : Left s₀ (wasteSlot fid f s) := hs.trans (by
  unfold wasteSlot
  repeat' (first | (with_reducible exact Left.refl _) | (with_reducible assumption) | (simp only [left_mk]) | (with_reducible apply slotCategory_left) | (intro _) | split))

theorem discardFrame_left {s₀ : State} (fid : Nat) (s : State) (hs : Left s₀ s) : Left s₀ (discardFrame fid s) := hs.trans (by
  unfold discardFrame
  repeat' (first | (with_reducible exact Left.refl _) | (with_reducible assumption) | (simp only [left_mk]) | (with_reducible apply leave_left) | (with_reducible apply wasteSlot_left) | (intro _) | split))

/-- Between `s` and `t` nothing has changed beyond what issuing or dispatching a deferred operation may change: what an event does, buffers, the scheduler, the limits of a cycle. -/
def Issued (s t : State) : Prop :=
  { t with clk := s.clk, dict := s.dict, ctr := s.ctr, ev := s.ev, eng := s.eng, hst := s.hst, out := s.out, perf := s.perf, free := s.free, buf := s.buf, dw := s.dw } = s

theorem Issued.eq {s t : State} (h : Issued s t) : { t with clk := s.clk, dict := s.dict, ctr := s.ctr, ev := s.ev, eng := s.eng, hst := s.hst, out := s.out, perf := s.perf, free := s.free, buf := s.buf, dw := s.dw } = s := h

theorem Issued.refl (s : State) : Issued s s := rfl

theorem Issued.trans {s t u : State} (h : Issued s t) (g : Issued t u) : Issued s u := by
  have e := congrArg (fun x : State => { x with clk := s.clk, dict := s.dict, ctr := s.ctr, ev := s.ev, eng := s.eng, hst := s.hst, out := s.out, perf := s.perf, free := s.free, buf := s.buf, dw := s.dw }) g.eq
  exact e.trans h.eq

theorem issued_mk {s₀ s : State} {x_clk x_dict x_ctr x_ev x_eng x_hst x_out x_perf x_free x_buf x_dw} :
    Issued s₀ (State.mk x_clk s.cal s.fuse x_dict x_ctr x_ev x_eng s.ep s.prt s.pip s.cs s.lt s.rb s.pa s.led s.svc x_buf s.fab s.tm s.cap x_dw x_hst s.tun s.pair s.gov x_perf s.boot s.pins x_free x_out s.pending) ↔ Issued s₀ s := Iff.rfl

theorem Issued.when {s₀ : State} {c : Bool} {f : State → State} {s : State} (h : ∀ t, Issued t (f t)) (hs : Issued s₀ s) :
    Issued s₀ (when c f s) := by
  unfold Machine.when
  split
  · exact hs.trans (h s)
  · exact hs

theorem Issued.forEach {α : Type} {s₀ : State} {l : List α} {f : State → α → State} {s : State}
    (h : ∀ t a, Issued t (f t a)) (hs : Issued s₀ s) : Issued s₀ (forEach l f s) := by
  unfold Machine.forEach
  induction l generalizing s with
  | nil => exact hs
  | cons a t ih => exact ih (hs.trans (h s a))

theorem Issued.cal {s t : State} (h : Issued s t) : t.cal = s.cal := by have e := congrArg State.cal h.eq; exact e
theorem Issued.fuse {s t : State} (h : Issued s t) : t.fuse = s.fuse := by have e := congrArg State.fuse h.eq; exact e
theorem Issued.ep {s t : State} (h : Issued s t) : t.ep = s.ep := by have e := congrArg State.ep h.eq; exact e
theorem Issued.prt {s t : State} (h : Issued s t) : t.prt = s.prt := by have e := congrArg State.prt h.eq; exact e
theorem Issued.pip {s t : State} (h : Issued s t) : t.pip = s.pip := by have e := congrArg State.pip h.eq; exact e
theorem Issued.cs {s t : State} (h : Issued s t) : t.cs = s.cs := by have e := congrArg State.cs h.eq; exact e
theorem Issued.lt {s t : State} (h : Issued s t) : t.lt = s.lt := by have e := congrArg State.lt h.eq; exact e
theorem Issued.rb {s t : State} (h : Issued s t) : t.rb = s.rb := by have e := congrArg State.rb h.eq; exact e
theorem Issued.pa {s t : State} (h : Issued s t) : t.pa = s.pa := by have e := congrArg State.pa h.eq; exact e
theorem Issued.led {s t : State} (h : Issued s t) : t.led = s.led := by have e := congrArg State.led h.eq; exact e
theorem Issued.svc {s t : State} (h : Issued s t) : t.svc = s.svc := by have e := congrArg State.svc h.eq; exact e
theorem Issued.fab {s t : State} (h : Issued s t) : t.fab = s.fab := by have e := congrArg State.fab h.eq; exact e
theorem Issued.tm {s t : State} (h : Issued s t) : t.tm = s.tm := by have e := congrArg State.tm h.eq; exact e
theorem Issued.cap {s t : State} (h : Issued s t) : t.cap = s.cap := by have e := congrArg State.cap h.eq; exact e
theorem Issued.tun {s t : State} (h : Issued s t) : t.tun = s.tun := by have e := congrArg State.tun h.eq; exact e
theorem Issued.pair {s t : State} (h : Issued s t) : t.pair = s.pair := by have e := congrArg State.pair h.eq; exact e
theorem Issued.gov {s t : State} (h : Issued s t) : t.gov = s.gov := by have e := congrArg State.gov h.eq; exact e
theorem Issued.boot {s t : State} (h : Issued s t) : t.boot = s.boot := by have e := congrArg State.boot h.eq; exact e
theorem Issued.pins {s t : State} (h : Issued s t) : t.pins = s.pins := by have e := congrArg State.pins h.eq; exact e
theorem Issued.pending {s t : State} (h : Issued s t) : t.pending = s.pending := by have e := congrArg State.pending h.eq; exact e

theorem emit_issued {s₀ : State} (o : Output) (s : State) (hs : Issued s₀ s) : Issued s₀ (emit o s) := hs.trans (by
  unfold emit
  repeat' (first | (with_reducible exact Issued.refl _) | (with_reducible assumption) | (simp only [issued_mk]) | (intro _) | split))

theorem wrSet_issued {s₀ : State} (set obj row v : Nat) (s : State) (hs : Issued s₀ s) : Issued s₀ (wrSet set obj row v s) := hs.trans (by
  unfold wrSet
  repeat' (first | (with_reducible exact Issued.refl _) | (with_reducible assumption) | (simp only [issued_mk]) | (intro _) | split))

theorem wrRow_issued {s₀ : State} (obj row v : Nat) (s : State) (hs : Issued s₀ s) : Issued s₀ (wrRow obj row v s) := hs.trans (by
  unfold wrRow
  repeat' (first | (with_reducible exact Issued.refl _) | (with_reducible assumption) | (simp only [issued_mk]) | (with_reducible apply wrSet_issued) | (intro _) | split))

theorem wr_issued {s₀ : State} (obj v : Nat) (s : State) (hs : Issued s₀ s) : Issued s₀ (wr obj v s) := hs.trans (by
  unfold wr
  repeat' (first | (with_reducible exact Issued.refl _) | (with_reducible assumption) | (simp only [issued_mk]) | (with_reducible apply wrSet_issued) | (intro _) | split))

theorem ctrSet_issued {s₀ : State} (off v : Nat) (s : State) (hs : Issued s₀ s) : Issued s₀ (ctrSet off v s) := hs.trans (by
  unfold ctrSet
  repeat' (first | (with_reducible exact Issued.refl _) | (with_reducible assumption) | (simp only [issued_mk]) | (intro _) | split))

theorem ctrAdd_issued {s₀ : State} (off n : Nat) (s : State) (hs : Issued s₀ s) : Issued s₀ (ctrAdd off n s) := hs.trans (by
  unfold ctrAdd
  repeat' (first | (with_reducible exact Issued.refl _) | (with_reducible assumption) | (simp only [issued_mk]) | (with_reducible apply ctrSet_issued) | (intro _) | split))

theorem count_issued {s₀ : State} (off : Nat) (s : State) (hs : Issued s₀ s) : Issued s₀ (count off s) := hs.trans (by
  unfold count
  repeat' (first | (with_reducible exact Issued.refl _) | (with_reducible assumption) | (simp only [issued_mk]) | (with_reducible apply ctrAdd_issued) | (intro _) | split))

theorem ctrMax_issued {s₀ : State} (off v : Nat) (s : State) (hs : Issued s₀ s) : Issued s₀ (ctrMax off v s) := hs.trans (by
  unfold ctrMax
  repeat' (first | (with_reducible exact Issued.refl _) | (with_reducible assumption) | (simp only [issued_mk]) | (with_reducible apply ctrSet_issued) | (intro _) | split))

theorem raise_issued {s₀ : State} (src detail : Nat) (s : State) (hs : Issued s₀ s) : Issued s₀ (raise src detail s) :=
  hs.trans (by have e := congrArg (fun x : State => { x with clk := s.clk, dict := s.dict, ctr := s.ctr, ev := s.ev, eng := s.eng, hst := s.hst, out := s.out, perf := s.perf, free := s.free, buf := s.buf, dw := s.dw }) ((raise_noted src detail s (Noted.refl s)).eq); exact e)

theorem raiseOnce_issued {s₀ : State} (src scope detail : Nat) (s : State) (hs : Issued s₀ s) : Issued s₀ (raiseOnce src scope detail s) :=
  hs.trans (by have e := congrArg (fun x : State => { x with clk := s.clk, dict := s.dict, ctr := s.ctr, ev := s.ev, eng := s.eng, hst := s.hst, out := s.out, perf := s.perf, free := s.free, buf := s.buf, dw := s.dw }) ((raiseOnce_noted src scope detail s (Noted.refl s)).eq); exact e)

theorem occur_issued {s₀ : State} (n event k : Nat) (o : Occ) (s : State) (hs : Issued s₀ s) : Issued s₀ (occur n event k o s) :=
  hs.trans (by have e := congrArg (fun x : State => { x with clk := s.clk, dict := s.dict, ctr := s.ctr, ev := s.ev, eng := s.eng, hst := s.hst, out := s.out, perf := s.perf, free := s.free, buf := s.buf, dw := s.dw }) ((occur_measured n event k o s (Measured.refl s)).eq); exact e)

theorem occurGlobal_issued {s₀ : State} (event k : Nat) (s : State) (hs : Issued s₀ s) : Issued s₀ (occurGlobal event k s) :=
  hs.trans (by have e := congrArg (fun x : State => { x with clk := s.clk, dict := s.dict, ctr := s.ctr, ev := s.ev, eng := s.eng, hst := s.hst, out := s.out, perf := s.perf, free := s.free, buf := s.buf, dw := s.dw }) ((occurGlobal_measured event k s (Measured.refl s)).eq); exact e)

theorem drawFree_issued {s₀ s : State} (hs : Issued s₀ s) : Issued s₀ (drawFree s).2 := hs

theorem useCycle_issued {s₀ : State} (key c : Nat) (s : State) (hs : Issued s₀ s) : Issued s₀ (useCycle key c s) := hs.trans (by
  unfold useCycle
  repeat' (first | (with_reducible exact Issued.refl _) | (with_reducible assumption) | (simp only [issued_mk]) | (intro _) | split))

theorem setPool_issued {s₀ : State} (p : Nat) (x : PoolSt) (s : State) (hs : Issued s₀ s) : Issued s₀ (setPool p x s) := hs.trans (by
  unfold setPool
  repeat' (first | (with_reducible exact Issued.refl _) | (with_reducible assumption) | (simp only [issued_mk]) | (intro _) | split))

theorem setHeader_issued {s₀ : State} (h w : Nat) (s : State) (hs : Issued s₀ s) : Issued s₀ (setHeader h w s) := hs.trans (by
  unfold setHeader
  repeat' (first | (with_reducible exact Issued.refl _) | (with_reducible assumption) | (simp only [issued_mk]) | (intro _) | split))

theorem setHeld_issued {s₀ : State} (owner p n : Nat) (s : State) (hs : Issued s₀ s) : Issued s₀ (setHeld owner p n s) := hs.trans (by
  unfold setHeld
  repeat' (first | (with_reducible exact Issued.refl _) | (with_reducible assumption) | (simp only [issued_mk]) | (intro _) | split))

theorem returnBuffer_issued {s₀ : State} (h : Nat) (s : State) (hs : Issued s₀ s) : Issued s₀ (returnBuffer h s) := hs.trans (by
  unfold returnBuffer
  repeat' (first | (with_reducible exact Issued.refl _) | (with_reducible assumption) | (simp only [issued_mk]) | (with_reducible apply setPool_issued) | (intro _) | split))

theorem badHandle_issued {s₀ : State} (h owner : Nat) (s : State) (hs : Issued s₀ s) : Issued s₀ (badHandle h owner s) := hs.trans (by
  unfold badHandle
  repeat' (first | (with_reducible exact Issued.refl _) | (with_reducible assumption) | (simp only [issued_mk]) | (with_reducible apply raiseOnce_issued) | (with_reducible apply wr_issued) | (with_reducible apply count_issued) | (intro _) | split))

theorem sendRelease_issued {s₀ : State} (r : Release) (s : State) (hs : Issued s₀ s) : Issued s₀ (sendRelease r s) := hs.trans (by
  unfold sendRelease
  repeat' (first | (with_reducible exact Issued.refl _) | (with_reducible assumption) | (simp only [issued_mk]) | (intro _) | split))

theorem releaseBuffer_issued {s₀ : State} (h owner : Nat) (s : State) (hs : Issued s₀ s) : Issued s₀ (releaseBuffer h owner s) := hs.trans (by
  unfold releaseBuffer
  repeat' (first | (with_reducible exact Issued.refl _) | (with_reducible assumption) | (simp only [issued_mk]) | (with_reducible apply sendRelease_issued) | (intro _) | split))

theorem unask_issued {s₀ : State} (owner p : Nat) (s : State) (hs : Issued s₀ s) : Issued s₀ (unask owner p s) := hs.trans (by
  unfold unask
  repeat' (first | (with_reducible exact Issued.refl _) | (with_reducible assumption) | (simp only [issued_mk]) | (intro _) | split))

theorem takeGranted_issued {s₀ : State} (owner p : Nat) (s : State) (hs : Issued s₀ s) : Issued s₀ (takeGranted owner p s) := hs.trans (by
  unfold takeGranted
  repeat' (first | (with_reducible exact Issued.refl _) | (with_reducible assumption) | (simp only [issued_mk]) | (intro _) | split))

theorem ask_issued {s₀ : State} (owner p : Nat) (s : State) (hs : Issued s₀ s) : Issued s₀ (ask owner p s) := hs.trans (by
  unfold ask
  repeat' (first | (with_reducible exact Issued.refl _) | (with_reducible assumption) | (simp only [issued_mk]) | (intro _) | split))

theorem takeBuffer_issued {p owner position : Nat} {s t : State} {h : Nat} (e : takeBuffer p owner position s = some (h, t)) :
    Issued s t := by
  simp only [takeBuffer] at e
  split at e
  · cases e
  · cases e
    exact Issued.when (fun t => count_issued _ t (Issued.refl t)) (useCycle_issued _ _ _ (count_issued _ _ (setHeld_issued _ _ _ _ (setHeader_issued _ _ _
      (setPool_issued _ _ _ (Issued.refl s))))))

theorem grantInternal_issued {owner p : Nat} {s t : State} {h : Option Nat} (e : grantInternal owner p s = (h, t)) : Issued s t := by
  unfold grantInternal at e
  split at e
  · cases e
    exact takeGranted_issued _ _ _ (Issued.refl s)
  · extract_lets u at e
    have hu : Issued s u := ask_issued _ _ _ (Issued.refl s)
    split at e
    · split at e
      · rename_i h x heq
        cases e
        exact unask_issued _ _ _ (hu.trans (takeBuffer_issued heq))
      · rw [← (Prod.mk.inj e).2]
        exact hu
    · rw [← (Prod.mk.inj e).2]
      exact hu

theorem setDw_issued {s₀ : State} (d : Dw) (s : State) (hs : Issued s₀ s) : Issued s₀ (setDw d s) := hs.trans (by
  unfold setDw
  repeat' (first | (with_reducible exact Issued.refl _) | (with_reducible assumption) | (simp only [issued_mk]) | (intro _) | split))

theorem putOnDie_issued {o : DwOp} {s t : State} (e : putOnDie o s = some t) : Issued s t := by
  unfold putOnDie at e
  split at e
  · cases e
  · split at e
    · cases e
    · rename_i h u heq
      cases e
      exact setDw_issued _ _ (grantInternal_issued heq)

theorem wroteSpill_issued {s₀ : State} (n : Nat) (s : State) (hs : Issued s₀ s) : Issued s₀ (wroteSpill n s) := hs.trans (by
  unfold wroteSpill
  repeat' (first | (with_reducible exact Issued.refl _) | (with_reducible assumption) | (simp only [issued_mk]) | (with_reducible apply setDw_issued) | (intro _) | split))

theorem readSpill_issued {s₀ : State} (n : Nat) (s : State) (hs : Issued s₀ s) : Issued s₀ (readSpill n s) := hs.trans (by
  unfold readSpill
  repeat' (first | (with_reducible exact Issued.refl _) | (with_reducible assumption) | (simp only [issued_mk]) | (with_reducible apply setDw_issued) | (intro _) | split))

theorem spillOp_issued {s₀ : State} (o : DwOp) (s : State) (hs : Issued s₀ s) : Issued s₀ (spillOp o s) := hs.trans (by
  unfold spillOp
  repeat' (first | (with_reducible exact Issued.refl _) | (with_reducible assumption) | (simp only [issued_mk]) | (with_reducible apply wroteSpill_issued) | (with_reducible apply count_issued) | (with_reducible apply setDw_issued) | (intro _) | split))

theorem loseOp_issued {s₀ : State} (o : DwOp) (s : State) (hs : Issued s₀ s) : Issued s₀ (loseOp o s) := hs.trans (by
  unfold loseOp
  repeat' (first | (with_reducible exact Issued.refl _) | (with_reducible assumption) | (simp only [issued_mk]) | (with_reducible apply count_issued) | (with_reducible apply Issued.when) | (with_reducible apply raiseOnce_issued) | (intro _) | split))

theorem loseEntry_issued {s₀ : State} (o : DwOp) (s : State) (hs : Issued s₀ s) : Issued s₀ (loseEntry o s) := hs.trans (by
  unfold loseEntry
  repeat' (first | (with_reducible exact Issued.refl _) | (with_reducible assumption) | (simp only [issued_mk]) | (with_reducible apply Issued.when) | (with_reducible apply wr_issued) | (with_reducible apply loseOp_issued) | (intro _) | split))

theorem takeEntry_issued {s₀ : State} (v o : DwOp) (s : State) (hs : Issued s₀ s) : Issued s₀ (takeEntry v o s) := hs.trans (by
  unfold takeEntry
  repeat' (first | (with_reducible exact Issued.refl _) | (with_reducible assumption) | (simp only [issued_mk]) | (with_reducible apply spillOp_issued) | (with_reducible apply setDw_issued) | (intro _) | split))

theorem spillNew_issued {o : DwOp} {s t : State} (e : spillNew o s = some t) : Issued s t := by
  unfold spillNew at e
  split at e
  · cases e
    exact spillOp_issued _ _ (Issued.refl s)
  · cases e

theorem spillFor_issued {o : DwOp} {s t : State} (e : spillFor o s = some t) : Issued s t := by
  unfold spillFor at e
  split at e
  · split at e
    · cases e
      exact takeEntry_issued _ _ _ (Issued.refl s)
    · exact spillNew_issued e
  · exact spillNew_issued e

theorem placeOp_issued {o : DwOp} {s t : State} (e : placeOp o s = some t) : Issued s t := by
  unfold placeOp at e
  split at e
  · rename_i u heq
    cases e
    exact putOnDie_issued heq
  · exact spillFor_issued e

theorem noRoom_issued {s₀ : State} (o : DwOp) (s : State) (hs : Issued s₀ s) : Issued s₀ (noRoom o s) := hs.trans (by
  unfold noRoom
  repeat' (first | (with_reducible exact Issued.refl _) | (with_reducible assumption) | (simp only [issued_mk]) | (with_reducible apply Issued.when) | (with_reducible apply count_issued) | (with_reducible apply loseOp_issued) | (with_reducible apply raise_issued) | (with_reducible apply setDw_issued) | (intro _) | split))

theorem holdOp_issued {s₀ : State} (o : DwOp) (s : State) (hs : Issued s₀ s) : Issued s₀ (holdOp o s) := hs.trans (by
  unfold holdOp
  repeat' (first | (with_reducible exact Issued.refl _) | (with_reducible assumption) | (simp only [issued_mk]) | (with_reducible apply setDw_issued) | (with_reducible refine Issued.trans ?_ (placeOp_issued ‹_›)) | (with_reducible apply noRoom_issued) | (intro _) | split))

theorem issueAt_issued {s₀ : State} (kind list notBefore deadline : Nat) (args : List Nat) (body : Bytes) (s : State) (hs : Issued s₀ s) : Issued s₀ (issueAt kind list notBefore deadline args body s) := hs.trans (by
  unfold issueAt
  repeat' (first | (with_reducible exact Issued.refl _) | (with_reducible assumption) | (simp only [issued_mk]) | (with_reducible apply holdOp_issued) | (with_reducible apply count_issued) | (intro _) | split))

theorem issue_issued {s₀ : State} (kind list : Nat) (args : List Nat) (body : Bytes) (s : State) (hs : Issued s₀ s) : Issued s₀ (issue kind list args body s) := hs.trans (by
  unfold issue
  repeat' (first | (with_reducible exact Issued.refl _) | (with_reducible assumption) | (simp only [issued_mk]) | (with_reducible apply issueAt_issued) | (intro _) | split))

theorem issueWay_issued {s₀ : State} (kind rec cls notBefore deadline : Nat) (s : State) (hs : Issued s₀ s) : Issued s₀ (issueWay kind rec cls notBefore deadline s) := hs.trans (by
  unfold issueWay
  repeat' (first | (with_reducible exact Issued.refl _) | (with_reducible assumption) | (simp only [issued_mk]) | (with_reducible apply count_issued) | (with_reducible apply setDw_issued) | (intro _) | split))

theorem endWay_issued {s₀ : State} (kind rec : Nat) (s : State) (hs : Issued s₀ s) : Issued s₀ (endWay kind rec s) := hs.trans (by
  unfold endWay
  repeat' (first | (with_reducible exact Issued.refl _) | (with_reducible assumption) | (simp only [issued_mk]) | (with_reducible apply setDw_issued) | (intro _) | split))

theorem holdRefill_issued {s₀ : State} (s : State) (hs : Issued s₀ s) : Issued s₀ (holdRefill s) := hs.trans (by
  unfold holdRefill
  repeat' (first | (with_reducible exact Issued.refl _) | (with_reducible assumption) | (simp only [issued_mk]) | (with_reducible apply count_issued) | (with_reducible apply setDw_issued) | (intro _) | split))

theorem readBucket_issued {s t : State} {o : DwOp} (e : readBucket s = some (o, t)) : Issued s t := by
  unfold readBucket at e
  simp only at e
  split at e
  · cases e
    exact readSpill_issued _ _ (count_issued _ _ (setDw_issued _ _ (drawFree_issued (Issued.refl s))))
  · cases e

theorem refillOne_issued {s t : State} (e : refillOne s = some t) : Issued s t := by
  unfold refillOne at e
  split at e
  · rename_i o u heq
    split at e
    · cases e
      exact loseEntry_issued _ _ (readBucket_issued heq)
    · exact (readBucket_issued heq).trans (putOnDie_issued e)
  · cases e

theorem exchange_issued {v : DwOp} {s t : State} (e : exchange v s = some t) : Issued s t := by
  unfold exchange at e
  split at e
  · rename_i o u heq
    split at e
    · cases e
      exact loseEntry_issued _ _ (readBucket_issued heq)
    · cases e
      exact count_issued _ _ (takeEntry_issued _ _ _ (readBucket_issued heq))
  · cases e

theorem refillStep_issued {s t : State} (e : refillStep s = some t) : Issued s t := by
  unfold refillStep at e
  split at e
  · cases e
  · split at e
    · split at e
      · exact refillOne_issued e
      · cases e
        exact holdRefill_issued _ (Issued.refl s)
    · split at e
      · split at e
        · exact exchange_issued e
        · cases e
          exact holdRefill_issued _ (Issued.refl s)
      · cases e

theorem refill_issued {s₀ : State} (s : State) (hs : Issued s₀ s) : Issued s₀ (refill s) := hs.trans (by
  unfold refill
  split
  · rename_i t heq
    have h := refillStep_issued heq
    split
    · exact setDw_issued _ _ h
    · exact h
  · exact Issued.refl s)

theorem retryWaiting_issued {s₀ : State} (s : State) (hs : Issued s₀ s) : Issued s₀ (retryWaiting s) := hs.trans (by
  unfold retryWaiting
  refine Issued.forEach (fun t o => ?_) (setDw_issued _ _ (Issued.refl s))
  split
  · rename_i u heq
    split at heq
    · cases heq
    · exact placeOp_issued heq
  · exact setDw_issued _ _ (Issued.refl t))

theorem countLate_issued {s₀ : State} (o : DwOp) (s : State) (hs : Issued s₀ s) : Issued s₀ (countLate o s) := hs.trans (by
  unfold countLate
  repeat' (first | (with_reducible exact Issued.refl _) | (with_reducible assumption) | (simp only [issued_mk]) | (with_reducible apply ctrMax_issued) | (with_reducible apply count_issued) | (with_reducible apply raiseOnce_issued) | (with_reducible apply wr_issued) | (intro _) | split))

theorem countDispatch_issued {s₀ : State} (o : DwOp) (s : State) (hs : Issued s₀ s) : Issued s₀ (countDispatch o s) := hs.trans (by
  unfold countDispatch
  repeat' (first | (with_reducible exact Issued.refl _) | (with_reducible assumption) | (simp only [issued_mk]) | (with_reducible apply useCycle_issued) | (with_reducible apply countLate_issued) | (with_reducible apply count_issued) | (with_reducible apply occurGlobal_issued) | (intro _) | split))

theorem dispatched_issued {s₀ : State} (o : DwOp) (s : State) (hs : Issued s₀ s) : Issued s₀ (dispatched o s) := hs.trans (by
  unfold dispatched
  repeat' (first | (with_reducible exact Issued.refl _) | (with_reducible assumption) | (simp only [issued_mk]) | (with_reducible apply countDispatch_issued) | (with_reducible apply setDw_issued) | (with_reducible apply releaseBuffer_issued) | (with_reducible apply refill_issued) | (with_reducible apply retryWaiting_issued) | (intro _) | split))

theorem stepCursor_issued {s₀ : State} (c : Nat) (o : DwOp) (s : State) (hs : Issued s₀ s) : Issued s₀ (stepCursor c o s) := hs.trans (by
  unfold stepCursor
  repeat' (first | (with_reducible exact Issued.refl _) | (with_reducible assumption) | (simp only [issued_mk]) | (with_reducible apply countDispatch_issued) | (with_reducible apply count_issued) | (with_reducible apply setDw_issued) | (intro _) | split))

end Sys2Proof.Machine
end

