-- ==== Sys2Proof/Laws/KeptCore.lean ====
section
/-! SUPPORT. What every operation keeps (`Kept`): the shared operations, measurement, buffers, completions, the pair link, epochs, ports, time and the control store. -/

set_option linter.all false
set_option Elab.async false

namespace Sys2Proof.Machine
open Sys2Proof

/-- What every operation keeps between a state and one that comes after it: the queue; every fuse but the key generations,
which only rise; the free values drawn and the outputs, which only grow; the canonical form of the registers and of the
counters. -/
structure Kept (s t : State) : Prop where
  pending : t.pending = s.pending
  fuse : { t.fuse with gens := s.fuse.gens } = s.fuse
  gens : ∀ l, keyGen s l ≤ keyGen t l
  free : s.free ≤ t.free
  out : s.out <+: t.out
  dict : tabRising s.dict = true → tabRising t.dict = true
  ctr : ctrWf s.ctr = true → ctrWf t.ctr = true

@[simp] theorem Kept.refl (s : State) : Kept s s :=
  ⟨rfl, rfl, fun _ => Nat.le_refl _, Nat.le_refl _, List.prefix_refl _, id, id⟩

theorem Kept.trans {s t u : State} (h : Kept s t) (g : Kept t u) : Kept s u where
  pending := g.pending.trans h.pending
  fuse := by
    have a := h.fuse
    have b := g.fuse
    rw [← a, ← b]
  gens l := (h.gens l).trans (g.gens l)
  free := h.free.trans g.free
  out := h.out.trans g.out
  dict := g.dict ∘ h.dict
  ctr := g.ctr ∘ h.ctr

@[simp] theorem kept_mk {s₀ s : State}
    {a b e f g h i j k l m n o p q r t u v w x y z a1 b1} :
    Kept s₀ (State.mk a b s.fuse s.dict s.ctr e f g h i j k l m n o p q r t u v w x y z a1 b1 s.free s.out s.pending) ↔
      Kept s₀ s :=
  ⟨fun hs => hs.trans ⟨rfl, rfl, fun _ => Nat.le_refl _, Nat.le_refl _, List.prefix_refl _, id, id⟩,
    fun hs => hs.trans ⟨rfl, rfl, fun _ => Nat.le_refl _, Nat.le_refl _, List.prefix_refl _, id, id⟩⟩

theorem Kept.forEach {α : Type} {s₀ : State} {l : List α} {f : State → α → State} {s : State}
    (h : ∀ t a, Kept t (f t a)) (hs : Kept s₀ s) : Kept s₀ (forEach l f s) := by
  unfold Machine.forEach
  induction l generalizing s with
  | nil => exact hs
  | cons a t ih => exact ih (hs.trans (h s a))

theorem Kept.when {s₀ : State} {c : Bool} {f : State → State} {s : State} (h : ∀ t, Kept t (f t)) (hs : Kept s₀ s) :
    Kept s₀ (when c f s) := by
  unfold Machine.when
  split
  · exact hs.trans (h s)
  · exact hs

@[simp] theorem kept_when {s₀ : State} {c : Bool} {f : State → State} {s : State} (h : ∀ t, Kept t (f t)) (hs : Kept s₀ s) :
    Kept s₀ (Machine.when c f s) := Kept.when h hs

@[simp] theorem kept_forEach {α : Type} {s₀ : State} {l : List α} {f : State → α → State} {s : State}
    (h : ∀ t a, Kept t (f t a)) (hs : Kept s₀ s) : Kept s₀ (Machine.forEach l f s) := Kept.forEach h hs

@[simp] theorem kept_ite {s₀ a b : State} {c : Prop} [Decidable c] (ha : c → Kept s₀ a) (hb : ¬c → Kept s₀ b) :
    Kept s₀ (if c then a else b) := by
  split
  · exact ha ‹_›
  · exact hb ‹_›

@[simp] theorem drawFree_kept {s₀ s : State} (hs : Kept s₀ s) : Kept s₀ (drawFree s).2 :=
  hs.trans ⟨rfl, rfl, fun _ => Nat.le_refl _, Nat.le_succ _, List.prefix_refl _, id, id⟩

@[simp] theorem drawRandom_kept {s₀ s : State} (hs : Kept s₀ s) : Kept s₀ (drawRandom s).2 :=
  hs.trans ⟨rfl, rfl, fun _ => Nat.le_refl _, Nat.le_succ _, List.prefix_refl _, id, id⟩

@[simp] theorem drawChoice_kept {s₀ s : State} (hs : Kept s₀ s) : Kept s₀ (drawChoice s).2 :=
  hs.trans ⟨rfl, rfl, fun _ => Nat.le_refl _, Nat.le_succ _, List.prefix_refl _, id, id⟩

@[simp] theorem emit_kept {s₀ s : State} {o : Output} (hs : Kept s₀ s) : Kept s₀ (emit o s) := hs.trans (by
  unfold emit
  split
  · exact Kept.refl s
  · exact ⟨rfl, rfl, fun _ => Nat.le_refl _, Nat.le_refl _, List.prefix_append _ _, id, id⟩)

theorem tabRising_dictPut (t : Tab Nat) (set obj row v : Nat) (h : tabRising t = true) :
    tabRising (dictPut t set obj row v) = true := by
  unfold dictPut
  split
  · exact tabRising_put _ _ _ _ h
  · exact tabRising_insert _ _ _ h

@[simp] theorem wrSet_kept {s₀ s : State} {set obj row v : Nat} (hs : Kept s₀ s) : Kept s₀ (wrSet set obj row v s) :=
  hs.trans ⟨rfl, rfl, fun _ => Nat.le_refl _, Nat.le_refl _, List.prefix_refl _, tabRising_dictPut _ _ _ _ _, id⟩

@[simp] theorem wrRow_kept {s₀ : State} (obj row v : Nat) (s : State) (hs : Kept s₀ s) : Kept s₀ (wrRow obj row v s) := hs.trans (by
  unfold wrRow
  repeat' (first | (with_reducible exact Kept.refl _) | (with_reducible assumption) | (simp only [kept_mk]) | simp | (with_reducible apply wrSet_kept) | (intro _) | split | (with_reducible refine And.intro ?_ ?_)))

@[simp] theorem wr_kept {s₀ : State} (obj v : Nat) (s : State) (hs : Kept s₀ s) : Kept s₀ (wr obj v s) := hs.trans (by
  unfold wr
  repeat' (first | (with_reducible exact Kept.refl _) | (with_reducible assumption) | (simp only [kept_mk]) | simp | (with_reducible apply wrSet_kept) | (intro _) | split | (with_reducible refine And.intro ?_ ?_)))

theorem ctrWf_put (t : Tab Nat) (off v : Nat) (h : ctrWf t = true) : ctrWf (tabPut 0 t off (v % 2 ^ 64)) = true := by
  unfold ctrWf at *
  rw [Bool.and_eq_true] at *
  refine ⟨tabWf_put 0 t off _ h.1, ?_⟩
  rw [List.all_eq_true] at *
  intro x hx
  unfold tabPut at hx
  split at hx
  · exact h.2 x (List.mem_of_mem_filter hx)
  · rcases mem_tabInsert t off _ x hx with rfl | hx
    · exact decide_eq_true (Nat.mod_lt _ (by decide))
    · exact h.2 x hx

@[simp] theorem ctrSet_kept {s₀ s : State} {off v : Nat} (hs : Kept s₀ s) : Kept s₀ (ctrSet off v s) :=
  hs.trans ⟨rfl, rfl, fun _ => Nat.le_refl _, Nat.le_refl _, List.prefix_refl _, id, ctrWf_put _ _ _⟩

@[simp] theorem ctrAdd_kept {s₀ : State} (off n : Nat) (s : State) (hs : Kept s₀ s) : Kept s₀ (ctrAdd off n s) := hs.trans (by
  unfold ctrAdd
  repeat' (first | (with_reducible exact Kept.refl _) | (with_reducible assumption) | (simp only [kept_mk]) | simp | (with_reducible apply ctrSet_kept) | (intro _) | split | (with_reducible refine And.intro ?_ ?_)))

@[simp] theorem count_kept {s₀ : State} (off : Nat) (s : State) (hs : Kept s₀ s) : Kept s₀ (count off s) := hs.trans (by
  unfold count
  repeat' (first | (with_reducible exact Kept.refl _) | (with_reducible assumption) | (simp only [kept_mk]) | simp | (with_reducible apply ctrAdd_kept) | (intro _) | split | (with_reducible refine And.intro ?_ ?_)))

@[simp] theorem ctrMax_kept {s₀ : State} (off v : Nat) (s : State) (hs : Kept s₀ s) : Kept s₀ (ctrMax off v s) := hs.trans (by
  unfold ctrMax
  repeat' (first | (with_reducible exact Kept.refl _) | (with_reducible assumption) | (simp only [kept_mk]) | simp | (with_reducible apply ctrSet_kept) | (intro _) | split | (with_reducible refine And.intro ?_ ?_)))

@[simp] theorem useLimit_kept {s₀ : State} (key : Nat) (s : State) (hs : Kept s₀ s) : Kept s₀ (useLimit key s) := hs.trans (by
  unfold useLimit
  repeat' (first | (with_reducible exact Kept.refl _) | (with_reducible assumption) | (simp only [kept_mk]) | simp | (intro _) | split | (with_reducible refine And.intro ?_ ?_)))

@[simp] theorem setMgmt_kept {s₀ : State} (n : Nat) (m : Mgmt) (s : State) (hs : Kept s₀ s) : Kept s₀ (setMgmt n m s) := hs.trans (by
  unfold setMgmt
  repeat' (first | (with_reducible exact Kept.refl _) | (with_reducible assumption) | (simp only [kept_mk]) | simp | (intro _) | split | (with_reducible refine And.intro ?_ ?_)))

@[simp] theorem sendObserver_kept {s₀ : State} (n kind : Nat) (payload : Bytes) (s : State) (hs : Kept s₀ s) : Kept s₀ (sendObserver n kind payload s) := hs.trans (by
  unfold sendObserver
  repeat' (first | (with_reducible exact Kept.refl _) | (with_reducible assumption) | (simp only [kept_mk]) | simp | (with_reducible apply setMgmt_kept) | (with_reducible apply emit_kept) | (intro _) | split | (with_reducible refine And.intro ?_ ?_)))

@[simp] theorem sendTlp_kept {s₀ : State} (o : Output) (s : State) (hs : Kept s₀ s) : Kept s₀ (sendTlp o s) := hs.trans (by
  unfold sendTlp
  repeat' (first | (with_reducible exact Kept.refl _) | (with_reducible assumption) | (simp only [kept_mk]) | simp | (with_reducible apply emit_kept) | (intro _) | split | (with_reducible refine And.intro ?_ ?_)))

@[simp] theorem hostWrite_kept {s₀ : State} (a : Nat) (b : Bytes) (s : State) (hs : Kept s₀ s) : Kept s₀ (hostWrite a b s) := hs.trans (by
  unfold hostWrite
  repeat' (first | (with_reducible exact Kept.refl _) | (with_reducible assumption) | (simp only [kept_mk]) | simp | (with_reducible apply sendTlp_kept) | (intro _) | split | (with_reducible refine And.intro ?_ ?_)))

@[simp] theorem flushWrites_kept {s₀ : State} (s : State) (hs : Kept s₀ s) : Kept s₀ (flushWrites s) := hs.trans (by
  unfold flushWrites
  repeat' (first | (with_reducible exact Kept.refl _) | (with_reducible assumption) | (simp only [kept_mk]) | simp | (with_reducible apply Kept.forEach) | (with_reducible apply sendTlp_kept) | (with_reducible apply hostWrite_kept) | (intro _) | split | (with_reducible refine And.intro ?_ ?_)))

@[simp] theorem pendVector_kept {s₀ : State} (v : Nat) (s : State) (hs : Kept s₀ s) : Kept s₀ (pendVector v s) := hs.trans (by
  unfold pendVector
  repeat' (first | (with_reducible exact Kept.refl _) | (with_reducible assumption) | (simp only [kept_mk]) | simp | (intro _) | split | (with_reducible refine And.intro ?_ ?_)))

@[simp] theorem sendVector_kept {s₀ : State} (v : Nat) (s : State) (hs : Kept s₀ s) : Kept s₀ (sendVector v s) := hs.trans (by
  unfold sendVector
  repeat' (first | (with_reducible exact Kept.refl _) | (with_reducible assumption) | (simp only [kept_mk]) | simp | (with_reducible apply pendVector_kept) | (with_reducible apply sendTlp_kept) | (intro _) | split | (with_reducible refine And.intro ?_ ?_)))

@[simp] theorem sendGroupVectors_kept {s₀ : State} (before : State) (groups : List Nat) (s : State) (hs : Kept s₀ s) : Kept s₀ (sendGroupVectors before groups s) := hs.trans (by
  unfold sendGroupVectors
  repeat' (first | (with_reducible exact Kept.refl _) | (with_reducible assumption) | (simp only [kept_mk]) | simp | (with_reducible apply Kept.forEach) | (with_reducible apply sendVector_kept) | (intro _) | split | (with_reducible refine And.intro ?_ ?_)))

@[simp] theorem sendNotice_kept {s₀ : State} (n src : Nat) (s : State) (hs : Kept s₀ s) : Kept s₀ (sendNotice n src s) :=
  hs.trans (by
  unfold sendNotice
  split
  · exact count_kept _ _ (Kept.refl _)
  · exact sendObserver_kept _ _ _ _ (count_kept _ _ (useLimit_kept _ _ (Kept.refl _))))

@[simp] theorem raise_kept {s₀ : State} (src detail : Nat) (s : State) (hs : Kept s₀ s) : Kept s₀ (raise src detail s) :=
  hs.trans (by
  unfold raise
  extract_lets g m t1 e t2 t3 t4 r t5
  have h1 : Kept s t1 := wrRow_kept _ _ _ _ (count_kept _ _ (Kept.refl s))
  have h2 : Kept s t2 := kept_mk.mpr h1
  have h3 : Kept s t3 := wrRow_kept _ _ _ _ h2
  have h4 : Kept s t4 := sendGroupVectors_kept _ _ _ h3
  exact Kept.when (fun t => sendNotice_kept _ _ _ (Kept.refl t)) (Kept.when (fun t => sendNotice_kept _ _ _ (Kept.refl t)) h4))

@[simp] theorem raiseOnce_kept {s₀ : State} (src scope detail : Nat) (s : State) (hs : Kept s₀ s) :
    Kept s₀ (raiseOnce src scope detail s) := hs.trans (by
  unfold raiseOnce
  split
  · exact raise_kept _ _ _ (useLimit_kept _ _ (Kept.refl _))
  · exact Kept.refl _)

@[simp] theorem useCycle_kept {s₀ : State} (key c : Nat) (s : State) (hs : Kept s₀ s) : Kept s₀ (useCycle key c s) := hs.trans (by
  unfold useCycle
  repeat' (first | (with_reducible exact Kept.refl _) | (with_reducible assumption) | (simp only [kept_mk]) | simp | (intro _) | split | (with_reducible refine And.intro ?_ ?_)))

@[simp] theorem putFrame_kept {s₀ : State} (fid : Nat) (f : Frame) (s : State) (hs : Kept s₀ s) : Kept s₀ (putFrame fid f s) := hs.trans (by
  unfold putFrame
  repeat' (first | (with_reducible exact Kept.refl _) | (with_reducible assumption) | (simp only [kept_mk]) | simp | (intro _) | split | (with_reducible refine And.intro ?_ ?_)))

@[simp] theorem modFrame_kept {s₀ : State} (fid : Nat) (g : Frame → Frame) (s : State) (hs : Kept s₀ s) : Kept s₀ (modFrame fid g s) := hs.trans (by
  unfold modFrame
  repeat' (first | (with_reducible exact Kept.refl _) | (with_reducible assumption) | (simp only [kept_mk]) | simp | (with_reducible apply putFrame_kept) | (intro _) | split | (with_reducible refine And.intro ?_ ?_)))

@[simp] theorem dropFrame_kept {s₀ : State} (fid : Nat) (s : State) (hs : Kept s₀ s) : Kept s₀ (dropFrame fid s) := hs.trans (by
  unfold dropFrame
  repeat' (first | (with_reducible exact Kept.refl _) | (with_reducible assumption) | (simp only [kept_mk]) | simp | (intro _) | split | (with_reducible refine And.intro ?_ ?_)))

@[simp] theorem newFrame_kept {s₀ s : State} {f : Frame} (hs : Kept s₀ s) : Kept s₀ (newFrame f s).2 :=
  hs.trans ⟨rfl, rfl, fun _ => Nat.le_refl _, Nat.le_refl _, List.prefix_refl _, id, id⟩

@[simp] theorem setPipe_kept {s₀ : State} (n : Nat) (p : PipeSt) (s : State) (hs : Kept s₀ s) : Kept s₀ (setPipe n p s) := hs.trans (by
  unfold setPipe
  repeat' (first | (with_reducible exact Kept.refl _) | (with_reducible assumption) | (simp only [kept_mk]) | simp | (intro _) | split | (with_reducible refine And.intro ?_ ?_)))

@[simp] theorem setPort_kept {s₀ : State} (p : Nat) (x : PortSt) (s : State) (hs : Kept s₀ s) : Kept s₀ (setPort p x s) := hs.trans (by
  unfold setPort
  repeat' (first | (with_reducible exact Kept.refl _) | (with_reducible assumption) | (simp only [kept_mk]) | simp | (intro _) | split | (with_reducible refine And.intro ?_ ?_)))

@[simp] theorem perfCount_kept {s₀ : State} (row n : Nat) (s : State) (hs : Kept s₀ s) : Kept s₀ (perfCount row n s) := hs.trans (by
  unfold perfCount
  repeat' (first | (with_reducible exact Kept.refl _) | (with_reducible assumption) | (simp only [kept_mk]) | simp | (with_reducible apply ctrAdd_kept) | (with_reducible apply count_kept) | (intro _) | split | (with_reducible refine And.intro ?_ ?_)))

@[simp] theorem perfOccur_kept {s₀ : State} (scope : Nat → Bool) (event n : Nat) (o : Occ) (s : State) (hs : Kept s₀ s) : Kept s₀ (perfOccur scope event n o s) := hs.trans (by
  unfold perfOccur
  repeat' (first | (with_reducible exact Kept.refl _) | (with_reducible assumption) | (simp only [kept_mk]) | simp | (with_reducible apply Kept.forEach) | (with_reducible apply perfCount_kept) | (intro _) | split | (with_reducible refine And.intro ?_ ?_)))

@[simp] theorem nextMark_kept {s₀ : State} (v : Nat) (s : State) (hs : Kept s₀ s) : Kept s₀ (nextMark v s).2 := hs.trans (by
  unfold nextMark
  repeat' (first | (with_reducible exact Kept.refl _) | (with_reducible assumption) | (simp only [kept_mk]) | simp | (with_reducible apply drawRandom_kept) | (intro _) | split | (with_reducible refine And.intro ?_ ?_)))

@[simp] theorem setMark_kept {s₀ : State} (n c m : Nat) (s : State) (hs : Kept s₀ s) : Kept s₀ (setMark n c m s) := hs.trans (by
  unfold setMark
  repeat' (first | (with_reducible exact Kept.refl _) | (with_reducible assumption) | (simp only [kept_mk]) | simp | (with_reducible apply count_kept) | (intro _) | split | (with_reducible refine And.intro ?_ ?_)))

@[simp] theorem sampleDone_kept {s₀ : State} (n entry : Nat) (s : State) (hs : Kept s₀ s) : Kept s₀ (sampleDone n entry s) := hs.trans (by
  unfold sampleDone
  repeat' (first | (with_reducible exact Kept.refl _) | (with_reducible assumption) | (simp only [kept_mk]) | simp | (intro _) | split | (with_reducible refine And.intro ?_ ?_)))

@[simp] theorem beginSample_kept {s₀ : State} (n kind fid : Nat) (f : Frame) (s : State) (hs : Kept s₀ s) : Kept s₀ (beginSample n kind fid f s) := hs.trans (by
  unfold beginSample
  repeat' (first | (with_reducible exact Kept.refl _) | (with_reducible assumption) | (simp only [kept_mk]) | simp | (with_reducible apply sampleDone_kept) | (with_reducible apply count_kept) | (intro _) | split | (with_reducible refine And.intro ?_ ?_)))

@[simp] theorem preciseOccur_kept {s₀ : State} (n event : Nat) (o : Occ) (s : State) (hs : Kept s₀ s) : Kept s₀ (preciseOccur n event o s) := hs.trans (by
  unfold preciseOccur
  repeat' (first | (with_reducible exact Kept.refl _) | (with_reducible assumption) | (simp only [kept_mk]) | simp | (with_reducible apply count_kept) | (with_reducible apply setMark_kept) | (with_reducible apply nextMark_kept) | (with_reducible apply beginSample_kept) | (intro _) | split | (with_reducible refine And.intro ?_ ?_)))

@[simp] theorem occur_kept {s₀ : State} (n event k : Nat) (o : Occ) (s : State) (hs : Kept s₀ s) : Kept s₀ (occur n event k o s) := hs.trans (by
  unfold occur
  repeat' (first | (with_reducible exact Kept.refl _) | (with_reducible assumption) | (simp only [kept_mk]) | simp | (with_reducible apply preciseOccur_kept) | (with_reducible apply perfOccur_kept) | (intro _) | split | (with_reducible refine And.intro ?_ ?_)))

@[simp] theorem occurGlobal_kept {s₀ : State} (event k : Nat) (s : State) (hs : Kept s₀ s) : Kept s₀ (occurGlobal event k s) := hs.trans (by
  unfold occurGlobal
  repeat' (first | (with_reducible exact Kept.refl _) | (with_reducible assumption) | (simp only [kept_mk]) | simp | (with_reducible apply perfOccur_kept) | (intro _) | split | (with_reducible refine And.intro ?_ ?_)))

@[simp] theorem slotCategory_kept {s₀ : State} (n c : Nat) (o : Occ) (s : State) (hs : Kept s₀ s) : Kept s₀ (slotCategory n c o s) := hs.trans (by
  unfold slotCategory
  repeat' (first | (with_reducible exact Kept.refl _) | (with_reducible assumption) | (simp only [kept_mk]) | simp | (with_reducible apply occur_kept) | (with_reducible apply count_kept) | (intro _) | split | (with_reducible refine And.intro ?_ ?_)))

@[simp] theorem sampleBoundary_kept {s₀ : State} (fid word : Nat) (f : Frame) (s : State) (hs : Kept s₀ s) : Kept s₀ (sampleBoundary fid word f s) := hs.trans (by
  unfold sampleBoundary
  repeat' (first | (with_reducible exact Kept.refl _) | (with_reducible assumption) | (simp only [kept_mk]) | simp | (with_reducible apply sampleDone_kept) | (intro _) | split | (with_reducible refine And.intro ?_ ?_)))

@[simp] theorem sampleEnds_kept {s₀ : State} (fid : Nat) (f : Frame) (s : State) (hs : Kept s₀ s) : Kept s₀ (sampleEnds fid f s) := hs.trans (by
  unfold sampleEnds
  repeat' (first | (with_reducible exact Kept.refl _) | (with_reducible assumption) | (simp only [kept_mk]) | simp | (with_reducible apply sampleDone_kept) | (intro _) | split | (with_reducible refine And.intro ?_ ?_)))

@[simp] theorem sampleLeave_kept {s₀ : State} (fid : Nat) (f : Frame) (egress : Nat) (discarded : Bool) (s : State) (hs : Kept s₀ s) : Kept s₀ (sampleLeave fid f egress discarded s) := hs.trans (by
  unfold sampleLeave
  repeat' (first | (with_reducible exact Kept.refl _) | (with_reducible assumption) | (simp only [kept_mk]) | simp | (with_reducible apply sampleEnds_kept) | (with_reducible apply sampleDone_kept) | (intro _) | split | (with_reducible refine And.intro ?_ ?_)))

@[simp] theorem writeSample_kept {s₀ : State} (entry : Nat) (s : State) (hs : Kept s₀ s) : Kept s₀ (writeSample entry s) := hs.trans (by
  unfold writeSample
  repeat' (first | (with_reducible exact Kept.refl _) | (with_reducible assumption) | (simp only [kept_mk]) | simp | (with_reducible apply count_kept) | (with_reducible apply wr_kept) | (with_reducible apply wrRow_kept) | (intro _) | split | (with_reducible refine And.intro ?_ ?_)))

@[simp] theorem writePreciseConfig_kept {s₀ : State} (v : Nat) (s : State) (hs : Kept s₀ s) : Kept s₀ (writePreciseConfig v s) := hs.trans (by
  unfold writePreciseConfig
  repeat' (first | (with_reducible exact Kept.refl _) | (with_reducible assumption) | (simp only [kept_mk]) | simp | (with_reducible apply Kept.forEach) | (with_reducible apply nextMark_kept) | (with_reducible apply setMark_kept) | (with_reducible apply wr_kept) | (intro _) | split | (with_reducible refine And.intro ?_ ?_)))

@[simp] theorem writePerfSelect_kept {s₀ : State} (row v : Nat) (s : State) (hs : Kept s₀ s) : Kept s₀ (writePerfSelect row v s) := hs.trans (by
  unfold writePerfSelect
  repeat' (first | (with_reducible exact Kept.refl _) | (with_reducible assumption) | (simp only [kept_mk]) | simp | (with_reducible apply ctrSet_kept) | (with_reducible apply wrRow_kept) | (intro _) | split | (with_reducible refine And.intro ?_ ?_)))

@[simp] theorem setPool_kept {s₀ : State} (p : Nat) (x : PoolSt) (s : State) (hs : Kept s₀ s) : Kept s₀ (setPool p x s) := hs.trans (by
  unfold setPool
  repeat' (first | (with_reducible exact Kept.refl _) | (with_reducible assumption) | (simp only [kept_mk]) | simp | (intro _) | split | (with_reducible refine And.intro ?_ ?_)))

@[simp] theorem setHeader_kept {s₀ : State} (h w : Nat) (s : State) (hs : Kept s₀ s) : Kept s₀ (setHeader h w s) := hs.trans (by
  unfold setHeader
  repeat' (first | (with_reducible exact Kept.refl _) | (with_reducible assumption) | (simp only [kept_mk]) | simp | (intro _) | split | (with_reducible refine And.intro ?_ ?_)))

@[simp] theorem setHeld_kept {s₀ : State} (owner p n : Nat) (s : State) (hs : Kept s₀ s) : Kept s₀ (setHeld owner p n s) := hs.trans (by
  unfold setHeld
  repeat' (first | (with_reducible exact Kept.refl _) | (with_reducible assumption) | (simp only [kept_mk]) | simp | (intro _) | split | (with_reducible refine And.intro ?_ ?_)))

@[simp] theorem breakList_kept {s₀ : State} (p : Nat) (s : State) (hs : Kept s₀ s) : Kept s₀ (breakList p s) := hs.trans (by
  unfold breakList
  repeat' (first | (with_reducible exact Kept.refl _) | (with_reducible assumption) | (simp only [kept_mk]) | simp | (with_reducible apply setPool_kept) | (with_reducible apply raise_kept) | (with_reducible apply count_kept) | (intro _) | split | (with_reducible refine And.intro ?_ ?_)))

@[simp] theorem rebuildPools_kept {s₀ : State} (s : State) (hs : Kept s₀ s) : Kept s₀ (rebuildPools s) := hs.trans (by
  unfold rebuildPools
  repeat' (first | (with_reducible exact Kept.refl _) | (with_reducible assumption) | (simp only [kept_mk]) | simp | (with_reducible apply Kept.forEach) | (with_reducible apply setPool_kept) | (intro _) | split | (with_reducible refine And.intro ?_ ?_)))

@[simp] theorem returnBuffer_kept {s₀ : State} (h : Nat) (s : State) (hs : Kept s₀ s) : Kept s₀ (returnBuffer h s) := hs.trans (by
  unfold returnBuffer
  repeat' (first | (with_reducible exact Kept.refl _) | (with_reducible assumption) | (simp only [kept_mk]) | simp | (with_reducible apply setPool_kept) | (intro _) | split | (with_reducible refine And.intro ?_ ?_)))

theorem takeBuffer_kept {p owner position : Nat} {s t : State} {h : Nat} (e : takeBuffer p owner position s = some (h, t)) :
    Kept s t := by
  simp only [takeBuffer] at e
  split at e
  · cases e
  · cases e; (repeat' (first | (with_reducible exact Kept.refl _) | (with_reducible assumption) | (simp only [kept_mk]) | simp | (with_reducible apply setHeld_kept) | (with_reducible apply setHeader_kept) | (with_reducible apply setPool_kept) | (with_reducible apply useCycle_kept) | (with_reducible apply count_kept) | (with_reducible apply Kept.when) | (intro _) | split | (with_reducible refine And.intro ?_ ?_)))

@[simp] theorem badHandle_kept {s₀ : State} (h owner : Nat) (s : State) (hs : Kept s₀ s) : Kept s₀ (badHandle h owner s) := hs.trans (by
  unfold badHandle
  repeat' (first | (with_reducible exact Kept.refl _) | (with_reducible assumption) | (simp only [kept_mk]) | simp | (with_reducible apply raiseOnce_kept) | (with_reducible apply wr_kept) | (with_reducible apply count_kept) | (intro _) | split | (with_reducible refine And.intro ?_ ?_)))

@[simp] theorem quarantine_kept {s₀ : State} (h : Nat) (s : State) (hs : Kept s₀ s) : Kept s₀ (quarantine h s) := hs.trans (by
  unfold quarantine
  repeat' (first | (with_reducible exact Kept.refl _) | (with_reducible assumption) | (simp only [kept_mk]) | simp | (with_reducible apply Kept.when) | (with_reducible apply setHeader_kept) | (with_reducible apply setHeld_kept) | (with_reducible apply setPool_kept) | (with_reducible apply raise_kept) | (with_reducible apply count_kept) | (intro _) | split | (with_reducible refine And.intro ?_ ?_)))

@[simp] theorem correctedWord_kept {s₀ : State} (p : Nat) (s : State) (hs : Kept s₀ s) : Kept s₀ (correctedWord p s) := hs.trans (by
  unfold correctedWord
  repeat' (first | (with_reducible exact Kept.refl _) | (with_reducible assumption) | (simp only [kept_mk]) | simp | (with_reducible apply raise_kept) | (with_reducible apply count_kept) | (intro _) | split | (with_reducible refine And.intro ?_ ?_)))

@[simp] theorem giveUp_kept {s₀ : State} (h owner : Nat) (s : State) (hs : Kept s₀ s) : Kept s₀ (giveUp h owner s) := hs.trans (by
  unfold giveUp
  repeat' (first | (with_reducible exact Kept.refl _) | (with_reducible assumption) | (simp only [kept_mk]) | simp | (with_reducible apply badHandle_kept) | (with_reducible apply raiseOnce_kept) | (with_reducible apply wr_kept) | (with_reducible apply count_kept) | (with_reducible apply setHeader_kept) | (with_reducible apply returnBuffer_kept) | (with_reducible apply setHeld_kept) | (intro _) | split | (with_reducible refine And.intro ?_ ?_)))

@[simp] theorem applyRelease_kept {s₀ : State} (r : Release) (s : State) (hs : Kept s₀ s) : Kept s₀ (applyRelease r s) := hs.trans (by
  unfold applyRelease
  repeat' (first | (with_reducible exact Kept.refl _) | (with_reducible assumption) | (simp only [kept_mk]) | simp | (with_reducible apply badHandle_kept) | (with_reducible apply giveUp_kept) | (with_reducible apply correctedWord_kept) | (with_reducible apply quarantine_kept) | (intro _) | split | (with_reducible refine And.intro ?_ ?_)))

@[simp] theorem applyReleases_kept {s₀ : State} (s : State) (hs : Kept s₀ s) : Kept s₀ (applyReleases s) := hs.trans (by
  unfold applyReleases
  repeat' (first | (with_reducible exact Kept.refl _) | (with_reducible assumption) | (simp only [kept_mk]) | simp | (with_reducible apply Kept.forEach) | (with_reducible apply applyRelease_kept) | (intro _) | split | (with_reducible refine And.intro ?_ ?_)))

@[simp] theorem sendRelease_kept {s₀ : State} (r : Release) (s : State) (hs : Kept s₀ s) : Kept s₀ (sendRelease r s) := hs.trans (by
  unfold sendRelease
  repeat' (first | (with_reducible exact Kept.refl _) | (with_reducible assumption) | (simp only [kept_mk]) | simp | (intro _) | split | (with_reducible refine And.intro ?_ ?_)))

@[simp] theorem releaseBuffer_kept {s₀ : State} (h owner : Nat) (s : State) (hs : Kept s₀ s) : Kept s₀ (releaseBuffer h owner s) := hs.trans (by
  unfold releaseBuffer
  repeat' (first | (with_reducible exact Kept.refl _) | (with_reducible assumption) | (simp only [kept_mk]) | simp | (with_reducible apply sendRelease_kept) | (intro _) | split | (with_reducible refine And.intro ?_ ?_)))

@[simp] theorem raiseRefs_kept {s₀ : State} (h n : Nat) (s : State) (hs : Kept s₀ s) : Kept s₀ (raiseRefs h n s) := hs.trans (by
  unfold raiseRefs
  repeat' (first | (with_reducible exact Kept.refl _) | (with_reducible assumption) | (simp only [kept_mk]) | simp | (with_reducible apply setHeader_kept) | (intro _) | split | (with_reducible refine And.intro ?_ ?_)))

@[simp] theorem moveCharge_kept {s₀ : State} (h owner : Nat) (s : State) (hs : Kept s₀ s) : Kept s₀ (moveCharge h owner s) := hs.trans (by
  unfold moveCharge
  repeat' (first | (with_reducible exact Kept.refl _) | (with_reducible assumption) | (simp only [kept_mk]) | simp | (with_reducible apply setHeld_kept) | (with_reducible apply setHeader_kept) | (intro _) | split | (with_reducible refine And.intro ?_ ?_)))

@[simp] theorem releaseFrameAt_kept {s₀ : State} (position : Nat) (f : Frame) (s : State) (hs : Kept s₀ s) : Kept s₀ (releaseFrameAt position f s) := hs.trans (by
  unfold releaseFrameAt
  repeat' (first | (with_reducible exact Kept.refl _) | (with_reducible assumption) | (simp only [kept_mk]) | simp | (with_reducible apply sendRelease_kept) | (intro _) | split | (with_reducible refine And.intro ?_ ?_)))

@[simp] theorem releaseFrame_kept {s₀ : State} (f : Frame) (s : State) (hs : Kept s₀ s) : Kept s₀ (releaseFrame f s) := hs.trans (by
  unfold releaseFrame
  repeat' (first | (with_reducible exact Kept.refl _) | (with_reducible assumption) | (simp only [kept_mk]) | simp | (with_reducible apply releaseFrameAt_kept) | (intro _) | split | (with_reducible refine And.intro ?_ ?_)))

@[simp] theorem deliverGrant_kept {s₀ : State} (fid h : Nat) (s : State) (hs : Kept s₀ s) : Kept s₀ (deliverGrant fid h s) := hs.trans (by
  unfold deliverGrant
  repeat' (first | (with_reducible exact Kept.refl _) | (with_reducible assumption) | (simp only [kept_mk]) | simp | (with_reducible apply occur_kept) | (with_reducible apply putFrame_kept) | (intro _) | split | (with_reducible refine And.intro ?_ ?_)))

@[simp] theorem unask_kept {s₀ : State} (owner p : Nat) (s : State) (hs : Kept s₀ s) : Kept s₀ (unask owner p s) := hs.trans (by
  unfold unask
  repeat' (first | (with_reducible exact Kept.refl _) | (with_reducible assumption) | (simp only [kept_mk]) | simp | (intro _) | split | (with_reducible refine And.intro ?_ ?_)))

@[simp] theorem deliver_kept {s₀ : State} (r : Request) (h : Nat) (s : State) (hs : Kept s₀ s) : Kept s₀ (deliver r h s) := hs.trans (by
  unfold deliver
  repeat' (first | (with_reducible exact Kept.refl _) | (with_reducible assumption) | (simp only [kept_mk]) | simp | (with_reducible apply deliverGrant_kept) | (with_reducible apply unask_kept) | (intro _) | split | (with_reducible refine And.intro ?_ ?_)))

@[simp] theorem quarantineNext_kept {s₀ : State} (p : Nat) (s : State) (hs : Kept s₀ s) : Kept s₀ (quarantineNext p s) := hs.trans (by
  unfold quarantineNext
  repeat' (first | (with_reducible exact Kept.refl _) | (with_reducible assumption) | (simp only [kept_mk]) | simp | (with_reducible apply quarantine_kept) | (with_reducible apply setPool_kept) | (intro _) | split | (with_reducible refine And.intro ?_ ?_)))

@[simp] theorem grantWinner_kept {s₀ : State} (p : Nat) (s : State) (hs : Kept s₀ s) : Kept s₀ (grantWinner p s) := hs.trans (by
  unfold grantWinner
  repeat' (first | (with_reducible exact Kept.refl _) | (with_reducible assumption) | (simp only [kept_mk]) | simp | (with_reducible refine Kept.trans ?_ (takeBuffer_kept ‹_›)) | (with_reducible apply deliver_kept) | (intro _) | split | (with_reducible refine And.intro ?_ ?_)))

@[simp] theorem grantRead_kept {s₀ : State} (p : Nat) (hdr : Ecc) (s : State) (hs : Kept s₀ s) : Kept s₀ (grantRead p hdr s) := hs.trans (by
  unfold grantRead
  repeat' (first | (with_reducible exact Kept.refl _) | (with_reducible assumption) | (simp only [kept_mk]) | simp | (with_reducible apply grantWinner_kept) | (with_reducible apply correctedWord_kept) | (with_reducible apply quarantineNext_kept) | (intro _) | split | (with_reducible refine And.intro ?_ ?_)))

@[simp] theorem grantOne_kept {s₀ : State} (p : Nat) (hdr link : Ecc) (word : Option Nat) (s : State) (hs : Kept s₀ s) : Kept s₀ (grantOne p hdr link word s) := hs.trans (by
  unfold grantOne
  repeat' (first | (with_reducible exact Kept.refl _) | (with_reducible assumption) | (simp only [kept_mk]) | simp | (with_reducible apply raise_kept) | (with_reducible apply breakList_kept) | (with_reducible apply Kept.when) | (with_reducible apply correctedWord_kept) | (with_reducible apply grantRead_kept) | (with_reducible apply setPool_kept) | (intro _) | split | (with_reducible refine And.intro ?_ ?_)))

@[simp] theorem strayRequest_kept {s₀ : State} (r : Option (Nat × Nat)) (s : State) (hs : Kept s₀ s) : Kept s₀ (strayRequest r s) := hs.trans (by
  unfold strayRequest
  repeat' (first | (with_reducible exact Kept.refl _) | (with_reducible assumption) | (simp only [kept_mk]) | simp | (with_reducible apply badHandle_kept) | (intro _) | split | (with_reducible refine And.intro ?_ ?_)))

@[simp] theorem takeGranted_kept {s₀ : State} (owner p : Nat) (s : State) (hs : Kept s₀ s) : Kept s₀ (takeGranted owner p s) := hs.trans (by
  unfold takeGranted
  repeat' (first | (with_reducible exact Kept.refl _) | (with_reducible assumption) | (simp only [kept_mk]) | simp | (intro _) | split | (with_reducible refine And.intro ?_ ?_)))

@[simp] theorem ask_kept {s₀ : State} (owner p : Nat) (s : State) (hs : Kept s₀ s) : Kept s₀ (ask owner p s) := hs.trans (by
  unfold ask
  repeat' (first | (with_reducible exact Kept.refl _) | (with_reducible assumption) | (simp only [kept_mk]) | simp | (intro _) | split | (with_reducible refine And.intro ?_ ?_)))

@[simp] theorem grantInternal_snd_kept {s₀ : State} (owner p : Nat) (s : State) (hs : Kept s₀ s) :
    Kept s₀ (grantInternal owner p s).2 := hs.trans (by
  unfold grantInternal
  repeat' (first | (with_reducible exact Kept.refl _) | (with_reducible assumption) | (simp only [kept_mk]) | simp | (with_reducible apply takeGranted_kept) | (with_reducible apply ask_kept) | (with_reducible refine Kept.trans ?_ (takeBuffer_kept ‹_›)) | (with_reducible apply unask_kept) | (intro _) | split | (with_reducible refine And.intro ?_ ?_)))

theorem grantInternal_kept {owner p : Nat} {s t : State} {h : Option Nat} (e : grantInternal owner p s = (h, t)) : Kept s t := by
  have hk := grantInternal_snd_kept owner p s (Kept.refl s)
  rw [e] at hk
  exact hk

@[simp] theorem countWait_kept {s₀ : State} (s : State) (p : Nat) (r : Request) (hs : Kept s₀ s) : Kept s₀ (countWait s p r) := hs.trans (by
  unfold countWait
  repeat' (first | (with_reducible exact Kept.refl _) | (with_reducible assumption) | (simp only [kept_mk]) | simp | (with_reducible apply count_kept) | (intro _) | split | (with_reducible refine And.intro ?_ ?_)))

@[simp] theorem countWaits_kept {s₀ : State} (s : State) (hs : Kept s₀ s) : Kept s₀ (countWaits s) := hs.trans (by
  unfold countWaits
  repeat' (first | (with_reducible exact Kept.refl _) | (with_reducible assumption) | (simp only [kept_mk]) | simp | (with_reducible apply Kept.forEach) | (with_reducible apply countWait_kept) | (intro _) | split | (with_reducible refine And.intro ?_ ?_)))

@[simp] theorem setSq_kept {s₀ : State} (q : Nat) (x : Sq) (s : State) (hs : Kept s₀ s) : Kept s₀ (setSq q x s) := hs.trans (by
  unfold setSq
  repeat' (first | (with_reducible exact Kept.refl _) | (with_reducible assumption) | (simp only [kept_mk]) | simp | (intro _) | split | (with_reducible refine And.intro ?_ ?_)))

@[simp] theorem setCq_kept {s₀ : State} (q : Nat) (x : Cq) (s : State) (hs : Kept s₀ s) : Kept s₀ (setCq q x s) := hs.trans (by
  unfold setCq
  repeat' (first | (with_reducible exact Kept.refl _) | (with_reducible assumption) | (simp only [kept_mk]) | simp | (intro _) | split | (with_reducible refine And.intro ?_ ?_)))

@[simp] theorem writeEntry_kept {s₀ : State} (q : Nat) (b : Bytes) (s : State) (hs : Kept s₀ s) : Kept s₀ (writeEntry q b s) := hs.trans (by
  unfold writeEntry
  repeat' (first | (with_reducible exact Kept.refl _) | (with_reducible assumption) | (simp only [kept_mk]) | simp | (with_reducible apply Kept.when) | (with_reducible apply hostWrite_kept) | (with_reducible apply flushWrites_kept) | (with_reducible apply setCq_kept) | (intro _) | split | (with_reducible refine And.intro ?_ ?_)))

@[simp] theorem releaseStaging_kept {s₀ : State} (h : Option Nat) (s : State) (hs : Kept s₀ s) : Kept s₀ (releaseStaging h s) := hs.trans (by
  unfold releaseStaging
  repeat' (first | (with_reducible exact Kept.refl _) | (with_reducible assumption) | (simp only [kept_mk]) | simp | (with_reducible apply releaseBuffer_kept) | (intro _) | split | (with_reducible refine And.intro ?_ ?_)))

@[simp] theorem writeHeld_kept {s₀ : State} (q : Nat) (s : State) (hs : Kept s₀ s) : Kept s₀ (writeHeld q s) := hs.trans (by
  unfold writeHeld
  repeat' (first | (with_reducible exact Kept.refl _) | (with_reducible assumption) | (simp only [kept_mk]) | simp | (with_reducible apply setCq_kept) | (with_reducible apply Kept.forEach) | (with_reducible apply releaseStaging_kept) | (with_reducible apply writeEntry_kept) | (intro _) | split | (with_reducible refine And.intro ?_ ?_)))

@[simp] theorem writeTail_kept {s₀ : State} (q : Nat) (s : State) (hs : Kept s₀ s) : Kept s₀ (writeTail q s) := hs.trans (by
  unfold writeTail
  repeat' (first | (with_reducible exact Kept.refl _) | (with_reducible assumption) | (simp only [kept_mk]) | simp | (with_reducible apply hostWrite_kept) | (intro _) | split | (with_reducible refine And.intro ?_ ?_)))

@[simp] theorem leaveL1_kept {s₀ : State} (s : State) (hs : Kept s₀ s) : Kept s₀ (leaveL1 s) := hs.trans (by
  unfold leaveL1
  repeat' (first | (with_reducible exact Kept.refl _) | (with_reducible assumption) | (simp only [kept_mk]) | simp | (with_reducible apply Kept.forEach) | (with_reducible apply writeTail_kept) | (with_reducible apply writeHeld_kept) | (intro _) | split | (with_reducible refine And.intro ?_ ?_)))

@[simp] theorem flushHeld_kept {s₀ : State} (s : State) (hs : Kept s₀ s) : Kept s₀ (flushHeld s) := hs.trans (by
  unfold flushHeld
  repeat' (first | (with_reducible exact Kept.refl _) | (with_reducible assumption) | (simp only [kept_mk]) | simp | (with_reducible apply leaveL1_kept) | (intro _) | split | (with_reducible refine And.intro ?_ ?_)))

@[simp] theorem sendSignalVector_kept {s₀ : State} (v : Nat) (s : State) (hs : Kept s₀ s) : Kept s₀ (sendSignalVector v s) := hs.trans (by
  unfold sendSignalVector
  repeat' (first | (with_reducible exact Kept.refl _) | (with_reducible assumption) | (simp only [kept_mk]) | simp | (with_reducible apply pendVector_kept) | (with_reducible apply sendTlp_kept) | (intro _) | split | (with_reducible refine And.intro ?_ ?_)))

@[simp] theorem signalCq_kept {s₀ : State} (q : Nat) (ceiling : Bool) (s : State) (hs : Kept s₀ s) : Kept s₀ (signalCq q ceiling s) := hs.trans (by
  unfold signalCq
  repeat' (first | (with_reducible exact Kept.refl _) | (with_reducible assumption) | (simp only [kept_mk]) | simp | (with_reducible apply count_kept) | (with_reducible apply Kept.when) | (with_reducible apply setCq_kept) | (with_reducible apply pendVector_kept) | (with_reducible apply sendTlp_kept) | (with_reducible apply sendSignalVector_kept) | (with_reducible apply writeTail_kept) | (with_reducible apply writeHeld_kept) | (intro _) | split | (with_reducible refine And.intro ?_ ?_)))

@[simp] theorem signalByCount_kept {s₀ : State} (q : Nat) (s : State) (hs : Kept s₀ s) : Kept s₀ (signalByCount q s) := hs.trans (by
  unfold signalByCount
  repeat' (first | (with_reducible exact Kept.refl _) | (with_reducible assumption) | (simp only [kept_mk]) | simp | (with_reducible apply signalCq_kept) | (intro _) | split | (with_reducible refine And.intro ?_ ?_)))

@[simp] theorem postEntry_kept {s₀ : State} (q : Nat) (b : Bytes) (counts : Bool) (h : Option Nat) (s : State) (hs : Kept s₀ s) : Kept s₀ (postEntry q b counts h s) := hs.trans (by
  unfold postEntry
  repeat' (first | (with_reducible exact Kept.refl _) | (with_reducible assumption) | (simp only [kept_mk]) | simp | (with_reducible apply releaseStaging_kept) | (with_reducible apply setCq_kept) | (with_reducible apply signalByCount_kept) | (with_reducible apply leaveL1_kept) | (with_reducible apply writeEntry_kept) | (with_reducible apply Kept.when) | (with_reducible apply writeHeld_kept) | (intro _) | split | (with_reducible refine And.intro ?_ ?_)))

@[simp] theorem unreserve_kept {s₀ : State} (q n : Nat) (s : State) (hs : Kept s₀ s) : Kept s₀ (unreserve q n s) := hs.trans (by
  unfold unreserve
  repeat' (first | (with_reducible exact Kept.refl _) | (with_reducible assumption) | (simp only [kept_mk]) | simp | (with_reducible apply setCq_kept) | (intro _) | split | (with_reducible refine And.intro ?_ ?_)))

@[simp] theorem releaseLocks_kept {s₀ : State} (q : Nat) (s : State) (hs : Kept s₀ s) : Kept s₀ (releaseLocks q s) := hs.trans (by
  unfold releaseLocks
  repeat' (first | (with_reducible exact Kept.refl _) | (with_reducible assumption) | (simp only [kept_mk]) | simp | (intro _) | split | (with_reducible refine And.intro ?_ ?_)))

@[simp] theorem removeSq_kept {s₀ : State} (q : Nat) (s : State) (hs : Kept s₀ s) : Kept s₀ (removeSq q s) := hs.trans (by
  unfold removeSq
  repeat' (first | (with_reducible exact Kept.refl _) | (with_reducible assumption) | (simp only [kept_mk]) | simp | (with_reducible apply unreserve_kept) | (with_reducible apply releaseLocks_kept) | (intro _) | split | (with_reducible refine And.intro ?_ ?_)))

@[simp] theorem endCommand_kept {s₀ : State} (c : SqCmd) (status area skipped result : Nat) (extra : Bytes) (s : State) (hs : Kept s₀ s) : Kept s₀ (endCommand c status area skipped result extra s) := hs.trans (by
  unfold endCommand
  repeat' (first | (with_reducible exact Kept.refl _) | (with_reducible assumption) | (simp only [kept_mk]) | simp | (with_reducible apply unreserve_kept) | (with_reducible apply releaseStaging_kept) | (with_reducible apply Kept.when) | (with_reducible apply count_kept) | (with_reducible apply postEntry_kept) | (intro _) | split | (with_reducible refine And.intro ?_ ?_)))

@[simp] theorem finishDeletion_kept {s₀ : State} (q : Nat) (s : State) (hs : Kept s₀ s) : Kept s₀ (finishDeletion q s) := hs.trans (by
  unfold finishDeletion
  repeat' (first | (with_reducible exact Kept.refl _) | (with_reducible assumption) | (simp only [kept_mk]) | simp | (with_reducible apply endCommand_kept) | (with_reducible apply removeSq_kept) | (intro _) | split | (with_reducible refine And.intro ?_ ?_)))

@[simp] theorem complete_kept {s₀ : State} (c : SqCmd) (status area result : Nat) (s : State) (hs : Kept s₀ s) : Kept s₀ (complete c status area result s) := hs.trans (by
  unfold complete
  repeat' (first | (with_reducible exact Kept.refl _) | (with_reducible assumption) | (simp only [kept_mk]) | simp | (with_reducible apply finishDeletion_kept) | (with_reducible apply endCommand_kept) | (intro _) | split | (with_reducible refine And.intro ?_ ?_)))

@[simp] theorem completeOk_kept {s₀ : State} (c : SqCmd) (s : State) (hs : Kept s₀ s) : Kept s₀ (completeOk c s) := hs.trans (by
  unfold completeOk
  repeat' (first | (with_reducible exact Kept.refl _) | (with_reducible assumption) | (simp only [kept_mk]) | simp | (with_reducible apply complete_kept) | (intro _) | split | (with_reducible refine And.intro ?_ ?_)))

@[simp] theorem atLevel_kept (s₀ : State) {c : SqCmd} {lowest : Nat} {f : State → State} {s : State}
    (hf : ∀ t, Kept t (f t)) (hs : Kept s₀ s) :
    Kept s₀ (atLevel c lowest f s) := hs.trans (by
  unfold atLevel
  repeat' (first | split | (exact hf _) | (with_reducible exact Kept.refl _) | (with_reducible assumption) | (simp only [kept_mk]) | simp | (with_reducible apply complete_kept) | (intro _) | split | (with_reducible refine And.intro ?_ ?_)))

theorem writeSegs_keeps (l : List (Nat × Nat)) (b : Bytes) (s : State) : Kept s (writeSegs l b s) := by
  induction l generalizing b s with
  | nil => exact Kept.refl s
  | cons e t ih =>
    unfold writeSegs
    split
    · exact Kept.refl s
    · exact (hostWrite_kept _ _ _ (Kept.refl s)).trans (ih _ _)

@[simp] theorem writeSegs_kept {s₀ : State} (l : List (Nat × Nat)) (b : Bytes) (s : State) (hs : Kept s₀ s) :
    Kept s₀ (writeSegs l b s) := hs.trans (writeSegs_keeps l b s)

@[simp] theorem writeData_kept {s₀ : State} (c : SqCmd) (b : Bytes) (s : State) (hs : Kept s₀ s) : Kept s₀ (writeData c b s) := hs.trans (by
  unfold writeData
  repeat' (first | (with_reducible exact Kept.refl _) | (with_reducible assumption) | (simp only [kept_mk]) | simp | (with_reducible apply writeSegs_kept) | (with_reducible apply hostWrite_kept) | (intro _) | split | (with_reducible refine And.intro ?_ ?_)))

@[simp] theorem finishWrite_kept {s₀ : State} (c : SqCmd) (b : Bytes) (result : Nat) (s : State) (hs : Kept s₀ s) : Kept s₀ (finishWrite c b result s) := hs.trans (by
  unfold finishWrite
  repeat' (first | (with_reducible exact Kept.refl _) | (with_reducible assumption) | (simp only [kept_mk]) | simp | (with_reducible apply complete_kept) | (with_reducible apply writeData_kept) | (intro _) | split | (with_reducible refine And.intro ?_ ?_)))

@[simp] theorem setPair_kept {s₀ : State} (p : Pair) (s : State) (hs : Kept s₀ s) : Kept s₀ (setPair p s) := hs.trans (by
  unfold setPair
  repeat' (first | (with_reducible exact Kept.refl _) | (with_reducible assumption) | (simp only [kept_mk]) | simp | (intro _) | split | (with_reducible refine And.intro ?_ ?_)))

@[simp] theorem driveClaim_kept {s₀ : State} (s : State) (hs : Kept s₀ s) : Kept s₀ (driveClaim s) := hs.trans (by
  unfold driveClaim
  repeat' (first | (with_reducible exact Kept.refl _) | (with_reducible assumption) | (simp only [kept_mk]) | simp | (with_reducible apply emit_kept) | (with_reducible apply setPair_kept) | (intro _) | split | (with_reducible refine And.intro ?_ ?_)))

@[simp] theorem setRole_kept {s₀ : State} (r : Nat) (s : State) (hs : Kept s₀ s) : Kept s₀ (setRole r s) := hs.trans (by
  unfold setRole
  repeat' (first | (with_reducible exact Kept.refl _) | (with_reducible assumption) | (simp only [kept_mk]) | simp | (with_reducible apply driveClaim_kept) | (with_reducible apply setPair_kept) | (with_reducible apply wr_kept) | (intro _) | split | (with_reducible refine And.intro ?_ ?_)))

@[simp] theorem leaveJoin_kept {s₀ : State} (s : State) (hs : Kept s₀ s) : Kept s₀ (leaveJoin s) := hs.trans (by
  unfold leaveJoin
  repeat' (first | (with_reducible exact Kept.refl _) | (with_reducible assumption) | (simp only [kept_mk]) | simp | (with_reducible apply setPair_kept) | (intro _) | split | (with_reducible refine And.intro ?_ ?_)))

@[simp] theorem refuseJoin_kept {s₀ : State} (code : Nat) (s : State) (hs : Kept s₀ s) : Kept s₀ (refuseJoin code s) := hs.trans (by
  unfold refuseJoin
  repeat' (first | (with_reducible exact Kept.refl _) | (with_reducible assumption) | (simp only [kept_mk]) | simp | (with_reducible apply setRole_kept) | (with_reducible apply leaveJoin_kept) | (with_reducible apply raise_kept) | (with_reducible apply wr_kept) | (intro _) | split | (with_reducible refine And.intro ?_ ?_)))

@[simp] theorem pairLost_kept {s₀ : State} (s : State) (hs : Kept s₀ s) : Kept s₀ (pairLost s) := hs.trans (by
  unfold pairLost
  repeat' (first | (with_reducible exact Kept.refl _) | (with_reducible assumption) | (simp only [kept_mk]) | simp | (with_reducible apply raise_kept) | (with_reducible apply count_kept) | (with_reducible apply setPair_kept) | (with_reducible apply refuseJoin_kept) | (with_reducible apply setRole_kept) | (intro _) | split | (with_reducible refine And.intro ?_ ?_)))

@[simp] theorem pairDiverged_kept {s₀ : State} (s : State) (hs : Kept s₀ s) : Kept s₀ (pairDiverged s) := hs.trans (by
  unfold pairDiverged
  repeat' (first | (with_reducible exact Kept.refl _) | (with_reducible assumption) | (simp only [kept_mk]) | simp | (with_reducible apply setRole_kept) | (with_reducible apply leaveJoin_kept) | (with_reducible apply raise_kept) | (intro _) | split | (with_reducible refine And.intro ?_ ?_)))

@[simp] theorem transmitPair_kept {s₀ : State} (kind : Nat) (body : Bytes) (s : State) (hs : Kept s₀ s) : Kept s₀ (transmitPair kind body s) := hs.trans (by
  unfold transmitPair
  repeat' (first | (with_reducible exact Kept.refl _) | (with_reducible assumption) | (simp only [kept_mk]) | simp | (with_reducible apply setPair_kept) | (with_reducible apply emit_kept) | (intro _) | split | (with_reducible refine And.intro ?_ ?_)))

theorem sendWaiting_keeps (n : Nat) (s : State) : Kept s (sendWaiting n s) := by
  induction n generalizing s with
  | zero => exact Kept.refl _
  | succ n ih =>
    unfold sendWaiting
    split
    · exact Kept.refl _
    · split
      · exact (transmitPair_kept _ _ _ (setPair_kept _ _ (Kept.refl _))).trans (ih _)
      · exact Kept.refl _

@[simp] theorem sendWaiting_kept {s₀ : State} (n : Nat) (s : State) (hs : Kept s₀ s) : Kept s₀ (sendWaiting n s) :=
  hs.trans (sendWaiting_keeps n s)

@[simp] theorem sendPair_kept {s₀ : State} (kind : Nat) (body : Bytes) (s : State) (hs : Kept s₀ s) : Kept s₀ (sendPair kind body s) := hs.trans (by
  unfold sendPair
  repeat' (first | (with_reducible exact Kept.refl _) | (with_reducible assumption) | (simp only [kept_mk]) | simp | (with_reducible apply pairLost_kept) | (with_reducible apply transmitPair_kept) | (with_reducible apply setPair_kept) | (intro _) | split | (with_reducible refine And.intro ?_ ?_)))

@[simp] theorem sendControl_kept {s₀ : State} (m : ControlMsg) (s : State) (hs : Kept s₀ s) : Kept s₀ (sendControl m s) := hs.trans (by
  unfold sendControl
  repeat' (first | (with_reducible exact Kept.refl _) | (with_reducible assumption) | (simp only [kept_mk]) | simp | (with_reducible apply sendPair_kept) | (intro _) | split | (with_reducible refine And.intro ?_ ?_)))

@[simp] theorem failed_state (code area : Nat) (s : State) : (failed code area s).state = s := rfl

@[simp] theorem succeeded_state (s : State) : (succeeded s).state = s := rfl

@[simp] theorem finish_kept {s₀ : State} {c : SqCmd} {d : Done} (hs : Kept s₀ d.state) : Kept s₀ (finish c d) := by
  unfold finish
  split
  · exact hs
  · exact complete_kept _ _ _ _ _ hs

theorem commitCmd_keeps {c : SqCmd} {opcode : Nat} {body data : Bytes} {f : State → Done} {s : State}
    (hf : ∀ t, Kept t (f t).state) : Kept s (commitCmd c opcode body data f s) := by
  unfold commitCmd
  split
  · (repeat' (first | (with_reducible exact Kept.refl _) | (with_reducible assumption) | (simp only [kept_mk]) | simp | (with_reducible apply sendPair_kept) | (with_reducible apply setPair_kept) | (with_reducible apply finish_kept) | (intro _) | split | (with_reducible refine And.intro ?_ ?_)))
  · simp [hf s]

@[simp] theorem commitCmd_kept (s₀ : State) {c : SqCmd} {opcode : Nat} {body data : Bytes} {f : State → Done} {s : State}
    (hf : ∀ t, Kept t (f t).state) (hs : Kept s₀ s) :
    Kept s₀ (commitCmd c opcode body data f s) := hs.trans (commitCmd_keeps hf)

@[simp] theorem withLinks_kept {s₀ : State} {c : SqCmd} {f : State → State} {s : State} (hf : ∀ t, Kept t (f t))
    (hs : Kept s₀ s) : Kept s₀ (withLinks c f s) := hs.trans (by
  unfold withLinks
  split
  · exact complete_kept _ _ _ _ _ (Kept.refl s)
  · exact complete_kept _ _ _ _ _ (Kept.refl s)
  · exact hf s)

@[simp] theorem startCmd_kept (s₀ : State) {c : SqCmd} {lowest : Nat} {f : State → State} {s : State}
    (hf : ∀ t, Kept t (f t)) (hs : Kept s₀ s) :
    Kept s₀ (startCmd c lowest f s) := hs.trans (by
  unfold startCmd
  refine atLevel_kept s (fun t => ?_) (Kept.refl s)
  split
  · exact complete_kept _ _ _ _ _ (Kept.refl t)
  · exact withLinks_kept hf (Kept.refl t))

@[simp] theorem setMb_kept {s₀ : State} (m : Mailbox) (s : State) (hs : Kept s₀ s) : Kept s₀ (setMb m s) := hs.trans (by
  unfold setMb
  repeat' (first | (with_reducible exact Kept.refl _) | (with_reducible assumption) | (simp only [kept_mk]) | simp | (intro _) | split | (with_reducible refine And.intro ?_ ?_)))

@[simp] theorem respond_kept {s₀ : State} (o : Origin) (r : Msg) (area : Nat) (s : State) (hs : Kept s₀ s) : Kept s₀ (respond o r area s) := hs.trans (by
  unfold respond
  repeat' (first | (with_reducible exact Kept.refl _) | (with_reducible assumption) | (simp only [kept_mk]) | simp | (with_reducible apply emit_kept) | (with_reducible apply setMb_kept) | (with_reducible apply finishDeletion_kept) | (with_reducible apply endCommand_kept) | (with_reducible apply hostWrite_kept) | (intro _) | split | (with_reducible refine And.intro ?_ ?_)))

@[simp] theorem respondAs_kept {s₀ : State} (before : State) (o : Origin) (r : Msg) (s : State) (hs : Kept s₀ s) : Kept s₀ (respondAs before o r s) := hs.trans (by
  unfold respondAs
  repeat' (first | (with_reducible exact Kept.refl _) | (with_reducible assumption) | (simp only [kept_mk]) | simp | (with_reducible apply emit_kept) | (with_reducible apply respond_kept) | (intro _) | split | (with_reducible refine And.intro ?_ ?_)))

@[simp] theorem unlink_kept {s₀ : State} (fid : Nat) (s : State) (hs : Kept s₀ s) : Kept s₀ (unlink fid s) := hs.trans (by
  unfold unlink
  repeat' (first | (with_reducible exact Kept.refl _) | (with_reducible assumption) | (simp only [kept_mk]) | simp | (intro _) | split | (with_reducible refine And.intro ?_ ?_)))

@[simp] theorem finishInject_kept {s₀ : State} (f : Frame) (s : State) (hs : Kept s₀ s) : Kept s₀ (finishInject f s) := hs.trans (by
  unfold finishInject
  repeat' (first | (with_reducible exact Kept.refl _) | (with_reducible assumption) | (simp only [kept_mk]) | simp | (with_reducible apply completeOk_kept) | (intro _) | split | (with_reducible refine And.intro ?_ ?_)))

@[simp] theorem releaseOwed_kept {s₀ : State} (f : Frame) (s : State) (hs : Kept s₀ s) : Kept s₀ (releaseOwed f s) := hs.trans (by
  unfold releaseOwed
  repeat' (first | (with_reducible exact Kept.refl _) | (with_reducible assumption) | (simp only [kept_mk]) | simp | (with_reducible apply Kept.forEach) | (with_reducible apply releaseFrameAt_kept) | (intro _) | split | (with_reducible refine And.intro ?_ ?_)))

@[simp] theorem leave_kept {s₀ : State} (fid : Nat) (s : State) (hs : Kept s₀ s) : Kept s₀ (leave fid s) := hs.trans (by
  unfold leave
  repeat' (first | (with_reducible exact Kept.refl _) | (with_reducible assumption) | (simp only [kept_mk]) | simp | (with_reducible apply finishInject_kept) | (with_reducible apply releaseOwed_kept) | (with_reducible apply dropFrame_kept) | (with_reducible apply unlink_kept) | (with_reducible apply sampleLeave_kept) | (intro _) | split | (with_reducible refine And.intro ?_ ?_)))

@[simp] theorem mcFail_kept {s₀ : State} (f : Frame) (reason : Nat) (s : State) (hs : Kept s₀ s) : Kept s₀ (mcFail f reason s) := hs.trans (by
  unfold mcFail
  repeat' (first | (with_reducible exact Kept.refl _) | (with_reducible assumption) | (simp only [kept_mk]) | simp | (with_reducible apply Kept.when) | (with_reducible apply count_kept) | (intro _) | split | (with_reducible refine And.intro ?_ ?_)))

@[simp] theorem discardCopy_kept {s₀ : State} (fid reason : Nat) (s : State) (hs : Kept s₀ s) : Kept s₀ (discardCopy fid reason s) := hs.trans (by
  unfold discardCopy
  repeat' (first | (with_reducible exact Kept.refl _) | (with_reducible assumption) | (simp only [kept_mk]) | simp | (with_reducible apply leave_kept) | (with_reducible apply mcFail_kept) | (intro _) | split | (with_reducible refine And.intro ?_ ?_)))

@[simp] theorem abortSending_kept {s₀ : State} (p : Nat) (s : State) (hs : Kept s₀ s) : Kept s₀ (abortSending p s) := hs.trans (by
  unfold abortSending
  repeat' (first | (with_reducible exact Kept.refl _) | (with_reducible assumption) | (simp only [kept_mk]) | simp | (with_reducible apply emit_kept) | (with_reducible apply setPort_kept) | (intro _) | split | (with_reducible refine And.intro ?_ ?_)))

@[simp] theorem wasteSlot_kept {s₀ : State} (fid : Nat) (f : Frame) (s : State) (hs : Kept s₀ s) : Kept s₀ (wasteSlot fid f s) := hs.trans (by
  unfold wasteSlot
  repeat' (first | (with_reducible exact Kept.refl _) | (with_reducible assumption) | (simp only [kept_mk]) | simp | (with_reducible apply slotCategory_kept) | (intro _) | split | (with_reducible refine And.intro ?_ ?_)))

@[simp] theorem discardFrame_kept {s₀ : State} (fid : Nat) (s : State) (hs : Kept s₀ s) : Kept s₀ (discardFrame fid s) := hs.trans (by
  unfold discardFrame
  repeat' (first | (with_reducible exact Kept.refl _) | (with_reducible assumption) | (simp only [kept_mk]) | simp | (with_reducible apply leave_kept) | (with_reducible apply wasteSlot_kept) | (intro _) | split | (with_reducible refine And.intro ?_ ?_)))

@[simp] theorem starve_kept {s₀ : State} (fid : Nat) (s : State) (hs : Kept s₀ s) : Kept s₀ (starve fid s) := hs.trans (by
  unfold starve
  repeat' (first | (with_reducible exact Kept.refl _) | (with_reducible assumption) | (simp only [kept_mk]) | simp | (with_reducible apply count_kept) | (with_reducible apply discardFrame_kept) | (with_reducible apply raiseOnce_kept) | (intro _) | split | (with_reducible refine And.intro ?_ ?_)))

@[simp] theorem reclaim_kept {s₀ : State} (h : Nat) (s : State) (hs : Kept s₀ s) : Kept s₀ (reclaim h s) := hs.trans (by
  unfold reclaim
  repeat' (first | (with_reducible exact Kept.refl _) | (with_reducible assumption) | (simp only [kept_mk]) | simp | (with_reducible apply count_kept) | (with_reducible apply wr_kept) | (with_reducible apply raiseOnce_kept) | (with_reducible apply giveUp_kept) | (with_reducible apply setHeader_kept) | (intro _) | split | (with_reducible refine And.intro ?_ ?_)))

@[simp] theorem undertow_kept {s₀ : State} (s : State) (hs : Kept s₀ s) : Kept s₀ (undertow s) := hs.trans (by
  unfold undertow
  repeat' (first | (with_reducible exact Kept.refl _) | (with_reducible assumption) | (simp only [kept_mk]) | simp | (with_reducible apply Kept.forEach) | (with_reducible apply reclaim_kept) | (with_reducible apply breakList_kept) | (intro _) | split | (with_reducible refine And.intro ?_ ?_)))

@[simp] theorem setHalf_kept {s₀ : State} (n : Nat) (h : Half) (s : State) (hs : Kept s₀ s) : Kept s₀ (setHalf n h s) := hs.trans (by
  unfold setHalf
  repeat' (first | (with_reducible exact Kept.refl _) | (with_reducible assumption) | (simp only [kept_mk]) | simp | (intro _) | split | (with_reducible refine And.intro ?_ ?_)))

@[simp] theorem captureAt_kept {s₀ : State} (c cause : Nat) (s : State) (hs : Kept s₀ s) : Kept s₀ (captureAt c cause s) := hs.trans (by
  unfold captureAt
  repeat' (first | (with_reducible exact Kept.refl _) | (with_reducible assumption) | (simp only [kept_mk]) | simp | (with_reducible apply setHalf_kept) | (intro _) | split | (with_reducible refine And.intro ?_ ?_)))

@[simp] theorem capture_kept {s₀ : State} (cause : Nat) (s : State) (hs : Kept s₀ s) : Kept s₀ (capture cause s) := hs.trans (by
  unfold capture
  repeat' (first | (with_reducible exact Kept.refl _) | (with_reducible assumption) | (simp only [kept_mk]) | simp | (with_reducible apply captureAt_kept) | (intro _) | split | (with_reducible refine And.intro ?_ ?_)))

@[simp] theorem afterSlack_kept {s₀ : State} (s : State) (hs : Kept s₀ s) : Kept s₀ (afterSlack s) := hs.trans (by
  unfold afterSlack
  repeat' (first | (with_reducible exact Kept.refl _) | (with_reducible assumption) | (simp only [kept_mk]) | split | (dsimp only) | (with_reducible apply wr_kept) | (intro _) | split | (with_reducible refine And.intro ?_ ?_)))

@[simp] theorem acknowledge_kept {s₀ : State} (s : State) (hs : Kept s₀ s) : Kept s₀ (acknowledge s) := hs.trans (by
  unfold acknowledge
  repeat' (first | (with_reducible exact Kept.refl _) | (with_reducible assumption) | (simp only [kept_mk]) | simp | (with_reducible apply respondAs_kept) | (with_reducible apply wr_kept) | (intro _) | split | (with_reducible refine And.intro ?_ ?_)))

@[simp] theorem rejectTurn_kept {s₀ : State} (g : Nat) (s : State) (hs : Kept s₀ s) : Kept s₀ (rejectTurn g s) := hs.trans (by
  unfold rejectTurn
  repeat' (first | (with_reducible exact Kept.refl _) | (with_reducible assumption) | (simp only [kept_mk]) | simp | (with_reducible apply setPair_kept) | (with_reducible apply acknowledge_kept) | (with_reducible apply raise_kept) | (with_reducible apply wr_kept) | (intro _) | split | (with_reducible refine And.intro ?_ ?_)))

@[simp] theorem setTurnT_kept {s₀ : State} (c : Nat) (s : State) (hs : Kept s₀ s) : Kept s₀ (setTurnT c s) := hs.trans (by
  unfold setTurnT
  repeat' (first | (with_reducible exact Kept.refl _) | (with_reducible assumption) | (simp only [kept_mk]) | simp | (with_reducible apply setPair_kept) | (with_reducible apply wr_kept) | (intro _) | split | (with_reducible refine And.intro ?_ ?_)))

@[simp] theorem decideTurn_kept {s₀ : State} (s : State) (hs : Kept s₀ s) : Kept s₀ (decideTurn s) := hs.trans (by
  unfold decideTurn
  repeat' (first | (with_reducible exact Kept.refl _) | (with_reducible assumption) | (simp only [kept_mk]) | simp | (with_reducible apply sendControl_kept) | (with_reducible apply setTurnT_kept) | (with_reducible apply rejectTurn_kept) | (with_reducible apply Kept.when) | (with_reducible apply raise_kept) | (intro _) | split | (with_reducible refine And.intro ?_ ?_)))

@[simp] theorem tellVerdict_kept {s₀ : State} (v : Nat) (s : State) (hs : Kept s₀ s) : Kept s₀ (tellVerdict v s) := hs.trans (by
  unfold tellVerdict
  repeat' (first | (with_reducible exact Kept.refl _) | (with_reducible assumption) | (simp only [kept_mk]) | simp | (with_reducible apply setPair_kept) | (with_reducible apply decideTurn_kept) | (with_reducible apply sendControl_kept) | (intro _) | split | (with_reducible refine And.intro ?_ ?_)))

@[simp] theorem startTurn_kept {s₀ : State} (s : State) (hs : Kept s₀ s) : Kept s₀ (startTurn s) := hs.trans (by
  unfold startTurn
  repeat' (first | (with_reducible exact Kept.refl _) | (with_reducible assumption) | (simp only [kept_mk]) | simp | (with_reducible apply tellVerdict_kept) | (with_reducible apply setTurnT_kept) | (intro _) | split | (with_reducible refine And.intro ?_ ?_)))

@[simp] theorem leaveValidating_kept {s₀ : State} (s : State) (hs : Kept s₀ s) : Kept s₀ (leaveValidating s) := hs.trans (by
  unfold leaveValidating
  repeat' (first | (with_reducible exact Kept.refl _) | (with_reducible assumption) | (simp only [kept_mk]) | simp | (with_reducible apply startTurn_kept) | (intro _) | split | (with_reducible refine And.intro ?_ ?_)))

@[simp] theorem halfFreed_kept {s₀ : State} (s : State) (hs : Kept s₀ s) : Kept s₀ (halfFreed s) := hs.trans (by
  unfold halfFreed
  repeat' (first | (with_reducible exact Kept.refl _) | (with_reducible assumption) | (simp only [kept_mk]) | simp | (with_reducible apply leaveValidating_kept) | (with_reducible apply capture_kept) | (with_reducible apply afterSlack_kept) | (intro _) | split | (with_reducible refine And.intro ?_ ?_)))

@[simp] theorem snapshotDone_kept {s₀ : State} (s : State) (hs : Kept s₀ s) : Kept s₀ (snapshotDone s) := hs.trans (by
  unfold snapshotDone
  repeat' (first | (with_reducible exact Kept.refl _) | (with_reducible assumption) | (simp only [kept_mk]) | simp | (with_reducible apply halfFreed_kept) | (with_reducible apply wr_kept) | (with_reducible apply setHalf_kept) | (intro _) | split | (with_reducible refine And.intro ?_ ?_)))

@[simp] theorem freeRetired_kept {s₀ : State} (s : State) (hs : Kept s₀ s) : Kept s₀ (freeRetired s) := hs.trans (by
  unfold freeRetired
  repeat' (first | (with_reducible exact Kept.refl _) | (with_reducible assumption) | (simp only [kept_mk]) | simp | (intro _) | split | (with_reducible refine And.intro ?_ ?_)))

@[simp] theorem endSlack_kept {s₀ : State} (s : State) (hs : Kept s₀ s) : Kept s₀ (endSlack s) := hs.trans (by
  unfold endSlack
  repeat' (first | (with_reducible exact Kept.refl _) | (with_reducible assumption) | (simp only [kept_mk]) | simp | (with_reducible apply freeRetired_kept) | (with_reducible apply wr_kept) | (with_reducible apply afterSlack_kept) | (with_reducible apply capture_kept) | (intro _) | split | (with_reducible refine And.intro ?_ ?_)))

@[simp] theorem discardOld_kept {s₀ : State} (s : State) (hs : Kept s₀ s) : Kept s₀ (discardOld s) := hs.trans (by
  unfold discardOld
  repeat' (first | (with_reducible exact Kept.refl _) | (with_reducible assumption) | (simp only [kept_mk]) | simp | (with_reducible apply Kept.forEach) | (with_reducible apply abortSending_kept) | (with_reducible apply discardCopy_kept) | (with_reducible apply wr_kept) | (with_reducible apply raise_kept) | (intro _) | split | (with_reducible refine And.intro ?_ ?_)))

theorem tabRising_reseed (a : Nat) (t : Tab Nat) (h : tabRising t = true) : tabRising (reseed a t) = true := by
  unfold reseed
  extract_lets shadow kept
  have hk : tabRising kept = true := tabRising_filter t _ h
  generalize kept.filter _ = l
  clear_value kept
  induction l generalizing kept with
  | nil => exact hk
  | cons e l ih => exact ih _ (tabRising_insert _ _ _ hk)

@[simp] theorem reseedingDone_kept {s₀ : State} (s : State) (hs : Kept s₀ s) : Kept s₀ (reseedingDone s) := hs.trans (by
  unfold reseedingDone
  refine wr_kept _ _ _ (wr_kept _ _ _ ?_)
  exact ⟨rfl, rfl, fun _ => Nat.le_refl _, Nat.le_refl _, List.prefix_refl _, tabRising_reseed _ _, id⟩)

@[simp] theorem askPartner_kept {s₀ : State} (step : Bool) (s : State) (hs : Kept s₀ s) : Kept s₀ (askPartner step s) := hs.trans (by
  unfold askPartner
  repeat' (first | (with_reducible exact Kept.refl _) | (with_reducible assumption) | (simp only [kept_mk]) | simp | (with_reducible apply setPair_kept) | (with_reducible apply Kept.when) | (with_reducible apply sendControl_kept) | (intro _) | split | (with_reducible refine And.intro ?_ ?_)))

@[simp] theorem beginTurn_kept {s₀ : State} (r : Option Req) (s : State) (hs : Kept s₀ s) : Kept s₀ (beginTurn r s) := hs.trans (by
  unfold beginTurn
  repeat' (first | (with_reducible exact Kept.refl _) | (with_reducible assumption) | (simp only [kept_mk]) | simp | (with_reducible apply askPartner_kept) | (with_reducible apply wr_kept) | (intro _) | split | (with_reducible refine And.intro ?_ ?_)))

@[simp] theorem beginStep_kept {s₀ : State} (r : Option Req) (s : State) (hs : Kept s₀ s) : Kept s₀ (beginStep r s) := hs.trans (by
  unfold beginStep
  repeat' (first | (with_reducible exact Kept.refl _) | (with_reducible assumption) | (simp only [kept_mk]) | simp | (with_reducible apply askPartner_kept) | (with_reducible apply wr_kept) | (with_reducible apply leaveValidating_kept) | (intro _) | split | (with_reducible refine And.intro ?_ ?_)))

@[simp] theorem setLink_kept {s₀ : State} (p st : Nat) (s : State) (hs : Kept s₀ s) : Kept s₀ (setLink p st s) := hs.trans (by
  unfold setLink
  repeat' (first | (with_reducible exact Kept.refl _) | (with_reducible assumption) | (simp only [kept_mk]) | simp | (with_reducible apply wr_kept) | (intro _) | split | (with_reducible refine And.intro ?_ ?_)))

@[simp] theorem driveLane_kept {s₀ : State} (training : Bool) (lane : Nat) (s : State) (hs : Kept s₀ s) : Kept s₀ (driveLane training lane s) := hs.trans (by
  unfold driveLane
  repeat' (first | (with_reducible exact Kept.refl _) | (with_reducible assumption) | (simp only [kept_mk]) | simp | (with_reducible apply emit_kept) | (intro _) | split | (with_reducible refine And.intro ?_ ?_)))

@[simp] theorem driveLanes_kept {s₀ : State} (training : Bool) (p : Nat) (s : State) (hs : Kept s₀ s) : Kept s₀ (driveLanes training p s) := hs.trans (by
  unfold driveLanes
  repeat' (first | (with_reducible exact Kept.refl _) | (with_reducible assumption) | (simp only [kept_mk]) | simp | (with_reducible apply Kept.forEach) | (with_reducible apply driveLane_kept) | (intro _) | split | (with_reducible refine And.intro ?_ ?_)))

@[simp] theorem setLocalFault_kept {s₀ : State} (p : Nat) (on : Bool) (s : State) (hs : Kept s₀ s) : Kept s₀ (setLocalFault p on s) := hs.trans (by
  unfold setLocalFault
  repeat' (first | (with_reducible exact Kept.refl _) | (with_reducible assumption) | (simp only [kept_mk]) | simp | (with_reducible apply emit_kept) | (with_reducible apply setPort_kept) | (intro _) | split | (with_reducible refine And.intro ?_ ?_)))

@[simp] theorem startAttempt_kept {s₀ : State} (p : Nat) (s : State) (hs : Kept s₀ s) : Kept s₀ (startAttempt p s) := hs.trans (by
  unfold startAttempt
  repeat' (first | (with_reducible exact Kept.refl _) | (with_reducible assumption) | (simp only [kept_mk]) | simp | (with_reducible apply setPort_kept) | (with_reducible apply wr_kept) | (with_reducible apply emit_kept) | (with_reducible apply setLink_kept) | (with_reducible apply driveLanes_kept) | (intro _) | split | (with_reducible refine And.intro ?_ ?_)))

@[simp] theorem failAttempt_kept {s₀ : State} (p : Nat) (s : State) (hs : Kept s₀ s) : Kept s₀ (failAttempt p s) := hs.trans (by
  unfold failAttempt
  repeat' (first | (with_reducible exact Kept.refl _) | (with_reducible assumption) | (simp only [kept_mk]) | simp | (with_reducible apply setLink_kept) | (with_reducible apply count_kept) | (with_reducible apply setPort_kept) | (with_reducible apply Kept.when) | (with_reducible apply raise_kept) | (intro _) | split | (with_reducible refine And.intro ?_ ?_)))

@[simp] theorem abortTransmission_kept {s₀ : State} (p : Nat) (s : State) (hs : Kept s₀ s) : Kept s₀ (abortTransmission p s) := hs.trans (by
  unfold abortTransmission
  repeat' (first | (with_reducible exact Kept.refl _) | (with_reducible assumption) | (simp only [kept_mk]) | simp | (with_reducible apply discardCopy_kept) | (with_reducible apply count_kept) | (with_reducible apply abortSending_kept) | (intro _) | split | (with_reducible refine And.intro ?_ ?_)))

@[simp] theorem portDown_kept {s₀ : State} (p : Nat) (s : State) (hs : Kept s₀ s) : Kept s₀ (portDown p s) := hs.trans (by
  unfold portDown
  repeat' (first | (with_reducible exact Kept.refl _) | (with_reducible assumption) | (simp only [kept_mk]) | simp | (with_reducible apply setPort_kept) | (with_reducible apply abortTransmission_kept) | (with_reducible apply raise_kept) | (with_reducible apply count_kept) | (with_reducible apply setLink_kept) | (intro _) | split | (with_reducible refine And.intro ?_ ?_)))

@[simp] theorem disablePort_kept {s₀ : State} (p : Nat) (s : State) (hs : Kept s₀ s) : Kept s₀ (disablePort p s) := hs.trans (by
  unfold disablePort
  repeat' (first | (with_reducible exact Kept.refl _) | (with_reducible assumption) | (simp only [kept_mk]) | simp | (with_reducible apply setLocalFault_kept) | (with_reducible apply setLink_kept) | (with_reducible apply setPort_kept) | (with_reducible apply abortTransmission_kept) | (with_reducible apply raise_kept) | (with_reducible apply count_kept) | (intro _) | split | (with_reducible refine And.intro ?_ ?_)))

@[simp] theorem writePortEnable_kept {s₀ : State} (p v : Nat) (s : State) (hs : Kept s₀ s) : Kept s₀ (writePortEnable p v s) := hs.trans (by
  unfold writePortEnable
  repeat' (first | (with_reducible exact Kept.refl _) | (with_reducible assumption) | (simp only [kept_mk]) | simp | (with_reducible apply wr_kept) | (with_reducible apply disablePort_kept) | (with_reducible apply startAttempt_kept) | (intro _) | split | (with_reducible refine And.intro ?_ ?_)))

@[simp] theorem writeOctetEnable_kept {s₀ : State} (o v : Nat) (s : State) (hs : Kept s₀ s) : Kept s₀ (writeOctetEnable o v s) := hs.trans (by
  unfold writeOctetEnable
  repeat' (first | (with_reducible exact Kept.refl _) | (with_reducible assumption) | (simp only [kept_mk]) | simp | (with_reducible apply wr_kept) | (with_reducible apply Kept.forEach) | (with_reducible apply disablePort_kept) | (with_reducible apply startAttempt_kept) | (intro _) | split | (with_reducible refine And.intro ?_ ?_)))

@[simp] theorem writeLaneTxEq_kept {s₀ : State} (lane v : Nat) (s : State) (hs : Kept s₀ s) : Kept s₀ (writeLaneTxEq lane v s) := hs.trans (by
  unfold writeLaneTxEq
  repeat' (first | (with_reducible exact Kept.refl _) | (with_reducible assumption) | (simp only [kept_mk]) | simp | (with_reducible apply wrRow_kept) | (with_reducible apply driveLane_kept) | (intro _) | split | (with_reducible refine And.intro ?_ ?_)))

@[simp] theorem negotiatedPort_kept {s₀ : State} (p : Nat) (sTech : Bool) (fecPage : Nat) (eee : Bool) (s : State) (hs : Kept s₀ s) : Kept s₀ (negotiatedPort p sTech fecPage eee s) := hs.trans (by
  unfold negotiatedPort
  repeat' (first | (with_reducible exact Kept.refl _) | (with_reducible assumption) | (simp only [kept_mk]) | simp | (with_reducible apply setPort_kept) | (with_reducible apply driveLanes_kept) | (with_reducible apply setLink_kept) | (with_reducible apply wr_kept) | (intro _) | split | (with_reducible refine And.intro ?_ ?_)))

@[simp] theorem synceFollow_kept {s₀ : State} (s : State) (hs : Kept s₀ s) : Kept s₀ (synceFollow s) := hs.trans (by
  unfold synceFollow
  repeat' (first | (with_reducible exact Kept.refl _) | (with_reducible assumption) | (simp only [kept_mk]) | simp | (with_reducible apply wr_kept) | (intro _) | split | (with_reducible refine And.intro ?_ ?_)))

@[simp] theorem linkFault_kept {s₀ : State} (p : Nat) (late : Bool) (s : State) (hs : Kept s₀ s) : Kept s₀ (linkFault p late s) := hs.trans (by
  unfold linkFault
  repeat' (first | (with_reducible exact Kept.refl _) | (with_reducible assumption) | (simp only [kept_mk]) | simp | (with_reducible apply setLink_kept) | (with_reducible apply portDown_kept) | (with_reducible apply failAttempt_kept) | (intro _) | split | (with_reducible refine And.intro ?_ ?_)))

@[simp] theorem stepped_kept {s₀ : State} (detail : Nat) (s : State) (hs : Kept s₀ s) : Kept s₀ (stepped detail s) := hs.trans (by
  unfold stepped
  repeat' (first | (with_reducible exact Kept.refl _) | (with_reducible assumption) | (simp only [kept_mk]) | simp | (with_reducible apply raise_kept) | (with_reducible apply count_kept) | (intro _) | split | (with_reducible refine And.intro ?_ ?_)))

@[simp] theorem setLoad_kept {s₀ : State} (v : Nat) (s : State) (hs : Kept s₀ s) : Kept s₀ (setLoad v s) := hs.trans (by
  unfold setLoad
  repeat' (first | (with_reducible exact Kept.refl _) | (with_reducible assumption) | (simp only [kept_mk]) | simp | (with_reducible apply wr_kept) | (intro _) | split | (with_reducible refine And.intro ?_ ?_)))

@[simp] theorem applySet_kept {s₀ : State} (ns : Nat) (s : State) (hs : Kept s₀ s) : Kept s₀ (applySet ns s) := hs.trans (by
  unfold applySet
  repeat' (first | (with_reducible exact Kept.refl _) | (with_reducible assumption) | (simp only [kept_mk]) | simp | (with_reducible apply stepped_kept) | (with_reducible apply setLoad_kept) | (intro _) | split | (with_reducible refine And.intro ?_ ?_)))

@[simp] theorem applyStep_kept {s₀ : State} (ns : Int) (s : State) (hs : Kept s₀ s) : Kept s₀ (applyStep ns s) := hs.trans (by
  unfold applyStep
  repeat' (first | (with_reducible exact Kept.refl _) | (with_reducible assumption) | (simp only [kept_mk]) | simp | (with_reducible apply stepped_kept) | (intro _) | split | (with_reducible refine And.intro ?_ ?_)))

@[simp] theorem timeTick_kept {s₀ : State} (s : State) (hs : Kept s₀ s) : Kept s₀ (timeTick s) := hs.trans (by
  unfold timeTick
  repeat' (first | (with_reducible exact Kept.refl _) | (with_reducible assumption) | (simp only [kept_mk]) | simp | (with_reducible apply applyStep_kept) | (with_reducible apply applySet_kept) | (intro _) | split | (with_reducible refine And.intro ?_ ?_)))

@[simp] theorem calTick_kept {s₀ : State} (s : State) (hs : Kept s₀ s) : Kept s₀ (calTick s) := hs.trans (by
  unfold calTick
  repeat' (first | (with_reducible exact Kept.refl _) | (with_reducible assumption) | (simp only [kept_mk]) | simp | (intro _) | split | (with_reducible refine And.intro ?_ ?_)))

@[simp] theorem writeTimeSet_kept {s₀ : State} (v : Nat) (s : State) (hs : Kept s₀ s) : Kept s₀ (writeTimeSet v s) := hs.trans (by
  unfold writeTimeSet
  repeat' (first | (with_reducible exact Kept.refl _) | (with_reducible assumption) | (simp only [kept_mk]) | simp | (with_reducible apply wr_kept) | (intro _) | split | (with_reducible refine And.intro ?_ ?_)))

@[simp] theorem writeTimeStep_kept {s₀ : State} (v : Nat) (s : State) (hs : Kept s₀ s) : Kept s₀ (writeTimeStep v s) := hs.trans (by
  unfold writeTimeStep
  repeat' (first | (with_reducible exact Kept.refl _) | (with_reducible assumption) | (simp only [kept_mk]) | simp | (with_reducible apply wr_kept) | (intro _) | split | (with_reducible refine And.intro ?_ ?_)))

@[simp] theorem writeTimeSlew_kept {s₀ : State} (v : Nat) (s : State) (hs : Kept s₀ s) : Kept s₀ (writeTimeSlew v s) := hs.trans (by
  unfold writeTimeSlew
  repeat' (first | (with_reducible exact Kept.refl _) | (with_reducible assumption) | (simp only [kept_mk]) | simp | (with_reducible apply wr_kept) | (intro _) | split | (with_reducible refine And.intro ?_ ?_)))

@[simp] theorem writeTimeLatch_kept {s₀ : State} (v : Nat) (s : State) (hs : Kept s₀ s) : Kept s₀ (writeTimeLatch v s) := hs.trans (by
  unfold writeTimeLatch
  repeat' (first | (with_reducible exact Kept.refl _) | (with_reducible assumption) | (simp only [kept_mk]) | simp | (with_reducible apply wr_kept) | (intro _) | split | (with_reducible refine And.intro ?_ ?_)))

@[simp] theorem writePpsOutEnable_kept {s₀ : State} (v : Nat) (s : State) (hs : Kept s₀ s) : Kept s₀ (writePpsOutEnable v s) := hs.trans (by
  unfold writePpsOutEnable
  repeat' (first | (with_reducible exact Kept.refl _) | (with_reducible assumption) | (simp only [kept_mk]) | simp | (with_reducible apply wr_kept) | (intro _) | split | (with_reducible refine And.intro ?_ ?_)))

@[simp] theorem ppsLoad_kept {s₀ : State} (s : State) (hs : Kept s₀ s) : Kept s₀ (ppsLoad s) := hs.trans (by
  unfold ppsLoad
  repeat' (first | (with_reducible exact Kept.refl _) | (with_reducible assumption) | (simp only [kept_mk]) | simp | (with_reducible apply wr_kept) | (with_reducible apply stepped_kept) | (with_reducible apply setLoad_kept) | (intro _) | split | (with_reducible refine And.intro ?_ ?_)))

@[simp] theorem ppsAccept_kept {s₀ : State} (s : State) (hs : Kept s₀ s) : Kept s₀ (ppsAccept s) := hs.trans (by
  unfold ppsAccept
  repeat' (first | (with_reducible exact Kept.refl _) | (with_reducible assumption) | (simp only [kept_mk]) | split | (dsimp only) | (with_reducible apply wr_kept) | (with_reducible apply ppsLoad_kept) | (with_reducible apply raise_kept) | (with_reducible apply count_kept) | (intro _) | split | (with_reducible refine And.intro ?_ ?_)))

@[simp] theorem synceEval_kept {s₀ : State} (s : State) (hs : Kept s₀ s) : Kept s₀ (synceEval s) := hs.trans (by
  unfold synceEval
  repeat' (first | (with_reducible exact Kept.refl _) | (with_reducible assumption) | (simp only [kept_mk]) | simp | (with_reducible apply raise_kept) | (with_reducible apply count_kept) | (with_reducible apply wr_kept) | (intro _) | split | (with_reducible refine And.intro ?_ ?_)))

@[simp] theorem calSecond_kept {s₀ : State} (sec : Nat) (s : State) (hs : Kept s₀ s) : Kept s₀ (calSecond sec s) := hs.trans (by
  unfold calSecond
  repeat' (first | (with_reducible exact Kept.refl _) | (with_reducible assumption) | (simp only [kept_mk]) | simp | (intro _) | split | (with_reducible refine And.intro ?_ ?_)))

@[simp] theorem writeCalSet_kept {s₀ : State} (v : Nat) (s : State) (hs : Kept s₀ s) : Kept s₀ (writeCalSet v s) := hs.trans (by
  unfold writeCalSet
  repeat' (first | (with_reducible exact Kept.refl _) | (with_reducible assumption) | (simp only [kept_mk]) | simp | (with_reducible apply calSecond_kept) | (with_reducible apply wr_kept) | (intro _) | split | (with_reducible refine And.intro ?_ ?_)))

@[simp] theorem writeCalSync_kept {s₀ : State} (v : Nat) (s : State) (hs : Kept s₀ s) : Kept s₀ (writeCalSync v s) := hs.trans (by
  unfold writeCalSync
  repeat' (first | (with_reducible exact Kept.refl _) | (with_reducible assumption) | (simp only [kept_mk]) | split | (dsimp only) | (with_reducible apply wr_kept) | (intro _) | split | (with_reducible refine And.intro ?_ ?_)))

@[simp] theorem ptpEgress_kept {s₀ : State} (f : Frame) (p : Nat) (b : Bytes) (s : State) (hs : Kept s₀ s) : Kept s₀ (ptpEgress f p b s).2 := hs.trans (by
  unfold ptpEgress
  repeat' (first | (with_reducible exact Kept.refl _) | (with_reducible assumption) | (simp only [kept_mk]) | simp | (with_reducible apply count_kept) | (intro _) | split | (with_reducible refine And.intro ?_ ?_)))

@[simp] theorem postStamp_kept {s₀ : State} (p tsId : Nat) (t : Stamp) (s : State) (hs : Kept s₀ s) : Kept s₀ (postStamp p tsId t s) := hs.trans (by
  unfold postStamp
  repeat' (first | (with_reducible exact Kept.refl _) | (with_reducible assumption) | (simp only [kept_mk]) | simp | (with_reducible apply raiseOnce_kept) | (with_reducible apply count_kept) | (with_reducible apply wrRow_kept) | (with_reducible apply raise_kept) | (intro _) | split | (with_reducible refine And.intro ?_ ?_)))

@[simp] theorem startTime_kept {s₀ : State} (s : State) (hs : Kept s₀ s) : Kept s₀ (startTime s) := hs.trans (by
  unfold startTime
  repeat' (first | (with_reducible exact Kept.refl _) | (with_reducible assumption) | (simp only [kept_mk]) | split | (dsimp only) | (with_reducible apply wr_kept) | (with_reducible apply setLoad_kept) | (intro _) | split | (with_reducible refine And.intro ?_ ?_)))

@[simp] theorem clearPatches_kept {s₀ : State} (s : State) (hs : Kept s₀ s) : Kept s₀ (clearPatches s) := hs.trans (by
  unfold clearPatches
  repeat' (first | (with_reducible exact Kept.refl _) | (with_reducible assumption) | (simp only [kept_mk]) | simp | (with_reducible apply Kept.forEach) | (with_reducible apply wrSet_kept) | (intro _) | split | (with_reducible refine And.intro ?_ ?_)))

@[simp] theorem endCsHalts_kept {s₀ : State} (s : State) (hs : Kept s₀ s) : Kept s₀ (endCsHalts s) := hs.trans (by
  unfold endCsHalts
  repeat' (first | (with_reducible exact Kept.refl _) | (with_reducible assumption) | (simp only [kept_mk]) | simp | (with_reducible apply wr_kept) | (intro _) | split | (with_reducible refine And.intro ?_ ?_)))

@[simp] theorem csLoaded_kept {s₀ : State} (b : Bytes) (s : State) (hs : Kept s₀ s) : Kept s₀ (csLoaded b s) := hs.trans (by
  unfold csLoaded
  repeat' (first | (with_reducible exact Kept.refl _) | (with_reducible assumption) | (simp only [kept_mk]) | simp | (with_reducible apply clearPatches_kept) | (with_reducible apply wr_kept) | (with_reducible apply raise_kept) | (intro _) | split | (with_reducible refine And.intro ?_ ?_)))

@[simp] theorem csFailed_kept {s₀ : State} (code : Nat) (s : State) (hs : Kept s₀ s) : Kept s₀ (csFailed code s) := hs.trans (by
  unfold csFailed
  repeat' (first | (with_reducible exact Kept.refl _) | (with_reducible assumption) | (simp only [kept_mk]) | simp | (with_reducible apply raise_kept) | (with_reducible apply wr_kept) | (intro _) | split | (with_reducible refine And.intro ?_ ?_)))

@[simp] theorem writeCsLoad_kept {s₀ : State} (v : Nat) (s : State) (hs : Kept s₀ s) : Kept s₀ (writeCsLoad v s) := hs.trans (by
  unfold writeCsLoad
  repeat' (first | (with_reducible exact Kept.refl _) | (with_reducible assumption) | (simp only [kept_mk]) | simp | (with_reducible apply wr_kept) | (intro _) | split | (with_reducible refine And.intro ?_ ?_)))

@[simp] theorem csUncorrectable_kept {s₀ : State} (n st w : Nat) (s : State) (hs : Kept s₀ s) : Kept s₀ (csUncorrectable n st w s) := hs.trans (by
  unfold csUncorrectable
  repeat' (first | (with_reducible exact Kept.refl _) | (with_reducible assumption) | (simp only [kept_mk]) | simp | (with_reducible apply raise_kept) | (with_reducible apply count_kept) | (intro _) | split | (with_reducible refine And.intro ?_ ?_)))

@[simp] theorem readStore_kept {s₀ : State} (n epoch st w : Nat) (e : Ecc) (s : State) (hs : Kept s₀ s) : Kept s₀ (readStore n epoch st w e s) := hs.trans (by
  unfold readStore
  repeat' (first | (with_reducible exact Kept.refl _) | (with_reducible assumption) | (simp only [kept_mk]) | simp | (with_reducible apply count_kept) | (with_reducible apply csUncorrectable_kept) | (intro _) | split | (with_reducible refine And.intro ?_ ?_)))

@[simp] theorem readStores_kept {s₀ : State} (n epoch st : Nat) (l : List (Nat × Ecc)) (s : State) (hs : Kept s₀ s) : Kept s₀ (readStores n epoch st l s) := hs.trans (by
  unfold readStores
  repeat' (first | (with_reducible exact Kept.refl _) | (with_reducible assumption) | (simp only [kept_mk]) | simp | (with_reducible apply Kept.forEach) | (with_reducible apply readStore_kept) | (intro _) | split | (with_reducible refine And.intro ?_ ?_)))

end Sys2Proof.Machine
end

