-- ==== Sys2Proof/Laws/KeptLookup.lean ====
section
/-! SUPPORT. What every operation keeps (`Kept`): ingress, deferred work, the lookup tables, the rule banks, ledger records and the flow services. -/

set_option linter.all false
set_option Elab.async false

namespace Sys2Proof.Machine
open Sys2Proof

@[simp] theorem stageFrame_kept {s₀ : State} (p : Nat) (b : Bytes) (s : State) (hs : Kept s₀ s) : Kept s₀ (stageFrame p b s) := hs.trans (by
  unfold stageFrame
  repeat' (first | (with_reducible exact Kept.refl _) | (with_reducible assumption) | (simp only [kept_mk]) | simp | (with_reducible apply count_kept) | (with_reducible apply newFrame_kept) | (with_reducible apply setPipe_kept) | (with_reducible apply ctrAdd_kept) | (with_reducible apply Kept.when) | (intro _) | split | (with_reducible refine And.intro ?_ ?_)))

@[simp] theorem receive_kept {s₀ : State} (p : Nat) (b : Bytes) (fcsOk : Bool) (s : State) (hs : Kept s₀ s) : Kept s₀ (receive p b fcsOk s) := hs.trans (by
  unfold receive
  repeat' (first | (with_reducible exact Kept.refl _) | (with_reducible assumption) | (simp only [kept_mk]) | simp | (with_reducible apply count_kept) | (with_reducible apply stageFrame_kept) | (intro _) | split | (with_reducible refine And.intro ?_ ?_)))

@[simp] theorem transmit_kept {s₀ : State} (p : Nat) (b : Bytes) (s : State) (hs : Kept s₀ s) : Kept s₀ (transmit p b s) := hs.trans (by
  unfold transmit
  repeat' (first | (with_reducible exact Kept.refl _) | (with_reducible assumption) | (simp only [kept_mk]) | simp | (with_reducible apply emit_kept) | (intro _) | split | (with_reducible refine And.intro ?_ ?_)))

@[simp] theorem loopFar_kept {s₀ : State} (p : Nat) (b : Bytes) (s : State) (hs : Kept s₀ s) : Kept s₀ (loopFar p b s) := hs.trans (by
  unfold loopFar
  repeat' (first | (with_reducible exact Kept.refl _) | (with_reducible assumption) | (simp only [kept_mk]) | simp | (with_reducible apply Kept.when) | (with_reducible apply transmit_kept) | (intro _) | split | (with_reducible refine And.intro ?_ ?_)))

@[simp] theorem loopNear_kept {s₀ : State} (p : Nat) (b : Bytes) (s : State) (hs : Kept s₀ s) : Kept s₀ (loopNear p b s) := hs.trans (by
  unfold loopNear
  repeat' (first | (with_reducible exact Kept.refl _) | (with_reducible assumption) | (simp only [kept_mk]) | simp | (with_reducible apply receive_kept) | (intro _) | split | (with_reducible refine And.intro ?_ ?_)))

@[simp] theorem takeHead_kept {s₀ : State} (n fid : Nat) (s : State) (hs : Kept s₀ s) : Kept s₀ (takeHead n fid s) := hs.trans (by
  unfold takeHead
  repeat' (first | (with_reducible exact Kept.refl _) | (with_reducible assumption) | (simp only [kept_mk]) | simp | (with_reducible apply setPipe_kept) | (intro _) | split | (with_reducible refine And.intro ?_ ?_)))

@[simp] theorem oweSlots_kept {s₀ : State} (n k : Nat) (s : State) (hs : Kept s₀ s) : Kept s₀ (oweSlots n k s) := hs.trans (by
  unfold oweSlots
  repeat' (first | (with_reducible exact Kept.refl _) | (with_reducible assumption) | (simp only [kept_mk]) | simp | (with_reducible apply setPipe_kept) | (intro _) | split | (with_reducible refine And.intro ?_ ?_)))

@[simp] theorem startScan_kept {s₀ : State} (fid : Nat) (s : State) (hs : Kept s₀ s) : Kept s₀ (startScan fid s) := hs.trans (by
  unfold startScan
  repeat' (first | (with_reducible exact Kept.refl _) | (with_reducible assumption) | (simp only [kept_mk]) | simp | (with_reducible apply modFrame_kept) | (with_reducible apply count_kept) | (with_reducible apply setPipe_kept) | (intro _) | split | (with_reducible refine And.intro ?_ ?_)))

@[simp] theorem acceptNew_kept {s₀ : State} (fid : Nat) (f : Frame) (s : State) (hs : Kept s₀ s) : Kept s₀ (acceptNew fid f s) := hs.trans (by
  unfold acceptNew
  repeat' (first | (with_reducible exact Kept.refl _) | (with_reducible assumption) | (simp only [kept_mk]) | simp | (with_reducible apply putFrame_kept) | (with_reducible apply count_kept) | (with_reducible apply ctrAdd_kept) | (intro _) | split | (with_reducible refine And.intro ?_ ?_)))

@[simp] theorem acceptAgain_kept {s₀ : State} (fid : Nat) (f : Frame) (s : State) (hs : Kept s₀ s) : Kept s₀ (acceptAgain fid f s) := hs.trans (by
  unfold acceptAgain
  repeat' (first | (with_reducible exact Kept.refl _) | (with_reducible assumption) | (simp only [kept_mk]) | simp | (with_reducible apply count_kept) | (with_reducible apply ctrAdd_kept) | (with_reducible apply slotCategory_kept) | (with_reducible apply putFrame_kept) | (intro _) | split | (with_reducible refine And.intro ?_ ?_)))

@[simp] theorem parseReads_kept {s₀ : State} (n epoch tnum : Nat) (r : Parse) (s : State) (hs : Kept s₀ s) : Kept s₀ (parseReads n epoch tnum r s) := hs.trans (by
  unfold parseReads
  repeat' (first | (with_reducible exact Kept.refl _) | (with_reducible assumption) | (simp only [kept_mk]) | simp | (with_reducible apply readStores_kept) | (intro _) | split | (with_reducible refine And.intro ?_ ?_)))

@[simp] theorem oweSteps_kept {s₀ : State} (n k : Nat) (s : State) (hs : Kept s₀ s) : Kept s₀ (oweSteps n k s) := hs.trans (by
  unfold oweSteps
  repeat' (first | (with_reducible exact Kept.refl _) | (with_reducible assumption) | (simp only [kept_mk]) | simp | (with_reducible apply setPipe_kept) | (intro _) | split | (with_reducible refine And.intro ?_ ?_)))

@[simp] theorem deliverResult_kept {s₀ : State} (fid : Nat) (r : SearchResult) (error : Bool) (s : State) (hs : Kept s₀ s) : Kept s₀ (deliverResult fid r error s) := hs.trans (by
  unfold deliverResult
  repeat' (first | (with_reducible exact Kept.refl _) | (with_reducible assumption) | (simp only [kept_mk]) | simp | (with_reducible apply modFrame_kept) | (intro _) | split | (with_reducible refine And.intro ?_ ?_)))

@[simp] theorem pipelineFault_kept {s₀ : State} (fid reason : Nat) (s : State) (hs : Kept s₀ s) : Kept s₀ (pipelineFault fid reason s) := hs.trans (by
  unfold pipelineFault
  repeat' (first | (with_reducible exact Kept.refl _) | (with_reducible assumption) | (simp only [kept_mk]) | simp | (with_reducible apply Kept.when) | (with_reducible apply count_kept) | (with_reducible apply putFrame_kept) | (with_reducible apply discardFrame_kept) | (intro _) | split | (with_reducible refine And.intro ?_ ?_)))

@[simp] theorem startRoutine_kept {s₀ : State} (n fid : Nat) (faulty : Bool) (s : State) (hs : Kept s₀ s) : Kept s₀ (startRoutine n fid faulty s) := hs.trans (by
  unfold startRoutine
  repeat' (first | (with_reducible exact Kept.refl _) | (with_reducible assumption) | (simp only [kept_mk]) | simp | (with_reducible apply pipelineFault_kept) | (with_reducible apply modFrame_kept) | (with_reducible apply startScan_kept) | (intro _) | split | (with_reducible refine And.intro ?_ ?_)))

@[simp] theorem acceptHead_kept {s₀ : State} (n fid : Nat) (r : Parse) (s : State) (hs : Kept s₀ s) : Kept s₀ (acceptHead n fid r s) := hs.trans (by
  unfold acceptHead
  repeat' (first | (with_reducible exact Kept.refl _) | (with_reducible assumption) | (simp only [kept_mk]) | simp | (with_reducible apply takeHead_kept) | (with_reducible apply acceptAgain_kept) | (with_reducible apply acceptNew_kept) | (with_reducible apply Kept.when) | (with_reducible apply count_kept) | (with_reducible apply modFrame_kept) | (with_reducible apply finishInject_kept) | (with_reducible apply oweSteps_kept) | (with_reducible apply parseReads_kept) | (with_reducible apply startRoutine_kept) | (with_reducible apply occur_kept) | (intro _) | split | (with_reducible refine And.intro ?_ ?_)))

@[simp] theorem configCorrupt_kept {s₀ : State} (obj : Nat) (s : State) (hs : Kept s₀ s) : Kept s₀ (configCorrupt obj s) := hs.trans (by
  unfold configCorrupt
  repeat' (first | (with_reducible exact Kept.refl _) | (with_reducible assumption) | (simp only [kept_mk]) | simp | (with_reducible apply raise_kept) | (intro _) | split | (with_reducible refine And.intro ?_ ?_)))

@[simp] theorem noteIssue_kept {s₀ : State} (fid : Nat) (f : Frame) (s : State) (hs : Kept s₀ s) : Kept s₀ (noteIssue fid f s) := hs.trans (by
  unfold noteIssue
  repeat' (first | (with_reducible exact Kept.refl _) | (with_reducible assumption) | (simp only [kept_mk]) | simp | (with_reducible apply occur_kept) | (with_reducible apply setPipe_kept) | (intro _) | split | (with_reducible refine And.intro ?_ ?_)))

@[simp] theorem microStep_kept {s₀ : State} (fid : Nat) (f : Frame) (word : Nat) (op : MicroOp) (ecc : Ecc) (config : Option Nat) (s : State) (hs : Kept s₀ s) : Kept s₀ (microStep fid f word op ecc config s) := hs.trans (by
  unfold microStep
  repeat' (first | (with_reducible apply noteIssue_kept) | (with_reducible exact Kept.refl _) | (with_reducible assumption) | (simp only [kept_mk]) | simp | (with_reducible apply pipelineFault_kept) | (with_reducible apply readStore_kept) | (with_reducible apply useCycle_kept) | (with_reducible apply configCorrupt_kept) | (with_reducible apply putFrame_kept) | (with_reducible apply Kept.when) | (with_reducible apply modFrame_kept) | (with_reducible apply sampleBoundary_kept) | (with_reducible apply occur_kept) | (intro _) | split | (with_reducible refine And.intro ?_ ?_)))

@[simp] theorem setDw_kept {s₀ : State} (d : Dw) (s : State) (hs : Kept s₀ s) : Kept s₀ (setDw d s) := hs.trans (by
  unfold setDw
  repeat' (first | (with_reducible exact Kept.refl _) | (with_reducible assumption) | (simp only [kept_mk]) | simp | (intro _) | split | (with_reducible refine And.intro ?_ ?_)))

@[simp] theorem wroteSpill_kept {s₀ : State} (n : Nat) (s : State) (hs : Kept s₀ s) : Kept s₀ (wroteSpill n s) := hs.trans (by
  unfold wroteSpill
  repeat' (first | (with_reducible exact Kept.refl _) | (with_reducible assumption) | (simp only [kept_mk]) | simp | (with_reducible apply setDw_kept) | (intro _) | split | (with_reducible refine And.intro ?_ ?_)))

@[simp] theorem readSpill_kept {s₀ : State} (n : Nat) (s : State) (hs : Kept s₀ s) : Kept s₀ (readSpill n s) := hs.trans (by
  unfold readSpill
  repeat' (first | (with_reducible exact Kept.refl _) | (with_reducible assumption) | (simp only [kept_mk]) | simp | (with_reducible apply setDw_kept) | (intro _) | split | (with_reducible refine And.intro ?_ ?_)))

@[simp] theorem spillOp_kept {s₀ : State} (o : DwOp) (s : State) (hs : Kept s₀ s) : Kept s₀ (spillOp o s) := hs.trans (by
  unfold spillOp
  repeat' (first | (with_reducible exact Kept.refl _) | (with_reducible assumption) | (simp only [kept_mk]) | simp | (with_reducible apply wroteSpill_kept) | (with_reducible apply count_kept) | (with_reducible apply setDw_kept) | (intro _) | split | (with_reducible refine And.intro ?_ ?_)))

@[simp] theorem loseOp_kept {s₀ : State} (o : DwOp) (s : State) (hs : Kept s₀ s) : Kept s₀ (loseOp o s) := hs.trans (by
  unfold loseOp
  repeat' (first | (with_reducible exact Kept.refl _) | (with_reducible assumption) | (simp only [kept_mk]) | simp | (with_reducible apply count_kept) | (with_reducible apply Kept.when) | (with_reducible apply raiseOnce_kept) | (intro _) | split | (with_reducible refine And.intro ?_ ?_)))

@[simp] theorem loseEntry_kept {s₀ : State} (o : DwOp) (s : State) (hs : Kept s₀ s) : Kept s₀ (loseEntry o s) := hs.trans (by
  unfold loseEntry
  repeat' (first | (with_reducible exact Kept.refl _) | (with_reducible assumption) | (simp only [kept_mk]) | simp | (with_reducible apply Kept.when) | (with_reducible apply wr_kept) | (with_reducible apply loseOp_kept) | (intro _) | split | (with_reducible refine And.intro ?_ ?_)))

theorem putOnDie_kept {o : DwOp} {s t : State} (e : putOnDie o s = some t) : Kept s t := by
  unfold putOnDie at e
  split at e
  · cases e
  · split at e
    · cases e
    · rename_i h u heq
      cases e
      exact setDw_kept _ _ (grantInternal_kept heq)

theorem spillNew_kept {o : DwOp} {s t : State} (e : spillNew o s = some t) : Kept s t := by
  unfold spillNew at e
  split at e
  · cases e
    exact spillOp_kept _ _ (Kept.refl s)
  · cases e

@[simp] theorem takeEntry_kept {s₀ : State} (v o : DwOp) (s : State) (hs : Kept s₀ s) : Kept s₀ (takeEntry v o s) := hs.trans (by
  unfold takeEntry
  repeat' (first | (with_reducible exact Kept.refl _) | (with_reducible assumption) | (simp only [kept_mk]) | simp | (with_reducible apply spillOp_kept) | (with_reducible apply setDw_kept) | (intro _) | split | (with_reducible refine And.intro ?_ ?_)))

theorem spillFor_kept {o : DwOp} {s t : State} (e : spillFor o s = some t) : Kept s t := by
  unfold spillFor at e
  split at e
  · split at e
    · cases e
      exact takeEntry_kept _ _ _ (Kept.refl s)
    · exact spillNew_kept e
  · exact spillNew_kept e

theorem placeOp_kept {o : DwOp} {s t : State} (e : placeOp o s = some t) : Kept s t := by
  unfold placeOp at e
  split at e
  · rename_i u heq
    cases e
    exact putOnDie_kept heq
  · exact spillFor_kept e

@[simp] theorem noRoom_kept {s₀ : State} (o : DwOp) (s : State) (hs : Kept s₀ s) : Kept s₀ (noRoom o s) := hs.trans (by
  unfold noRoom
  repeat' (first | (with_reducible exact Kept.refl _) | (with_reducible assumption) | (simp only [kept_mk]) | simp | (with_reducible apply Kept.when) | (with_reducible apply count_kept) | (with_reducible apply loseOp_kept) | (with_reducible apply raise_kept) | (with_reducible apply setDw_kept) | (intro _) | split | (with_reducible refine And.intro ?_ ?_)))

@[simp] theorem holdOp_kept {s₀ : State} (o : DwOp) (s : State) (hs : Kept s₀ s) : Kept s₀ (holdOp o s) := hs.trans (by
  unfold holdOp
  repeat' (first | (with_reducible exact Kept.refl _) | (with_reducible assumption) | (simp only [kept_mk]) | simp | (with_reducible apply setDw_kept) | (with_reducible refine Kept.trans ?_ (placeOp_kept ‹_›)) | (with_reducible apply noRoom_kept) | (intro _) | split | (with_reducible refine And.intro ?_ ?_)))

@[simp] theorem issueAt_kept {s₀ : State} (kind list notBefore deadline : Nat) (args : List Nat) (body : Bytes) (s : State) (hs : Kept s₀ s) : Kept s₀ (issueAt kind list notBefore deadline args body s) := hs.trans (by
  unfold issueAt
  repeat' (first | (with_reducible exact Kept.refl _) | (with_reducible assumption) | (simp only [kept_mk]) | simp | (with_reducible apply holdOp_kept) | (with_reducible apply count_kept) | (intro _) | split | (with_reducible refine And.intro ?_ ?_)))

@[simp] theorem issue_kept {s₀ : State} (kind list : Nat) (args : List Nat) (body : Bytes) (s : State) (hs : Kept s₀ s) : Kept s₀ (issue kind list args body s) := hs.trans (by
  unfold issue
  repeat' (first | (with_reducible exact Kept.refl _) | (with_reducible assumption) | (simp only [kept_mk]) | simp | (with_reducible apply issueAt_kept) | (intro _) | split | (with_reducible refine And.intro ?_ ?_)))

@[simp] theorem issueWay_kept {s₀ : State} (kind rec cls notBefore deadline : Nat) (s : State) (hs : Kept s₀ s) : Kept s₀ (issueWay kind rec cls notBefore deadline s) := hs.trans (by
  unfold issueWay
  repeat' (first | (with_reducible exact Kept.refl _) | (with_reducible assumption) | (simp only [kept_mk]) | simp | (with_reducible apply count_kept) | (with_reducible apply setDw_kept) | (intro _) | split | (with_reducible refine And.intro ?_ ?_)))

@[simp] theorem endWay_kept {s₀ : State} (kind rec : Nat) (s : State) (hs : Kept s₀ s) : Kept s₀ (endWay kind rec s) := hs.trans (by
  unfold endWay
  repeat' (first | (with_reducible exact Kept.refl _) | (with_reducible assumption) | (simp only [kept_mk]) | simp | (with_reducible apply setDw_kept) | (intro _) | split | (with_reducible refine And.intro ?_ ?_)))

theorem readBucket_kept {s t : State} {o : DwOp} (e : readBucket s = some (o, t)) : Kept s t := by
  unfold readBucket at e
  simp only at e
  split at e
  · cases e
    exact readSpill_kept _ _ (count_kept _ _ (setDw_kept _ _ (drawFree_kept (Kept.refl s))))
  · cases e

theorem refillOne_kept {s t : State} (e : refillOne s = some t) : Kept s t := by
  unfold refillOne at e
  split at e
  · rename_i o u heq
    split at e
    · cases e
      exact loseEntry_kept _ _ (readBucket_kept heq)
    · exact (readBucket_kept heq).trans (putOnDie_kept e)
  · cases e

theorem exchange_kept {v : DwOp} {s t : State} (e : exchange v s = some t) : Kept s t := by
  unfold exchange at e
  split at e
  · rename_i o u heq
    split at e
    · cases e
      exact loseEntry_kept _ _ (readBucket_kept heq)
    · cases e
      exact count_kept _ _ (takeEntry_kept _ _ _ (readBucket_kept heq))
  · cases e

@[simp] theorem holdRefill_kept {s₀ : State} (s : State) (hs : Kept s₀ s) : Kept s₀ (holdRefill s) := hs.trans (by
  unfold holdRefill
  repeat' (first | (with_reducible exact Kept.refl _) | (with_reducible assumption) | (simp only [kept_mk]) | simp | (with_reducible apply count_kept) | (with_reducible apply setDw_kept) | (intro _) | split | (with_reducible refine And.intro ?_ ?_)))

theorem refillStep_kept {s t : State} (e : refillStep s = some t) : Kept s t := by
  unfold refillStep at e
  split at e
  · cases e
  · split at e
    · split at e
      · exact refillOne_kept e
      · cases e
        exact holdRefill_kept _ (Kept.refl s)
    · split at e
      · split at e
        · exact exchange_kept e
        · cases e
          exact holdRefill_kept _ (Kept.refl s)
      · cases e

@[simp] theorem refill_kept {s₀ : State} (s : State) (hs : Kept s₀ s) : Kept s₀ (refill s) := hs.trans (by
  unfold refill
  split
  · rename_i t heq
    have h := refillStep_kept heq
    split
    · exact setDw_kept _ _ h
    · exact h
  · exact Kept.refl s)

@[simp] theorem retryWaiting_kept {s₀ : State} (s : State) (hs : Kept s₀ s) : Kept s₀ (retryWaiting s) := hs.trans (by
  unfold retryWaiting
  refine Kept.forEach (fun t o => ?_) (setDw_kept _ _ (Kept.refl s))
  split
  · rename_i u heq
    split at heq
    · cases heq
    · exact placeOp_kept heq
  · exact setDw_kept _ _ (Kept.refl t))

@[simp] theorem countLate_kept {s₀ : State} (o : DwOp) (s : State) (hs : Kept s₀ s) : Kept s₀ (countLate o s) := hs.trans (by
  unfold countLate
  repeat' (first | (with_reducible exact Kept.refl _) | (with_reducible assumption) | (simp only [kept_mk]) | simp | (with_reducible apply ctrMax_kept) | (with_reducible apply count_kept) | (with_reducible apply raiseOnce_kept) | (with_reducible apply wr_kept) | (intro _) | split | (with_reducible refine And.intro ?_ ?_)))

@[simp] theorem countDispatch_kept {s₀ : State} (o : DwOp) (s : State) (hs : Kept s₀ s) : Kept s₀ (countDispatch o s) := hs.trans (by
  unfold countDispatch
  repeat' (first | (with_reducible exact Kept.refl _) | (with_reducible assumption) | (simp only [kept_mk]) | simp | (with_reducible apply useCycle_kept) | (with_reducible apply countLate_kept) | (with_reducible apply count_kept) | (with_reducible apply occurGlobal_kept) | (intro _) | split | (with_reducible refine And.intro ?_ ?_)))

@[simp] theorem dispatched_kept {s₀ : State} (o : DwOp) (s : State) (hs : Kept s₀ s) : Kept s₀ (dispatched o s) := hs.trans (by
  unfold dispatched
  repeat' (first | (with_reducible exact Kept.refl _) | (with_reducible assumption) | (simp only [kept_mk]) | simp | (with_reducible apply countDispatch_kept) | (with_reducible apply setDw_kept) | (with_reducible apply releaseBuffer_kept) | (with_reducible apply refill_kept) | (with_reducible apply retryWaiting_kept) | (intro _) | split | (with_reducible refine And.intro ?_ ?_)))

@[simp] theorem stepCursor_kept {s₀ : State} (c : Nat) (o : DwOp) (s : State) (hs : Kept s₀ s) : Kept s₀ (stepCursor c o s) := hs.trans (by
  unfold stepCursor
  repeat' (first | (with_reducible exact Kept.refl _) | (with_reducible assumption) | (simp only [kept_mk]) | simp | (with_reducible apply countDispatch_kept) | (with_reducible apply count_kept) | (with_reducible apply setDw_kept) | (intro _) | split | (with_reducible refine And.intro ?_ ?_)))

@[simp] theorem farPass_kept {s₀ : State} (bad : List Nat) (s : State) (hs : Kept s₀ s) : Kept s₀ (farPass bad s) := hs.trans (by
  unfold farPass
  repeat' (first | (with_reducible exact Kept.refl _) | (with_reducible assumption) | (simp only [kept_mk]) | simp | (with_reducible apply setDw_kept) | (with_reducible apply Kept.forEach) | (with_reducible apply loseEntry_kept) | (with_reducible apply readSpill_kept) | (with_reducible apply wroteSpill_kept) | (with_reducible apply ctrAdd_kept) | (intro _) | split | (with_reducible refine And.intro ?_ ?_)))

@[simp] theorem writeSpillGrain_kept {s₀ : State} (v : Nat) (s : State) (hs : Kept s₀ s) : Kept s₀ (writeSpillGrain v s) := hs.trans (by
  unfold writeSpillGrain
  repeat' (first | (with_reducible exact Kept.refl _) | (with_reducible assumption) | (simp only [kept_mk]) | simp | (with_reducible apply wr_kept) | (with_reducible apply setDw_kept) | (intro _) | split | (with_reducible refine And.intro ?_ ?_)))

@[simp] theorem dwReturn_kept {s₀ : State} (s : State) (hs : Kept s₀ s) : Kept s₀ (dwReturn s) := hs.trans (by
  unfold dwReturn
  repeat' (first | (with_reducible exact Kept.refl _) | (with_reducible assumption) | (simp only [kept_mk]) | simp | (with_reducible apply setDw_kept) | (intro _) | split | (with_reducible refine And.intro ?_ ?_)))

@[simp] theorem setLt_kept {s₀ : State} (l : Lt) (s : State) (hs : Kept s₀ s) : Kept s₀ (setLt l s) := hs.trans (by
  unfold setLt
  repeat' (first | (with_reducible exact Kept.refl _) | (with_reducible assumption) | (simp only [kept_mk]) | simp | (intro _) | split | (with_reducible refine And.intro ?_ ?_)))

@[simp] theorem unlockEntry_kept {s₀ : State} (t k : Nat) (s : State) (hs : Kept s₀ s) : Kept s₀ (unlockEntry t k s) := hs.trans (by
  unfold unlockEntry
  repeat' (first | (with_reducible exact Kept.refl _) | (with_reducible assumption) | (simp only [kept_mk]) | simp | (with_reducible apply setLt_kept) | (intro _) | split | (with_reducible refine And.intro ?_ ?_)))

@[simp] theorem putEm_kept {s₀ : State} (p : Nat) (e : EmEntry) (s : State) (hs : Kept s₀ s) : Kept s₀ (putEm p e s) := hs.trans (by
  unfold putEm
  repeat' (first | (with_reducible exact Kept.refl _) | (with_reducible assumption) | (simp only [kept_mk]) | simp | (with_reducible apply setLt_kept) | (intro _) | split | (with_reducible refine And.intro ?_ ?_)))

@[simp] theorem putPx_kept {s₀ : State} (p : Nat) (e : PxEntry) (s : State) (hs : Kept s₀ s) : Kept s₀ (putPx p e s) := hs.trans (by
  unfold putPx
  repeat' (first | (with_reducible exact Kept.refl _) | (with_reducible assumption) | (simp only [kept_mk]) | simp | (with_reducible apply setLt_kept) | (intro _) | split | (with_reducible refine And.intro ?_ ?_)))

theorem insertEm_kept {x : EmEntry} {s t : State} (e : insertEm x s = some t) : Kept s t := by
  unfold insertEm at e
  split at e
  · cases e; (repeat' (first | (with_reducible exact Kept.refl _) | (with_reducible assumption) | (simp only [kept_mk]) | simp | (with_reducible apply ctrAdd_kept) | (with_reducible apply setLt_kept) | (with_reducible apply putEm_kept) | (intro _) | split | (with_reducible refine And.intro ?_ ?_)))
  · rw [Option.map_eq_some_iff] at e
    obtain ⟨p, -, rfl⟩ := e
    (repeat' (first | (with_reducible exact Kept.refl _) | (with_reducible assumption) | (simp only [kept_mk]) | simp | (with_reducible apply ctrAdd_kept) | (with_reducible apply setLt_kept) | (with_reducible apply putEm_kept) | (intro _) | split | (with_reducible refine And.intro ?_ ?_)))

@[simp] theorem rebuildGroup_kept {s₀ : State} (g : Nat) (s : State) (hs : Kept s₀ s) : Kept s₀ (rebuildGroup g s) := hs.trans (by
  unfold rebuildGroup
  repeat' (first | (with_reducible exact Kept.refl _) | (with_reducible assumption) | (simp only [kept_mk]) | simp | (with_reducible apply setLt_kept) | (intro _) | split | (with_reducible refine And.intro ?_ ?_)))

@[simp] theorem refillFilter_kept {s₀ : State} (s : State) (hs : Kept s₀ s) : Kept s₀ (refillFilter s) := hs.trans (by
  unfold refillFilter
  repeat' (first | (with_reducible exact Kept.refl _) | (with_reducible assumption) | (simp only [kept_mk]) | simp | (with_reducible apply refill_kept) | (with_reducible apply setLt_kept) | (intro _) | split | (with_reducible refine And.intro ?_ ?_)))

@[simp] theorem filterStale_kept {s₀ : State} (s : State) (hs : Kept s₀ s) : Kept s₀ (filterStale s) := hs.trans (by
  unfold filterStale
  repeat' (first | (with_reducible exact Kept.refl _) | (with_reducible assumption) | (simp only [kept_mk]) | simp | (with_reducible apply setLt_kept) | (with_reducible apply refill_kept) | (intro _) | split | (with_reducible refine And.intro ?_ ?_)))

@[simp] theorem countDeletion_kept {s₀ : State} (g : Nat) (s : State) (hs : Kept s₀ s) : Kept s₀ (countDeletion g s) := hs.trans (by
  unfold countDeletion
  repeat' (first | (with_reducible exact Kept.refl _) | (with_reducible assumption) | (simp only [kept_mk]) | simp | (with_reducible apply setLt_kept) | (with_reducible apply issue_kept) | (intro _) | split | (with_reducible refine And.intro ?_ ?_)))

@[simp] theorem ltEcc_kept {s₀ : State} (t loc : Nat) (s : State) (hs : Kept s₀ s) : Kept s₀ (ltEcc t loc s) := hs.trans (by
  unfold ltEcc
  repeat' (first | (with_reducible exact Kept.refl _) | (with_reducible assumption) | (simp only [kept_mk]) | simp | (with_reducible apply raise_kept) | (with_reducible apply wr_kept) | (intro _) | split | (with_reducible refine And.intro ?_ ?_)))

@[simp] theorem learn_kept {s₀ : State} (kind bd mac ingress entry epoch time : Nat) (s : State) (hs : Kept s₀ s) : Kept s₀ (learn kind bd mac ingress entry epoch time s) := hs.trans (by
  unfold learn
  repeat' (first | (with_reducible exact Kept.refl _) | (with_reducible assumption) | (simp only [kept_mk]) | simp | (with_reducible apply count_kept) | (with_reducible apply raiseOnce_kept) | (with_reducible apply issue_kept) | (with_reducible apply setLt_kept) | (intro _) | split | (with_reducible refine And.intro ?_ ?_)))

@[simp] theorem sourceSearch_kept {s₀ : State} (f : Frame) (bd : Nat) (e : Option EmEntry) (s : State) (hs : Kept s₀ s) : Kept s₀ (sourceSearch f bd e s) := hs.trans (by
  unfold sourceSearch
  repeat' (first | (with_reducible exact Kept.refl _) | (with_reducible assumption) | (simp only [kept_mk]) | simp | (with_reducible apply learn_kept) | (intro _) | split | (with_reducible refine And.intro ?_ ?_)))

@[simp] theorem postSystem_kept {s₀ : State} (q : Nat) (b : Bytes) (s : State) (hs : Kept s₀ s) : Kept s₀ (postSystem q b s) := hs.trans (by
  unfold postSystem
  repeat' (first | (with_reducible exact Kept.refl _) | (with_reducible assumption) | (simp only [kept_mk]) | simp | (with_reducible refine Kept.trans ?_ (grantInternal_kept ‹_›)) | (with_reducible apply postEntry_kept) | (intro _) | split | (with_reducible refine And.intro ?_ ?_)))

@[simp] theorem ageEntry_kept {s₀ : State} (p : Nat) (e : EmEntry) (s : State) (hs : Kept s₀ s) : Kept s₀ (ageEntry p e s) := hs.trans (by
  unfold ageEntry
  repeat' (first | (with_reducible exact Kept.refl _) | (with_reducible assumption) | (simp only [kept_mk]) | simp | (with_reducible apply issue_kept) | (with_reducible apply count_kept) | (with_reducible apply putEm_kept) | (intro _) | split | (with_reducible refine And.intro ?_ ?_)))

@[simp] theorem returnTo_kept {s₀ : State} (b : Nat) (s : State) (hs : Kept s₀ s) : Kept s₀ (returnTo b s) := hs.trans (by
  unfold returnTo
  repeat' (first | (with_reducible exact Kept.refl _) | (with_reducible assumption) | (simp only [kept_mk]) | simp | (with_reducible apply count_kept) | (with_reducible apply setLt_kept) | (intro _) | split | (with_reducible refine And.intro ?_ ?_)))

@[simp] theorem readGroup_kept {s₀ : State} (r : Option Nat) (bad : List (Nat × Nat)) (s : State) (hs : Kept s₀ s) :
    Kept s₀ (readGroup r bad s).2 := hs.trans (by
  unfold readGroup
  repeat' (first | (with_reducible exact Kept.refl _) | (with_reducible assumption) | (simp only [kept_mk]) | simp | (with_reducible apply Kept.when) | (with_reducible apply ltEcc_kept) | (with_reducible apply setLt_kept) | (intro _) | split | (with_reducible refine And.intro ?_ ?_)))

@[simp] theorem giveResult_kept {s₀ : State} (fid bit : Nat) (f : Frame) (r : Option Nat) (sourceOnPort error : Bool) (bad : List (Nat × Nat)) (s : State) (hs : Kept s₀ s) : Kept s₀ (giveResult fid bit f r sourceOnPort error bad s) := hs.trans (by
  unfold giveResult
  repeat' (first | (with_reducible exact Kept.refl _) | (with_reducible assumption) | (simp only [kept_mk]) | simp | (with_reducible apply readGroup_kept) | (with_reducible apply modFrame_kept) | (with_reducible apply deliverResult_kept) | (intro _) | split | (with_reducible refine And.intro ?_ ?_)))

@[simp] theorem hitEm_kept {s₀ : State} (p : Nat) (e : EmEntry) (bad : List (Nat × Nat)) (s : State) (hs : Kept s₀ s) : Kept s₀ (hitEm p e bad s) := hs.trans (by
  unfold hitEm
  repeat' (first | (with_reducible exact Kept.refl _) | (with_reducible assumption) | (simp only [kept_mk]) | simp | (with_reducible apply Kept.when) | (with_reducible apply ltEcc_kept) | (with_reducible apply putEm_kept) | (intro _) | split | (with_reducible refine And.intro ?_ ?_)))

@[simp] theorem lookupExact_kept {s₀ : State} (fid : Nat) (f : Frame) (k : Nat) (bad : List (Nat × Nat)) (s : State) (hs : Kept s₀ s) : Kept s₀ (lookupExact fid f k bad s) := hs.trans (by
  unfold lookupExact
  repeat' (first | (with_reducible exact Kept.refl _) | (with_reducible assumption) | (simp only [kept_mk]) | simp | (with_reducible apply count_kept) | (with_reducible apply giveResult_kept) | (with_reducible apply Kept.when) | (with_reducible apply hitEm_kept) | (intro _) | split | (with_reducible refine And.intro ?_ ?_)))

@[simp] theorem lookupPrefix_kept {s₀ : State} (fid : Nat) (f : Frame) (family vrf addr : Nat) (bad : List (Nat × Nat)) (s : State) (hs : Kept s₀ s) : Kept s₀ (lookupPrefix fid f family vrf addr bad s) := hs.trans (by
  unfold lookupPrefix
  repeat' (first | (with_reducible exact Kept.refl _) | (with_reducible assumption) | (simp only [kept_mk]) | simp | (with_reducible apply count_kept) | (with_reducible apply ctrAdd_kept) | (with_reducible apply oweSlots_kept) | (with_reducible apply Kept.forEach) | (with_reducible apply slotCategory_kept) | (with_reducible apply giveResult_kept) | (with_reducible apply Kept.when) | (with_reducible apply ltEcc_kept) | (with_reducible apply putPx_kept) | (intro _) | split | (with_reducible refine And.intro ?_ ?_)))

@[simp] theorem lookupMac_kept {s₀ : State} (fid : Nat) (f : Frame) (bd : Nat) (bad : List (Nat × Nat)) (s : State) (hs : Kept s₀ s) : Kept s₀ (lookupMac fid f bd bad s) := hs.trans (by
  unfold lookupMac
  repeat' (first | (with_reducible exact Kept.refl _) | (with_reducible assumption) | (simp only [kept_mk]) | simp | (with_reducible apply count_kept) | (with_reducible apply hitEm_kept) | (with_reducible apply sourceSearch_kept) | (with_reducible apply giveResult_kept) | (intro _) | split | (with_reducible refine And.intro ?_ ?_)))

@[simp] theorem tableLookup_kept {s₀ : State} (fid : Nat) (f : Frame) (k : LookupKey) (bad : List (Nat × Nat)) (s : State) (hs : Kept s₀ s) : Kept s₀ (tableLookup fid f k bad s) := hs.trans (by
  unfold tableLookup
  repeat' (first | (with_reducible exact Kept.refl _) | (with_reducible assumption) | (simp only [kept_mk]) | simp | (with_reducible apply lookupExact_kept) | (with_reducible apply lookupPrefix_kept) | (with_reducible apply lookupMac_kept) | (intro _) | split | (with_reducible refine And.intro ?_ ?_)))

theorem attempt_keeps {code : Nat} {t s : State} (h : Kept s t) : Kept s (attempt code t s).state := by
  unfold attempt
  split
  · exact Kept.refl s
  · exact h

@[simp] theorem attempt_kept (s₀ : State) {code : Nat} {t s : State} (h : Kept s t) (hs : Kept s₀ s) :
    Kept s₀ (attempt code t s).state := hs.trans (attempt_keeps h)

@[simp] theorem commitEm_kept {s₀ : State} (k : Nat) (b : Bytes) (s : State) (hs : Kept s₀ s) : Kept s₀ (commitEm k b s).state := hs.trans (by
  unfold commitEm
  repeat' (first | (with_reducible exact Kept.refl _) | (with_reducible assumption) | (simp only [kept_mk]) | simp | (with_reducible refine Kept.trans ?_ (insertEm_kept ‹_›)) | (rw [succeeded_state]) | (rw [failed_state]) | (intro _) | split | (with_reducible refine And.intro ?_ ?_)))

@[simp] theorem commitPx_kept {s₀ : State} (t k : Nat) (b : Bytes) (s : State) (hs : Kept s₀ s) : Kept s₀ (commitPx t k b s).state := hs.trans (by
  unfold commitPx
  repeat' (first | (with_reducible exact Kept.refl _) | (with_reducible assumption) | (simp only [kept_mk]) | simp | (rw [succeeded_state]) | (with_reducible apply ctrAdd_kept) | (with_reducible apply setLt_kept) | (rw [failed_state]) | (intro _) | split | (with_reducible refine And.intro ?_ ?_)))

@[simp] theorem putNh_kept {s₀ : State} (i : Nat) (e : NhEntry) (s : State) (hs : Kept s₀ s) : Kept s₀ (putNh i e s) := hs.trans (by
  unfold putNh
  repeat' (first | (with_reducible exact Kept.refl _) | (with_reducible assumption) | (simp only [kept_mk]) | simp | (with_reducible apply setLt_kept) | (intro _) | split | (with_reducible refine And.intro ?_ ?_)))

@[simp] theorem putRw_kept {s₀ : State} (i : Nat) (e : RwEntry) (s : State) (hs : Kept s₀ s) : Kept s₀ (putRw i e s) := hs.trans (by
  unfold putRw
  repeat' (first | (with_reducible exact Kept.refl _) | (with_reducible assumption) | (simp only [kept_mk]) | simp | (with_reducible apply setLt_kept) | (intro _) | split | (with_reducible refine And.intro ?_ ?_)))

@[simp] theorem commitInsert_kept {s₀ : State} (t k : Nat) (b : Bytes) (s : State) (hs : Kept s₀ s) : Kept s₀ (commitInsert t k b s).state := hs.trans (by
  unfold commitInsert
  repeat' (first | (with_reducible exact Kept.refl _) | (with_reducible assumption) | (simp only [kept_mk]) | simp | (with_reducible apply commitEm_kept) | (with_reducible apply commitPx_kept) | (with_reducible apply attempt_kept) | (with_reducible apply putNh_kept) | (with_reducible apply putRw_kept) | (intro _) | split | (with_reducible refine And.intro ?_ ?_)))

@[simp] theorem commitUpdate_kept {s₀ : State} (t k : Nat) (b : Bytes) (s : State) (hs : Kept s₀ s) : Kept s₀ (commitUpdate t k b s).state := hs.trans (by
  unfold commitUpdate
  repeat' (first | (with_reducible exact Kept.refl _) | (with_reducible assumption) | (simp only [kept_mk]) | simp | (rw [failed_state]) | (with_reducible apply attempt_kept) | (with_reducible apply putEm_kept) | (with_reducible apply putPx_kept) | (with_reducible apply putNh_kept) | (with_reducible apply putRw_kept) | (intro _) | split | (with_reducible refine And.intro ?_ ?_)))

@[simp] theorem retireSlots_kept {s₀ : State} (g : EcmpGroup) (s : State) (hs : Kept s₀ s) : Kept s₀ (retireSlots g s) := hs.trans (by
  unfold retireSlots
  repeat' (first | (with_reducible exact Kept.refl _) | (with_reducible assumption) | (simp only [kept_mk]) | simp | (with_reducible apply setLt_kept) | (intro _) | split | (with_reducible refine And.intro ?_ ?_)))

@[simp] theorem commitEcmp_kept {s₀ : State} (g n : Nat) (b : Bytes) (s : State) (hs : Kept s₀ s) : Kept s₀ (commitEcmp g n b s).state := hs.trans (by
  unfold commitEcmp
  repeat' (first | (with_reducible exact Kept.refl _) | (with_reducible assumption) | (simp only [kept_mk]) | simp | (rw [failed_state]) | (with_reducible apply retireSlots_kept) | (rw [succeeded_state]) | (with_reducible apply setLt_kept) | (intro _) | split | (with_reducible refine And.intro ?_ ?_)))

@[simp] theorem commitDelete_kept {s₀ : State} (t k : Nat) (s : State) (hs : Kept s₀ s) : Kept s₀ (commitDelete t k s).state := hs.trans (by
  unfold commitDelete
  repeat' (first | (with_reducible exact Kept.refl _) | (with_reducible assumption) | (simp only [kept_mk]) | simp | (rw [failed_state]) | (with_reducible apply setLt_kept) | (rw [succeeded_state]) | (with_reducible apply issue_kept) | (with_reducible apply countDeletion_kept) | (with_reducible apply putNh_kept) | (with_reducible apply putRw_kept) | (with_reducible apply retireSlots_kept) | (intro _) | split | (with_reducible refine And.intro ?_ ?_)))

@[simp] theorem endTbl_kept {s₀ : State} (x : TblCmd) (s : State) (hs : Kept s₀ s) : Kept s₀ (endTbl x s) := hs.trans (by
  unfold endTbl
  repeat' (first | (with_reducible exact Kept.refl _) | (with_reducible assumption) | (simp only [kept_mk]) | simp | (with_reducible apply setLt_kept) | (intro _) | split | (with_reducible refine And.intro ?_ ?_)))

@[simp] theorem lockCheck_kept {s₀ : State} (t k : Nat) (s : State) (hs : Kept s₀ s) : Kept s₀ (lockCheck t k s).state := hs.trans (by
  unfold lockCheck
  repeat' (first | (with_reducible exact Kept.refl _) | (with_reducible assumption) | (simp only [kept_mk]) | simp | (rw [failed_state]) | (rw [succeeded_state]) | (intro _) | split | (with_reducible refine And.intro ?_ ?_)))

@[simp] theorem applyTbl_kept {s₀ : State} (x : TblCmd) (b : Bytes) (s : State) (hs : Kept s₀ s) : Kept s₀ (applyTbl x b s).state := hs.trans (by
  unfold applyTbl
  repeat' (first | (with_reducible exact Kept.refl _) | (with_reducible assumption) | (simp only [kept_mk]) | simp | (with_reducible apply commitInsert_kept) | (with_reducible apply commitDelete_kept) | (with_reducible apply lockCheck_kept) | (with_reducible apply commitEcmp_kept) | (rw [succeeded_state]) | (with_reducible apply commitUpdate_kept) | (intro _) | split | (with_reducible refine And.intro ?_ ?_)))

@[simp] theorem releaseHeld_kept {s₀ : State} (t k q : Nat) (s : State) (hs : Kept s₀ s) : Kept s₀ (releaseHeld t k q s) := hs.trans (by
  unfold releaseHeld
  repeat' (first | (with_reducible exact Kept.refl _) | (with_reducible assumption) | (simp only [kept_mk]) | simp | (with_reducible apply setLt_kept) | (intro _) | split | (with_reducible refine And.intro ?_ ?_)))

@[simp] theorem holdLock_kept {s₀ : State} (t k q : Nat) (s : State) (hs : Kept s₀ s) : Kept s₀ (holdLock t k q s) := hs.trans (by
  unfold holdLock
  repeat' (first | (with_reducible exact Kept.refl _) | (with_reducible assumption) | (simp only [kept_mk]) | simp | (with_reducible apply unlockEntry_kept) | (with_reducible apply setLt_kept) | (intro _) | split | (with_reducible refine And.intro ?_ ?_)))

@[simp] theorem tblDone_kept {s₀ : State} (x : TblCmd) (b : Bytes) (s : State) (hs : Kept s₀ s) : Kept s₀ (tblDone x b s).state := hs.trans (by
  unfold tblDone
  repeat' (first | (with_reducible exact Kept.refl _) | (with_reducible assumption) | (simp only [kept_mk]) | simp | (with_reducible apply applyTbl_kept) | (with_reducible apply endTbl_kept) | (with_reducible apply holdLock_kept) | (with_reducible apply releaseHeld_kept) | (intro _) | split | (with_reducible refine And.intro ?_ ?_)))

@[simp] theorem corruptAt_kept {s₀ : State} (t p : Nat) (s : State) (hs : Kept s₀ s) : Kept s₀ (corruptAt t p s) := hs.trans (by
  unfold corruptAt
  repeat' (first | (with_reducible exact Kept.refl _) | (with_reducible assumption) | (simp only [kept_mk]) | simp | (with_reducible apply ltEcc_kept) | (with_reducible apply setLt_kept) | (intro _) | split | (with_reducible refine And.intro ?_ ?_)))

@[simp] theorem tblCommit_kept {s₀ : State} (x : TblCmd) (d : Dma) (s : State) (hs : Kept s₀ s) : Kept s₀ (tblCommit x d s) := hs.trans (by
  unfold tblCommit
  repeat' (first | (with_reducible exact Kept.refl _) | (with_reducible assumption) | (simp only [kept_mk]) | simp | (with_reducible apply complete_kept) | (with_reducible apply endTbl_kept) | (with_reducible apply commitCmd_kept) | (with_reducible apply tblDone_kept) | (intro _) | split | (with_reducible refine And.intro ?_ ?_)))

@[simp] theorem beginTbl_kept {s₀ : State} (c : SqCmd) (code : Nat) (a : TblArgs) (s : State) (hs : Kept s₀ s) : Kept s₀ (beginTbl c code a s) := hs.trans (by
  unfold beginTbl
  repeat' (first | (with_reducible exact Kept.refl _) | (with_reducible assumption) | (simp only [kept_mk]) | simp | (with_reducible apply setLt_kept) | (intro _) | split | (with_reducible refine And.intro ?_ ?_)))

@[simp] theorem tblAtOnce_kept {s₀ : State} (c : SqCmd) (code : Nat) (a : TblArgs) (s : State) (hs : Kept s₀ s) : Kept s₀ (tblAtOnce c code a s) := hs.trans (by
  unfold tblAtOnce
  repeat' (first | (with_reducible exact Kept.refl _) | (with_reducible assumption) | (simp only [kept_mk]) | simp | (with_reducible apply beginTbl_kept) | (with_reducible apply commitCmd_kept) | (with_reducible apply tblDone_kept) | (intro _) | split | (with_reducible refine And.intro ?_ ?_)))

@[simp] theorem tblBegin_kept {s₀ : State} (c : SqCmd) (code : Nat) (a : TblArgs) (s : State) (hs : Kept s₀ s) : Kept s₀ (tblBegin c code a s) := hs.trans (by
  unfold tblBegin
  repeat' (first | (with_reducible exact Kept.refl _) | (with_reducible assumption) | (simp only [kept_mk]) | simp | (with_reducible apply tblAtOnce_kept) | (with_reducible apply complete_kept) | (with_reducible apply beginTbl_kept) | (intro _) | split | (with_reducible refine And.intro ?_ ?_)))

@[simp] theorem tblStart_kept {s₀ : State} (c : SqCmd) (code : Nat) (a : TblArgs) (s : State) (hs : Kept s₀ s) : Kept s₀ (tblStart c code a s) := hs.trans (by
  unfold tblStart
  repeat' (first | (with_reducible exact Kept.refl _) | (with_reducible assumption) | (simp only [kept_mk]) | simp | (with_reducible apply count_kept) | (with_reducible apply complete_kept) | (with_reducible apply setLt_kept) | (with_reducible apply Kept.when) | (with_reducible apply tblBegin_kept) | (intro _) | split | (with_reducible refine And.intro ?_ ?_)))

@[simp] theorem markBad_kept {s₀ : State} (t k : Nat) (s : State) (hs : Kept s₀ s) : Kept s₀ (markBad t k s) := hs.trans (by
  unfold markBad
  repeat' (first | (with_reducible exact Kept.refl _) | (with_reducible assumption) | (simp only [kept_mk]) | simp | (with_reducible apply putEm_kept) | (with_reducible apply putPx_kept) | (with_reducible apply putNh_kept) | (with_reducible apply putRw_kept) | (with_reducible apply setLt_kept) | (intro _) | split | (with_reducible refine And.intro ?_ ?_)))

@[simp] theorem tblReadNow_kept {s₀ : State} (c : SqCmd) (a : TblArgs) (ecc : Ecc) (s : State) (hs : Kept s₀ s) : Kept s₀ (tblReadNow c a ecc s) := hs.trans (by
  unfold tblReadNow
  repeat' (first | (with_reducible exact Kept.refl _) | (with_reducible assumption) | (simp only [kept_mk]) | simp | (with_reducible apply count_kept) | (with_reducible apply complete_kept) | (with_reducible apply ltEcc_kept) | (with_reducible apply markBad_kept) | (with_reducible apply finishWrite_kept) | (intro _) | split | (with_reducible refine And.intro ?_ ?_)))

@[simp] theorem startTbl_kept {s₀ : State} (w : TblWait) (s : State) (hs : Kept s₀ s) : Kept s₀ (startTbl w s) := hs.trans (by
  unfold startTbl
  repeat' (first | (with_reducible exact Kept.refl _) | (with_reducible assumption) | (simp only [kept_mk]) | simp | (with_reducible apply tblReadNow_kept) | (with_reducible apply tblStart_kept) | (intro _) | split | (with_reducible refine And.intro ?_ ?_)))

@[simp] theorem arriveTbl_kept {s₀ : State} (c : SqCmd) (code : Nat) (a : TblArgs) (ecc : Ecc) (s : State) (hs : Kept s₀ s) : Kept s₀ (arriveTbl c code a ecc s) := hs.trans (by
  unfold arriveTbl
  repeat' (first | (with_reducible exact Kept.refl _) | (with_reducible assumption) | (simp only [kept_mk]) | simp | (with_reducible apply setLt_kept) | (with_reducible apply startTbl_kept) | (intro _) | split | (with_reducible refine And.intro ?_ ?_)))

@[simp] theorem startArrivals_kept {s₀ : State} (s : State) (hs : Kept s₀ s) : Kept s₀ (startArrivals s) := hs.trans (by
  unfold startArrivals
  repeat' (first | (with_reducible exact Kept.refl _) | (with_reducible assumption) | (simp only [kept_mk]) | simp | (with_reducible apply setLt_kept) | (with_reducible apply Kept.forEach) | (with_reducible apply startTbl_kept) | (intro _) | split | (with_reducible refine And.intro ?_ ?_)))

@[simp] theorem tblPartner_kept {s₀ : State} (c : SqCmd) (code : Nat) (body data : Bytes) (s : State) (hs : Kept s₀ s) : Kept s₀ (tblPartner c code body data s).state := hs.trans (by
  unfold tblPartner
  repeat' (first | (with_reducible exact Kept.refl _) | (with_reducible assumption) | (simp only [kept_mk]) | simp | (rw [failed_state]) | (with_reducible apply tblDone_kept) | (intro _) | split | (with_reducible refine And.intro ?_ ?_)))

@[simp] theorem setRb_kept {s₀ : State} (r : Rb) (s : State) (hs : Kept s₀ s) : Kept s₀ (setRb r s) := hs.trans (by
  unfold setRb
  repeat' (first | (with_reducible exact Kept.refl _) | (with_reducible assumption) | (simp only [kept_mk]) | simp | (intro _) | split | (with_reducible refine And.intro ?_ ?_)))

@[simp] theorem putRb_kept {s₀ : State} (a : Nat) (e : RbEntry) (s : State) (hs : Kept s₀ s) : Kept s₀ (putRb a e s) := hs.trans (by
  unfold putRb
  repeat' (first | (with_reducible exact Kept.refl _) | (with_reducible assumption) | (simp only [kept_mk]) | simp | (with_reducible apply setRb_kept) | (intro _) | split | (with_reducible refine And.intro ?_ ?_)))

@[simp] theorem rbParity_kept {s₀ : State} (a : Nat) (s : State) (hs : Kept s₀ s) : Kept s₀ (rbParity a s) := hs.trans (by
  unfold rbParity
  repeat' (first | (with_reducible exact Kept.refl _) | (with_reducible assumption) | (simp only [kept_mk]) | simp | (with_reducible apply putRb_kept) | (with_reducible apply wr_kept) | (with_reducible apply raise_kept) | (intro _) | split | (with_reducible refine And.intro ?_ ?_)))

@[simp] theorem badAction_kept {s₀ : State} (a : Nat) (s : State) (hs : Kept s₀ s) : Kept s₀ (badAction a s) := hs.trans (by
  unfold badAction
  repeat' (first | (with_reducible exact Kept.refl _) | (with_reducible assumption) | (simp only [kept_mk]) | simp | (with_reducible apply raise_kept) | (with_reducible apply putRb_kept) | (intro _) | split | (with_reducible refine And.intro ?_ ?_)))

@[simp] theorem groupResult_kept {s₀ : State} (fid : Nat) (segs : List (Nat × Nat × Nat)) (keys : List Nat) (row : Nat) (actions : List Nat) (g : Nat) (s : State) (hs : Kept s₀ s) : Kept s₀ (groupResult fid segs keys row actions g s) := hs.trans (by
  unfold groupResult
  repeat' (first | (with_reducible exact Kept.refl _) | (with_reducible assumption) | (simp only [kept_mk]) | simp | (with_reducible apply deliverResult_kept) | (with_reducible apply Kept.when) | (with_reducible apply count_kept) | (with_reducible apply badAction_kept) | (intro _) | split | (with_reducible refine And.intro ?_ ?_)))

@[simp] theorem ruleSearch_kept {s₀ : State} (fid : Nat) (f : Frame) (parity actions : List Nat) (s : State) (hs : Kept s₀ s) : Kept s₀ (ruleSearch fid f parity actions s) := hs.trans (by
  unfold ruleSearch
  repeat' (first | (with_reducible exact Kept.refl _) | (with_reducible assumption) | (simp only [kept_mk]) | simp | (with_reducible apply Kept.forEach) | (with_reducible apply rbParity_kept) | (with_reducible apply ctrAdd_kept) | (with_reducible apply count_kept) | (with_reducible apply groupResult_kept) | (with_reducible apply modFrame_kept) | (intro _) | split | (with_reducible refine And.intro ?_ ?_)))

@[simp] theorem settleFault_kept {s₀ : State} (b : Nat) (s : State) (hs : Kept s₀ s) : Kept s₀ (settleFault b s) := hs.trans (by
  unfold settleFault
  repeat' (first | (with_reducible exact Kept.refl _) | (with_reducible assumption) | (simp only [kept_mk]) | simp | (with_reducible apply wr_kept) | (intro _) | split | (with_reducible refine And.intro ?_ ?_)))

@[simp] theorem rewriteRule_kept {s₀ : State} (b w e : Nat) (g : Nat → RbEntry) (s : State) (hs : Kept s₀ s) : Kept s₀ (rewriteRule b w e g s) := hs.trans (by
  unfold rewriteRule
  repeat' (first | (with_reducible exact Kept.refl _) | (with_reducible assumption) | (simp only [kept_mk]) | simp | (with_reducible apply Kept.forEach) | (with_reducible apply settleFault_kept) | (with_reducible apply putRb_kept) | (intro _) | split | (with_reducible refine And.intro ?_ ?_)))

@[simp] theorem commitRule_kept {s₀ : State} (b e : Nat) (d : Bytes) (s : State) (hs : Kept s₀ s) : Kept s₀ (commitRule b e d s).state := hs.trans (by
  unfold commitRule
  repeat' (first | (with_reducible exact Kept.refl _) | (with_reducible assumption) | (simp only [kept_mk]) | simp | (rw [failed_state]) | (with_reducible apply count_kept) | (rw [succeeded_state]) | (with_reducible apply rewriteRule_kept) | (intro _) | split | (with_reducible refine And.intro ?_ ?_)))

@[simp] theorem ruleDone_kept {s₀ : State} (x : TblCmd) (d : Bytes) (s : State) (hs : Kept s₀ s) : Kept s₀ (ruleDone x d s).state := hs.trans (by
  unfold ruleDone
  repeat' (first | (with_reducible exact Kept.refl _) | (with_reducible assumption) | (simp only [kept_mk]) | simp | (with_reducible apply commitRule_kept) | (with_reducible apply setRb_kept) | (intro _) | split | (with_reducible refine And.intro ?_ ?_)))

@[simp] theorem ruleCommit_kept {s₀ : State} (x : TblCmd) (d : Dma) (s : State) (hs : Kept s₀ s) : Kept s₀ (ruleCommit x d s) := hs.trans (by
  unfold ruleCommit
  repeat' (first | (with_reducible exact Kept.refl _) | (with_reducible assumption) | (simp only [kept_mk]) | simp | (with_reducible apply setRb_kept) | (with_reducible apply complete_kept) | (with_reducible apply commitCmd_kept) | (with_reducible apply ruleDone_kept) | (intro _) | split | (with_reducible refine And.intro ?_ ?_)))

@[simp] theorem ruleRead_kept {s₀ : State} (c : SqCmd) (a : RuleArgs) (s : State) (hs : Kept s₀ s) : Kept s₀ (ruleRead c a s) := hs.trans (by
  unfold ruleRead
  repeat' (first | (with_reducible exact Kept.refl _) | (with_reducible assumption) | (simp only [kept_mk]) | simp | (with_reducible apply count_kept) | (with_reducible apply complete_kept) | (with_reducible apply finishWrite_kept) | (intro _) | split | (with_reducible refine And.intro ?_ ?_)))

@[simp] theorem ruleWrite_kept {s₀ : State} (c : SqCmd) (a : RuleArgs) (s : State) (hs : Kept s₀ s) : Kept s₀ (ruleWrite c a s) := hs.trans (by
  unfold ruleWrite
  repeat' (first | (with_reducible exact Kept.refl _) | (with_reducible assumption) | (simp only [kept_mk]) | simp | (with_reducible apply count_kept) | (with_reducible apply complete_kept) | (with_reducible apply setRb_kept) | (intro _) | split | (with_reducible refine And.intro ?_ ?_)))

@[simp] theorem clearDone_kept {s₀ : State} (a : RuleArgs) (s : State) (hs : Kept s₀ s) : Kept s₀ (clearDone a s).state := hs.trans (by
  unfold clearDone
  repeat' (first | (with_reducible exact Kept.refl _) | (with_reducible assumption) | (simp only [kept_mk]) | simp | (rw [failed_state]) | (with_reducible apply count_kept) | (rw [succeeded_state]) | (with_reducible apply rewriteRule_kept) | (intro _) | split | (with_reducible refine And.intro ?_ ?_)))

@[simp] theorem moveDone_kept {s₀ : State} (c : SqCmd) (a : RuleArgs) (s : State) (hs : Kept s₀ s) : Kept s₀ (moveDone c a s).state := hs.trans (by
  unfold moveDone
  repeat' (first | (with_reducible exact Kept.refl _) | (with_reducible assumption) | (simp only [kept_mk]) | simp | (rw [failed_state]) | (with_reducible apply count_kept) | (with_reducible apply issue_kept) | (with_reducible apply setRb_kept) | (intro _) | split | (with_reducible refine And.intro ?_ ?_)))

@[simp] theorem copyEntry_kept {s₀ : State} (src dst : Nat) (s : State) (hs : Kept s₀ s) : Kept s₀ (copyEntry src dst s) := hs.trans (by
  unfold copyEntry
  repeat' (first | (with_reducible exact Kept.refl _) | (with_reducible assumption) | (simp only [kept_mk]) | simp | (with_reducible apply Kept.when) | (with_reducible apply wr_kept) | (with_reducible apply putRb_kept) | (intro _) | split | (with_reducible refine And.intro ?_ ?_)))

@[simp] theorem copyPosition_kept {s₀ : State} (m : RbMove) (src dst : Nat) (s : State) (hs : Kept s₀ s) : Kept s₀ (copyPosition m src dst s) := hs.trans (by
  unfold copyPosition
  repeat' (first | (with_reducible exact Kept.refl _) | (with_reducible assumption) | (simp only [kept_mk]) | simp | (with_reducible apply Kept.forEach) | (with_reducible apply copyEntry_kept) | (intro _) | split | (with_reducible refine And.intro ?_ ?_)))

@[simp] theorem clearPosition_kept {s₀ : State} (m : RbMove) (p : Nat) (s : State) (hs : Kept s₀ s) : Kept s₀ (clearPosition m p s) := hs.trans (by
  unfold clearPosition
  repeat' (first | (with_reducible exact Kept.refl _) | (with_reducible assumption) | (simp only [kept_mk]) | simp | (with_reducible apply Kept.forEach) | (with_reducible apply putRb_kept) | (intro _) | split | (with_reducible refine And.intro ?_ ?_)))

@[simp] theorem moveCopy_kept {s₀ : State} (m : RbMove) (s : State) (hs : Kept s₀ s) : Kept s₀ (moveCopy m s) := hs.trans (by
  unfold moveCopy
  repeat' (first | (with_reducible exact Kept.refl _) | (with_reducible assumption) | (simp only [kept_mk]) | simp | (with_reducible apply copyPosition_kept) | (with_reducible apply count_kept) | (with_reducible apply clearPosition_kept) | (with_reducible apply completeOk_kept) | (with_reducible apply setRb_kept) | (intro _) | split | (with_reducible refine And.intro ?_ ?_)))

@[simp] theorem setPa_kept {s₀ : State} (p : Pa) (s : State) (hs : Kept s₀ s) : Kept s₀ (setPa p s) := hs.trans (by
  unfold setPa
  repeat' (first | (with_reducible exact Kept.refl _) | (with_reducible assumption) | (simp only [kept_mk]) | simp | (intro _) | split | (with_reducible refine And.intro ?_ ?_)))

@[simp] theorem readTransition_kept {s₀ : State} (x : Nat × Ecc) (s : State) (hs : Kept s₀ s) : Kept s₀ (readTransition x s) := hs.trans (by
  unfold readTransition
  repeat' (first | (with_reducible exact Kept.refl _) | (with_reducible assumption) | (simp only [kept_mk]) | simp | (with_reducible apply Kept.when) | (with_reducible apply setPa_kept) | (with_reducible apply raise_kept) | (with_reducible apply wr_kept) | (with_reducible apply count_kept) | (intro _) | split | (with_reducible refine And.intro ?_ ?_)))

@[simp] theorem scanResult_kept {s₀ : State} (f : Frame) (words : List (Nat × Ecc)) (s : State) (hs : Kept s₀ s) : Kept s₀ (scanResult f words s).2.2 := hs.trans (by
  unfold scanResult
  repeat' (first | (with_reducible exact Kept.refl _) | (with_reducible assumption) | (simp only [kept_mk]) | simp | (with_reducible apply count_kept) | (with_reducible apply ctrAdd_kept) | (with_reducible apply Kept.forEach) | (with_reducible apply readTransition_kept) | (intro _) | split | (with_reducible refine And.intro ?_ ?_)))

@[simp] theorem patFailed_kept {s₀ : State} (code : Nat) (s : State) (hs : Kept s₀ s) : Kept s₀ (patFailed code s).state := hs.trans (by
  unfold patFailed
  repeat' (first | (with_reducible exact Kept.refl _) | (with_reducible assumption) | (simp only [kept_mk]) | simp | (rw [failed_state]) | (with_reducible apply raise_kept) | (with_reducible apply wr_kept) | (intro _) | split | (with_reducible refine And.intro ?_ ?_)))

@[simp] theorem patBody_kept {s₀ : State} (h b : Bytes) (s : State) (hs : Kept s₀ s) : Kept s₀ (patBody h b s).state := hs.trans (by
  unfold patBody
  repeat' (first | (with_reducible exact Kept.refl _) | (with_reducible assumption) | (simp only [kept_mk]) | simp | (with_reducible apply setPa_kept) | (with_reducible apply patFailed_kept) | (with_reducible apply wr_kept) | (rw [succeeded_state]) | (with_reducible apply raise_kept) | (intro _) | split | (with_reducible refine And.intro ?_ ?_)))

@[simp] theorem patStart_kept {s₀ : State} (c : SqCmd) (length : Nat) (header : Dma) (s : State) (hs : Kept s₀ s) : Kept s₀ (patStart c length header s) := hs.trans (by
  unfold patStart
  repeat' (first | (with_reducible exact Kept.refl _) | (with_reducible assumption) | (simp only [kept_mk]) | simp | (with_reducible apply count_kept) | (with_reducible apply complete_kept) | (with_reducible apply finish_kept) | (with_reducible apply patFailed_kept) | (with_reducible apply wr_kept) | (with_reducible apply setPa_kept) | (intro _) | split | (with_reducible refine And.intro ?_ ?_)))

@[simp] theorem rulePartner_kept {s₀ : State} (c : SqCmd) (code : Nat) (body data : Bytes) (s : State) (hs : Kept s₀ s) : Kept s₀ (rulePartner c code body data s).state := hs.trans (by
  unfold rulePartner
  repeat' (first | (with_reducible exact Kept.refl _) | (with_reducible assumption) | (simp only [kept_mk]) | simp | (with_reducible apply commitRule_kept) | (with_reducible apply setRb_kept) | (with_reducible apply clearDone_kept) | (with_reducible apply moveDone_kept) | (with_reducible apply patFailed_kept) | (with_reducible apply patBody_kept) | (intro _) | split | (with_reducible refine And.intro ?_ ?_)))

@[simp] theorem setLed_kept {s₀ : State} (l : Led) (s : State) (hs : Kept s₀ s) : Kept s₀ (setLed l s) := hs.trans (by
  unfold setLed
  repeat' (first | (with_reducible exact Kept.refl _) | (with_reducible assumption) | (simp only [kept_mk]) | simp | (intro _) | split | (with_reducible refine And.intro ?_ ?_)))

@[simp] theorem setSlc_kept {s₀ : State} (f : Nat) (x : SliceSt) (s : State) (hs : Kept s₀ s) : Kept s₀ (setSlc f x s) := hs.trans (by
  unfold setSlc
  repeat' (first | (with_reducible exact Kept.refl _) | (with_reducible assumption) | (simp only [kept_mk]) | simp | (with_reducible apply setLed_kept) | (intro _) | split | (with_reducible refine And.intro ?_ ?_)))

@[simp] theorem putWay_kept {s₀ : State} (r : Nat) (w : Way) (s : State) (hs : Kept s₀ s) : Kept s₀ (putWay r w s) := hs.trans (by
  unfold putWay
  repeat' (first | (with_reducible exact Kept.refl _) | (with_reducible assumption) | (simp only [kept_mk]) | simp | (with_reducible apply setLed_kept) | (intro _) | split | (with_reducible refine And.intro ?_ ?_)))

@[simp] theorem useWay_kept {s₀ : State} (r : Nat) (s : State) (hs : Kept s₀ s) : Kept s₀ (useWay r s) := hs.trans (by
  unfold useWay
  repeat' (first | (with_reducible exact Kept.refl _) | (with_reducible assumption) | (simp only [kept_mk]) | simp | (with_reducible apply putWay_kept) | (intro _) | split | (with_reducible refine And.intro ?_ ?_)))

@[simp] theorem putSlot_kept {s₀ : State} (r : Nat) (x : Slot) (s : State) (hs : Kept s₀ s) : Kept s₀ (putSlot r x s) := hs.trans (by
  unfold putSlot
  repeat' (first | (with_reducible exact Kept.refl _) | (with_reducible assumption) | (simp only [kept_mk]) | simp | (with_reducible apply setLed_kept) | (intro _) | split | (with_reducible refine And.intro ?_ ?_)))

@[simp] theorem setHot_kept {s₀ : State} (r h : Nat) (s : State) (hs : Kept s₀ s) : Kept s₀ (setHot r h s) := hs.trans (by
  unfold setHot
  repeat' (first | (with_reducible exact Kept.refl _) | (with_reducible assumption) | (simp only [kept_mk]) | simp | (with_reducible apply putSlot_kept) | (with_reducible apply occurGlobal_kept) | (with_reducible apply putWay_kept) | (with_reducible apply issueWay_kept) | (intro _) | split | (with_reducible refine And.intro ?_ ?_)))

@[simp] theorem setCold_kept {s₀ : State} (r c : Nat) (s : State) (hs : Kept s₀ s) : Kept s₀ (setCold r c s) := hs.trans (by
  unfold setCold
  repeat' (first | (with_reducible exact Kept.refl _) | (with_reducible assumption) | (simp only [kept_mk]) | simp | (with_reducible apply occurGlobal_kept) | (with_reducible apply putSlot_kept) | (intro _) | split | (with_reducible refine And.intro ?_ ?_)))

@[simp] theorem addHome_kept {s₀ : State} (home d fp : Nat) (s : State) (hs : Kept s₀ s) : Kept s₀ (addHome home d fp s) := hs.trans (by
  unfold addHome
  repeat' (first | (with_reducible exact Kept.refl _) | (with_reducible assumption) | (simp only [kept_mk]) | simp | (with_reducible apply setHot_kept) | (intro _) | split | (with_reducible refine And.intro ?_ ?_)))

@[simp] theorem dropHome_kept {s₀ : State} (home d : Nat) (s : State) (hs : Kept s₀ s) : Kept s₀ (dropHome home d s) := hs.trans (by
  unfold dropHome
  repeat' (first | (with_reducible exact Kept.refl _) | (with_reducible assumption) | (simp only [kept_mk]) | simp | (with_reducible apply setHot_kept) | (intro _) | split | (with_reducible refine And.intro ?_ ?_)))

@[simp] theorem evict_kept {s₀ : State} (r : Nat) (w : Way) (s : State) (hs : Kept s₀ s) : Kept s₀ (evict r w s) := hs.trans (by
  unfold evict
  repeat' (first | (with_reducible exact Kept.refl _) | (with_reducible assumption) | (simp only [kept_mk]) | simp | (with_reducible apply endWay_kept) | (with_reducible apply setLed_kept) | (with_reducible apply count_kept) | (with_reducible apply occurGlobal_kept) | (with_reducible apply setSlc_kept) | (intro _) | split | (with_reducible refine And.intro ?_ ?_)))

theorem makeWay_kept {r : Nat} {s t : State} (e : makeWay r s = .ok t) : Kept s t := by
  unfold makeWay at e
  extract_lets at e
  split at e
  · cases e
    exact Kept.refl _
  · split at e
    · cases e
      exact Kept.refl _
    · split at e
      · cases e
      · split at e
        · cases e
        · cases e
          exact evict_kept _ _ _ (Kept.refl _)

@[simp] theorem countMiss_kept {s₀ : State} (r : Nat) (s : State) (hs : Kept s₀ s) : Kept s₀ (countMiss r s) := hs.trans (by
  unfold countMiss
  repeat' (first | (with_reducible exact Kept.refl _) | (with_reducible assumption) | (simp only [kept_mk]) | simp | (with_reducible apply count_kept) | (with_reducible apply occurGlobal_kept) | (intro _) | split | (with_reducible refine And.intro ?_ ?_)))

theorem issueReads_kept {l : List Nat} {s t : State} (e : issueReads l s = .ok t) : Kept s t := by
  induction l generalizing s with
  | nil => cases e; exact Kept.refl _
  | cons r l ih =>
    simp only [issueReads] at e
    split at e
    · exact ih e
    · split at e
      · cases e
      · split at e
        · rename_i h
          refine Kept.trans ?_ (ih e)
          (have hx := makeWay_kept h; repeat' (first | (with_reducible exact Kept.refl _) | (with_reducible assumption) | (simp only [kept_mk]) | simp | (with_reducible refine Kept.trans ?_ (makeWay_kept ‹_›)) | (with_reducible apply countMiss_kept) | (with_reducible apply setSlc_kept) | (intro _) | split | (with_reducible refine And.intro ?_ ?_)))
        · rename_i h; exact absurd e (h _)

@[simp] theorem installWay_kept {s₀ : State} (r : Nat) (s : State) (hs : Kept s₀ s) : Kept s₀ (installWay r s) := hs.trans (by
  unfold installWay
  repeat' (first | (with_reducible exact Kept.refl _) | (with_reducible assumption) | (simp only [kept_mk]) | simp | (with_reducible apply putWay_kept) | (intro _) | split | (with_reducible refine And.intro ?_ ?_)))

@[simp] theorem addPins_kept {s₀ : State} (l : List Nat) (up : Bool) (s : State) (hs : Kept s₀ s) : Kept s₀ (addPins l up s) := hs.trans (by
  unfold addPins
  repeat' (first | (with_reducible exact Kept.refl _) | (with_reducible assumption) | (simp only [kept_mk]) | simp | (with_reducible apply Kept.forEach) | (with_reducible apply setLed_kept) | (with_reducible apply putWay_kept) | (intro _) | split | (with_reducible refine And.intro ?_ ?_)))

theorem roomForPin_kept {r : Nat} {s t : State} (e : roomForPin r s = some t) : Kept s t := by
  unfold roomForPin at e
  split at e
  · cases e
    exact Kept.refl s
  · split at e
    · rename_i heq
      cases e
      exact installWay_kept _ _ (countMiss_kept _ _ (makeWay_kept heq))
    · cases e

theorem roomForPins_kept {l : List Nat} {s t : State} (e : roomForPins l s = some t) : Kept s t := by
  unfold roomForPins at e
  induction l generalizing s with
  | nil =>
    cases e
    exact Kept.refl _
  | cons r l ih =>
    rw [List.foldl_cons, Option.bind_some] at e
    cases h : roomForPin r s with
    | some u =>
      rw [h] at e
      exact (roomForPin_kept h).trans (ih e)
    | none =>
      rw [h] at e
      have hn : l.foldl (fun a r => a.bind (roomForPin r)) (none : Option State) = none := by
        clear ih e h
        induction l with
        | nil => rfl
        | cons r l ih => rw [List.foldl_cons, Option.bind_none]; exact ih
      rw [hn] at e
      cases e

theorem pinRecords_kept {l : List Nat} {s t : State} (e : pinRecords l s = some t) : Kept s t := by
  unfold pinRecords at e
  extract_lets fresh slots at e
  split at e
  · cases e
  · rename_i u heq
    have hu : Kept s u := roomForPins_kept heq
    extract_lets v at e
    split at e
    · cases e
      exact Kept.forEach (fun t r => setHot_kept _ _ _ (Kept.refl t)) (addPins_kept _ _ _ hu)
    · cases e

@[simp] theorem pinRecords_getD_kept {s₀ : State} (l : List Nat) (s : State) (hs : Kept s₀ s) :
    Kept s₀ ((pinRecords l s).getD s) := by
  cases h : pinRecords l s with
  | none => exact hs
  | some t => exact hs.trans (pinRecords_kept h)

@[simp] theorem unpinRecords_kept {s₀ : State} (l : List Nat) (s : State) (hs : Kept s₀ s) : Kept s₀ (unpinRecords l s) := hs.trans (by
  unfold unpinRecords
  repeat' (first | (with_reducible exact Kept.refl _) | (with_reducible assumption) | (simp only [kept_mk]) | simp | (with_reducible apply Kept.forEach) | (with_reducible apply addPins_kept) | (with_reducible apply setHot_kept) | (intro _) | split | (with_reducible refine And.intro ?_ ?_)))

@[simp] theorem setSvc_kept {s₀ : State} (v : Svc) (s : State) (hs : Kept s₀ s) : Kept s₀ (setSvc v s) := hs.trans (by
  unfold setSvc
  repeat' (first | (with_reducible exact Kept.refl _) | (with_reducible assumption) | (simp only [kept_mk]) | simp | (intro _) | split | (with_reducible refine And.intro ?_ ?_)))

@[simp] theorem mirrorChange_kept {s₀ : State} (args : List Nat) (s : State) (hs : Kept s₀ s) : Kept s₀ (mirrorChange args s) := hs.trans (by
  unfold mirrorChange
  repeat' (first | (with_reducible exact Kept.refl _) | (with_reducible assumption) | (simp only [kept_mk]) | simp | (with_reducible apply issue_kept) | (intro _) | split | (with_reducible refine And.intro ?_ ?_)))

@[simp] theorem setPort1_kept {s₀ : State} (pool entry v : Nat) (s : State) (hs : Kept s₀ s) : Kept s₀ (setPort1 pool entry v s) := hs.trans (by
  unfold setPort1
  repeat' (first | (with_reducible exact Kept.refl _) | (with_reducible assumption) | (simp only [kept_mk]) | simp | (with_reducible apply mirrorChange_kept) | (with_reducible apply setSvc_kept) | (intro _) | split | (with_reducible refine And.intro ?_ ?_)))

theorem natAlloc_inl {set t pool r ic : Nat} {k : Bytes} {s : State} {a : AllocResult}
    (e : natAlloc set t pool r ic k s = .inl a) : Kept s a.state := by
  simp only [natAlloc] at e
  repeat' split at e
  all_goals first | (cases e; done) | (cases e; (repeat' (first | (with_reducible exact Kept.refl _) | (with_reducible assumption) | (simp only [kept_mk]) | simp | (with_reducible apply count_kept) | (with_reducible apply setPort1_kept) | (intro _) | split | (with_reducible refine And.intro ?_ ?_))))

theorem natAlloc_inr {set t pool r ic : Nat} {k : Bytes} {s u : State} (e : natAlloc set t pool r ic k s = .inr u) :
    Kept s u := by
  simp only [natAlloc] at e
  repeat' split at e
  all_goals first | (cases e; done) | (cases e; (repeat' (first | (with_reducible exact Kept.refl _) | (with_reducible assumption) | (simp only [kept_mk]) | simp | (with_reducible apply count_kept) | (with_reducible apply setPort1_kept) | (intro _) | split | (with_reducible refine And.intro ?_ ?_))))

@[simp] theorem releasePort_kept {s₀ : State} (pool entry r : Nat) (s : State) (hs : Kept s₀ s) : Kept s₀ (releasePort pool entry r s) := hs.trans (by
  unfold releasePort
  repeat' (first | (with_reducible exact Kept.refl _) | (with_reducible assumption) | (simp only [kept_mk]) | simp | (with_reducible apply issueAt_kept) | (with_reducible apply setPort1_kept) | (intro _) | split | (with_reducible refine And.intro ?_ ?_)))

@[simp] theorem takeBackPort_kept {s₀ : State} (pool entry : Nat) (s : State) (hs : Kept s₀ s) : Kept s₀ (takeBackPort pool entry s) := hs.trans (by
  unfold takeBackPort
  repeat' (first | (with_reducible exact Kept.refl _) | (with_reducible assumption) | (simp only [kept_mk]) | simp | (with_reducible apply setPort1_kept) | (intro _) | split | (with_reducible refine And.intro ?_ ?_)))

@[simp] theorem setBe_kept {s₀ : State} (r : Nat) (x : BackendSt) (s : State) (hs : Kept s₀ s) : Kept s₀ (setBe r x s) := hs.trans (by
  unfold setBe
  repeat' (first | (with_reducible exact Kept.refl _) | (with_reducible assumption) | (simp only [kept_mk]) | simp | (with_reducible apply setSvc_kept) | (intro _) | split | (with_reducible refine And.intro ?_ ?_)))

theorem beAlloc_inl {set t tab h0 : Nat} {k : Bytes} {s : State} {a : AllocResult}
    (e : beAlloc set t tab h0 k s = .inl a) : Kept s a.state := by
  simp only [beAlloc] at e
  repeat' split at e
  all_goals first | (cases e; done) | (cases e; (repeat' (first | (with_reducible exact Kept.refl _) | (with_reducible assumption) | (simp only [kept_mk]) | simp | (with_reducible apply count_kept) | (intro _) | split | (with_reducible refine And.intro ?_ ?_))))

theorem beAlloc_inr {set t tab h0 : Nat} {k : Bytes} {s u : State} (e : beAlloc set t tab h0 k s = .inr u) :
    Kept s u := by
  simp only [beAlloc] at e
  repeat' split at e
  all_goals first | (cases e; done) | (cases e; (repeat' (first | (with_reducible exact Kept.refl _) | (with_reducible assumption) | (simp only [kept_mk]) | simp | (with_reducible apply count_kept) | (intro _) | split | (with_reducible refine And.intro ?_ ?_))))

theorem allocServices_inl {set t r h0 ic : Nat} {k : Bytes} {s : State} {a : AllocResult}
    (e : allocServices set t r h0 ic k s = .inl a) : Kept s a.state := by
  simp only [allocServices] at e
  repeat' split at e
  · exact natAlloc_inl e
  · exact beAlloc_inl e
  · cases e; exact Kept.refl _

theorem allocServices_inr {set t r h0 ic : Nat} {k : Bytes} {s u : State} (e : allocServices set t r h0 ic k s = .inr u) :
    Kept s u := by
  simp only [allocServices] at e
  repeat' split at e
  · exact natAlloc_inr e
  · exact beAlloc_inr e
  · cases e

@[simp] theorem takeBack_kept {s₀ : State} (a : Alloc) (s : State) (hs : Kept s₀ s) : Kept s₀ (takeBack a s) := hs.trans (by
  unfold takeBack
  repeat' (first | (with_reducible exact Kept.refl _) | (with_reducible assumption) | (simp only [kept_mk]) | simp | (with_reducible apply takeBackPort_kept) | (intro _) | split | (with_reducible refine And.intro ?_ ?_)))

@[simp] theorem countRecord_kept {s₀ : State} (serv : Nat) (up : Bool) (s : State) (hs : Kept s₀ s) : Kept s₀ (countRecord serv up s) := hs.trans (by
  unfold countRecord
  repeat' (first | (with_reducible exact Kept.refl _) | (with_reducible assumption) | (simp only [kept_mk]) | simp | (with_reducible apply setBe_kept) | (intro _) | split | (with_reducible refine And.intro ?_ ?_)))

@[simp] theorem rebuildDue_kept {s₀ : State} (t : Nat) (s : State) (hs : Kept s₀ s) : Kept s₀ (rebuildDue t s) := hs.trans (by
  unfold rebuildDue
  repeat' (first | (with_reducible exact Kept.refl _) | (with_reducible assumption) | (simp only [kept_mk]) | simp | (with_reducible apply setSvc_kept) | (intro _) | split | (with_reducible refine And.intro ?_ ?_)))

@[simp] theorem installSlots_kept {s₀ : State} (t : Nat) (l : List Nat) (s : State) (hs : Kept s₀ s) : Kept s₀ (installSlots t l s) := hs.trans (by
  unfold installSlots
  repeat' (first | (with_reducible exact Kept.refl _) | (with_reducible assumption) | (simp only [kept_mk]) | simp | (with_reducible apply setSvc_kept) | (intro _) | split | (with_reducible refine And.intro ?_ ?_)))

@[simp] theorem rebalanceRow_kept {s₀ : State} (tab : BeTable) (r e load w totalLoad totalW : Nat) (s : State) (hs : Kept s₀ s) : Kept s₀ (rebalanceRow tab r e load w totalLoad totalW s) := hs.trans (by
  unfold rebalanceRow
  repeat' (first | (with_reducible exact Kept.refl _) | (with_reducible assumption) | (simp only [kept_mk]) | simp | (with_reducible apply setBe_kept) | (with_reducible apply mirrorChange_kept) | (with_reducible apply rebuildDue_kept) | (intro _) | split | (with_reducible refine And.intro ?_ ?_)))

@[simp] theorem pressure_kept {s₀ : State} (t : Nat) (rows : List Nat) (s : State) (hs : Kept s₀ s) : Kept s₀ (pressure t rows s) := hs.trans (by
  unfold pressure
  repeat' (first | (with_reducible exact Kept.refl _) | (with_reducible assumption) | (simp only [kept_mk]) | simp | (with_reducible apply wrRow_kept) | (with_reducible apply setSvc_kept) | (with_reducible apply raise_kept) | (with_reducible apply count_kept) | (intro _) | split | (with_reducible refine And.intro ?_ ?_)))

@[simp] theorem exportRecord_kept {s₀ : State} (kind r : Nat) (s : State) (hs : Kept s₀ s) : Kept s₀ (exportRecord kind r s) := hs.trans (by
  unfold exportRecord
  repeat' (first | (with_reducible exact Kept.refl _) | (with_reducible assumption) | (simp only [kept_mk]) | simp | (with_reducible apply issue_kept) | (intro _) | split | (with_reducible refine And.intro ?_ ?_)))

@[simp] theorem dropExport_kept {s₀ : State} (s : State) (hs : Kept s₀ s) : Kept s₀ (dropExport s) := hs.trans (by
  unfold dropExport
  repeat' (first | (with_reducible exact Kept.refl _) | (with_reducible assumption) | (simp only [kept_mk]) | simp | (with_reducible apply raiseOnce_kept) | (with_reducible apply count_kept) | (intro _) | split | (with_reducible refine And.intro ?_ ?_)))

@[simp] theorem releaseServices_kept {s₀ : State} (r : Nat) (orphan : Bool) (s : State) (hs : Kept s₀ s) : Kept s₀ (releaseServices r orphan s) := hs.trans (by
  unfold releaseServices
  repeat' (first | (with_reducible exact Kept.refl _) | (with_reducible assumption) | (simp only [kept_mk]) | simp | (with_reducible apply releasePort_kept) | (with_reducible apply countRecord_kept) | (with_reducible apply wr_kept) | (intro _) | split | (with_reducible refine And.intro ?_ ?_)))

@[simp] theorem clearRecord_kept {s₀ : State} (r : Nat) (s : State) (hs : Kept s₀ s) : Kept s₀ (clearRecord r s) := hs.trans (by
  unfold clearRecord
  repeat' (first | (with_reducible exact Kept.refl _) | (with_reducible assumption) | (simp only [kept_mk]) | simp | (with_reducible apply addPins_kept) | (with_reducible apply dropHome_kept) | (with_reducible apply setHot_kept) | (with_reducible apply mirrorChange_kept) | (with_reducible apply putSlot_kept) | (intro _) | split | (with_reducible refine And.intro ?_ ?_)))

@[simp] theorem removeRecord_kept {s₀ : State} (kind r : Nat) (s : State) (hs : Kept s₀ s) : Kept s₀ (removeRecord kind r s) := hs.trans (by
  unfold removeRecord
  repeat' (first | (with_reducible exact Kept.refl _) | (with_reducible assumption) | (simp only [kept_mk]) | simp | (with_reducible apply exportRecord_kept) | (with_reducible apply releaseServices_kept) | (with_reducible apply clearRecord_kept) | (intro _) | split | (with_reducible refine And.intro ?_ ?_)))

@[simp] theorem turnServices_kept {s₀ : State} (before after : State) (s : State) (hs : Kept s₀ s) : Kept s₀ (turnServices before after s) := hs.trans (by
  unfold turnServices
  repeat' (first | (with_reducible exact Kept.refl _) | (with_reducible assumption) | (simp only [kept_mk]) | simp | (with_reducible apply Kept.forEach) | (with_reducible apply wrRow_kept) | (with_reducible apply mirrorChange_kept) | (with_reducible apply setSvc_kept) | (with_reducible apply setBe_kept) | (with_reducible apply rebuildDue_kept) | (intro _) | split | (with_reducible refine And.intro ?_ ?_)))

@[simp] theorem writeBackendState_kept {s₀ : State} (row v : Nat) (s : State) (hs : Kept s₀ s) : Kept s₀ (writeBackendState row v s) := hs.trans (by
  unfold writeBackendState
  repeat' (first | (with_reducible exact Kept.refl _) | (with_reducible assumption) | (simp only [kept_mk]) | simp | (with_reducible apply wrRow_kept) | (with_reducible apply rebuildDue_kept) | (intro _) | split | (with_reducible refine And.intro ?_ ?_)))

end Sys2Proof.Machine
end

