-- ==== Sys2Proof/Laws/KeptLedger.lean ====
section
/-! SUPPORT. What every operation keeps (`Kept`): ledger operations and their memory. -/

set_option linter.all false
set_option Elab.async false

namespace Sys2Proof.Machine
open Sys2Proof

@[simp] theorem writeRecord_kept {s₀ : State} (r hot cold : Nat) (s : State) (hs : Kept s₀ s) : Kept s₀ (writeRecord r hot cold s) := hs.trans (by
  unfold writeRecord
  repeat' (first | (with_reducible exact Kept.refl _) | (with_reducible assumption) | (simp only [kept_mk]) | simp | (with_reducible apply putSlot_kept) | (with_reducible apply occurGlobal_kept) | (with_reducible apply endWay_kept) | (with_reducible apply putWay_kept) | (intro _) | split | (with_reducible refine And.intro ?_ ?_)))

@[simp] theorem countCreated_kept {s₀ : State} (f : Nat) (s : State) (hs : Kept s₀ s) : Kept s₀ (countCreated f s) := hs.trans (by
  unfold countCreated
  repeat' (first | (with_reducible exact Kept.refl _) | (with_reducible assumption) | (simp only [kept_mk]) | simp | (with_reducible apply setSlc_kept) | (intro _) | split | (with_reducible refine And.intro ?_ ?_)))

@[simp] theorem takeToken_kept {s₀ : State} (set t : Nat) (s : State) (hs : Kept s₀ s) : Kept s₀ (takeToken set t s) := hs.trans (by
  unfold takeToken
  repeat' (first | (with_reducible exact Kept.refl _) | (with_reducible assumption) | (simp only [kept_mk]) | simp | (with_reducible apply setLed_kept) | (intro _) | split | (with_reducible refine And.intro ?_ ?_)))

@[simp] theorem writeAlias_kept {s₀ : State} (a : AliasPlan) (primary template origin epoch : Nat) (s : State) (hs : Kept s₀ s) : Kept s₀ (writeAlias a primary template origin epoch s) := hs.trans (by
  unfold writeAlias
  repeat' (first | (with_reducible exact Kept.refl _) | (with_reducible assumption) | (simp only [kept_mk]) | simp | (with_reducible apply mirrorChange_kept) | (with_reducible apply addHome_kept) | (with_reducible apply writeRecord_kept) | (with_reducible apply countCreated_kept) | (intro _) | split | (with_reducible refine And.intro ?_ ?_)))

theorem writePair_kept {r home d fp hot cold : Nat} {al : Option AliasPlan} {pin : Bool} {s t : State}
    (e : writePair r home d fp hot cold al pin s = some t) : Kept s t := by
  simp only [writePair] at e
  split at e
  · refine Kept.trans ?_ (pinRecords_kept e)
    split <;> (repeat' (first | (with_reducible exact Kept.refl _) | (with_reducible assumption) | (simp only [kept_mk]) | simp | (with_reducible apply mirrorChange_kept) | (with_reducible apply addHome_kept) | (with_reducible apply writeRecord_kept) | (with_reducible apply countCreated_kept) | (with_reducible apply writeAlias_kept) | (with_reducible apply countRecord_kept) | (with_reducible apply pinRecords_getD_kept) | (with_reducible refine Kept.trans ?_ (pinRecords_kept ‹_›)) | (intro _) | split | (with_reducible refine And.intro ?_ ?_)))
  · cases e
    split <;> (repeat' (first | (with_reducible exact Kept.refl _) | (with_reducible assumption) | (simp only [kept_mk]) | simp | (with_reducible apply mirrorChange_kept) | (with_reducible apply addHome_kept) | (with_reducible apply writeRecord_kept) | (with_reducible apply countCreated_kept) | (with_reducible apply writeAlias_kept) | (with_reducible apply countRecord_kept) | (with_reducible apply pinRecords_getD_kept) | (with_reducible refine Kept.trans ?_ (pinRecords_kept ‹_›)) | (intro _) | split | (with_reducible refine And.intro ?_ ?_)))

@[simp] theorem deliverLedger_kept {s₀ : State} (o : LedOp) (fid status cause record : Nat) (s : State) (hs : Kept s₀ s) : Kept s₀ (deliverLedger o fid status cause record s) := hs.trans (by
  unfold deliverLedger
  repeat' (first | (with_reducible exact Kept.refl _) | (with_reducible assumption) | (simp only [kept_mk]) | simp | (with_reducible apply occur_kept) | (with_reducible apply modFrame_kept) | (intro _) | split | (with_reducible refine And.intro ?_ ?_)))

@[simp] theorem takeAction_kept {s₀ : State} (fid action reason template : Nat) (s : State) (hs : Kept s₀ s) : Kept s₀ (takeAction fid action reason template s) := hs.trans (by
  unfold takeAction
  repeat' (first | (with_reducible exact Kept.refl _) | (with_reducible assumption) | (simp only [kept_mk]) | simp | (with_reducible apply count_kept) | (with_reducible apply modFrame_kept) | (intro _) | split | (with_reducible refine And.intro ?_ ?_)))

@[simp] theorem exhaust_kept {s₀ : State} (o : LedOp) (fid : Nat) (f : Frame) (cause : Nat) (s : State) (hs : Kept s₀ s) : Kept s₀ (exhaust o fid f cause s) := hs.trans (by
  unfold exhaust
  repeat' (first | (with_reducible exact Kept.refl _) | (with_reducible assumption) | (simp only [kept_mk]) | simp | (with_reducible apply count_kept) | (with_reducible apply raiseOnce_kept) | (with_reducible apply deliverLedger_kept) | (with_reducible apply takeAction_kept) | (intro _) | split | (with_reducible refine And.intro ?_ ?_)))

@[simp] theorem refuseFrame_kept {s₀ : State} (o : LedOp) (fid : Nat) (f : Frame) (cause : Nat) (s : State) (hs : Kept s₀ s) : Kept s₀ (refuseFrame o fid f cause s) := hs.trans (by
  unfold refuseFrame
  repeat' (first | (with_reducible exact Kept.refl _) | (with_reducible assumption) | (simp only [kept_mk]) | simp | (with_reducible apply count_kept) | (with_reducible apply deliverLedger_kept) | (with_reducible apply takeAction_kept) | (intro _) | split | (with_reducible refine And.intro ?_ ?_)))

@[simp] theorem rewriteCold_kept {s₀ : State} (r : Nat) (key : Bytes) (s : State) (hs : Kept s₀ s) : Kept s₀ (rewriteCold r key s) := hs.trans (by
  unfold rewriteCold
  repeat' (first | (with_reducible exact Kept.refl _) | (with_reducible assumption) | (simp only [kept_mk]) | simp | (with_reducible apply drawFree_kept) | (with_reducible apply setCold_kept) | (with_reducible apply setHot_kept) | (intro _) | split | (with_reducible refine And.intro ?_ ?_)))

@[simp] theorem foldDue_kept {s₀ : State} (r : Nat) (s : State) (hs : Kept s₀ s) : Kept s₀ (foldDue r s) := hs.trans (by
  unfold foldDue
  repeat' (first | (with_reducible exact Kept.refl _) | (with_reducible assumption) | (simp only [kept_mk]) | simp | (with_reducible apply issueWay_kept) | (intro _) | split | (with_reducible refine And.intro ?_ ?_)))

@[simp] theorem countBackend_kept {s₀ : State} (set h n : Nat) (s : State) (hs : Kept s₀ s) : Kept s₀ (countBackend set h n s) := hs.trans (by
  unfold countBackend
  repeat' (first | (with_reducible exact Kept.refl _) | (with_reducible assumption) | (simp only [kept_mk]) | simp | (with_reducible apply setBe_kept) | (intro _) | split | (with_reducible refine And.intro ?_ ?_)))

@[simp] theorem healCold_kept {s₀ : State} (r : Nat) (o : LedOp) (s : State) (hs : Kept s₀ s) : Kept s₀ (healCold r o s) := hs.trans (by
  unfold healCold
  repeat' (first | (with_reducible exact Kept.refl _) | (with_reducible assumption) | (simp only [kept_mk]) | simp | (with_reducible apply rewriteCold_kept) | (intro _) | split | (with_reducible refine And.intro ?_ ?_)))

@[simp] theorem updateRecord_kept {s₀ : State} (set r : Nat) (o : LedOp) (f : Frame) (s : State) (hs : Kept s₀ s) : Kept s₀ (updateRecord set r o f s) := hs.trans (by
  unfold updateRecord
  repeat' (first | (with_reducible exact Kept.refl _) | (with_reducible assumption) | (simp only [kept_mk]) | simp | (with_reducible apply healCold_kept) | (with_reducible apply foldDue_kept) | (with_reducible apply countBackend_kept) | (with_reducible apply Kept.when) | (with_reducible apply count_kept) | (with_reducible apply setHot_kept) | (intro _) | split | (with_reducible refine And.intro ?_ ?_)))

@[simp] theorem settleFrame_kept {s₀ : State} (o : LedOp) (fid : Nat) (f : Frame) (r : Nat) (al : Option AliasPlan) (alloc : Alloc) (s : State) (hs : Kept s₀ s) : Kept s₀ (settleFrame o fid f r al alloc s) := hs.trans (by
  unfold settleFrame
  repeat' (first | (with_reducible exact Kept.refl _) | (with_reducible assumption) | (simp only [kept_mk]) | simp | (with_reducible apply refuseFrame_kept) | (with_reducible apply takeBack_kept) | (with_reducible refine Kept.trans ?_ (writePair_kept ‹_›)) | (with_reducible apply takeToken_kept) | (with_reducible apply countBackend_kept) | (with_reducible apply count_kept) | (with_reducible apply deliverLedger_kept) | (intro _) | split | (with_reducible refine And.intro ?_ ?_)))

@[simp] theorem dropOp_kept {s₀ : State} (f id : Nat) (s : State) (hs : Kept s₀ s) : Kept s₀ (dropOp f id s) := hs.trans (by
  unfold dropOp
  repeat' (first | (with_reducible exact Kept.refl _) | (with_reducible assumption) | (simp only [kept_mk]) | simp | (with_reducible apply setSlc_kept) | (intro _) | split | (with_reducible refine And.intro ?_ ?_)))

@[simp] theorem putOp_kept {s₀ : State} (f : Nat) (o : LedOp) (s : State) (hs : Kept s₀ s) : Kept s₀ (putOp f o s) := hs.trans (by
  unfold putOp
  repeat' (first | (with_reducible exact Kept.refl _) | (with_reducible assumption) | (simp only [kept_mk]) | simp | (with_reducible apply setSlc_kept) | (intro _) | split | (with_reducible refine And.intro ?_ ?_)))

@[simp] theorem reserve_kept {s₀ : State} (r : Nat) (s : State) (hs : Kept s₀ s) : Kept s₀ (reserve r s) := hs.trans (by
  unfold reserve
  repeat' (first | (with_reducible exact Kept.refl _) | (with_reducible assumption) | (simp only [kept_mk]) | simp | (with_reducible apply setSlc_kept) | (intro _) | split | (with_reducible refine And.intro ?_ ?_)))

@[simp] theorem unreserveSlot_kept {s₀ : State} (r : Nat) (s : State) (hs : Kept s₀ s) : Kept s₀ (unreserveSlot r s) := hs.trans (by
  unfold unreserveSlot
  repeat' (first | (with_reducible exact Kept.refl _) | (with_reducible assumption) | (simp only [kept_mk]) | simp | (with_reducible apply setSlc_kept) | (intro _) | split | (with_reducible refine And.intro ?_ ?_)))

@[simp] theorem endAdmission_kept {s₀ : State} (p : LedOp) (r : Nat) (s : State) (hs : Kept s₀ s) : Kept s₀ (endAdmission p r s) := hs.trans (by
  unfold endAdmission
  repeat' (first | (with_reducible exact Kept.refl _) | (with_reducible assumption) | (simp only [kept_mk]) | simp | (with_reducible apply dropOp_kept) | (with_reducible apply unreserveSlot_kept) | (intro _) | split | (with_reducible refine And.intro ?_ ?_)))

theorem exhaustOp_kept {o : LedOp} {cause : Nat} {s t : State} (e : exhaustOp o cause s = some t) : Kept s t := by
  unfold exhaustOp at e
  split at e
  · cases e; (repeat' (first | (with_reducible exact Kept.refl _) | (with_reducible assumption) | (simp only [kept_mk]) | simp | (with_reducible apply exhaust_kept) | (with_reducible apply takeBack_kept) | (with_reducible apply endAdmission_kept) | (intro _) | split | (with_reducible refine And.intro ?_ ?_)))
  · split at e
    · cases e; exact Kept.refl _
    · split at e
      · cases e; (repeat' (first | (with_reducible exact Kept.refl _) | (with_reducible assumption) | (simp only [kept_mk]) | simp | (with_reducible apply exhaust_kept) | (with_reducible apply takeBack_kept) | (with_reducible apply endAdmission_kept) | (intro _) | split | (with_reducible refine And.intro ?_ ?_)))
      · cases e
  · cases e

/-- The state that an attempt leaves. -/
def runState : Run → State
  | .done s => s
  | .wait _ s => s

@[simp] theorem runState_done (s : State) : runState (.done s) = s := rfl
@[simp] theorem runState_wait (o : LedOp) (s : State) : runState (.wait o s) = s := rfl

theorem exhaustOr_keeps (o : LedOp) (cause : Nat) (stage : LedStage) (s : State) : Kept s (runState (exhaustOr o cause stage s)) := by
  unfold exhaustOr
  split
  · exact exhaustOp_kept ‹_›
  · exact Kept.refl s

@[simp] theorem exhaustOr_kept (s₀ : State) (o : LedOp) (cause : Nat) (stage : LedStage) (s : State) (hs : Kept s₀ s) :
    Kept s₀ (runState (exhaustOr o cause stage s)) := hs.trans (exhaustOr_keeps o cause stage s)

@[simp] theorem park_kept (s₀ : State) (o : LedOp) (r : Nat) (s : State) (hs : Kept s₀ s) :
    Kept s₀ (runState (park o r s)) := hs.trans (by
  unfold park
  repeat' (first | (with_reducible exact Kept.refl _) | (with_reducible assumption) | (simp only [kept_mk]) | simp | (with_reducible apply exhaustOr_kept) | (with_reducible apply ctrMax_kept) | (with_reducible apply count_kept) | (intro _) | split | (with_reducible refine And.intro ?_ ?_) | split))

@[simp] theorem fetch_kept (s₀ : State) (o : LedOp) (l : List Nat) (s : State) (hs : Kept s₀ s) :
    Kept s₀ (runState (fetch o l s)) := hs.trans (by
  unfold fetch
  split
  · exact issueReads_kept ‹_›
  · (repeat' (first | (with_reducible exact Kept.refl _) | (with_reducible assumption) | (simp only [kept_mk]) | simp | (with_reducible refine Kept.trans ?_ (issueReads_kept ‹_›)) | (with_reducible apply exhaustOr_kept) | (intro _) | split | (with_reducible refine And.intro ?_ ?_)))
  · (repeat' (first | (with_reducible exact Kept.refl _) | (with_reducible assumption) | (simp only [kept_mk]) | simp | (with_reducible refine Kept.trans ?_ (issueReads_kept ‹_›)) | (with_reducible apply exhaustOr_kept) | (intro _) | split | (with_reducible refine And.intro ?_ ?_))))

theorem aimKey_kept {earlier : List LedOp} {o : LedOp} {s : State} {x : Run} (e : aimKey earlier o s = .not x) :
    Kept s (runState x) := by
  unfold aimKey at e
  repeat' split at e
  all_goals first | (cases e; done) | (cases e; (repeat' (first | (with_reducible exact Kept.refl _) | (with_reducible assumption) | (simp only [kept_mk]) | simp | (with_reducible apply park_kept) | (with_reducible apply fetch_kept) | (intro _) | split | (with_reducible refine And.intro ?_ ?_))))

theorem aimSlot_kept {earlier : List LedOp} {o : LedOp} {r : Nat} {s : State} {x : Run} (e : aimSlot earlier o r s = .not x) :
    Kept s (runState x) := by
  simp only [aimSlot] at e
  repeat' split at e
  all_goals first | (cases e; done) | (cases e; (repeat' (first | (with_reducible exact Kept.refl _) | (with_reducible assumption) | (simp only [kept_mk]) | simp | (with_reducible apply park_kept) | (with_reducible apply fetch_kept) | (intro _) | split | (with_reducible refine And.intro ?_ ?_))))

@[simp] theorem forward_kept {s₀ : State} (o : LedOp) (a : Nat) (s : State) (hs : Kept s₀ s) : Kept s₀ (forward o a s) := hs.trans (by
  unfold forward
  repeat' (first | (with_reducible exact Kept.refl _) | (with_reducible assumption) | (simp only [kept_mk]) | simp | (with_reducible apply count_kept) | (with_reducible apply setLed_kept) | (intro _) | split | (with_reducible refine And.intro ?_ ?_)))

@[simp] theorem sendReply_kept {s₀ : State} (o : LedOp) (r : Nat) (key : Bytes) (s : State) (hs : Kept s₀ s) : Kept s₀ (sendReply o r key s) := hs.trans (by
  unfold sendReply
  repeat' (first | (with_reducible exact Kept.refl _) | (with_reducible assumption) | (simp only [kept_mk]) | simp | (with_reducible apply setLed_kept) | (intro _) | split | (with_reducible refine And.intro ?_ ?_)))

@[simp] theorem admitFlow_kept (s₀ : State) (o : LedOp) (fid : Nat) (f : Frame) (s : State) (hs : Kept s₀ s) :
    Kept s₀ (runState (admitFlow o fid f s)) := hs.trans (by
  unfold admitFlow
  extract_lets set t
  split
  · exact deliverLedger_kept _ _ _ _ _ _ (Kept.refl s)
  · split
    · exact refuseFrame_kept _ _ _ _ _ (Kept.refl s)
    · split
      · exact fetch_kept _ _ _ _ (Kept.refl s)
      · exact refuseFrame_kept _ _ _ _ _ (Kept.refl s)
      · extract_lets r
        split
        · exact refuseFrame_kept _ _ _ _ _ (allocServices_inr ‹_›)
        · have h := allocServices_inl ‹_›
          split
          · exact sendReply_kept _ _ _ _ (reserve_kept _ _ h)
          · exact settleFrame_kept _ _ _ _ _ _ _ h)

@[simp] theorem anew_kept (s₀ : State) (o : LedOp) (fid : Nat) (f : Frame) (s : State) (hs : Kept s₀ s) :
    Kept s₀ (runState (anew o fid f s)) := hs.trans (by
  unfold anew
  split
  · exact admitFlow_kept _ _ _ _ _ (Kept.refl s)
  · exact deliverLedger_kept _ _ _ _ _ _ (Kept.refl s))

@[simp] theorem applyFrame_kept (s₀ : State) (o : LedOp) (fid : Nat) (f : Frame) (r : Nat) (s : State) (hs : Kept s₀ s) :
    Kept s₀ (runState (applyFrame o fid f r s)) := hs.trans (by
  simp only [applyFrame]
  repeat' (first | (with_reducible exact Kept.refl _) | (with_reducible assumption) | (simp only [kept_mk]) | simp | (with_reducible apply deliverLedger_kept) | (with_reducible apply anew_kept) | (with_reducible apply removeRecord_kept) | (with_reducible apply count_kept) | (with_reducible apply refuseFrame_kept) | (with_reducible apply Kept.when) | (with_reducible apply updateRecord_kept) | (with_reducible apply useWay_kept) | (intro _) | split | (with_reducible refine And.intro ?_ ?_) | split))

@[simp] theorem runFrame_kept (s₀ : State) (earlier : List LedOp) (o : LedOp) (fid : Nat) (f : Frame) (s : State) (hs : Kept s₀ s) :
    Kept s₀ (runState (runFrame earlier o fid f s)) := hs.trans (by
  simp only [runFrame]
  split
  · split
    · rename_i h; exact aimSlot_kept h
    · split <;> (repeat' (first | (with_reducible exact Kept.refl _) | (with_reducible assumption) | (simp only [kept_mk]) | simp | (with_reducible exact aimSlot_kept ‹_›) | (with_reducible apply applyFrame_kept) | (with_reducible apply deliverLedger_kept) | (with_reducible exact aimKey_kept ‹_›) | (with_reducible apply anew_kept) | (with_reducible apply forward_kept) | (with_reducible apply healCold_kept) | (with_reducible apply useWay_kept) | (intro _) | split | (with_reducible refine And.intro ?_ ?_)))
  · split
    · rename_i h; exact aimKey_kept h
    · (repeat' (first | (with_reducible exact Kept.refl _) | (with_reducible assumption) | (simp only [kept_mk]) | simp | (with_reducible exact aimSlot_kept ‹_›) | (with_reducible apply applyFrame_kept) | (with_reducible apply deliverLedger_kept) | (with_reducible exact aimKey_kept ‹_›) | (with_reducible apply anew_kept) | (with_reducible apply forward_kept) | (with_reducible apply healCold_kept) | (with_reducible apply useWay_kept) | (intro _) | split | (with_reducible refine And.intro ?_ ?_)))
    · split <;> (repeat' (first | (with_reducible exact Kept.refl _) | (with_reducible assumption) | (simp only [kept_mk]) | simp | (with_reducible exact aimSlot_kept ‹_›) | (with_reducible apply applyFrame_kept) | (with_reducible apply deliverLedger_kept) | (with_reducible exact aimKey_kept ‹_›) | (with_reducible apply anew_kept) | (with_reducible apply forward_kept) | (with_reducible apply healCold_kept) | (with_reducible apply useWay_kept) | (intro _) | split | (with_reducible refine And.intro ?_ ?_))))

@[simp] theorem insertDone_kept (s₀ : State) (image reply : Bytes) (s : State) (hs : Kept s₀ s) :
    Kept s₀ (insertDone image reply s).state := hs.trans (by
  simp only [insertDone]
  repeat' (first | exact Kept.refl _ | (refine Kept.trans ?_ (writePair_kept ‹_›)) | split))

@[simp] theorem updateMasked_kept {s₀ : State} (mask r : Nat) (image : Bytes) (s : State) (hs : Kept s₀ s) : Kept s₀ (updateMasked mask r image s) := hs.trans (by
  unfold updateMasked
  repeat' (first | (with_reducible exact Kept.refl _) | (with_reducible assumption) | (simp only [kept_mk]) | simp | (with_reducible apply setHot_kept) | (with_reducible apply setCold_kept) | (intro _) | split | (with_reducible refine And.intro ?_ ?_)))

@[simp] theorem flowDone_kept {s₀ : State} (code : Nat) (a : FlowArgs) (image reply : Bytes) (s : State) (hs : Kept s₀ s) : Kept s₀ (flowDone code a image reply s).state := hs.trans (by
  unfold flowDone
  repeat' (first | (with_reducible exact Kept.refl _) | (with_reducible assumption) | (simp only [kept_mk]) | simp | (with_reducible apply insertDone_kept) | (rw [failed_state]) | (rw [succeeded_state]) | (with_reducible apply updateMasked_kept) | (with_reducible apply removeRecord_kept) | (with_reducible apply pinRecords_getD_kept) | (with_reducible refine Kept.trans ?_ (pinRecords_kept ‹_›)) | (with_reducible apply unpinRecords_kept) | (intro _) | split | (with_reducible refine And.intro ?_ ?_)))

@[simp] theorem coldUe_kept {s₀ : State} (r : Nat) (s : State) (hs : Kept s₀ s) : Kept s₀ (coldUe r s) := hs.trans (by
  unfold coldUe
  repeat' (first | (with_reducible exact Kept.refl _) | (with_reducible assumption) | (simp only [kept_mk]) | simp | (with_reducible apply setHot_kept) | (with_reducible apply putSlot_kept) | (with_reducible apply count_kept) | (with_reducible apply wr_kept) | (with_reducible apply raise_kept) | (with_reducible apply setPair_kept) | (intro _) | split | (with_reducible refine And.intro ?_ ?_)))

@[simp] theorem coldRead_kept {s₀ : State} (r : Nat) (ecc : Ecc) (s : State) (hs : Kept s₀ s) : Kept s₀ (coldRead r ecc s) := hs.trans (by
  unfold coldRead
  repeat' (first | (with_reducible exact Kept.refl _) | (with_reducible assumption) | (simp only [kept_mk]) | simp | (with_reducible apply count_kept) | (with_reducible apply coldUe_kept) | (intro _) | split | (with_reducible refine And.intro ?_ ?_)))

@[simp] theorem imageRead_kept {s₀ : State} (o : LedOp) (r : Nat) (s : State) (hs : Kept s₀ s) : Kept s₀ (imageRead o r s) := hs.trans (by
  unfold imageRead
  repeat' (first | (with_reducible exact Kept.refl _) | (with_reducible assumption) | (simp only [kept_mk]) | simp | (with_reducible apply coldRead_kept) | (intro _) | split | (with_reducible refine And.intro ?_ ?_)))

@[simp] theorem flowReadNow_kept {s₀ : State} (c : SqCmd) (o : LedOp) (r : Nat) (s : State) (hs : Kept s₀ s) : Kept s₀ (flowReadNow c o r s) := hs.trans (by
  unfold flowReadNow
  repeat' (first | (with_reducible exact Kept.refl _) | (with_reducible assumption) | (simp only [kept_mk]) | simp | (with_reducible apply imageRead_kept) | (with_reducible apply useWay_kept) | (with_reducible apply finishWrite_kept) | (intro _) | split | (with_reducible refine And.intro ?_ ?_)))

theorem walkRun_keeps (earlier : List LedOp) (c : SqCmd) (n : Nat) (o : LedOp) (s : State) :
    Kept s (runState (walkRun earlier c n o s)) := by
  induction n generalizing o s with
  | zero => exact finishWrite_kept _ _ _ _ (Kept.refl s)
  | succ n ih =>
    unfold walkRun
    extract_lets r
    split
    · exact aimSlot_kept ‹_›
    · rename_i s1 s2 got _ _
      have h1 : Kept s s1 := useWay_kept _ _ (Kept.refl s)
      have h2 : Kept s s2 := by
        unfold s2
        split
        · exact imageRead_kept _ _ _ h1
        · exact h1
      exact h2.trans (ih _ _)

@[simp] theorem walkRun_kept (s₀ : State) (earlier : List LedOp) (c : SqCmd) (n : Nat) (o : LedOp) (s : State)
    (hs : Kept s₀ s) : Kept s₀ (runState (walkRun earlier c n o s)) := hs.trans (walkRun_keeps earlier c n o s)

@[simp] theorem applyCmd_kept {s₀ : State} (c : SqCmd) (code : Nat) (a : FlowArgs) (image reply : Bytes) (s : State) (hs : Kept s₀ s) : Kept s₀ (applyCmd c code a image reply s) := hs.trans (by
  unfold applyCmd
  repeat' (first | (with_reducible exact Kept.refl _) | (with_reducible assumption) | (simp only [kept_mk]) | simp | (with_reducible apply commitCmd_kept) | (with_reducible apply flowDone_kept) | (intro _) | split | (with_reducible refine And.intro ?_ ?_)))

@[simp] theorem runInsert_kept (s₀ : State) (earlier : List LedOp) (o : LedOp) (c : SqCmd) (a : FlowArgs) (image reply : Bytes)
    (s : State) (hs : Kept s₀ s) :
    Kept s₀ (runState (runInsert earlier o c a image reply s)) := hs.trans (by
  simp only [runInsert]
  repeat' (first | (with_reducible exact aimKey_kept ‹_›) | (with_reducible exact Kept.refl _) | (with_reducible assumption) | (simp only [kept_mk]) | simp | (with_reducible exact aimKey_kept ‹_›) | (with_reducible apply complete_kept) | (with_reducible apply fetch_kept) | (with_reducible apply noRoom_kept) | (with_reducible apply applyCmd_kept) | (with_reducible apply sendReply_kept) | (with_reducible apply reserve_kept) | (intro _) | split | (with_reducible refine And.intro ?_ ?_) | split))

@[simp] theorem toApply_kept (s₀ : State) (o : LedOp) (c : SqCmd) (code : Nat) (a : FlowArgs) (image reply : Bytes) (r : Nat)
    (s : State) (hs : Kept s₀ s) : Kept s₀ (runState (toApply o c code a image reply r s)) := hs.trans (by
  unfold toApply
  extract_lets missing
  split
  · exact applyCmd_kept _ _ _ _ _ _ (useWay_kept _ _ (Kept.refl s))
  · exact fetch_kept _ _ _ _ (Kept.refl s))

@[simp] theorem cmdAt_kept (s₀ : State) (o : LedOp) (c : SqCmd) (code : Nat) (a : FlowArgs) (image reply : Bytes) (r : Nat)
    (s : State) (hs : Kept s₀ s) : Kept s₀ (runState (cmdAt o c code a image reply r s)) := hs.trans (by
  unfold cmdAt
  split
  · exact flowReadNow_kept _ _ _ _ (Kept.refl s)
  · split
    · exact forward_kept _ _ _ (useWay_kept _ _ (Kept.refl s))
    · exact toApply_kept _ _ _ _ _ _ _ _ _ (Kept.refl s))

@[simp] theorem runCmd_kept (s₀ : State) (earlier : List LedOp) (o : LedOp) (c : SqCmd) (code : Nat) (a : FlowArgs)
    (image reply : Bytes) (s : State) (hs : Kept s₀ s) :
    Kept s₀ (runState (runCmd earlier o c code a image reply s)) := hs.trans (by
  unfold runCmd
  split
  · exact walkRun_kept _ _ _ _ _ _ (Kept.refl s)
  · split
    · exact runInsert_kept _ _ _ _ _ _ _ _ (Kept.refl s)
    · split
      · dsimp only
        split
        · rename_i h; exact aimSlot_kept h
        · split <;> (repeat' (first | (with_reducible exact Kept.refl _) | (with_reducible assumption) | (simp only [kept_mk]) | simp | (with_reducible apply walkRun_kept) | (with_reducible apply runInsert_kept) | (with_reducible exact aimSlot_kept ‹_›) | (with_reducible apply toApply_kept) | (with_reducible apply complete_kept) | (with_reducible exact aimKey_kept ‹_›) | (with_reducible apply cmdAt_kept) | (intro _) | split | (with_reducible refine And.intro ?_ ?_)))
      · split
        · split
          · rename_i h; exact aimKey_kept h
          · (repeat' (first | (with_reducible exact Kept.refl _) | (with_reducible assumption) | (simp only [kept_mk]) | simp | (with_reducible apply walkRun_kept) | (with_reducible apply runInsert_kept) | (with_reducible exact aimSlot_kept ‹_›) | (with_reducible apply toApply_kept) | (with_reducible apply complete_kept) | (with_reducible exact aimKey_kept ‹_›) | (with_reducible apply cmdAt_kept) | (intro _) | split | (with_reducible refine And.intro ?_ ?_)))
          · (repeat' (first | (with_reducible exact Kept.refl _) | (with_reducible assumption) | (simp only [kept_mk]) | simp | (with_reducible apply walkRun_kept) | (with_reducible apply runInsert_kept) | (with_reducible exact aimSlot_kept ‹_›) | (with_reducible apply toApply_kept) | (with_reducible apply complete_kept) | (with_reducible exact aimKey_kept ‹_›) | (with_reducible apply cmdAt_kept) | (intro _) | split | (with_reducible refine And.intro ?_ ?_)))
        · split
          · rename_i h; exact aimSlot_kept h
          · split <;> (repeat' (first | (with_reducible exact Kept.refl _) | (with_reducible assumption) | (simp only [kept_mk]) | simp | (with_reducible apply walkRun_kept) | (with_reducible apply runInsert_kept) | (with_reducible exact aimSlot_kept ‹_›) | (with_reducible apply toApply_kept) | (with_reducible apply complete_kept) | (with_reducible exact aimKey_kept ‹_›) | (with_reducible apply cmdAt_kept) | (intro _) | split | (with_reducible refine And.intro ?_ ?_))))

@[simp] theorem replyFails_kept {s₀ : State} (p : LedOp) (r cause : Nat) (s : State) (hs : Kept s₀ s) : Kept s₀ (replyFails p r cause s) := hs.trans (by
  unfold replyFails
  repeat' (first | (with_reducible exact Kept.refl _) | (with_reducible assumption) | (simp only [kept_mk]) | simp | (with_reducible apply endAdmission_kept) | (with_reducible apply refuseFrame_kept) | (with_reducible apply takeBack_kept) | (with_reducible apply complete_kept) | (intro _) | split | (with_reducible refine And.intro ?_ ?_)))

@[simp] theorem chooseAgain_kept {s₀ : State} (p : LedOp) (f : Frame) (r : Nat) (s : State) (hs : Kept s₀ s) : Kept s₀ (chooseAgain p f r s) := hs.trans (by
  unfold chooseAgain
  repeat' (first | (with_reducible exact Kept.refl _) | (with_reducible assumption) | (simp only [kept_mk]) | simp | (with_reducible apply replyFails_kept) | (with_reducible apply count_kept) | (with_reducible apply sendReply_kept) | (with_reducible apply putOp_kept) | (intro _) | split | (with_reducible refine And.intro ?_ ?_)))

@[simp] theorem replyPlaced_kept {s₀ : State} (p : LedOp) (r : Nat) (a : AliasPlan) (s : State) (hs : Kept s₀ s) : Kept s₀ (replyPlaced p r a s) := hs.trans (by
  unfold replyPlaced
  repeat' (first | (with_reducible exact Kept.refl _) | (with_reducible assumption) | (simp only [kept_mk]) | simp | (with_reducible apply chooseAgain_kept) | (with_reducible apply settleFrame_kept) | (with_reducible apply endAdmission_kept) | (with_reducible apply applyCmd_kept) | (intro _) | split | (with_reducible refine And.intro ?_ ?_)))

@[simp] theorem runReply_kept (s₀ : State) (earlier : List LedOp) (o : LedOp) (ps pop r : Nat) (s : State) (hs : Kept s₀ s) :
    Kept s₀ (runState (runReply earlier o ps pop r s)) := hs.trans (by
  simp only [runReply]
  repeat' (first | (with_reducible exact aimKey_kept ‹_›) | (with_reducible exact Kept.refl _) | (with_reducible assumption) | (simp only [kept_mk]) | simp | (with_reducible exact aimKey_kept ‹_›) | (with_reducible apply replyFails_kept) | (with_reducible apply noRoom_kept) | (with_reducible apply fetch_kept) | (with_reducible apply replyPlaced_kept) | (intro _) | split | (with_reducible refine And.intro ?_ ?_) | split))

@[simp] theorem setFields_kept (s₀ : State) (mask conn addr port r : Nat) (s : State) (hs : Kept s₀ s) :
    Kept s₀ (setFields mask conn addr port r s) := hs.trans (by
  unfold setFields
  extract_lets h h1 h2
  simp only [setHot_kept, Kept.refl])

@[simp] theorem countVisit_kept {s₀ : State} (r : Nat) (s : State) (hs : Kept s₀ s) : Kept s₀ (countVisit r s) := hs.trans (by
  unfold countVisit
  repeat' (first | (with_reducible exact Kept.refl _) | (with_reducible assumption) | (simp only [kept_mk]) | simp | (with_reducible apply setBe_kept) | (with_reducible apply count_kept) | (intro _) | split | (with_reducible refine And.intro ?_ ?_)))

@[simp] theorem visit_kept {s₀ : State} (r : Nat) (s : State) (hs : Kept s₀ s) : Kept s₀ (visit r s) := hs.trans (by
  unfold visit
  repeat' (first | (with_reducible exact Kept.refl _) | (with_reducible assumption) | (simp only [kept_mk]) | simp | (with_reducible apply removeRecord_kept) | (with_reducible apply count_kept) | (with_reducible apply countVisit_kept) | (with_reducible apply Kept.when) | (with_reducible apply exportRecord_kept) | (with_reducible apply useWay_kept) | (intro _) | split | (with_reducible refine And.intro ?_ ?_)))

@[simp] theorem failOp_kept {s₀ : State} (o : LedOp) (s : State) (hs : Kept s₀ s) : Kept s₀ (failOp o s) := hs.trans (by
  unfold failOp
  repeat' (first | (with_reducible exact Kept.refl _) | (with_reducible assumption) | (simp only [kept_mk]) | simp | (with_reducible apply dropOp_kept) | (with_reducible apply unreserveSlot_kept) | (with_reducible apply deliverLedger_kept) | (with_reducible apply takeBack_kept) | (with_reducible apply complete_kept) | (with_reducible apply endAdmission_kept) | (intro _) | split | (with_reducible refine And.intro ?_ ?_)))

@[simp] theorem garble_kept {s₀ : State} (r : Nat) (s : State) (hs : Kept s₀ s) : Kept s₀ (garble r s) := hs.trans (by
  unfold garble
  repeat' (first | (with_reducible exact Kept.refl _) | (with_reducible assumption) | (simp only [kept_mk]) | simp | (with_reducible apply drawFree_kept) | (with_reducible apply putSlot_kept) | (intro _) | split | (with_reducible refine And.intro ?_ ?_)))

@[simp] theorem hotUe_kept {s₀ : State} (r : Nat) (s : State) (hs : Kept s₀ s) : Kept s₀ (hotUe r s) := hs.trans (by
  unfold hotUe
  repeat' (first | (with_reducible exact Kept.refl _) | (with_reducible assumption) | (simp only [kept_mk]) | split | (dsimp only) | (with_reducible apply setSlc_kept) | (with_reducible apply Kept.forEach) | (with_reducible apply failOp_kept) | (with_reducible apply endWay_kept) | (with_reducible apply setLed_kept) | (with_reducible apply count_kept) | (with_reducible apply wr_kept) | (with_reducible apply garble_kept) | (with_reducible apply raise_kept) | (with_reducible apply setPair_kept) | (with_reducible apply issue_kept) | (intro _) | split | (with_reducible refine And.intro ?_ ?_)))

@[simp] theorem wayRead_kept {s₀ : State} (r : Nat) (e : Ecc) (s : State) (hs : Kept s₀ s) : Kept s₀ (wayRead r e s) := hs.trans (by
  unfold wayRead
  repeat' (first | (with_reducible exact Kept.refl _) | (with_reducible assumption) | (simp only [kept_mk]) | simp | (with_reducible apply count_kept) | (with_reducible apply hotUe_kept) | (with_reducible apply putWay_kept) | (intro _) | split | (with_reducible refine And.intro ?_ ?_)))

@[simp] theorem writeNow_kept {s₀ : State} (o : LedOp) (r : Nat) (s : State) (hs : Kept s₀ s) : Kept s₀ (writeNow o r s) := hs.trans (by
  unfold writeNow
  repeat' (first | (with_reducible exact Kept.refl _) | (with_reducible assumption) | (simp only [kept_mk]) | simp | (with_reducible apply wayRead_kept) | (with_reducible apply occurGlobal_kept) | (with_reducible apply count_kept) | (with_reducible apply putWay_kept) | (intro _) | split | (with_reducible refine And.intro ?_ ?_)))

@[simp] theorem foldNow_kept {s₀ : State} (o : LedOp) (r : Nat) (s : State) (hs : Kept s₀ s) : Kept s₀ (foldNow o r s) := hs.trans (by
  unfold foldNow
  repeat' (first | (with_reducible exact Kept.refl _) | (with_reducible assumption) | (simp only [kept_mk]) | simp | (with_reducible apply coldRead_kept) | (with_reducible apply count_kept) | (with_reducible apply setCold_kept) | (with_reducible apply setHot_kept) | (intro _) | split | (with_reducible refine And.intro ?_ ?_)))

@[simp] theorem runOp_kept (s₀ : State) (earlier : List LedOp) (o : LedOp) (s : State) (hs : Kept s₀ s) :
    Kept s₀ (runState (runOp earlier o s)) := hs.trans (by
  simp only [runOp]
  repeat' (first | (with_reducible exact aimSlot_kept ‹_›) | (with_reducible exact Kept.refl _) | (with_reducible assumption) | (simp only [kept_mk]) | simp | (with_reducible apply runFrame_kept) | (with_reducible apply runCmd_kept) | (with_reducible apply runReply_kept) | (with_reducible exact aimSlot_kept ‹_›) | (with_reducible apply setFields_kept) | (with_reducible apply visit_kept) | (with_reducible apply writeNow_kept) | (with_reducible apply foldNow_kept) | (intro _) | split | (with_reducible refine And.intro ?_ ?_) | split))

theorem passSlice_keeps (f : Nat) (l : List Nat) (s : State) : Kept s (passSlice f l s) := by
  induction l generalizing s with
  | nil => exact Kept.refl s
  | cons id t ih =>
    unfold passSlice
    split
    · exact ih s
    · split
      · exact ih s
      · rename_i o _ _
        have h := runOp_kept s ((slc s f).ops.takeWhile (fun x => decide (x.id ≠ id))) (refreshed s o) s (Kept.refl s)
        split
        · rename_i e
          rw [e] at h
          exact Kept.trans (dropOp_kept _ _ _ (useWay_kept _ _ h)) (ih _)
        · rename_i e
          rw [e] at h
          exact Kept.trans (putOp_kept _ _ _ h) (ih _)

@[simp] theorem passSlice_kept (s₀ : State) (f : Nat) (l : List Nat) (s : State) (hs : Kept s₀ s) :
    Kept s₀ (passSlice f l s) :=
  hs.trans (passSlice_keeps f l s)

@[simp] theorem passAll_kept {s₀ : State} (s : State) (hs : Kept s₀ s) : Kept s₀ (passAll s) := hs.trans (by
  unfold passAll
  repeat' (first | (with_reducible exact Kept.refl _) | (with_reducible assumption) | (simp only [kept_mk]) | simp | (with_reducible apply Kept.forEach) | (with_reducible apply passSlice_kept) | (intro _) | split | (with_reducible refine And.intro ?_ ?_)))

theorem settle_keeps (n : Nat) (s : State) : Kept s (settle n s) := by
  induction n generalizing s with
  | zero => exact Kept.refl s
  | succ n ih =>
    unfold settle
    simp only
    split
    · (repeat' (first | (with_reducible exact Kept.refl _) | (with_reducible assumption) | (simp only [kept_mk]) | simp | (with_reducible apply passAll_kept) | (intro _) | split | (with_reducible refine And.intro ?_ ?_)))
    · exact Kept.trans (by (repeat' (first | (with_reducible exact Kept.refl _) | (with_reducible assumption) | (simp only [kept_mk]) | simp | (with_reducible apply passAll_kept) | (intro _) | split | (with_reducible refine And.intro ?_ ?_)))) (ih _)

@[simp] theorem settle_kept (s₀ : State) (n : Nat) (s : State) (hs : Kept s₀ s) :
    Kept s₀ (settle n s) := hs.trans (settle_keeps n s)

@[simp] theorem endSweep_kept {s₀ : State} (s : State) (hs : Kept s₀ s) : Kept s₀ (endSweep s) := hs.trans (by
  unfold endSweep
  repeat' (first | (with_reducible exact Kept.refl _) | (with_reducible assumption) | (simp only [kept_mk]) | simp | (with_reducible apply setSvc_kept) | (with_reducible apply count_kept) | (with_reducible apply Kept.forEach) | (with_reducible apply setBe_kept) | (intro _) | split | (with_reducible refine And.intro ?_ ?_)))

@[simp] theorem runLedger_kept {s₀ : State} (s : State) (hs : Kept s₀ s) : Kept s₀ (runLedger s) := hs.trans (by
  unfold runLedger
  repeat' (first | (with_reducible exact Kept.refl _) | (with_reducible assumption) | (simp only [kept_mk]) | simp | (with_reducible apply endSweep_kept) | (with_reducible apply settle_kept) | (intro _) | split | (with_reducible refine And.intro ?_ ?_)))

@[simp] theorem joinOp_kept {s₀ : State} (o : LedOp) (s : State) (hs : Kept s₀ s) : Kept s₀ (joinOp o s) := hs.trans (by
  unfold joinOp
  repeat' (first | (with_reducible exact Kept.refl _) | (with_reducible assumption) | (simp only [kept_mk]) | simp | (with_reducible apply setSlc_kept) | (with_reducible apply count_kept) | (intro _) | split | (with_reducible refine And.intro ?_ ?_)))

@[simp] theorem enterOp_kept {s₀ : State} (o : LedOp) (s : State) (hs : Kept s₀ s) : Kept s₀ (enterOp o s) := hs.trans (by
  unfold enterOp
  repeat' (first | (with_reducible exact Kept.refl _) | (with_reducible assumption) | (simp only [kept_mk]) | simp | (with_reducible apply runLedger_kept) | (with_reducible apply joinOp_kept) | (intro _) | split | (with_reducible refine And.intro ?_ ?_)))

@[simp] theorem newOp_kept {s₀ : State} (o : LedOp) (s : State) (hs : Kept s₀ s) : Kept s₀ (newOp o s) := hs.trans (by
  unfold newOp
  repeat' (first | (with_reducible exact Kept.refl _) | (with_reducible assumption) | (simp only [kept_mk]) | simp | (with_reducible apply enterOp_kept) | (with_reducible apply setLed_kept) | (intro _) | split | (with_reducible refine And.intro ?_ ?_)))

@[simp] theorem arrive_kept {s₀ : State} (o : LedOp) (ways : List (Nat × Ecc)) (s : State) (hs : Kept s₀ s) : Kept s₀ (arrive o ways s) := hs.trans (by
  unfold arrive
  repeat' (first | (with_reducible exact Kept.refl _) | (with_reducible assumption) | (simp only [kept_mk]) | simp | (with_reducible apply runLedger_kept) | (with_reducible apply Kept.forEach) | (with_reducible apply wayRead_kept) | (with_reducible apply joinOp_kept) | (with_reducible refine Kept.trans ?_ (exhaustOp_kept ‹_›)) | (with_reducible apply enterOp_kept) | (intro _) | split | (with_reducible refine And.intro ?_ ?_)))

@[simp] theorem cross_kept {s₀ : State} (f : Nat) (s : State) (hs : Kept s₀ s) : Kept s₀ (cross f s) := hs.trans (by
  unfold cross
  repeat' (first | (with_reducible exact Kept.refl _) | (with_reducible assumption) | (simp only [kept_mk]) | simp | (with_reducible apply useCycle_kept) | (intro _) | split | (with_reducible refine And.intro ?_ ?_)))

@[simp] theorem ledgerEnter_kept {s₀ : State} (fid : Nat) (f : Frame) (ways : List (Nat × Ecc)) (s : State) (hs : Kept s₀ s) : Kept s₀ (ledgerEnter fid f ways s) := hs.trans (by
  unfold ledgerEnter
  repeat' (first | (with_reducible exact Kept.refl _) | (with_reducible assumption) | (simp only [kept_mk]) | simp | (with_reducible apply cross_kept) | (with_reducible apply count_kept) | (with_reducible apply putFrame_kept) | (with_reducible apply arrive_kept) | (with_reducible apply setLed_kept) | (intro _) | split | (with_reducible refine And.intro ?_ ?_)))

@[simp] theorem cmdOp_kept {s₀ : State} (sl : Nat) (k : Bytes) (slot : Option Nat) (who : LedWho) (ecc : List (Nat × Ecc)) (s : State) (hs : Kept s₀ s) : Kept s₀ (cmdOp sl k slot who ecc s) := hs.trans (by
  unfold cmdOp
  repeat' (first | (with_reducible exact Kept.refl _) | (with_reducible assumption) | (simp only [kept_mk]) | simp | (with_reducible apply newOp_kept) | (with_reducible apply count_kept) | (intro _) | split | (with_reducible refine And.intro ?_ ?_)))

@[simp] theorem namedCmd_kept {s₀ : State} (c : SqCmd) (code : Nat) (a : FlowArgs) (image : Bytes) (ecc : List (Nat × Ecc)) (s : State) (hs : Kept s₀ s) : Kept s₀ (namedCmd c code a image ecc s) := hs.trans (by
  unfold namedCmd
  repeat' (first | (with_reducible exact Kept.refl _) | (with_reducible assumption) | (simp only [kept_mk]) | simp | (with_reducible apply cmdOp_kept) | (with_reducible apply complete_kept) | (intro _) | split | (with_reducible refine And.intro ?_ ?_)))

@[simp] theorem walkStart_kept {s₀ : State} (c : SqCmd) (a : FlowArgs) (cold : List (Nat × Ecc)) (s : State) (hs : Kept s₀ s) : Kept s₀ (walkStart c a cold s) := hs.trans (by
  unfold walkStart
  repeat' (first | (with_reducible exact Kept.refl _) | (with_reducible assumption) | (simp only [kept_mk]) | simp | (with_reducible apply count_kept) | (with_reducible apply complete_kept) | (with_reducible apply cmdOp_kept) | (intro _) | split | (with_reducible refine And.intro ?_ ?_)))

@[simp] theorem insertStart_kept {s₀ : State} (c : SqCmd) (a : FlowArgs) (image aliasKey : Dma) (s : State) (hs : Kept s₀ s) : Kept s₀ (insertStart c a image aliasKey s) := hs.trans (by
  unfold insertStart
  repeat' (first | (with_reducible exact Kept.refl _) | (with_reducible assumption) | (simp only [kept_mk]) | simp | (with_reducible apply complete_kept) | (with_reducible apply cmdOp_kept) | (intro _) | split | (with_reducible refine And.intro ?_ ?_)))

@[simp] theorem updateStart_kept {s₀ : State} (c : SqCmd) (a : FlowArgs) (image : Dma) (s : State) (hs : Kept s₀ s) : Kept s₀ (updateStart c a image s) := hs.trans (by
  unfold updateStart
  repeat' (first | (with_reducible exact Kept.refl _) | (with_reducible assumption) | (simp only [kept_mk]) | simp | (with_reducible apply complete_kept) | (with_reducible apply namedCmd_kept) | (intro _) | split | (with_reducible refine And.intro ?_ ?_)))

@[simp] theorem flowPartner_kept {s₀ : State} (code : Nat) (body data : Bytes) (s : State) (hs : Kept s₀ s) : Kept s₀ (flowPartner code body data s).state := hs.trans (by
  unfold flowPartner
  repeat' (first | (with_reducible exact Kept.refl _) | (with_reducible assumption) | (simp only [kept_mk]) | simp | (with_reducible apply flowDone_kept) | (intro _) | split | (with_reducible refine And.intro ?_ ?_)))

@[simp] theorem readReturn_kept {s₀ : State} (r : Nat) (hot cold : Ecc) (s : State) (hs : Kept s₀ s) : Kept s₀ (readReturn r hot cold s) := hs.trans (by
  unfold readReturn
  repeat' (first | (with_reducible exact Kept.refl _) | (with_reducible assumption) | (simp only [kept_mk]) | simp | (with_reducible apply setSlc_kept) | (with_reducible apply Kept.when) | (with_reducible apply count_kept) | (with_reducible apply runLedger_kept) | (with_reducible apply hotUe_kept) | (with_reducible apply coldRead_kept) | (with_reducible apply installWay_kept) | (intro _) | split | (with_reducible refine And.intro ?_ ?_)))

@[simp] theorem scrubSlot_kept {s₀ : State} (f n : Nat) (hot cold : Ecc) (s : State) (hs : Kept s₀ s) : Kept s₀ (scrubSlot f n hot cold s) := hs.trans (by
  unfold scrubSlot
  repeat' (first | (with_reducible exact Kept.refl _) | (with_reducible assumption) | (simp only [kept_mk]) | simp | (with_reducible apply Kept.when) | (with_reducible apply count_kept) | (with_reducible apply runLedger_kept) | (with_reducible apply hotUe_kept) | (with_reducible apply coldRead_kept) | (intro _) | split | (with_reducible refine And.intro ?_ ?_)))

@[simp] theorem enterDeferred_kept {s₀ : State} (o : LedOp) (s : State) (hs : Kept s₀ s) : Kept s₀ (enterDeferred o s) := hs.trans (by
  unfold enterDeferred
  repeat' (first | (with_reducible exact Kept.refl _) | (with_reducible assumption) | (simp only [kept_mk]) | simp | (with_reducible apply newOp_kept) | (with_reducible apply useCycle_kept) | (intro _) | split | (with_reducible refine And.intro ?_ ?_)))

@[simp] theorem dispatchWay_kept {s₀ : State} (kind r : Nat) (ecc : Ecc) (s : State) (hs : Kept s₀ s) : Kept s₀ (dispatchWay kind r ecc s) := hs.trans (by
  unfold dispatchWay
  repeat' (first | (with_reducible exact Kept.refl _) | (with_reducible assumption) | (simp only [kept_mk]) | simp | (with_reducible apply enterDeferred_kept) | (with_reducible apply countDispatch_kept) | (with_reducible apply endWay_kept) | (intro _) | split | (with_reducible refine And.intro ?_ ?_)))

@[simp] theorem forgetSlot_kept {s₀ : State} (r d : Nat) (s : State) (hs : Kept s₀ s) : Kept s₀ (forgetSlot r d s) := hs.trans (by
  unfold forgetSlot
  repeat' (first | (with_reducible exact Kept.refl _) | (with_reducible assumption) | (simp only [kept_mk]) | simp | (with_reducible apply dropHome_kept) | (intro _) | split | (with_reducible refine And.intro ?_ ?_)))

@[simp] theorem coldFp_kept {s₀ : State} (r : Nat) (s : State) (hs : Kept s₀ s) : Kept s₀ (coldFp r s).2 := hs.trans (by
  unfold coldFp
  repeat' (first | (with_reducible exact Kept.refl _) | (with_reducible assumption) | (simp only [kept_mk]) | simp | (with_reducible apply drawFree_kept) | (intro _) | split | (with_reducible refine And.intro ?_ ?_)))

@[simp] theorem rebuildHome_kept {s₀ : State} (r : Nat) (s : State) (hs : Kept s₀ s) : Kept s₀ (rebuildHome r s) := hs.trans (by
  unfold rebuildHome
  repeat' (first | (with_reducible exact Kept.refl _) | (with_reducible assumption) | (simp only [kept_mk]) | simp | (with_reducible apply setHot_kept) | (with_reducible apply Kept.forEach) | (with_reducible apply coldFp_kept) | (with_reducible apply addHome_kept) | (intro _) | split | (with_reducible refine And.intro ?_ ?_)))

@[simp] theorem loseRecord_kept {s₀ : State} (r : Nat) (cold : Ecc) (s : State) (hs : Kept s₀ s) : Kept s₀ (loseRecord r cold s) := hs.trans (by
  unfold loseRecord
  repeat' (first | (with_reducible exact Kept.refl _) | (with_reducible assumption) | (simp only [kept_mk]) | simp | (with_reducible apply putSlot_kept) | (with_reducible apply count_kept) | (with_reducible apply removeRecord_kept) | (intro _) | split | (with_reducible refine And.intro ?_ ?_)))

@[simp] theorem readForRepair_kept {s₀ : State} (r : Nat) (read : List (Nat × Ecc × Ecc)) (s : State) (hs : Kept s₀ s) : Kept s₀ (readForRepair r read s) := hs.trans (by
  unfold readForRepair
  repeat' (first | (with_reducible exact Kept.refl _) | (with_reducible assumption) | (simp only [kept_mk]) | simp | (with_reducible apply Kept.forEach) | (with_reducible apply countMiss_kept) | (with_reducible apply Kept.when) | (with_reducible apply count_kept) | (with_reducible apply hotUe_kept) | (with_reducible apply coldRead_kept) | (intro _) | split | (with_reducible refine And.intro ?_ ?_)))

@[simp] theorem repairSlot_kept {s₀ : State} (r : Nat) (cold : Ecc) (read : List (Nat × Ecc × Ecc)) (s : State) (hs : Kept s₀ s) : Kept s₀ (repairSlot r cold read s) := hs.trans (by
  unfold repairSlot
  repeat' (first | (with_reducible exact Kept.refl _) | (with_reducible assumption) | (simp only [kept_mk]) | simp | (with_reducible apply dispatched_kept) | (with_reducible apply useCycle_kept) | (with_reducible apply readForRepair_kept) | (with_reducible apply Kept.when) | (with_reducible apply count_kept) | (with_reducible apply Kept.forEach) | (with_reducible apply forgetSlot_kept) | (with_reducible apply loseRecord_kept) | (with_reducible apply rebuildHome_kept) | (with_reducible apply setSlc_kept) | (with_reducible apply runLedger_kept) | (with_reducible apply setPair_kept) | (intro _) | split | (with_reducible refine And.intro ?_ ?_)))

@[simp] theorem ageStep_kept {s₀ : State} (f : Nat) (s : State) (hs : Kept s₀ s) : Kept s₀ (ageStep f s) := hs.trans (by
  unfold ageStep
  repeat' (first | (with_reducible exact Kept.refl _) | (with_reducible assumption) | (simp only [kept_mk]) | simp | (with_reducible apply stepCursor_kept) | (with_reducible apply setSvc_kept) | (with_reducible apply enterDeferred_kept) | (intro _) | split | (with_reducible refine And.intro ?_ ?_)))

@[simp] theorem flushWay_kept {s₀ : State} (bad : Bool) (r : Nat) (w : Way) (s : State) (hs : Kept s₀ s) : Kept s₀ (flushWay bad r w s) := hs.trans (by
  unfold flushWay
  repeat' (first | (with_reducible exact Kept.refl _) | (with_reducible assumption) | (simp only [kept_mk]) | simp | (with_reducible apply endWay_kept) | (with_reducible apply putSlot_kept) | (with_reducible apply occurGlobal_kept) | (with_reducible apply setLed_kept) | (with_reducible apply putWay_kept) | (intro _) | split | (with_reducible refine And.intro ?_ ?_)))

@[simp] theorem sliceFault_kept {s₀ : State} (f : Nat) (s : State) (hs : Kept s₀ s) : Kept s₀ (sliceFault f s) := hs.trans (by
  unfold sliceFault
  repeat' (first | (with_reducible exact Kept.refl _) | (with_reducible assumption) | (simp only [kept_mk]) | simp | (with_reducible apply raise_kept) | (with_reducible apply setSlc_kept) | (with_reducible apply Kept.forEach) | (with_reducible apply failOp_kept) | (intro _) | split | (with_reducible refine And.intro ?_ ?_)))

@[simp] theorem flushEnd_kept {s₀ : State} (f : Nat) (badTags : List Nat) (s : State) (hs : Kept s₀ s) : Kept s₀ (flushEnd f badTags s) := hs.trans (by
  unfold flushEnd
  repeat' (first | (with_reducible exact Kept.refl _) | (with_reducible assumption) | (simp only [kept_mk]) | simp | (with_reducible apply Kept.forEach) | (with_reducible apply flushWay_kept) | (with_reducible apply runLedger_kept) | (with_reducible apply setSlc_kept) | (intro _) | split | (with_reducible refine And.intro ?_ ?_)))

@[simp] theorem rebaseOp_kept {s₀ : State} (o : LedOp) (s : State) (hs : Kept s₀ s) : Kept s₀ (rebaseOp o s) := hs.trans (by
  unfold rebaseOp
  repeat' (first | (with_reducible exact Kept.refl _) | (with_reducible assumption) | (simp only [kept_mk]) | simp | (with_reducible apply unreserveSlot_kept) | (with_reducible apply putOp_kept) | (with_reducible apply exhaust_kept) | (with_reducible apply takeBack_kept) | (with_reducible apply dropOp_kept) | (intro _) | split | (with_reducible refine And.intro ?_ ?_)))

@[simp] theorem rebaseForward_kept {s₀ : State} (o : LedOp) (s : State) (hs : Kept s₀ s) : Kept s₀ (rebaseForward o s) := hs.trans (by
  unfold rebaseForward
  repeat' (first | (with_reducible exact Kept.refl _) | (with_reducible assumption) | (simp only [kept_mk]) | simp | (with_reducible apply exhaust_kept) | (with_reducible apply complete_kept) | (intro _) | split | (with_reducible refine And.intro ?_ ?_)))

@[simp] theorem emptyLedger_kept {s₀ : State} (s : State) (hs : Kept s₀ s) : Kept s₀ (emptyLedger s) := hs.trans (by
  unfold emptyLedger
  repeat' (first | (with_reducible exact Kept.refl _) | (with_reducible assumption) | (simp only [kept_mk]) | simp | (with_reducible apply Kept.forEach) | (with_reducible apply rebaseOp_kept) | (with_reducible apply rebaseForward_kept) | (with_reducible apply setLed_kept) | (with_reducible apply releaseServices_kept) | (with_reducible apply setDw_kept) | (intro _) | split | (with_reducible refine And.intro ?_ ?_)))

@[simp] theorem startRebase_kept {s₀ : State} (slots : Nat) (s : State) (hs : Kept s₀ s) : Kept s₀ (startRebase slots s) := hs.trans (by
  unfold startRebase
  repeat' (first | (with_reducible exact Kept.refl _) | (with_reducible assumption) | (simp only [kept_mk]) | simp | (with_reducible apply wr_kept) | (with_reducible apply emptyLedger_kept) | (intro _) | split | (with_reducible refine And.intro ?_ ?_)))

@[simp] theorem endRebase_kept {s₀ : State} (level : Nat) (s : State) (hs : Kept s₀ s) : Kept s₀ (endRebase level s) := hs.trans (by
  unfold endRebase
  repeat' (first | (with_reducible exact Kept.refl _) | (with_reducible assumption) | (simp only [kept_mk]) | simp | (with_reducible apply raise_kept) | (with_reducible apply wr_kept) | (intro _) | split | (with_reducible refine And.intro ?_ ?_)))

end Sys2Proof.Machine
end

