-- ==== Sys2Proof/Laws/KeptTraffic.lean ====
section
/-! SUPPORT. What every operation keeps (`Kept`): the Traffic Manager, the Fabric, transmission, internal delivery and the Host Interface. -/

set_option linter.all false
set_option Elab.async false

namespace Sys2Proof.Machine
open Sys2Proof

@[simp] theorem setTm_kept {s₀ : State} (t : Tm) (s : State) (hs : Kept s₀ s) : Kept s₀ (setTm t s) := hs.trans (by
  unfold setTm
  repeat' (first | (with_reducible exact Kept.refl _) | (with_reducible assumption) | (simp only [kept_mk]) | simp | (intro _) | split | (with_reducible refine And.intro ?_ ?_)))

@[simp] theorem setFab_kept {s₀ : State} (t : Fab) (s : State) (hs : Kept s₀ s) : Kept s₀ (setFab t s) := hs.trans (by
  unfold setFab
  repeat' (first | (with_reducible exact Kept.refl _) | (with_reducible assumption) | (simp only [kept_mk]) | simp | (intro _) | split | (with_reducible refine And.intro ?_ ?_)))

@[simp] theorem police_kept {s₀ : State} (n : Nat) (f : Frame) (s : State) (hs : Kept s₀ s) : Kept s₀ (police n f s).2 := hs.trans (by
  unfold police
  repeat' (first | (with_reducible exact Kept.refl _) | (with_reducible assumption) | (simp only [kept_mk]) | simp | (with_reducible apply setTm_kept) | (with_reducible apply count_kept) | (with_reducible apply occurGlobal_kept) | (with_reducible apply ctrAdd_kept) | (intro _) | split | (with_reducible refine And.intro ?_ ?_)))

@[simp] theorem refillPolicer_kept {s₀ : State} (n old new : Nat) (s : State) (hs : Kept s₀ s) : Kept s₀ (refillPolicer n old new s) := hs.trans (by
  unfold refillPolicer
  repeat' (first | (with_reducible exact Kept.refl _) | (with_reducible assumption) | (simp only [kept_mk]) | simp | (with_reducible apply setTm_kept) | (intro _) | split | (with_reducible refine And.intro ?_ ?_)))

@[simp] theorem framePolice_kept {s₀ : State} (fid : Nat) (s : State) (hs : Kept s₀ s) : Kept s₀ (framePolice fid s).2 := hs.trans (by
  unfold framePolice
  repeat' (first | (with_reducible exact Kept.refl _) | (with_reducible assumption) | (simp only [kept_mk]) | simp | (with_reducible apply police_kept) | (with_reducible apply leave_kept) | (with_reducible apply putFrame_kept) | (intro _) | split | (with_reducible refine And.intro ?_ ?_)))

@[simp] theorem debitShaper_kept {s₀ : State} (n b : Nat) (s : State) (hs : Kept s₀ s) : Kept s₀ (debitShaper n b s) := hs.trans (by
  unfold debitShaper
  repeat' (first | (with_reducible exact Kept.refl _) | (with_reducible assumption) | (simp only [kept_mk]) | simp | (with_reducible apply setTm_kept) | (intro _) | split | (with_reducible refine And.intro ?_ ?_)))

@[simp] theorem setQueue_kept {s₀ : State} (q : Nat) (l : List Nat) (s : State) (hs : Kept s₀ s) : Kept s₀ (setQueue q l s) := hs.trans (by
  unfold setQueue
  repeat' (first | (with_reducible exact Kept.refl _) | (with_reducible assumption) | (simp only [kept_mk]) | simp | (with_reducible apply setTm_kept) | (intro _) | split | (with_reducible refine And.intro ?_ ?_)))

@[simp] theorem gateJudge_kept {s₀ : State} (q : Nat) (s : State) (hs : Kept s₀ s) : Kept s₀ (gateJudge q s) := hs.trans (by
  unfold gateJudge
  repeat' (first | (with_reducible exact Kept.refl _) | (with_reducible assumption) | (simp only [kept_mk]) | simp | (with_reducible apply count_kept) | (with_reducible apply setTm_kept) | (intro _) | split | (with_reducible refine And.intro ?_ ?_)))

@[simp] theorem egressPolice_kept {s₀ : State} (fid p : Nat) (f : Frame) (s : State) (hs : Kept s₀ s) : Kept s₀ (egressPolice fid p f s).2 := hs.trans (by
  unfold egressPolice
  repeat' (first | (with_reducible exact Kept.refl _) | (with_reducible assumption) | (simp only [kept_mk]) | simp | (with_reducible apply police_kept) | (with_reducible apply putFrame_kept) | (intro _) | split | (with_reducible refine And.intro ?_ ?_)))

@[simp] theorem enqueue_kept {s₀ : State} (fid q : Nat) (s : State) (hs : Kept s₀ s) : Kept s₀ (enqueue fid q s) := hs.trans (by
  unfold enqueue
  repeat' (first | (with_reducible exact Kept.refl _) | (with_reducible assumption) | (simp only [kept_mk]) | simp | (with_reducible apply Kept.when) | (with_reducible apply moveCharge_kept) | (with_reducible apply setTm_kept) | (with_reducible apply setQueue_kept) | (with_reducible apply putFrame_kept) | (with_reducible apply count_kept) | (intro _) | split | (with_reducible refine And.intro ?_ ?_)))

@[simp] theorem admitQueue_kept {s₀ : State} (fid p : Nat) (s : State) (hs : Kept s₀ s) : Kept s₀ (admitQueue fid p s) := hs.trans (by
  unfold admitQueue
  repeat' (first | (with_reducible exact Kept.refl _) | (with_reducible assumption) | (simp only [kept_mk]) | simp | (with_reducible apply putFrame_kept) | (with_reducible apply discardCopy_kept) | (with_reducible apply count_kept) | (with_reducible apply egressPolice_kept) | (with_reducible apply enqueue_kept) | (with_reducible apply Kept.when) | (intro _) | split | (with_reducible refine And.intro ?_ ?_)))

@[simp] theorem takePunt_kept {s₀ : State} (n : Nat) (s : State) (hs : Kept s₀ s) : Kept s₀ (takePunt n s).2 := hs.trans (by
  unfold takePunt
  repeat' (first | (with_reducible exact Kept.refl _) | (with_reducible assumption) | (simp only [kept_mk]) | simp | (with_reducible apply count_kept) | (with_reducible apply useLimit_kept) | (intro _) | split | (with_reducible refine And.intro ?_ ?_)))

@[simp] theorem pushStage1_kept {s₀ : State} (fid : Nat) (s : State) (hs : Kept s₀ s) : Kept s₀ (pushStage1 fid s) := hs.trans (by
  unfold pushStage1
  repeat' (first | (with_reducible exact Kept.refl _) | (with_reducible assumption) | (simp only [kept_mk]) | simp | (with_reducible apply putFrame_kept) | (with_reducible apply setFab_kept) | (intro _) | split | (with_reducible refine And.intro ?_ ?_)))

@[simp] theorem sendCopies_kept {s₀ : State} (l : List Frame) (s : State) (hs : Kept s₀ s) : Kept s₀ (sendCopies l s) := hs.trans (by
  unfold sendCopies
  repeat' (first | (with_reducible exact Kept.refl _) | (with_reducible assumption) | (simp only [kept_mk]) | simp | (with_reducible apply Kept.forEach) | (with_reducible apply newFrame_kept) | (with_reducible apply pushStage1_kept) | (intro _) | split | (with_reducible refine And.intro ?_ ?_)))

@[simp] theorem retireSlot_kept {s₀ : State} (fid : Nat) (f : Frame) (s : State) (hs : Kept s₀ s) : Kept s₀ (retireSlot fid f s) := hs.trans (by
  unfold retireSlot
  repeat' (first | (with_reducible exact Kept.refl _) | (with_reducible assumption) | (simp only [kept_mk]) | simp | (with_reducible apply slotCategory_kept) | (intro _) | split | (with_reducible refine And.intro ?_ ?_)))

@[simp] theorem sendResolved_kept {s₀ : State} (fid : Nat) (f : Frame) (s : State) (hs : Kept s₀ s) : Kept s₀ (sendResolved fid f s) := hs.trans (by
  unfold sendResolved
  repeat' (first | (with_reducible exact Kept.refl _) | (with_reducible assumption) | (simp only [kept_mk]) | simp | (with_reducible apply takePunt_kept) | (with_reducible apply raiseRefs_kept) | (with_reducible apply sendCopies_kept) | (with_reducible apply putFrame_kept) | (with_reducible apply leave_kept) | (with_reducible apply retireSlot_kept) | (with_reducible apply discardFrame_kept) | (with_reducible apply pushStage1_kept) | (intro _) | split | (with_reducible refine And.intro ?_ ?_)))

@[simp] theorem resolveAs_kept {s₀ : State} (fid : Nat) (f : Frame) (s : State) (hs : Kept s₀ s) : Kept s₀ (resolveAs fid f s) := hs.trans (by
  unfold resolveAs
  repeat' (first | (with_reducible exact Kept.refl _) | (with_reducible assumption) | (simp only [kept_mk]) | simp | (with_reducible apply discardFrame_kept) | (with_reducible apply count_kept) | (with_reducible apply sendResolved_kept) | (intro _) | split | (with_reducible refine And.intro ?_ ?_)))

@[simp] theorem resolve_kept {s₀ : State} (fid : Nat) (f : Frame) (s : State) (hs : Kept s₀ s) : Kept s₀ (resolve fid f s) := hs.trans (by
  unfold resolve
  repeat' (first | (with_reducible exact Kept.refl _) | (with_reducible assumption) | (simp only [kept_mk]) | simp | (with_reducible apply resolveAs_kept) | (with_reducible apply discardFrame_kept) | (intro _) | split | (with_reducible refine And.intro ?_ ?_)))

theorem runEgress_keeps (n epoch k : Nat) (l : List (Nat × Ecc)) (s : State) : Kept s (runEgress n epoch k l s).2 := by
  induction l generalizing k s with
  | nil =>
    unfold runEgress
    exact Kept.refl s
  | cons r l ih =>
    cases k with
    | zero => exact Kept.refl s
    | succ k =>
      have h : Kept s (readStore n epoch 3 (r.1 % 2048) r.2 s) := readStore_kept _ _ _ _ _ _ (Kept.refl s)
      unfold runEgress
      dsimp only
      split
      · exact h
      · exact h.trans (ih _ _)

@[simp] theorem runEgress_kept {s₀ : State} (n epoch k : Nat) (l : List (Nat × Ecc)) (s : State) (hs : Kept s₀ s) :
    Kept s₀ (runEgress n epoch k l s).2 := hs.trans (runEgress_keeps n epoch k l s)

@[simp] theorem egressReads_kept {s₀ : State} (n epoch : Nat) (e : EgressRun) (s : State) (hs : Kept s₀ s) :
    Kept s₀ (egressReads n epoch e s).2 := runEgress_kept _ _ _ _ _ hs

@[simp] theorem egressFault_kept {s₀ : State} (n reason : Nat) (s : State) (hs : Kept s₀ s) : Kept s₀ (egressFault n reason s) := hs.trans (by
  unfold egressFault
  repeat' (first | (with_reducible exact Kept.refl _) | (with_reducible assumption) | (simp only [kept_mk]) | simp | (with_reducible apply Kept.when) | (with_reducible apply count_kept) | (intro _) | split | (with_reducible refine And.intro ?_ ?_)))

@[simp] theorem recircFrame_kept {s₀ : State} (fid : Nat) (f : Frame) (e : EgressRun) (s : State) (hs : Kept s₀ s) : Kept s₀ (recircFrame fid f e s) := hs.trans (by
  unfold recircFrame
  repeat' (first | (with_reducible exact Kept.refl _) | (with_reducible assumption) | (simp only [kept_mk]) | simp | (with_reducible apply discardFrame_kept) | (with_reducible apply count_kept) | (with_reducible apply ctrAdd_kept) | (with_reducible apply setPipe_kept) | (with_reducible apply putFrame_kept) | (intro _) | split | (with_reducible refine And.intro ?_ ?_)))

@[simp] theorem recircRun_kept {s₀ : State} (fid : Nat) (f : Frame) (e : EgressRun) (s : State) (hs : Kept s₀ s) : Kept s₀ (recircRun fid f e s) := hs.trans (by
  unfold recircRun
  repeat' (first | (with_reducible exact Kept.refl _) | (with_reducible assumption) | (simp only [kept_mk]) | simp | (with_reducible apply egressReads_kept) | (with_reducible apply discardFrame_kept) | (with_reducible apply egressFault_kept) | (with_reducible apply recircFrame_kept) | (intro _) | split | (with_reducible refine And.intro ?_ ?_)))

@[simp] theorem moveHead_kept {s₀ : State} (n m c fid : Nat) (f : Frame) (s : State) (hs : Kept s₀ s) : Kept s₀ (moveHead n m c fid f s) := hs.trans (by
  unfold moveHead
  repeat' (first | (with_reducible exact Kept.refl _) | (with_reducible assumption) | (simp only [kept_mk]) | simp | (with_reducible apply setFab_kept) | (with_reducible apply putFrame_kept) | (with_reducible apply count_kept) | (with_reducible apply Kept.when) | (intro _) | split | (with_reducible refine And.intro ?_ ?_)))

@[simp] theorem matchOne_kept (s₀ : State) (m c i : Nat) (x : Matching × State) (hs : Kept s₀ x.2) :
    Kept s₀ (matchOne m c i x).2 := hs.trans (by
  unfold matchOne
  repeat' (first | (with_reducible exact Kept.refl _) | (with_reducible assumption) | (simp only [kept_mk]) | simp | (with_reducible apply moveHead_kept) | (intro _) | split | (with_reducible refine And.intro ?_ ?_) | split))

theorem matchAll_keeps (l : List (Nat × Nat × Nat)) (x : Matching × State) :
    Kept x.2 (l.foldl (fun x e => matchOne e.1 e.2.1 e.2.2 (matchOne e.1 e.2.1 e.2.2 x)) x).2 := by
  induction l generalizing x with
  | nil => exact Kept.refl _
  | cons e l ih => exact Kept.trans (by (repeat' (first | (with_reducible exact Kept.refl _) | (with_reducible assumption) | (simp only [kept_mk]) | simp | (with_reducible apply matchOne_kept) | (intro _) | split | (with_reducible refine And.intro ?_ ?_)))) (ih _)

@[simp] theorem stageOne_kept (s₀ s : State) (hs : Kept s₀ s) :
    Kept s₀ (stageOne s) := hs.trans (by
  unfold stageOne
  split
  · (repeat' (first | (with_reducible exact Kept.refl _) | (with_reducible assumption) | (simp only [kept_mk]) | simp | (with_reducible apply matchOne_kept) | (intro _) | split | (with_reducible refine And.intro ?_ ?_)))
  · exact matchAll_keeps _ (_, s))

@[simp] theorem fabricDrop_kept {s₀ : State} (m c fid : Nat) (f : Frame) (s : State) (hs : Kept s₀ s) : Kept s₀ (fabricDrop m c fid f s) := hs.trans (by
  unfold fabricDrop
  repeat' (first | (with_reducible exact Kept.refl _) | (with_reducible assumption) | (simp only [kept_mk]) | simp | (with_reducible apply leave_kept) | (with_reducible apply count_kept) | (intro _) | split | (with_reducible refine And.intro ?_ ?_)))

@[simp] theorem mcReach_kept {s₀ : State} (fid : Nat) (f : Frame) (s : State) (hs : Kept s₀ s) : Kept s₀ (mcReach fid f s) := hs.trans (by
  unfold mcReach
  repeat' (first | (with_reducible exact Kept.refl _) | (with_reducible assumption) | (simp only [kept_mk]) | simp | (with_reducible apply leave_kept) | (with_reducible apply count_kept) | (with_reducible apply framePolice_kept) | (with_reducible apply raiseRefs_kept) | (with_reducible apply modFrame_kept) | (intro _) | split | (with_reducible refine And.intro ?_ ?_)))

@[simp] theorem mcLeave_kept {s₀ : State} (m fid : Nat) (s : State) (hs : Kept s₀ s) : Kept s₀ (mcLeave m fid s) := hs.trans (by
  unfold mcLeave
  repeat' (first | (with_reducible exact Kept.refl _) | (with_reducible assumption) | (simp only [kept_mk]) | simp | (with_reducible apply count_kept) | (with_reducible apply dropFrame_kept) | (with_reducible apply unlink_kept) | (intro _) | split | (with_reducible refine And.intro ?_ ?_)))

@[simp] theorem mcTaken_kept {s₀ : State} (m fid j : Nat) (f : Frame) (s : State) (hs : Kept s₀ s) : Kept s₀ (mcTaken m fid j f s) := hs.trans (by
  unfold mcTaken
  repeat' (first | (with_reducible exact Kept.refl _) | (with_reducible assumption) | (simp only [kept_mk]) | simp | (with_reducible apply mcLeave_kept) | (with_reducible apply putFrame_kept) | (intro _) | split | (with_reducible refine And.intro ?_ ?_)))

@[simp] theorem addSend_kept {s₀ : State} (m : Nat) (mc : Option Nat) (s : State) (hs : Kept s₀ s) : Kept s₀ (addSend m mc s) := hs.trans (by
  unfold addSend
  repeat' (first | (with_reducible exact Kept.refl _) | (with_reducible assumption) | (simp only [kept_mk]) | simp | (with_reducible apply setFab_kept) | (intro _) | split | (with_reducible refine And.intro ?_ ?_)))

@[simp] theorem deliverUnicast_kept {s₀ : State} (j fid : Nat) (s : State) (hs : Kept s₀ s) : Kept s₀ (deliverUnicast j fid s) := hs.trans (by
  unfold deliverUnicast
  repeat' (first | (with_reducible exact Kept.refl _) | (with_reducible assumption) | (simp only [kept_mk]) | simp | (with_reducible apply putFrame_kept) | (with_reducible apply count_kept) | (with_reducible apply setFab_kept) | (with_reducible apply framePolice_kept) | (with_reducible apply admitQueue_kept) | (intro _) | split | (with_reducible refine And.intro ?_ ?_)))

@[simp] theorem deliverMulticast_kept {s₀ : State} (m j fid : Nat) (s : State) (hs : Kept s₀ s) : Kept s₀ (deliverMulticast m j fid s) := hs.trans (by
  unfold deliverMulticast
  repeat' (first | (with_reducible exact Kept.refl _) | (with_reducible assumption) | (simp only [kept_mk]) | simp | (with_reducible apply newFrame_kept) | (with_reducible apply setFab_kept) | (with_reducible apply mcTaken_kept) | (with_reducible apply count_kept) | (intro _) | split | (with_reducible refine And.intro ?_ ?_)))

@[simp] theorem acceptOne_kept {s₀ : State} (j : Nat) (s : State) (hs : Kept s₀ s) : Kept s₀ (acceptOne j s) := hs.trans (by
  unfold acceptOne
  repeat' (first | (with_reducible exact Kept.refl _) | (with_reducible assumption) | (simp only [kept_mk]) | simp | (with_reducible apply deliverMulticast_kept) | (with_reducible apply addSend_kept) | (with_reducible apply setFab_kept) | (with_reducible apply deliverUnicast_kept) | (with_reducible apply count_kept) | (intro _) | split | (with_reducible refine And.intro ?_ ?_)))

@[simp] theorem replicateTo_kept {s₀ : State} (f : Frame) (s : State) (p : Nat) (hs : Kept s₀ s) : Kept s₀ (replicateTo f s p) := hs.trans (by
  unfold replicateTo
  repeat' (first | (with_reducible exact Kept.refl _) | (with_reducible assumption) | (simp only [kept_mk]) | simp | (with_reducible apply newFrame_kept) | (with_reducible apply admitQueue_kept) | (intro _) | split | (with_reducible refine And.intro ?_ ?_)))

@[simp] theorem replicate_kept {s₀ : State} (j fid : Nat) (f : Frame) (record : Nat) (s : State) (hs : Kept s₀ s) : Kept s₀ (replicate j fid f record s) := hs.trans (by
  unfold replicate
  repeat' (first | (with_reducible exact Kept.refl _) | (with_reducible assumption) | (simp only [kept_mk]) | simp | (with_reducible apply raiseRefs_kept) | (with_reducible apply Kept.when) | (with_reducible apply releaseFrame_kept) | (with_reducible apply setFab_kept) | (with_reducible apply Kept.forEach) | (with_reducible apply replicateTo_kept) | (with_reducible apply dropFrame_kept) | (with_reducible apply releaseBuffer_kept) | (intro _) | split | (with_reducible refine And.intro ?_ ?_)))

@[simp] theorem setDeficit_kept {s₀ : State} (q d : Nat) (s : State) (hs : Kept s₀ s) : Kept s₀ (setDeficit q d s) := hs.trans (by
  unfold setDeficit
  repeat' (first | (with_reducible exact Kept.refl _) | (with_reducible assumption) | (simp only [kept_mk]) | simp | (with_reducible apply setTm_kept) | (intro _) | split | (with_reducible refine And.intro ?_ ?_)))

@[simp] theorem drrPay_kept {s₀ : State} (p w : Nat) (cands : List Nat) (s : State) (hs : Kept s₀ s) : Kept s₀ (drrPay p w cands s) := hs.trans (by
  unfold drrPay
  repeat' (first | (with_reducible exact Kept.refl _) | (with_reducible assumption) | (simp only [kept_mk]) | simp | (with_reducible apply setDeficit_kept) | (with_reducible apply Kept.forEach) | (intro _) | split | (with_reducible refine And.intro ?_ ?_)))

@[simp] theorem takeSelection_kept {s₀ : State} (j p q : Nat) (cands : List Nat) (rank : Nat) (s : State) (hs : Kept s₀ s) : Kept s₀ (takeSelection j p q cands rank s) := hs.trans (by
  unfold takeSelection
  repeat' (first | (with_reducible exact Kept.refl _) | (with_reducible assumption) | (simp only [kept_mk]) | simp | (with_reducible apply drrPay_kept) | (with_reducible apply setQueue_kept) | (with_reducible apply Kept.when) | (with_reducible apply setDeficit_kept) | (with_reducible apply putFrame_kept) | (with_reducible apply setTm_kept) | (with_reducible apply debitShaper_kept) | (intro _) | split | (with_reducible refine And.intro ?_ ?_)))

@[simp] theorem selectOne_kept {s₀ : State} (j : Nat) (s : State) (hs : Kept s₀ s) : Kept s₀ (selectOne j s) := hs.trans (by
  unfold selectOne
  repeat' (first | (with_reducible exact Kept.refl _) | (with_reducible assumption) | (simp only [kept_mk]) | simp | (with_reducible apply takeSelection_kept) | (intro _) | split | (with_reducible refine And.intro ?_ ?_)))

@[simp] theorem discardDead_kept {s₀ : State} (p : Nat) (s : State) (hs : Kept s₀ s) : Kept s₀ (discardDead p s) := hs.trans (by
  unfold discardDead
  repeat' (first | (with_reducible exact Kept.refl _) | (with_reducible assumption) | (simp only [kept_mk]) | simp | (with_reducible apply Kept.forEach) | (with_reducible apply discardCopy_kept) | (with_reducible apply count_kept) | (intro _) | split | (with_reducible refine And.intro ?_ ?_)))

@[simp] theorem startFrame_kept {s₀ : State} (p fid : Nat) (f : Frame) (b : Bytes) (ecc : Ecc) (s : State) (hs : Kept s₀ s) : Kept s₀ (startFrame p fid f b ecc s) := hs.trans (by
  unfold startFrame
  repeat' (first | (with_reducible exact Kept.refl _) | (with_reducible assumption) | (simp only [kept_mk]) | simp | (with_reducible apply setPort_kept) | (with_reducible apply Kept.when) | (with_reducible apply raise_kept) | (with_reducible apply count_kept) | (with_reducible apply ptpEgress_kept) | (with_reducible apply discardCopy_kept) | (with_reducible apply emit_kept) | (with_reducible apply transmit_kept) | (with_reducible apply putFrame_kept) | (with_reducible apply ctrAdd_kept) | (intro _) | split | (with_reducible refine And.intro ?_ ?_)))

@[simp] theorem startSelected_kept {s₀ : State} (p fid : Nat) (f : Frame) (e : EgressRun) (ecc : Ecc) (s : State) (hs : Kept s₀ s) : Kept s₀ (startSelected p fid f e ecc s) := hs.trans (by
  unfold startSelected
  repeat' (first | (with_reducible exact Kept.refl _) | (with_reducible assumption) | (simp only [kept_mk]) | simp | (with_reducible apply setTm_kept) | (with_reducible apply discardCopy_kept) | (with_reducible apply count_kept) | (with_reducible apply egressReads_kept) | (with_reducible apply egressFault_kept) | (with_reducible apply startFrame_kept) | (intro _) | split | (with_reducible refine And.intro ?_ ?_)))

@[simp] theorem contribute_kept {s₀ : State} (p : Nat) (f : Frame) (s : State) (hs : Kept s₀ s) : Kept s₀ (contribute p f s) := hs.trans (by
  unfold contribute
  repeat' (first | (with_reducible exact Kept.refl _) | (with_reducible assumption) | (simp only [kept_mk]) | simp | (with_reducible apply replicate_kept) | (with_reducible apply count_kept) | (with_reducible apply setPair_kept) | (intro _) | split | (with_reducible refine And.intro ?_ ?_)))

@[simp] theorem endFrame_kept {s₀ : State} (p fid : Nat) (f : Frame) (s : State) (hs : Kept s₀ s) : Kept s₀ (endFrame p fid f s) := hs.trans (by
  unfold endFrame
  repeat' (first | (with_reducible exact Kept.refl _) | (with_reducible assumption) | (simp only [kept_mk]) | simp | (with_reducible apply setPort_kept) | (with_reducible apply count_kept) | (with_reducible apply ctrAdd_kept) | (with_reducible apply occur_kept) | (with_reducible apply Kept.when) | (with_reducible apply postStamp_kept) | (with_reducible apply leave_kept) | (with_reducible apply sampleLeave_kept) | (with_reducible apply contribute_kept) | (intro _) | split | (with_reducible refine And.intro ?_ ?_)))

@[simp] theorem puntLost_kept {s₀ : State} (counter : Nat) (s : State) (hs : Kept s₀ s) : Kept s₀ (puntLost counter s) := hs.trans (by
  unfold puntLost
  repeat' (first | (with_reducible exact Kept.refl _) | (with_reducible assumption) | (simp only [kept_mk]) | simp | (with_reducible apply raiseOnce_kept) | (with_reducible apply count_kept) | (intro _) | split | (with_reducible refine And.intro ?_ ?_)))

@[simp] theorem puntToHost_kept {s₀ : State} (f : Frame) (s : State) (hs : Kept s₀ s) : Kept s₀ (puntToHost f s) := hs.trans (by
  unfold puntToHost
  repeat' (first | (with_reducible exact Kept.refl _) | (with_reducible assumption) | (simp only [kept_mk]) | simp | (with_reducible apply puntLost_kept) | (with_reducible apply unreserve_kept) | (with_reducible apply setSq_kept) | (with_reducible apply hostWrite_kept) | (with_reducible apply count_kept) | (with_reducible apply postEntry_kept) | (intro _) | split | (with_reducible refine And.intro ?_ ?_)))

@[simp] theorem punt_kept {s₀ : State} (f : Frame) (s : State) (hs : Kept s₀ s) : Kept s₀ (punt f s) := hs.trans (by
  unfold punt
  repeat' (first | (with_reducible exact Kept.refl _) | (with_reducible assumption) | (simp only [kept_mk]) | simp | (with_reducible apply puntToHost_kept) | (with_reducible apply count_kept) | (with_reducible apply sendObserver_kept) | (intro _) | split | (with_reducible refine And.intro ?_ ?_)))

@[simp] theorem countInternal_kept {s₀ : State} (p : Nat) (f : Frame) (s : State) (hs : Kept s₀ s) : Kept s₀ (countInternal p f s) := hs.trans (by
  unfold countInternal
  repeat' (first | (with_reducible exact Kept.refl _) | (with_reducible assumption) | (simp only [kept_mk]) | simp | (with_reducible apply count_kept) | (with_reducible apply ctrAdd_kept) | (intro _) | split | (with_reducible refine And.intro ?_ ?_)))

@[simp] theorem captureIn_kept {s₀ : State} (fid : Nat) (s : State) (hs : Kept s₀ s) : Kept s₀ (captureIn fid s) := hs.trans (by
  unfold captureIn
  repeat' (first | (with_reducible exact Kept.refl _) | (with_reducible assumption) | (simp only [kept_mk]) | simp | (with_reducible apply leave_kept) | (with_reducible apply count_kept) | (intro _) | split | (with_reducible refine And.intro ?_ ?_)))

@[simp] theorem handOver_kept {s₀ : State} (fid : Nat) (f : Frame) (s : State) (hs : Kept s₀ s) : Kept s₀ (handOver fid f s) := hs.trans (by
  unfold handOver
  repeat' (first | (with_reducible exact Kept.refl _) | (with_reducible assumption) | (simp only [kept_mk]) | simp | (with_reducible apply countInternal_kept) | (with_reducible apply captureIn_kept) | (with_reducible apply leave_kept) | (with_reducible apply sendPair_kept) | (with_reducible apply sampleLeave_kept) | (with_reducible apply punt_kept) | (intro _) | split | (with_reducible refine And.intro ?_ ?_)))

@[simp] theorem ringWrite_kept {s₀ : State} (f : Frame) (s : State) (hs : Kept s₀ s) : Kept s₀ (ringWrite f s) := hs.trans (by
  unfold ringWrite
  repeat' (first | (with_reducible exact Kept.refl _) | (with_reducible assumption) | (simp only [kept_mk]) | simp | (with_reducible apply count_kept) | (with_reducible apply Kept.when) | (with_reducible apply wr_kept) | (intro _) | split | (with_reducible refine And.intro ?_ ?_)))

@[simp] theorem wroteRing_kept {s₀ : State} (s : State) (hs : Kept s₀ s) : Kept s₀ (wroteRing s) := hs.trans (by
  unfold wroteRing
  repeat' (first | (with_reducible exact Kept.refl _) | (with_reducible assumption) | (simp only [kept_mk]) | simp | (intro _) | split | (with_reducible refine And.intro ?_ ?_)))

@[simp] theorem compose_kept {s₀ : State} (fid : Nat) (f : Frame) (s : State) (hs : Kept s₀ s) : Kept s₀ (compose fid f s) := hs.trans (by
  unfold compose
  repeat' (first | (with_reducible exact Kept.refl _) | (with_reducible assumption) | (simp only [kept_mk]) | simp | (with_reducible apply leave_kept) | (with_reducible apply count_kept) | (with_reducible refine Kept.trans ?_ (grantInternal_kept ‹_›)) | (with_reducible apply releaseBuffer_kept) | (with_reducible apply sampleLeave_kept) | (with_reducible apply wroteRing_kept) | (with_reducible apply ringWrite_kept) | (intro _) | split | (with_reducible refine And.intro ?_ ?_)))

@[simp] theorem capReadDone_kept {s₀ : State} (c : SqCmd) (n : Nat) (s : State) (hs : Kept s₀ s) : Kept s₀ (capReadDone c n s).state := hs.trans (by
  unfold capReadDone
  repeat' (first | (with_reducible exact Kept.refl _) | (with_reducible assumption) | (simp only [kept_mk]) | simp | (rw [failed_state]) | (with_reducible apply issue_kept) | (intro _) | split | (with_reducible refine And.intro ?_ ?_)))

@[simp] theorem capPartner_kept {s₀ : State} (c : SqCmd) (body : Bytes) (s : State) (hs : Kept s₀ s) : Kept s₀ (capPartner c body s).state := hs.trans (by
  unfold capPartner
  repeat' (first | (with_reducible exact Kept.refl _) | (with_reducible assumption) | (simp only [kept_mk]) | simp | (with_reducible apply capReadDone_kept) | (intro _) | split | (with_reducible refine And.intro ?_ ?_)))

@[simp] theorem captureCopy_kept {s₀ : State} (o : DwOp) (s : State) (hs : Kept s₀ s) : Kept s₀ (captureCopy o s) := hs.trans (by
  unfold captureCopy
  repeat' (first | (with_reducible exact Kept.refl _) | (with_reducible assumption) | (simp only [kept_mk]) | simp | (with_reducible apply wr_kept) | (with_reducible apply complete_kept) | (with_reducible apply writeData_kept) | (intro _) | split | (with_reducible refine And.intro ?_ ?_)))

@[simp] theorem setHst_kept {s₀ : State} (h : Hst) (s : State) (hs : Kept s₀ s) : Kept s₀ (setHst h s) := hs.trans (by
  unfold setHst
  repeat' (first | (with_reducible exact Kept.refl _) | (with_reducible assumption) | (simp only [kept_mk]) | simp | (intro _) | split | (with_reducible refine And.intro ?_ ?_)))

@[simp] theorem wakeLink_kept {s₀ : State} (s : State) (hs : Kept s₀ s) : Kept s₀ (wakeLink s) := hs.trans (by
  unfold wakeLink
  repeat' (first | (with_reducible exact Kept.refl _) | (with_reducible assumption) | (simp only [kept_mk]) | simp | (with_reducible apply setHst_kept) | (intro _) | split | (with_reducible refine And.intro ?_ ?_)))

@[simp] theorem stallSq_kept {s₀ : State} (q : Nat) (s : State) (hs : Kept s₀ s) : Kept s₀ (stallSq q s) := hs.trans (by
  unfold stallSq
  repeat' (first | (with_reducible exact Kept.refl _) | (with_reducible assumption) | (simp only [kept_mk]) | simp | (with_reducible apply raise_kept) | (with_reducible apply count_kept) | (with_reducible apply setSq_kept) | (intro _) | split | (with_reducible refine And.intro ?_ ?_)))

@[simp] theorem stallCq_kept {s₀ : State} (q : Nat) (s : State) (hs : Kept s₀ s) : Kept s₀ (stallCq q s) := hs.trans (by
  unfold stallCq
  repeat' (first | (with_reducible exact Kept.refl _) | (with_reducible assumption) | (simp only [kept_mk]) | simp | (with_reducible apply raise_kept) | (with_reducible apply count_kept) | (with_reducible apply setCq_kept) | (intro _) | split | (with_reducible refine And.intro ?_ ?_)))

@[simp] theorem readSq_kept {s₀ : State} (q : Nat) (s : State) (hs : Kept s₀ s) : Kept s₀ (readSq q s) := hs.trans (by
  unfold readSq
  repeat' (first | (with_reducible exact Kept.refl _) | (with_reducible assumption) | (simp only [kept_mk]) | simp | (with_reducible apply setSq_kept) | (with_reducible apply count_kept) | (with_reducible apply wakeLink_kept) | (intro _) | split | (with_reducible refine And.intro ?_ ?_)))

@[simp] theorem readCq_kept {s₀ : State} (q : Nat) (s : State) (hs : Kept s₀ s) : Kept s₀ (readCq q s) := hs.trans (by
  unfold readCq
  repeat' (first | (with_reducible exact Kept.refl _) | (with_reducible assumption) | (simp only [kept_mk]) | simp | (with_reducible apply setCq_kept) | (with_reducible apply count_kept) | (with_reducible apply wakeLink_kept) | (intro _) | split | (with_reducible refine And.intro ?_ ?_)))

@[simp] theorem sqIndex_kept {s₀ : State} (q : Nat) (block : Dma) (s : State) (hs : Kept s₀ s) : Kept s₀ (sqIndex q block s) := hs.trans (by
  unfold sqIndex
  repeat' (first | (with_reducible exact Kept.refl _) | (with_reducible assumption) | (simp only [kept_mk]) | simp | (with_reducible apply setSq_kept) | (with_reducible apply stallSq_kept) | (intro _) | split | (with_reducible refine And.intro ?_ ?_)))

@[simp] theorem cqIndex_kept {s₀ : State} (q : Nat) (block : Dma) (s : State) (hs : Kept s₀ s) : Kept s₀ (cqIndex q block s) := hs.trans (by
  unfold cqIndex
  repeat' (first | (with_reducible exact Kept.refl _) | (with_reducible assumption) | (simp only [kept_mk]) | simp | (with_reducible apply setCq_kept) | (with_reducible apply stallCq_kept) | (intro _) | split | (with_reducible refine And.intro ?_ ?_)))

@[simp] theorem sqReadEnds_kept {s₀ : State} (q : Nat) (block : Dma) (s : State) (hs : Kept s₀ s) : Kept s₀ (sqReadEnds q block s) := hs.trans (by
  unfold sqReadEnds
  repeat' (first | (with_reducible exact Kept.refl _) | (with_reducible assumption) | (simp only [kept_mk]) | simp | (with_reducible apply sqIndex_kept) | (with_reducible apply setSq_kept) | (with_reducible apply readSq_kept) | (intro _) | split | (with_reducible refine And.intro ?_ ?_)))

@[simp] theorem cqReadEnds_kept {s₀ : State} (q : Nat) (block : Dma) (s : State) (hs : Kept s₀ s) : Kept s₀ (cqReadEnds q block s) := hs.trans (by
  unfold cqReadEnds
  repeat' (first | (with_reducible exact Kept.refl _) | (with_reducible assumption) | (simp only [kept_mk]) | simp | (with_reducible apply cqIndex_kept) | (with_reducible apply setCq_kept) | (with_reducible apply readCq_kept) | (intro _) | split | (with_reducible refine And.intro ?_ ?_)))

@[simp] theorem passUnits_kept {s₀ : State} (q n : Nat) (s : State) (hs : Kept s₀ s) : Kept s₀ (passUnits q n s) := hs.trans (by
  unfold passUnits
  repeat' (first | (with_reducible exact Kept.refl _) | (with_reducible assumption) | (simp only [kept_mk]) | simp | (with_reducible apply hostWrite_kept) | (with_reducible apply setSq_kept) | (intro _) | split | (with_reducible refine And.intro ?_ ?_)))

@[simp] theorem entryFails_kept {s₀ : State} (q : Nat) (c : SqCmd) (status area skipped : Nat) (s : State) (hs : Kept s₀ s) : Kept s₀ (entryFails q c status area skipped s) := hs.trans (by
  unfold entryFails
  repeat' (first | (with_reducible exact Kept.refl _) | (with_reducible assumption) | (simp only [kept_mk]) | simp | (with_reducible apply ctrAdd_kept) | (with_reducible apply passUnits_kept) | (with_reducible apply finishDeletion_kept) | (with_reducible apply endCommand_kept) | (intro _) | split | (with_reducible refine And.intro ?_ ?_)))

@[simp] theorem startEntry_kept {s₀ : State} (q len : Nat) (e : Bytes) (h : Nat) (s : State) (hs : Kept s₀ s) : Kept s₀ (startEntry q len e h s) := hs.trans (by
  unfold startEntry
  repeat' (first | (with_reducible exact Kept.refl _) | (with_reducible assumption) | (simp only [kept_mk]) | simp | (with_reducible apply entryFails_kept) | (with_reducible apply releaseBuffer_kept) | (with_reducible apply setCq_kept) | (with_reducible apply passUnits_kept) | (with_reducible apply setHst_kept) | (intro _) | split | (with_reducible refine And.intro ?_ ?_)))

@[simp] theorem entryWaits_kept {s₀ : State} (q : Nat) (x : Sq) (units : Nat) (fenced : Bool) (s : State) (hs : Kept s₀ s) : Kept s₀ (entryWaits q x units fenced s) := hs.trans (by
  unfold entryWaits
  repeat' (first | (with_reducible exact Kept.refl _) | (with_reducible assumption) | (simp only [kept_mk]) | simp | (with_reducible apply setHst_kept) | (with_reducible apply setSq_kept) | (intro _) | split | (with_reducible refine And.intro ?_ ?_)))

@[simp] theorem fetchEntry_kept {s₀ : State} (q : Nat) (x : Sq) (unit : Bytes) (rest : Dma) (s : State) (hs : Kept s₀ s) : Kept s₀ (fetchEntry q x unit rest s) := hs.trans (by
  unfold fetchEntry
  repeat' (first | (with_reducible exact Kept.refl _) | (with_reducible assumption) | (simp only [kept_mk]) | simp | (with_reducible apply entryWaits_kept) | (with_reducible apply setHst_kept) | (with_reducible refine Kept.trans ?_ (grantInternal_kept ‹_›)) | (with_reducible apply count_kept) | (with_reducible apply entryFails_kept) | (with_reducible apply releaseBuffer_kept) | (with_reducible apply startEntry_kept) | (intro _) | split | (with_reducible refine And.intro ?_ ?_)))

@[simp] theorem adminCmd_kept {s₀ : State} {c : SqCmd} {f : State → State} {s : State}
    (hf : ∀ t, Kept t (f t)) (hs : Kept s₀ s) : Kept s₀ (adminCmd c f s) := hs.trans (by
  unfold adminCmd
  split
  · exact Kept.refl s
  · split
    · exact complete_kept _ _ _ _ _ (Kept.refl s)
    · exact hf s)

@[simp] theorem newSq_kept {s₀ : State} (a : SqArgs) (s : State) (hs : Kept s₀ s) : Kept s₀ (newSq a s) := hs.trans (by
  unfold newSq
  repeat' (first | (with_reducible exact Kept.refl _) | (with_reducible assumption) | (simp only [kept_mk]) | simp | (with_reducible apply hostWrite_kept) | (with_reducible apply setSq_kept) | (intro _) | split | (with_reducible refine And.intro ?_ ?_)))

@[simp] theorem deleteSq_kept {s₀ : State} (c : SqCmd) (q : Nat) (s : State) (hs : Kept s₀ s) : Kept s₀ (deleteSq c q s) := hs.trans (by
  unfold deleteSq
  repeat' (first | (with_reducible exact Kept.refl _) | (with_reducible assumption) | (simp only [kept_mk]) | simp | (with_reducible apply complete_kept) | (with_reducible apply finishDeletion_kept) | (with_reducible apply setSq_kept) | (intro _) | split | (with_reducible refine And.intro ?_ ?_)))

@[simp] theorem newCq_kept {s₀ : State} (a : CqArgs) (s : State) (hs : Kept s₀ s) : Kept s₀ (newCq a s) := hs.trans (by
  unfold newCq
  repeat' (first | (with_reducible exact Kept.refl _) | (with_reducible assumption) | (simp only [kept_mk]) | simp | (with_reducible apply hostWrite_kept) | (with_reducible apply setCq_kept) | (intro _) | split | (with_reducible refine And.intro ?_ ?_)))

@[simp] theorem removeCq_kept {s₀ : State} (q : Nat) (s : State) (hs : Kept s₀ s) : Kept s₀ (removeCq q s) := hs.trans (by
  unfold removeCq
  repeat' (first | (with_reducible exact Kept.refl _) | (with_reducible assumption) | (simp only [kept_mk]) | simp | (with_reducible apply setHst_kept) | (with_reducible apply Kept.forEach) | (with_reducible apply releaseStaging_kept) | (intro _) | split | (with_reducible refine And.intro ?_ ?_)))

@[simp] theorem deleteCq_kept {s₀ : State} (c : SqCmd) (q : Nat) (s : State) (hs : Kept s₀ s) : Kept s₀ (deleteCq c q s) := hs.trans (by
  unfold deleteCq
  repeat' (first | (with_reducible exact Kept.refl _) | (with_reducible assumption) | (simp only [kept_mk]) | simp | (with_reducible apply complete_kept) | (with_reducible apply completeOk_kept) | (with_reducible apply removeCq_kept) | (intro _) | split | (with_reducible refine And.intro ?_ ?_)))

@[simp] theorem modifyCq_kept {s₀ : State} (c : SqCmd) (a : CqArgs) (s : State) (hs : Kept s₀ s) : Kept s₀ (modifyCq c a s) := hs.trans (by
  unfold modifyCq
  repeat' (first | (with_reducible exact Kept.refl _) | (with_reducible assumption) | (simp only [kept_mk]) | simp | (with_reducible apply complete_kept) | (with_reducible apply completeOk_kept) | (with_reducible apply setCq_kept) | (intro _) | split | (with_reducible refine And.intro ?_ ?_)))

@[simp] theorem resumeCq_kept {s₀ : State} (q : Nat) (s : State) (hs : Kept s₀ s) : Kept s₀ (resumeCq q s) := hs.trans (by
  unfold resumeCq
  repeat' (first | (with_reducible exact Kept.refl _) | (with_reducible assumption) | (simp only [kept_mk]) | simp | (with_reducible apply signalByCount_kept) | (with_reducible apply writeTail_kept) | (with_reducible apply writeHeld_kept) | (intro _) | split | (with_reducible refine And.intro ?_ ?_)))

@[simp] theorem restartSq_kept {s₀ : State} (c : SqCmd) (q : Nat) (block : Dma) (s : State) (hs : Kept s₀ s) : Kept s₀ (restartSq c q block s) := hs.trans (by
  unfold restartSq
  repeat' (first | (with_reducible exact Kept.refl _) | (with_reducible assumption) | (simp only [kept_mk]) | simp | (with_reducible apply complete_kept) | (with_reducible apply completeOk_kept) | (with_reducible apply setSq_kept) | (with_reducible apply stallSq_kept) | (intro _) | split | (with_reducible refine And.intro ?_ ?_)))

@[simp] theorem restartCq_kept {s₀ : State} (c : SqCmd) (q : Nat) (block : Dma) (s : State) (hs : Kept s₀ s) : Kept s₀ (restartCq c q block s) := hs.trans (by
  unfold restartCq
  repeat' (first | (with_reducible exact Kept.refl _) | (with_reducible assumption) | (simp only [kept_mk]) | simp | (with_reducible apply complete_kept) | (with_reducible apply completeOk_kept) | (with_reducible apply resumeCq_kept) | (with_reducible apply setCq_kept) | (with_reducible apply stallCq_kept) | (intro _) | split | (with_reducible refine And.intro ?_ ?_)))

@[simp] theorem adminStart_kept {s₀ : State} (s : State) (hs : Kept s₀ s) : Kept s₀ (adminStart s) := hs.trans (by
  unfold adminStart
  repeat' (first | (with_reducible exact Kept.refl _) | (with_reducible assumption) | (simp only [kept_mk]) | simp | (with_reducible apply newCq_kept) | (with_reducible apply newSq_kept) | (intro _) | split | (with_reducible refine And.intro ?_ ?_)))

@[simp] theorem orphanAll_kept {s₀ : State} (keep : Bool) (was s : State) (hs : Kept s₀ s) : Kept s₀ (orphanAll keep was s) := hs.trans (by
  unfold orphanAll
  repeat' (first | (with_reducible exact Kept.refl _) | (with_reducible assumption) | (simp only [kept_mk]) | simp | (intro _) | split | (with_reducible refine And.intro ?_ ?_)))

@[simp] theorem deleteQueues_kept {s₀ : State} (keep : Bool) (s : State) (hs : Kept s₀ s) : Kept s₀ (deleteQueues keep s) := hs.trans (by
  unfold deleteQueues
  repeat' (first | (with_reducible exact Kept.refl _) | (with_reducible assumption) | (simp only [kept_mk]) | simp | (with_reducible apply Kept.forEach) | (with_reducible apply releaseStaging_kept) | (with_reducible apply orphanAll_kept) | (with_reducible apply setHst_kept) | (intro _) | split | (with_reducible refine And.intro ?_ ?_)))

@[simp] theorem writeAdminEnable_kept {s₀ : State} (v : Nat) (s : State) (hs : Kept s₀ s) : Kept s₀ (writeAdminEnable v s) := hs.trans (by
  unfold writeAdminEnable
  repeat' (first | (with_reducible exact Kept.refl _) | (with_reducible assumption) | (simp only [kept_mk]) | simp | (with_reducible apply wr_kept) | (with_reducible apply adminStart_kept) | (with_reducible apply deleteQueues_kept) | (intro _) | split | (with_reducible refine And.intro ?_ ?_)))

@[simp] theorem hostReset_kept {s₀ : State} (s : State) (hs : Kept s₀ s) : Kept s₀ (hostReset s) := hs.trans (by
  unfold hostReset
  extract_lets t h
  have ht : Kept s t := deleteQueues_kept _ _ (Kept.refl s)
  exact ht.trans ⟨rfl, rfl, fun _ => Nat.le_refl _, Nat.le_refl _, List.prefix_refl _, tabRising_filter _ _, id⟩)

@[simp] theorem enterFrame_kept {s₀ : State} (p n cls : Nat) (b : Bytes) (inj : Option SqCmd) (s : State) (hs : Kept s₀ s) : Kept s₀ (enterFrame p n cls b inj s) := hs.trans (by
  unfold enterFrame
  repeat' (first | (with_reducible exact Kept.refl _) | (with_reducible assumption) | (simp only [kept_mk]) | simp | (with_reducible apply newFrame_kept) | (with_reducible apply setPipe_kept) | (intro _) | split | (with_reducible refine And.intro ?_ ?_)))

@[simp] theorem forwardInject_kept {s₀ : State} (n cls : Nat) (b : Bytes) (s : State) (hs : Kept s₀ s) : Kept s₀ (forwardInject n cls b s) := hs.trans (by
  unfold forwardInject
  repeat' (first | (with_reducible exact Kept.refl _) | (with_reducible assumption) | (simp only [kept_mk]) | simp | (with_reducible apply sendPair_kept) | (intro _) | split | (with_reducible refine And.intro ?_ ?_)))

@[simp] theorem injectFrame_kept {s₀ : State} (c : SqCmd) (n cls : Nat) (frame : Dma) (s : State) (hs : Kept s₀ s) : Kept s₀ (injectFrame c n cls frame s) := hs.trans (by
  unfold injectFrame
  repeat' (first | (with_reducible exact Kept.refl _) | (with_reducible assumption) | (simp only [kept_mk]) | simp | (with_reducible apply complete_kept) | (with_reducible apply enterFrame_kept) | (with_reducible apply forwardInject_kept) | (with_reducible apply count_kept) | (intro _) | split | (with_reducible refine And.intro ?_ ?_)))

@[simp] theorem postBuffer_kept {s₀ : State} (c : SqCmd) (x : Sq) (n : Nat) (s : State) (hs : Kept s₀ s) : Kept s₀ (postBuffer c x n s) := hs.trans (by
  unfold postBuffer
  repeat' (first | (with_reducible exact Kept.refl _) | (with_reducible assumption) | (simp only [kept_mk]) | simp | (with_reducible apply releaseStaging_kept) | (with_reducible apply setHst_kept) | (with_reducible apply finishDeletion_kept) | (with_reducible apply setSq_kept) | (intro _) | split | (with_reducible refine And.intro ?_ ?_)))

@[simp] theorem writeVectorHeld_kept {s₀ : State} (v : Nat) (s : State) (hs : Kept s₀ s) : Kept s₀ (writeVectorHeld v s) := hs.trans (by
  unfold writeVectorHeld
  repeat' (first | (with_reducible exact Kept.refl _) | (with_reducible assumption) | (simp only [kept_mk]) | simp | (with_reducible apply Kept.forEach) | (with_reducible apply writeTail_kept) | (with_reducible apply writeHeld_kept) | (intro _) | split | (with_reducible refine And.intro ?_ ?_)))

@[simp] theorem sendDue_kept {s₀ : State} (q : Nat) (s : State) (hs : Kept s₀ s) : Kept s₀ (sendDue q s) := hs.trans (by
  unfold sendDue
  repeat' (first | (with_reducible exact Kept.refl _) | (with_reducible assumption) | (simp only [kept_mk]) | simp | (with_reducible apply sendSignalVector_kept) | (with_reducible apply setCq_kept) | (intro _) | split | (with_reducible refine And.intro ?_ ?_)))

end Sys2Proof.Machine
end

