-- ==== Sys2Proof/Laws/KeptControl.lean ====
section
/-! SUPPORT. What every operation keeps (`Kept`): the governor, boot, configuration sets, the dictionary engine, the Pair Unit and the tick. -/

set_option linter.all false
set_option Elab.async false

namespace Sys2Proof.Machine
open Sys2Proof

@[simp] theorem setGov_kept {s₀ : State} (g : Gov) (s : State) (hs : Kept s₀ s) : Kept s₀ (setGov g s) := hs.trans (by
  unfold setGov
  repeat' (first | (with_reducible exact Kept.refl _) | (with_reducible assumption) | (simp only [kept_mk]) | simp | (intro _) | split | (with_reducible refine And.intro ?_ ?_)))

@[simp] theorem notePressure_kept {s₀ : State} (k i : Nat) (beyond : Bool) (s : State) (hs : Kept s₀ s) : Kept s₀ (notePressure k i beyond s) := hs.trans (by
  unfold notePressure
  repeat' (first | (with_reducible exact Kept.refl _) | (with_reducible assumption) | (simp only [kept_mk]) | simp | (with_reducible apply setGov_kept) | (with_reducible apply count_kept) | (with_reducible apply raise_kept) | (intro _) | split | (with_reducible refine And.intro ?_ ?_)))

@[simp] theorem govBit_kept {s₀ : State} (i : Nat) (on : Bool) (s : State) (hs : Kept s₀ s) : Kept s₀ (govBit i on s) := hs.trans (by
  unfold govBit
  repeat' (first | (with_reducible exact Kept.refl _) | (with_reducible assumption) | (simp only [kept_mk]) | simp | (with_reducible apply wr_kept) | (intro _) | split | (with_reducible refine And.intro ?_ ?_)))

@[simp] theorem regulatorBit_kept {s₀ : State} (s : State) (hs : Kept s₀ s) : Kept s₀ (regulatorBit s) := hs.trans (by
  unfold regulatorBit
  repeat' (first | (with_reducible exact Kept.refl _) | (with_reducible assumption) | (simp only [kept_mk]) | simp | (with_reducible apply govBit_kept) | (intro _) | split | (with_reducible refine And.intro ?_ ?_)))

@[simp] theorem commandVcore_kept {s₀ : State} (v : Int) (s : State) (hs : Kept s₀ s) : Kept s₀ (commandVcore v s) := hs.trans (by
  unfold commandVcore
  repeat' (first | (with_reducible exact Kept.refl _) | (with_reducible assumption) | (simp only [kept_mk]) | simp | (with_reducible apply emit_kept) | (with_reducible apply setGov_kept) | (intro _) | split | (with_reducible refine And.intro ?_ ?_)))

@[simp] theorem regulatorGone_kept {s₀ : State} (s : State) (hs : Kept s₀ s) : Kept s₀ (regulatorGone s) := hs.trans (by
  unfold regulatorGone
  repeat' (first | (with_reducible exact Kept.refl _) | (with_reducible assumption) | (simp only [kept_mk]) | simp | (with_reducible apply raise_kept) | (with_reducible apply regulatorBit_kept) | (with_reducible apply setGov_kept) | (intro _) | split | (with_reducible refine And.intro ?_ ?_)))

@[simp] theorem noteStep_kept {s₀ : State} (step : Int) (s : State) (hs : Kept s₀ s) : Kept s₀ (noteStep step s) := hs.trans (by
  unfold noteStep
  repeat' (first | (with_reducible exact Kept.refl _) | (with_reducible assumption) | (simp only [kept_mk]) | simp | (with_reducible apply setGov_kept) | (with_reducible apply Kept.when) | (with_reducible apply govBit_kept) | (intro _) | split | (with_reducible refine And.intro ?_ ?_)))

@[simp] theorem readRegulator_kept {s₀ : State} (s : State) (hs : Kept s₀ s) : Kept s₀ (readRegulator s) := hs.trans (by
  unfold readRegulator
  repeat' (first | (with_reducible exact Kept.refl _) | (with_reducible assumption) | (simp only [kept_mk]) | simp | (with_reducible apply emit_kept) | (intro _) | split | (with_reducible refine And.intro ?_ ?_)))

@[simp] theorem voltagePeriod_kept {s₀ : State} (slack : Int) (s : State) (hs : Kept s₀ s) : Kept s₀ (voltagePeriod slack s) := hs.trans (by
  unfold voltagePeriod
  repeat' (first | (with_reducible apply readRegulator_kept) | (with_reducible exact Kept.refl _) | (with_reducible assumption) | (simp only [kept_mk]) | simp | (with_reducible apply notePressure_kept) | (with_reducible apply setGov_kept) | (with_reducible apply noteStep_kept) | (with_reducible apply commandVcore_kept) | (intro _) | split | (with_reducible refine And.intro ?_ ?_)))

@[simp] theorem readStatus_kept {s₀ : State} (s : State) (hs : Kept s₀ s) : Kept s₀ (readStatus s) := hs.trans (by
  unfold readStatus
  repeat' (first | (with_reducible exact Kept.refl _) | (with_reducible assumption) | (simp only [kept_mk]) | simp | (with_reducible apply emit_kept) | (with_reducible apply setGov_kept) | (intro _) | split | (with_reducible refine And.intro ?_ ?_)))

@[simp] theorem vregCheck_kept {s₀ : State} (mv : Nat) (lasting : Bool) (s : State) (hs : Kept s₀ s) : Kept s₀ (vregCheck mv lasting s) := hs.trans (by
  unfold vregCheck
  repeat' (first | (with_reducible exact Kept.refl _) | (with_reducible assumption) | (simp only [kept_mk]) | simp | (with_reducible apply wr_kept) | (with_reducible apply regulatorBit_kept) | (with_reducible apply setGov_kept) | (with_reducible apply raise_kept) | (with_reducible apply count_kept) | (intro _) | split | (with_reducible refine And.intro ?_ ?_)))

@[simp] theorem setGate_kept {s₀ : State} (n : Nat) (v : Int) (s : State) (hs : Kept s₀ s) : Kept s₀ (setGate n v s) := hs.trans (by
  unfold setGate
  repeat' (first | (with_reducible exact Kept.refl _) | (with_reducible assumption) | (simp only [kept_mk]) | simp | (with_reducible apply setGov_kept) | (intro _) | split | (with_reducible refine And.intro ?_ ?_)))

@[simp] theorem gatePeriod_kept {s₀ : State} (n : Nat) (s : State) (hs : Kept s₀ s) : Kept s₀ (gatePeriod n s) := hs.trans (by
  unfold gatePeriod
  repeat' (first | (with_reducible exact Kept.refl _) | (with_reducible assumption) | (simp only [kept_mk]) | simp | (with_reducible apply setGov_kept) | (with_reducible apply notePressure_kept) | (with_reducible apply setPipe_kept) | (with_reducible apply setGate_kept) | (intro _) | split | (with_reducible refine And.intro ?_ ?_)))

@[simp] theorem engineWait_kept {s₀ : State} (n : Nat) (express : Bool) (s : State) (hs : Kept s₀ s) : Kept s₀ (engineWait n express s) := hs.trans (by
  unfold engineWait
  repeat' (first | (with_reducible exact Kept.refl _) | (with_reducible assumption) | (simp only [kept_mk]) | simp | (with_reducible apply setGate_kept) | (intro _) | split | (with_reducible refine And.intro ?_ ?_)))

@[simp] theorem dtPeriod_kept {s₀ : State} (s : State) (hs : Kept s₀ s) : Kept s₀ (dtPeriod s) := hs.trans (by
  unfold dtPeriod
  repeat' (first | (with_reducible exact Kept.refl _) | (with_reducible assumption) | (simp only [kept_mk]) | simp | (with_reducible apply setGov_kept) | (with_reducible apply notePressure_kept) | (intro _) | split | (with_reducible refine And.intro ?_ ?_)))

@[simp] theorem logOverride_kept {s₀ : State} (cause edge k : Nat) (before after : Int) (s : State) (hs : Kept s₀ s) : Kept s₀ (logOverride cause edge k before after s) := hs.trans (by
  unfold logOverride
  repeat' (first | (with_reducible exact Kept.refl _) | (with_reducible assumption) | (simp only [kept_mk]) | simp | (with_reducible apply raise_kept) | (with_reducible apply wr_kept) | (with_reducible apply wrRow_kept) | (intro _) | split | (with_reducible refine And.intro ?_ ?_)))

@[simp] theorem voltageProtection_kept {s₀ : State} (s : State) (hs : Kept s₀ s) : Kept s₀ (voltageProtection s) := hs.trans (by
  unfold voltageProtection
  repeat' (first | (with_reducible exact Kept.refl _) | (with_reducible assumption) | (simp only [kept_mk]) | simp | (with_reducible apply commandVcore_kept) | (with_reducible apply setGov_kept) | (with_reducible apply logOverride_kept) | (with_reducible apply count_kept) | (intro _) | split | (with_reducible refine And.intro ?_ ?_)))

@[simp] theorem thermalProtection_kept {s₀ : State} (tj : Int) (s : State) (hs : Kept s₀ s) : Kept s₀ (thermalProtection tj s) := hs.trans (by
  unfold thermalProtection
  repeat' (first | (with_reducible exact Kept.refl _) | (with_reducible assumption) | (simp only [kept_mk]) | split | (dsimp only) | (with_reducible apply wr_kept) | (with_reducible apply setGov_kept) | (with_reducible apply logOverride_kept) | (with_reducible apply count_kept) | (intro _) | split | (with_reducible refine And.intro ?_ ?_)))

@[simp] theorem overrideEnd_kept {s₀ : State} (k : Nat) (s : State) (hs : Kept s₀ s) : Kept s₀ (overrideEnd k s) := hs.trans (by
  unfold overrideEnd
  repeat' (first | (with_reducible exact Kept.refl _) | (with_reducible assumption) | (simp only [kept_mk]) | simp | (with_reducible apply logOverride_kept) | (with_reducible apply setGov_kept) | (intro _) | split | (with_reducible refine And.intro ?_ ?_)))

@[simp] theorem writeGovKnobs_kept {s₀ : State} (k v : Nat) (s : State) (hs : Kept s₀ s) : Kept s₀ (writeGovKnobs k v s) := hs.trans (by
  unfold writeGovKnobs
  repeat' (first | (with_reducible exact Kept.refl _) | (with_reducible assumption) | (simp only [kept_mk]) | simp | (with_reducible apply wrRow_kept) | (with_reducible apply setGov_kept) | (with_reducible apply Kept.forEach) | (with_reducible apply rebuildDue_kept) | (with_reducible apply setBe_kept) | (intro _) | split | (with_reducible refine And.intro ?_ ?_)))

@[simp] theorem setBoot_kept {s₀ : State} (b : Boot) (s : State) (hs : Kept s₀ s) : Kept s₀ (setBoot b s) := hs.trans (by
  unfold setBoot
  repeat' (first | (with_reducible exact Kept.refl _) | (with_reducible assumption) | (simp only [kept_mk]) | simp | (intro _) | split | (with_reducible refine And.intro ?_ ?_)))

@[simp] theorem setRetention_kept {s₀ : State} (v : Nat) (s : State) (hs : Kept s₀ s) : Kept s₀ (setRetention v s) := hs.trans (by
  unfold setRetention
  repeat' (first | (with_reducible exact Kept.refl _) | (with_reducible assumption) | (simp only [kept_mk]) | simp | (intro _) | split | (with_reducible refine And.intro ?_ ?_)))

@[simp] theorem putRecord_kept {s₀ : State} (r : Nat) (s : State) (hs : Kept s₀ s) : Kept s₀ (putRecord r s) := hs.trans (by
  unfold putRecord
  repeat' (first | (with_reducible exact Kept.refl _) | (with_reducible assumption) | (simp only [kept_mk]) | simp | (with_reducible apply setRetention_kept) | (intro _) | split | (with_reducible refine And.intro ?_ ?_)))

@[simp] theorem goodRecord_kept {s₀ : State} (s : State) (hs : Kept s₀ s) : Kept s₀ (goodRecord s) := hs.trans (by
  unfold goodRecord
  repeat' (first | (with_reducible exact Kept.refl _) | (with_reducible assumption) | (simp only [kept_mk]) | simp | (with_reducible apply raise_kept) | (with_reducible apply putRecord_kept) | (intro _) | split | (with_reducible refine And.intro ?_ ?_)))

@[simp] theorem checkRecord_kept {s₀ : State} (s : State) (hs : Kept s₀ s) : Kept s₀ (checkRecord s) := hs.trans (by
  unfold checkRecord
  repeat' (first | (with_reducible exact Kept.refl _) | (with_reducible assumption) | (simp only [kept_mk]) | simp | (with_reducible apply goodRecord_kept) | (with_reducible apply Kept.when) | (with_reducible apply setRetention_kept) | (intro _) | split | (with_reducible refine And.intro ?_ ?_)))

@[simp] theorem putPairMode_kept {s₀ : State} (v : Nat) (s : State) (hs : Kept s₀ s) : Kept s₀ (putPairMode v s) := hs.trans (by
  unfold putPairMode
  repeat' (first | (with_reducible exact Kept.refl _) | (with_reducible assumption) | (simp only [kept_mk]) | simp | (with_reducible apply putRecord_kept) | (intro _) | split | (with_reducible refine And.intro ?_ ?_)))

@[simp] theorem putPolicy_kept {s₀ : State} (k v : Nat) (s : State) (hs : Kept s₀ s) : Kept s₀ (putPolicy k v s) := hs.trans (by
  unfold putPolicy
  repeat' (first | (with_reducible exact Kept.refl _) | (with_reducible assumption) | (simp only [kept_mk]) | simp | (with_reducible apply putRecord_kept) | (intro _) | split | (with_reducible refine And.intro ?_ ?_)))

@[simp] theorem writeHistory_kept {s₀ : State} (s : State) (hs : Kept s₀ s) : Kept s₀ (writeHistory s) := hs.trans (by
  unfold writeHistory
  repeat' (first | (with_reducible exact Kept.refl _) | (with_reducible assumption) | (simp only [kept_mk]) | simp | (with_reducible apply putRecord_kept) | (intro _) | split | (with_reducible refine And.intro ?_ ?_)))

@[simp] theorem serviceNow_kept {s₀ : State} (s : State) (hs : Kept s₀ s) : Kept s₀ (serviceNow s) := hs.trans (by
  unfold serviceNow
  repeat' (first | (with_reducible exact Kept.refl _) | (with_reducible assumption) | (simp only [kept_mk]) | simp | (with_reducible apply wr_kept) | (with_reducible apply setBoot_kept) | (with_reducible apply putRecord_kept) | (with_reducible apply raise_kept) | (with_reducible apply Kept.when) | (with_reducible apply writeHistory_kept) | (intro _) | split | (with_reducible refine And.intro ?_ ?_)))

@[simp] theorem clearFlag_kept {s₀ : State} (i : Nat) (s : State) (hs : Kept s₀ s) : Kept s₀ (clearFlag i s) := hs.trans (by
  unfold clearFlag
  repeat' (first | (with_reducible exact Kept.refl _) | (with_reducible assumption) | (simp only [kept_mk]) | simp | (with_reducible apply serviceNow_kept) | (with_reducible apply wr_kept) | (intro _) | split | (with_reducible refine And.intro ?_ ?_)))

@[simp] theorem putResult_kept {s₀ : State} (k result action res : Nat) (s : State) (hs : Kept s₀ s) : Kept s₀ (putResult k result action res s) := hs.trans (by
  unfold putResult
  repeat' (first | (with_reducible exact Kept.refl _) | (with_reducible assumption) | (simp only [kept_mk]) | simp | (with_reducible apply putRecord_kept) | (intro _) | split | (with_reducible refine And.intro ?_ ?_)))

@[simp] theorem stepBegins_kept {s₀ : State} (k : Nat) (s : State) (hs : Kept s₀ s) : Kept s₀ (stepBegins k s) := hs.trans (by
  unfold stepBegins
  repeat' (first | (with_reducible exact Kept.refl _) | (with_reducible assumption) | (simp only [kept_mk]) | simp | (with_reducible apply serviceNow_kept) | (with_reducible apply wr_kept) | (with_reducible apply startRebase_kept) | (intro _) | split | (with_reducible refine And.intro ?_ ?_)))

@[simp] theorem startStep_kept {s₀ : State} (k : Nat) (s : State) (hs : Kept s₀ s) : Kept s₀ (startStep k s) := hs.trans (by
  unfold startStep
  repeat' (first | (with_reducible exact Kept.refl _) | (with_reducible assumption) | (simp only [kept_mk]) | simp | (with_reducible apply setBoot_kept) | (with_reducible apply stepBegins_kept) | (with_reducible apply putResult_kept) | (with_reducible apply wr_kept) | (intro _) | split | (with_reducible refine And.intro ?_ ?_)))

@[simp] theorem calibrateLanes_kept {s₀ : State} (c : Nat) (s : State) (hs : Kept s₀ s) : Kept s₀ (calibrateLanes c s) := hs.trans (by
  unfold calibrateLanes
  repeat' (first | (with_reducible exact Kept.refl _) | (with_reducible assumption) | (simp only [kept_mk]) | simp | (with_reducible apply Kept.forEach) | (with_reducible apply wrRow_kept) | (intro _) | split | (with_reducible refine And.intro ?_ ?_)))

@[simp] theorem endStep07_kept {s₀ : State} (alt skip : Nat) (s : State) (hs : Kept s₀ s) : Kept s₀ (endStep07 alt skip s) := hs.trans (by
  unfold endStep07
  repeat' (first | (with_reducible exact Kept.refl _) | (with_reducible assumption) | (simp only [kept_mk]) | simp | (with_reducible apply Kept.forEach) | (with_reducible apply wr_kept) | (with_reducible apply calibrateLanes_kept) | (intro _) | split | (with_reducible refine And.intro ?_ ?_)))

@[simp] theorem endStacks_kept {s₀ : State} (k alt skip : Nat) (s : State) (hs : Kept s₀ s) : Kept s₀ (endStacks k alt skip s) := hs.trans (by
  unfold endStacks
  repeat' (first | (with_reducible exact Kept.refl _) | (with_reducible assumption) | (simp only [kept_mk]) | simp | (with_reducible apply Kept.forEach) | (with_reducible apply wrRow_kept) | (with_reducible apply wr_kept) | (intro _) | split | (with_reducible refine And.intro ?_ ?_)))

@[simp] theorem freshNonce_kept {s₀ : State} (s : State) (hs : Kept s₀ s) : Kept s₀ (freshNonce s) := hs.trans (by
  unfold freshNonce
  repeat' (first | (with_reducible exact Kept.refl _) | (with_reducible assumption) | (simp only [kept_mk]) | simp | (with_reducible apply drawRandom_kept) | (intro _) | split | (with_reducible refine And.intro ?_ ?_)))

@[simp] theorem endStep01_kept {s₀ : State} (s : State) (hs : Kept s₀ s) : Kept s₀ (endStep01 s) := hs.trans (by
  unfold endStep01
  repeat' (first | (with_reducible exact Kept.refl _) | (with_reducible assumption) | (simp only [kept_mk]) | simp | (with_reducible apply freshNonce_kept) | (with_reducible apply goodRecord_kept) | (with_reducible apply drawRandom_kept) | (with_reducible apply wr_kept) | (with_reducible apply setRole_kept) | (intro _) | split | (with_reducible refine And.intro ?_ ?_)))

@[simp] theorem stepEffect_kept {s₀ : State} (k alt skip : Nat) (s : State) (hs : Kept s₀ s) : Kept s₀ (stepEffect k alt skip s) := hs.trans (by
  unfold stepEffect
  repeat' (first | (with_reducible exact Kept.refl _) | (with_reducible assumption) | (simp only [kept_mk]) | simp | (with_reducible apply endStep01_kept) | (with_reducible apply emit_kept) | (with_reducible apply startTime_kept) | (with_reducible apply setHst_kept) | (with_reducible apply setMgmt_kept) | (with_reducible apply endStep07_kept) | (with_reducible apply endStacks_kept) | (with_reducible apply clearFlag_kept) | (with_reducible apply setGov_kept) | (with_reducible apply wr_kept) | (intro _) | split | (with_reducible refine And.intro ?_ ?_)))

@[simp] theorem bootEnds_kept {s₀ : State} (s : State) (hs : Kept s₀ s) : Kept s₀ (bootEnds s) := hs.trans (by
  unfold bootEnds
  repeat' (first | (with_reducible exact Kept.refl _) | (with_reducible assumption) | (simp only [kept_mk]) | simp | (with_reducible apply setBoot_kept) | (with_reducible apply wr_kept) | (with_reducible apply writeHistory_kept) | (intro _) | split | (with_reducible refine And.intro ?_ ?_)))

@[simp] theorem endStep_kept {s₀ : State} (k : Nat) (s : State) (hs : Kept s₀ s) : Kept s₀ (endStep k s) := hs.trans (by
  unfold endStep
  repeat' (first | (with_reducible exact Kept.refl _) | (with_reducible assumption) | (simp only [kept_mk]) | simp | (with_reducible apply stepEffect_kept) | (with_reducible apply Kept.when) | (with_reducible apply raise_kept) | (with_reducible apply setBoot_kept) | (with_reducible apply putResult_kept) | (with_reducible apply bootEnds_kept) | (with_reducible apply startStep_kept) | (intro _) | split | (with_reducible refine And.intro ?_ ?_)))

@[simp] theorem stopBoot_kept {s₀ : State} (k : Nat) (s : State) (hs : Kept s₀ s) : Kept s₀ (stopBoot k s) := hs.trans (by
  unfold stopBoot
  repeat' (first | (with_reducible exact Kept.refl _) | (with_reducible assumption) | (simp only [kept_mk]) | simp | (with_reducible apply setBoot_kept) | (with_reducible apply raise_kept) | (with_reducible apply putResult_kept) | (intro _) | split | (with_reducible refine And.intro ?_ ?_)))

@[simp] theorem failFixed_kept {s₀ : State} (s : State) (hs : Kept s₀ s) : Kept s₀ (failFixed s) := hs.trans (by
  unfold failFixed
  repeat' (first | (with_reducible exact Kept.refl _) | (with_reducible assumption) | (simp only [kept_mk]) | simp | (with_reducible apply setBoot_kept) | (intro _) | split | (with_reducible refine And.intro ?_ ?_)))

@[simp] theorem takeOnFail_kept {s₀ : State} (k res : Nat) (s : State) (hs : Kept s₀ s) : Kept s₀ (takeOnFail k res s) := hs.trans (by
  unfold takeOnFail
  repeat' (first | (with_reducible exact Kept.refl _) | (with_reducible assumption) | (simp only [kept_mk]) | simp | (with_reducible apply setBoot_kept) | (intro _) | split | (with_reducible refine And.intro ?_ ?_)))

@[simp] theorem failAlt_kept {s₀ : State} (k res : Nat) (s : State) (hs : Kept s₀ s) : Kept s₀ (failAlt k res s) := hs.trans (by
  unfold failAlt
  repeat' (first | (with_reducible exact Kept.refl _) | (with_reducible assumption) | (simp only [kept_mk]) | simp | (with_reducible apply setBoot_kept) | (intro _) | split | (with_reducible refine And.intro ?_ ?_)))

@[simp] theorem attemptEnds_kept {s₀ : State} (k failed : Nat) (s : State) (hs : Kept s₀ s) : Kept s₀ (attemptEnds k failed s) := hs.trans (by
  unfold attemptEnds
  repeat' (first | (with_reducible exact Kept.refl _) | (with_reducible assumption) | (simp only [kept_mk]) | simp | (rw [failed_state]) | (with_reducible apply setBoot_kept) | (with_reducible apply endStep_kept) | (with_reducible apply failFixed_kept) | (with_reducible apply failAlt_kept) | (with_reducible apply takeOnFail_kept) | (with_reducible apply stopBoot_kept) | (intro _) | split | (with_reducible refine And.intro ?_ ?_)))

@[simp] theorem bootContinue_kept {s₀ : State} (v : Nat) (s : State) (hs : Kept s₀ s) : Kept s₀ (bootContinue v s) := hs.trans (by
  unfold bootContinue
  repeat' (first | (with_reducible exact Kept.refl _) | (with_reducible assumption) | (simp only [kept_mk]) | simp | (with_reducible apply startStep_kept) | (with_reducible apply wr_kept) | (intro _) | split | (with_reducible refine And.intro ?_ ?_)))

@[simp] theorem startBoot_kept {s₀ : State} (s : State) (hs : Kept s₀ s) : Kept s₀ (startBoot s) := hs.trans (by
  unfold startBoot
  repeat' (first | (with_reducible exact Kept.refl _) | (with_reducible assumption) | (simp only [kept_mk]) | simp | (with_reducible apply checkRecord_kept) | (with_reducible apply putRecord_kept) | (with_reducible apply raise_kept) | (with_reducible apply startStep_kept) | (with_reducible apply setBoot_kept) | (intro _) | split | (with_reducible refine And.intro ?_ ?_)))

@[simp] theorem clearDevice_kept {s₀ : State} (cause : Nat) (s : State) (hs : Kept s₀ s) : Kept s₀ (clearDevice cause s) :=
  hs.trans (wr_kept _ _ _ ⟨rfl, rfl, fun _ => Nat.le_refl _, Nat.le_refl _, List.prefix_refl _, fun _ => rfl, fun _ => rfl⟩)

@[simp] theorem deviceReset_kept {s₀ : State} (cause : Nat) (s : State) (hs : Kept s₀ s) : Kept s₀ (deviceReset cause s) := hs.trans (by
  unfold deviceReset
  repeat' (first | (with_reducible exact Kept.refl _) | (with_reducible assumption) | (simp only [kept_mk]) | simp | (with_reducible apply clearDevice_kept) | (with_reducible apply setBoot_kept) | (with_reducible apply startBoot_kept) | (intro _) | split | (with_reducible refine And.intro ?_ ?_)))

@[simp] theorem resetUnlessTripped_kept {s₀ : State} (cause : Nat) (s : State) (hs : Kept s₀ s) : Kept s₀ (resetUnlessTripped cause s) := hs.trans (by
  unfold resetUnlessTripped
  repeat' (first | (with_reducible exact Kept.refl _) | (with_reducible assumption) | (simp only [kept_mk]) | simp | (with_reducible apply deviceReset_kept) | (intro _) | split | (with_reducible refine And.intro ?_ ?_)))

@[simp] theorem ledgerRebased_kept {s₀ : State} (s : State) (hs : Kept s₀ s) : Kept s₀ (ledgerRebased s) := hs.trans (by
  unfold ledgerRebased
  repeat' (first | (with_reducible exact Kept.refl _) | (with_reducible assumption) | (simp only [kept_mk]) | simp | (with_reducible apply runLedger_kept) | (with_reducible apply clearFlag_kept) | (with_reducible apply endRebase_kept) | (with_reducible apply attemptEnds_kept) | (intro _) | split | (with_reducible refine And.intro ?_ ?_)))

@[simp] theorem loseSpilled_kept {s₀ : State} (o : DwOp) (s : State) (hs : Kept s₀ s) : Kept s₀ (loseSpilled o s) := hs.trans (by
  unfold loseSpilled
  repeat' (first | (with_reducible exact Kept.refl _) | (with_reducible assumption) | (simp only [kept_mk]) | simp | (with_reducible apply setDw_kept) | (with_reducible apply loseOp_kept) | (intro _) | split | (with_reducible refine And.intro ?_ ?_)))

@[simp] theorem loseStackOps_kept {s₀ : State} (all : Bool) (s : State) (hs : Kept s₀ s) : Kept s₀ (loseStackOps all s) := hs.trans (by
  unfold loseStackOps
  repeat' (first | (with_reducible exact Kept.refl _) | (with_reducible assumption) | (simp only [kept_mk]) | simp | (with_reducible apply Kept.forEach) | (with_reducible apply loseSpilled_kept) | (with_reducible apply drawChoice_kept) | (intro _) | split | (with_reducible refine And.intro ?_ ?_)))

@[simp] theorem ledgerOnDie_kept {s₀ : State} (s : State) (hs : Kept s₀ s) : Kept s₀ (ledgerOnDie s) := hs.trans (by
  unfold ledgerOnDie
  repeat' (first | (with_reducible exact Kept.refl _) | (with_reducible assumption) | (simp only [kept_mk]) | simp | (with_reducible apply wr_kept) | (with_reducible apply startRebase_kept) | (with_reducible apply runLedger_kept) | (with_reducible apply serviceNow_kept) | (intro _) | split | (with_reducible refine And.intro ?_ ?_)))

@[simp] theorem stackLost_kept {s₀ : State} (n : Nat) (s : State) (hs : Kept s₀ s) : Kept s₀ (stackLost n s) := hs.trans (by
  unfold stackLost
  repeat' (first | (with_reducible exact Kept.refl _) | (with_reducible assumption) | (simp only [kept_mk]) | simp | (with_reducible apply count_kept) | (with_reducible apply raise_kept) | (with_reducible apply wrRow_kept) | (with_reducible apply wr_kept) | (with_reducible apply loseStackOps_kept) | (with_reducible apply ledgerOnDie_kept) | (with_reducible apply startRebase_kept) | (with_reducible apply setSvc_kept) | (intro _) | split | (with_reducible refine And.intro ?_ ?_)))

@[simp] theorem dropRequest_kept {s₀ : State} (r : Req) (s : State) (hs : Kept s₀ s) : Kept s₀ (dropRequest r s) := hs.trans (by
  unfold dropRequest
  repeat' (first | (with_reducible exact Kept.refl _) | (with_reducible assumption) | (simp only [kept_mk]) | simp | (with_reducible apply raise_kept) | (with_reducible apply respond_kept) | (intro _) | split | (with_reducible refine And.intro ?_ ?_)))

@[simp] theorem restartCore_kept {s₀ : State} (reason : Nat) (s : State) (hs : Kept s₀ s) : Kept s₀ (restartCore reason s) := hs.trans (by
  unfold restartCore
  repeat' (first | (with_reducible exact Kept.refl _) | (with_reducible assumption) | (simp only [kept_mk]) | simp | (with_reducible apply Kept.forEach) | (with_reducible apply dropRequest_kept) | (with_reducible apply setPair_kept) | (with_reducible apply wr_kept) | (with_reducible apply setBoot_kept) | (with_reducible apply freshNonce_kept) | (with_reducible apply raise_kept) | (with_reducible apply count_kept) | (intro _) | split | (with_reducible refine And.intro ?_ ?_)))

@[simp] theorem validated_kept {s₀ : State} (s : State) (hs : Kept s₀ s) : Kept s₀ (validated s) := hs.trans (by
  unfold validated
  repeat' (first | (with_reducible exact Kept.refl _) | (with_reducible assumption) | (simp only [kept_mk]) | simp | (with_reducible apply tellVerdict_kept) | (with_reducible apply rejectTurn_kept) | (with_reducible apply leaveValidating_kept) | (intro _) | split | (with_reducible refine And.intro ?_ ?_)))

@[simp] theorem turnEffects_kept {s₀ : State} (before s : State) (hs : Kept s₀ s) : Kept s₀ (turnEffects before s) := hs.trans (by
  unfold turnEffects
  repeat' (first | (with_reducible exact Kept.refl _) | (with_reducible assumption) | (simp only [kept_mk]) | simp | (with_reducible apply turnServices_kept) | (intro _) | split | (with_reducible refine And.intro ?_ ?_)))

@[simp] theorem turnSnapshot_kept {s₀ : State} (s : State) (hs : Kept s₀ s) : Kept s₀ (turnSnapshot s) := hs.trans (by
  unfold turnSnapshot
  repeat' (first | (with_reducible exact Kept.refl _) | (with_reducible assumption) | (simp only [kept_mk]) | simp | (with_reducible apply captureAt_kept) | (intro _) | split | (with_reducible refine And.intro ?_ ?_)))

@[simp] theorem turnCycle_kept {s₀ : State} (s : State) (hs : Kept s₀ s) : Kept s₀ (turnCycle s) := hs.trans (by
  unfold turnCycle
  repeat' (first | (with_reducible exact Kept.refl _) | (with_reducible assumption) | (simp only [kept_mk]) | simp | (with_reducible apply wr_kept) | (with_reducible apply turnSnapshot_kept) | (with_reducible apply turnEffects_kept) | (with_reducible apply acknowledge_kept) | (with_reducible apply raise_kept) | (intro _) | split | (with_reducible refine And.intro ?_ ?_)))

@[simp] theorem returnBlock_kept {s₀ : State} (b : Nat) (s : State) (hs : Kept s₀ s) : Kept s₀ (returnBlock b s) := hs.trans (by
  unfold returnBlock
  repeat' (first | (with_reducible exact Kept.refl _) | (with_reducible assumption) | (simp only [kept_mk]) | simp | (with_reducible apply runLedger_kept) | (with_reducible apply refillFilter_kept) | (with_reducible apply refill_kept) | (with_reducible apply rebuildPools_kept) | (with_reducible apply dwReturn_kept) | (intro _) | split | (with_reducible refine And.intro ?_ ?_)))

@[simp] theorem writeHaltRequest_kept {s₀ : State} (v : Nat) (s : State) (hs : Kept s₀ s) : Kept s₀ (writeHaltRequest v s) := hs.trans (by
  unfold writeHaltRequest
  repeat' (first | (with_reducible exact Kept.refl _) | (with_reducible assumption) | (simp only [kept_mk]) | split | (dsimp only) | (with_reducible apply wr_kept) | (with_reducible apply Kept.forEach) | (with_reducible apply returnBlock_kept) | (intro _) | split | (with_reducible refine And.intro ?_ ?_)))

theorem le_nth_setNth (l : List Nat) (i j v : Nat) (h : nth 0 l i ≤ v) : nth 0 l j ≤ nth 0 (setNth l i v) j := by
  induction l generalizing i j with
  | nil => simp [setNth]
  | cons a t ih =>
    cases i with
    | zero =>
      cases j with
      | zero => simpa [setNth, nth] using h
      | succ j => simp [setNth, nth]
    | succ i =>
      cases j with
      | zero => simp [setNth, nth]
      | succ j => simpa [setNth, nth] using ih i j (by simpa [nth] using h)

@[simp] theorem revokeKey_kept {s₀ : State} (level : Nat) (s : State) (hs : Kept s₀ s) : Kept s₀ (revokeKey level s) :=
  hs.trans ⟨rfl, rfl, fun l => le_nth_setNth _ _ l _ (Nat.le_succ _), Nat.le_refl _, List.prefix_refl _, id, id⟩

@[simp] theorem writeMgmtMode_kept {s₀ : State} (v : Nat) (s : State) (hs : Kept s₀ s) : Kept s₀ (writeMgmtMode v s) := hs.trans (by
  unfold writeMgmtMode
  repeat' (first | (with_reducible exact Kept.refl _) | (with_reducible assumption) | (simp only [kept_mk]) | simp | (with_reducible apply Kept.forEach) | (with_reducible apply setMgmt_kept) | (with_reducible apply wr_kept) | (intro _) | split | (with_reducible refine And.intro ?_ ?_)))

@[simp] theorem put00_kept {s₀ : State} (obj v : Nat) (s : State) (hs : Kept s₀ s) : Kept s₀ (put00 obj v s) := hs.trans (by
  unfold put00
  repeat' (first | (with_reducible exact Kept.refl _) | (with_reducible assumption) | (simp only [kept_mk]) | simp | (with_reducible apply revokeKey_kept) | (with_reducible apply wr_kept) | (with_reducible apply writeMgmtMode_kept) | (intro _) | split | (with_reducible refine And.intro ?_ ?_)))

@[simp] theorem put08_kept {s₀ : State} (obj row v : Nat) (s : State) (hs : Kept s₀ s) : Kept s₀ (put08 obj row v s) := hs.trans (by
  unfold put08
  repeat' (first | (with_reducible exact Kept.refl _) | (with_reducible assumption) | (simp only [kept_mk]) | simp | (with_reducible apply putPolicy_kept) | (with_reducible apply bootContinue_kept) | (with_reducible apply wrRow_kept) | (intro _) | split | (with_reducible refine And.intro ?_ ?_)))

@[simp] theorem put10_kept {s₀ : State} (obj row v : Nat) (s : State) (hs : Kept s₀ s) : Kept s₀ (put10 obj row v s) := hs.trans (by
  unfold put10
  repeat' (first | (with_reducible exact Kept.refl _) | (with_reducible assumption) | (simp only [kept_mk]) | simp | (with_reducible apply writeOctetEnable_kept) | (with_reducible apply writePortEnable_kept) | (with_reducible apply writeLaneTxEq_kept) | (with_reducible apply wrRow_kept) | (intro _) | split | (with_reducible refine And.intro ?_ ?_)))

@[simp] theorem put18_kept {s₀ : State} (obj row v : Nat) (s : State) (hs : Kept s₀ s) : Kept s₀ (put18 obj row v s) := hs.trans (by
  unfold put18
  repeat' (first | (with_reducible exact Kept.refl _) | (with_reducible assumption) | (simp only [kept_mk]) | simp | (with_reducible apply writeTimeSet_kept) | (with_reducible apply writeTimeStep_kept) | (with_reducible apply writeTimeSlew_kept) | (with_reducible apply writeTimeLatch_kept) | (with_reducible apply writePpsOutEnable_kept) | (with_reducible apply synceEval_kept) | (with_reducible apply wr_kept) | (with_reducible apply writeCalSet_kept) | (with_reducible apply writeCalSync_kept) | (with_reducible apply setRetention_kept) | (with_reducible apply wrRow_kept) | (intro _) | split | (with_reducible refine And.intro ?_ ?_)))

@[simp] theorem put28_kept {s₀ : State} (obj row v : Nat) (s : State) (hs : Kept s₀ s) : Kept s₀ (put28 obj row v s) := hs.trans (by
  unfold put28
  repeat' (first | (with_reducible exact Kept.refl _) | (with_reducible assumption) | (simp only [kept_mk]) | simp | (with_reducible apply filterStale_kept) | (with_reducible apply wrRow_kept) | (intro _) | split | (with_reducible refine And.intro ?_ ?_)))

@[simp] theorem put60_kept {s₀ : State} (obj row v : Nat) (s : State) (hs : Kept s₀ s) : Kept s₀ (put60 obj row v s) := hs.trans (by
  unfold put60
  repeat' (first | (with_reducible exact Kept.refl _) | (with_reducible assumption) | (simp only [kept_mk]) | simp | (with_reducible apply writeAdminEnable_kept) | (with_reducible apply emit_kept) | (with_reducible apply wr_kept) | (with_reducible apply wrRow_kept) | (intro _) | split | (with_reducible refine And.intro ?_ ?_)))

@[simp] theorem yieldClaim_kept {s₀ : State} (s : State) (hs : Kept s₀ s) : Kept s₀ (yieldClaim s) := hs.trans (by
  unfold yieldClaim
  repeat' (first | (with_reducible exact Kept.refl _) | (with_reducible assumption) | (simp only [kept_mk]) | simp | (with_reducible apply setRole_kept) | (with_reducible apply setPair_kept) | (intro _) | split | (with_reducible refine And.intro ?_ ?_)))

@[simp] theorem put68_kept {s₀ : State} (obj row v : Nat) (s : State) (hs : Kept s₀ s) : Kept s₀ (put68 obj row v s) := hs.trans (by
  unfold put68
  repeat' (first | (with_reducible exact Kept.refl _) | (with_reducible assumption) | (simp only [kept_mk]) | simp | (with_reducible apply putPairMode_kept) | (with_reducible apply Kept.when) | (with_reducible apply yieldClaim_kept) | (with_reducible apply wr_kept) | (with_reducible apply setRole_kept) | (with_reducible apply wrRow_kept) | (intro _) | split | (with_reducible refine And.intro ?_ ?_)))

@[simp] theorem clearEvents_kept {s₀ : State} (group bits : Nat) (s : State) (hs : Kept s₀ s) : Kept s₀ (clearEvents group bits s) := hs.trans (by
  unfold clearEvents
  repeat' (first | (with_reducible exact Kept.refl _) | (with_reducible assumption) | (simp only [kept_mk]) | simp | (with_reducible apply wrRow_kept) | (intro _) | split | (with_reducible refine And.intro ?_ ?_)))

@[simp] theorem put7C_kept {s₀ : State} (obj row v : Nat) (s : State) (hs : Kept s₀ s) : Kept s₀ (put7C obj row v s) := hs.trans (by
  unfold put7C
  repeat' (first | (with_reducible exact Kept.refl _) | (with_reducible assumption) | (simp only [kept_mk]) | simp | (with_reducible apply clearEvents_kept) | (with_reducible apply sendGroupVectors_kept) | (with_reducible apply wrRow_kept) | (intro _) | split | (with_reducible refine And.intro ?_ ?_)))

@[simp] theorem put7E_kept {s₀ : State} (r : Option Req) (obj v : Nat) (s : State) (hs : Kept s₀ s) : Kept s₀ (put7E r obj v s) := hs.trans (by
  unfold put7E
  repeat' (first | (with_reducible exact Kept.refl _) | (with_reducible assumption) | (simp only [kept_mk]) | simp | (with_reducible apply Kept.when) | (with_reducible apply beginTurn_kept) | (with_reducible apply wr_kept) | (with_reducible apply beginStep_kept) | (with_reducible apply capture_kept) | (with_reducible apply writeHaltRequest_kept) | (intro _) | split | (with_reducible refine And.intro ?_ ?_)))

@[simp] theorem putShadow_kept {s₀ : State} (obj row v : Nat) (s : State) (hs : Kept s₀ s) : Kept s₀ (putShadow obj row v s) := hs.trans (by
  unfold putShadow
  repeat' (first | (with_reducible exact Kept.refl _) | (with_reducible assumption) | (simp only [kept_mk]) | simp | (with_reducible apply Kept.when) | (with_reducible apply refillPolicer_kept) | (with_reducible apply wrSet_kept) | (intro _) | split | (with_reducible refine And.intro ?_ ?_)))

@[simp] theorem putValue_kept {s₀ : State} (r : Option Req) (obj row v : Nat) (s : State) (hs : Kept s₀ s) : Kept s₀ (putValue r obj row v s) := hs.trans (by
  unfold putValue
  repeat' (first | (with_reducible exact Kept.refl _) | (with_reducible assumption) | (simp only [kept_mk]) | simp | (with_reducible apply putShadow_kept) | (with_reducible apply put00_kept) | (with_reducible apply put08_kept) | (with_reducible apply put10_kept) | (with_reducible apply put18_kept) | (with_reducible apply writeCsLoad_kept) | (with_reducible apply wrRow_kept) | (with_reducible apply put28_kept) | (with_reducible apply writeBackendState_kept) | (with_reducible apply writeSpillGrain_kept) | (with_reducible apply put60_kept) | (with_reducible apply put68_kept) | (with_reducible apply writeGovKnobs_kept) | (with_reducible apply writePerfSelect_kept) | (with_reducible apply writePreciseConfig_kept) | (with_reducible apply put7C_kept) | (with_reducible apply put7E_kept) | (intro _) | split | (with_reducible refine And.intro ?_ ?_)))

@[simp] theorem putItem_kept {s₀ : State} (r : Option Req) (i : Item) (s : State) (hs : Kept s₀ s) : Kept s₀ (putItem r i s) :=
  hs.trans (by
  unfold putItem
  split
  · exact Kept.forEach (fun t e => putValue_kept _ _ _ _ _ (Kept.refl t)) (Kept.refl s)
  · exact Kept.refl s)

@[simp] theorem putItems_kept {s₀ : State} (r : Option Req) (items : List Item) (s : State) (hs : Kept s₀ s) : Kept s₀ (putItems r items s) := hs.trans (by
  unfold putItems
  repeat' (first | (with_reducible exact Kept.refl _) | (with_reducible assumption) | (simp only [kept_mk]) | simp | (with_reducible apply Kept.forEach) | (with_reducible apply putItem_kept) | (intro _) | split | (with_reducible refine And.intro ?_ ?_)))

@[simp] theorem plainItems_kept {s₀ : State} (items : List Item) (s : State) (hs : Kept s₀ s) : Kept s₀ (plainItems items s) := hs.trans (by
  unfold plainItems
  repeat' (first | (with_reducible exact Kept.refl _) | (with_reducible assumption) | (simp only [kept_mk]) | simp | (with_reducible apply Kept.forEach) | (with_reducible apply wrSet_kept) | (intro _) | split | (with_reducible refine And.intro ?_ ?_)))

@[simp] theorem applyWrite_kept {s₀ : State} (o : Origin) (m : Msg) (s : State) (hs : Kept s₀ s) : Kept s₀ (applyWrite o m s) := hs.trans (by
  unfold applyWrite
  repeat' (first | (with_reducible exact Kept.refl _) | (with_reducible assumption) | (simp only [kept_mk]) | simp | (with_reducible apply putItems_kept) | (with_reducible apply respondAs_kept) | (with_reducible apply deviceReset_kept) | (intro _) | split | (with_reducible refine And.intro ?_ ?_)))

@[simp] theorem laterWrite_kept {s₀ : State} (o : Origin) (m : Msg) (s : State) (hs : Kept s₀ s) : Kept s₀ (laterWrite o m s) := hs.trans (by
  unfold laterWrite
  repeat' (first | (with_reducible exact Kept.refl _) | (with_reducible assumption) | (simp only [kept_mk]) | simp | (with_reducible apply count_kept) | (with_reducible apply sendPair_kept) | (with_reducible apply setPair_kept) | (intro _) | split | (with_reducible refine And.intro ?_ ?_)))

@[simp] theorem serveWrite_kept {s₀ : State} (o : Origin) (m : Msg) (s : State) (hs : Kept s₀ s) : Kept s₀ (serveWrite o m s) := hs.trans (by
  unfold serveWrite
  repeat' (first | (with_reducible exact Kept.refl _) | (with_reducible assumption) | (simp only [kept_mk]) | simp | (with_reducible apply respond_kept) | (with_reducible apply laterWrite_kept) | (with_reducible apply applyWrite_kept) | (intro _) | split | (with_reducible refine And.intro ?_ ?_)))

@[simp] theorem serveRead_kept {s₀ : State} (o : Origin) (m : Msg) (s : State) (hs : Kept s₀ s) : Kept s₀ (serveRead o m s) := hs.trans (by
  unfold serveRead
  repeat' (first | (with_reducible exact Kept.refl _) | (with_reducible assumption) | (simp only [kept_mk]) | simp | (with_reducible apply respond_kept) | (intro _) | split | (with_reducible refine And.intro ?_ ?_)))

@[simp] theorem serve_kept {s₀ : State} (o : Origin) (m : Msg) (s : State) (hs : Kept s₀ s) : Kept s₀ (serve o m s) := hs.trans (by
  unfold serve
  repeat' (first | (with_reducible exact Kept.refl _) | (with_reducible assumption) | (simp only [kept_mk]) | simp | (with_reducible apply wr_kept) | (with_reducible apply respond_kept) | (with_reducible apply serveWrite_kept) | (with_reducible apply serveRead_kept) | (intro _) | split | (with_reducible refine And.intro ?_ ?_)))

@[simp] theorem rejectBusy_kept {s₀ : State} (o : Origin) (m : Msg) (s : State) (hs : Kept s₀ s) : Kept s₀ (rejectBusy o m s) := hs.trans (by
  unfold rejectBusy
  repeat' (first | (with_reducible exact Kept.refl _) | (with_reducible assumption) | (simp only [kept_mk]) | simp | (with_reducible apply respond_kept) | (with_reducible apply wr_kept) | (intro _) | split | (with_reducible refine And.intro ?_ ?_)))

@[simp] theorem takeRequest_kept {s₀ : State} (w : Waiting) (s : State) (hs : Kept s₀ s) : Kept s₀ (takeRequest w s) := hs.trans (by
  unfold takeRequest
  repeat' (first | (with_reducible exact Kept.refl _) | (with_reducible assumption) | (simp only [kept_mk]) | simp | (with_reducible apply Kept.when) | (with_reducible apply serve_kept) | (intro _) | split | (with_reducible refine And.intro ?_ ?_)))

@[simp] theorem reachEngine_kept {s₀ : State} (o : Origin) (m : Msg) (s : State) (hs : Kept s₀ s) : Kept s₀ (reachEngine o m s) := hs.trans (by
  unfold reachEngine
  repeat' (first | (with_reducible exact Kept.refl _) | (with_reducible assumption) | (simp only [kept_mk]) | simp | (with_reducible apply rejectBusy_kept) | (with_reducible apply takeRequest_kept) | (intro _) | split | (with_reducible refine And.intro ?_ ?_)))

@[simp] theorem serveNext_kept {s₀ : State} (s : State) (hs : Kept s₀ s) : Kept s₀ (serveNext s) := hs.trans (by
  unfold serveNext
  repeat' (first | (with_reducible exact Kept.refl _) | (with_reducible assumption) | (simp only [kept_mk]) | simp | (with_reducible apply takeRequest_kept) | (intro _) | split | (with_reducible refine And.intro ?_ ?_)))

@[simp] theorem setEng_kept {s₀ : State} (e : Eng) (s : State) (hs : Kept s₀ s) : Kept s₀ (setEng e s) := hs.trans (by
  unfold setEng
  repeat' (first | (with_reducible exact Kept.refl _) | (with_reducible assumption) | (simp only [kept_mk]) | simp | (intro _) | split | (with_reducible refine And.intro ?_ ?_)))

@[simp] theorem countObj_kept {s₀ : State} (obj : Nat) (s : State) (hs : Kept s₀ s) : Kept s₀ (countObj obj s) := hs.trans (by
  unfold countObj
  repeat' (first | (with_reducible exact Kept.refl _) | (with_reducible assumption) | (simp only [kept_mk]) | simp | (with_reducible apply wr_kept) | (intro _) | split | (with_reducible refine And.intro ?_ ?_)))

@[simp] theorem authFails_kept {s₀ : State} (port : Nat) (s : State) (hs : Kept s₀ s) : Kept s₀ (authFails port s) := hs.trans (by
  unfold authFails
  repeat' (first | (with_reducible exact Kept.refl _) | (with_reducible assumption) | (simp only [kept_mk]) | simp | (with_reducible apply raiseOnce_kept) | (with_reducible apply countObj_kept) | (intro _) | split | (with_reducible refine And.intro ?_ ?_)))

@[simp] theorem malformed_kept {s₀ : State} (s : State) (hs : Kept s₀ s) : Kept s₀ (malformed s) := hs.trans (by
  unfold malformed
  repeat' (first | (with_reducible exact Kept.refl _) | (with_reducible assumption) | (simp only [kept_mk]) | simp | (with_reducible apply countObj_kept) | (intro _) | split | (with_reducible refine And.intro ?_ ?_)))

@[simp] theorem answerNonce_kept {s₀ : State} (n : Nat) (h : THeader) (src : Nat) (s : State) (hs : Kept s₀ s) : Kept s₀ (answerNonce n h src s) := hs.trans (by
  unfold answerNonce
  repeat' (first | (with_reducible exact Kept.refl _) | (with_reducible assumption) | (simp only [kept_mk]) | simp | (with_reducible apply countObj_kept) | (with_reducible apply emit_kept) | (with_reducible apply useLimit_kept) | (intro _) | split | (with_reducible refine And.intro ?_ ?_)))

@[simp] theorem takeInject_kept {s₀ : State} (level : Nat) (p : Bytes) (s : State) (hs : Kept s₀ s) : Kept s₀ (takeInject level p s) := hs.trans (by
  unfold takeInject
  repeat' (first | (with_reducible exact Kept.refl _) | (with_reducible assumption) | (simp only [kept_mk]) | simp | (with_reducible apply countObj_kept) | (with_reducible apply enterFrame_kept) | (with_reducible apply forwardInject_kept) | (intro _) | split | (with_reducible refine And.intro ?_ ?_)))

@[simp] theorem takeFrame_kept {s₀ : State} (n : Nat) (h : THeader) (src : Nat) (payload : Bytes) (s : State) (hs : Kept s₀ s) : Kept s₀ (takeFrame n h src payload s) := hs.trans (by
  unfold takeFrame
  repeat' (first | (with_reducible exact Kept.refl _) | (with_reducible assumption) | (simp only [kept_mk]) | simp | (with_reducible apply takeInject_kept) | (with_reducible apply reachEngine_kept) | (intro _) | split | (with_reducible refine And.intro ?_ ?_)))

@[simp] theorem authFrame_kept {s₀ : State} (n : Nat) (h : THeader) (src : Nat) (b : Bytes) (s : State) (hs : Kept s₀ s) : Kept s₀ (authFrame n h src b s) := hs.trans (by
  unfold authFrame
  repeat' (first | (with_reducible exact Kept.refl _) | (with_reducible assumption) | (simp only [kept_mk]) | simp | (with_reducible apply malformed_kept) | (with_reducible apply authFails_kept) | (with_reducible apply countObj_kept) | (with_reducible apply takeFrame_kept) | (with_reducible apply setEng_kept) | (intro _) | split | (with_reducible refine And.intro ?_ ?_)))

@[simp] theorem mgmtFrame_kept {s₀ : State} (n : Nat) (frame : Bytes) (s : State) (hs : Kept s₀ s) : Kept s₀ (mgmtFrame n frame s) := hs.trans (by
  unfold mgmtFrame
  repeat' (first | (with_reducible exact Kept.refl _) | (with_reducible assumption) | (simp only [kept_mk]) | simp | (with_reducible apply malformed_kept) | (with_reducible apply answerNonce_kept) | (with_reducible apply authFrame_kept) | (intro _) | split | (with_reducible refine And.intro ?_ ?_)))

@[simp] theorem mailboxFails_kept {s₀ : State} (s : State) (hs : Kept s₀ s) : Kept s₀ (mailboxFails s) := hs.trans (by
  unfold mailboxFails
  repeat' (first | (with_reducible exact Kept.refl _) | (with_reducible assumption) | (simp only [kept_mk]) | simp | (with_reducible apply setMb_kept) | (intro _) | split | (with_reducible refine And.intro ?_ ?_)))

@[simp] theorem mailboxRequest_kept {s₀ : State} (length : Nat) (b : Bytes) (s : State) (hs : Kept s₀ s) : Kept s₀ (mailboxRequest length b s) := hs.trans (by
  unfold mailboxRequest
  repeat' (first | (with_reducible exact Kept.refl _) | (with_reducible assumption) | (simp only [kept_mk]) | simp | (with_reducible apply mailboxFails_kept) | (with_reducible apply malformed_kept) | (with_reducible apply authFails_kept) | (with_reducible apply reachEngine_kept) | (with_reducible apply countObj_kept) | (with_reducible apply setEng_kept) | (intro _) | split | (with_reducible refine And.intro ?_ ?_)))

@[simp] theorem dictMessage_kept {s₀ : State} (c : SqCmd) (respMax respAddr : Nat) (message : Dma) (s : State) (hs : Kept s₀ s) : Kept s₀ (dictMessage c respMax respAddr message s) := hs.trans (by
  unfold dictMessage
  repeat' (first | (with_reducible exact Kept.refl _) | (with_reducible assumption) | (simp only [kept_mk]) | simp | (with_reducible apply complete_kept) | (with_reducible apply reachEngine_kept) | (intro _) | split | (with_reducible refine And.intro ?_ ?_)))

@[simp] theorem failUnit_kept {s₀ : State} (code : Nat) (s : State) (hs : Kept s₀ s) : Kept s₀ (failUnit code s) := hs.trans (by
  unfold failUnit
  repeat' (first | (with_reducible exact Kept.refl _) | (with_reducible assumption) | (simp only [kept_mk]) | simp | (with_reducible apply setRole_kept) | (with_reducible apply leaveJoin_kept) | (with_reducible apply setPair_kept) | (intro _) | split | (with_reducible refine And.intro ?_ ?_)))

@[simp] theorem claimOutcome_kept {s₀ : State} (own b : Nat) (s : State) (hs : Kept s₀ s) : Kept s₀ (claimOutcome own b s) := hs.trans (by
  unfold claimOutcome
  repeat' (first | (with_reducible exact Kept.refl _) | (with_reducible assumption) | (simp only [kept_mk]) | simp | (with_reducible apply count_kept) | (with_reducible apply setRole_kept) | (with_reducible apply setPair_kept) | (intro _) | split | (with_reducible refine And.intro ?_ ?_)))

@[simp] theorem claimDecision_kept {s₀ : State} (b : Nat) (s : State) (hs : Kept s₀ s) : Kept s₀ (claimDecision b s) := hs.trans (by
  unfold claimDecision
  repeat' (first | (with_reducible exact Kept.refl _) | (with_reducible assumption) | (simp only [kept_mk]) | simp | (with_reducible apply setPair_kept) | (with_reducible apply Kept.when) | (with_reducible apply raiseOnce_kept) | (with_reducible apply count_kept) | (with_reducible apply driveClaim_kept) | (with_reducible apply claimOutcome_kept) | (intro _) | split | (with_reducible refine And.intro ?_ ?_)))

@[simp] theorem heard_kept {s₀ : State} (s : State) (hs : Kept s₀ s) : Kept s₀ (heard s) := hs.trans (by
  unfold heard
  repeat' (first | (with_reducible exact Kept.refl _) | (with_reducible assumption) | (simp only [kept_mk]) | simp | (with_reducible apply sendWaiting_kept) | (with_reducible apply setPair_kept) | (intro _) | split | (with_reducible refine And.intro ?_ ?_)))

@[simp] theorem healthReceived_kept {s₀ : State} (report : Bytes) (claim : Nat) (s : State) (hs : Kept s₀ s) : Kept s₀ (healthReceived report claim s) := hs.trans (by
  unfold healthReceived
  repeat' (first | (with_reducible exact Kept.refl _) | (with_reducible assumption) | (simp only [kept_mk]) | simp | (with_reducible apply heard_kept) | (with_reducible apply wr_kept) | (with_reducible apply setPair_kept) | (intro _) | split | (with_reducible refine And.intro ?_ ?_)))

@[simp] theorem startCheck_kept {s₀ : State} (s : State) (hs : Kept s₀ s) : Kept s₀ (startCheck s) := hs.trans (by
  unfold startCheck
  repeat' (first | (with_reducible exact Kept.refl _) | (with_reducible assumption) | (simp only [kept_mk]) | simp | (with_reducible apply count_kept) | (with_reducible apply setPair_kept) | (intro _) | split | (with_reducible refine And.intro ?_ ?_)))

@[simp] theorem checkSets_kept {s₀ : State} (h : Nat) (s : State) (hs : Kept s₀ s) : Kept s₀ (checkSets h s) := hs.trans (by
  unfold checkSets
  repeat' (first | (with_reducible exact Kept.refl _) | (with_reducible assumption) | (simp only [kept_mk]) | simp | (with_reducible apply setPair_kept) | (intro _) | split | (with_reducible refine And.intro ?_ ?_)))

@[simp] theorem noteMismatch_kept {s₀ : State} (s : State) (hs : Kept s₀ s) : Kept s₀ (noteMismatch s) := hs.trans (by
  unfold noteMismatch
  repeat' (first | (with_reducible exact Kept.refl _) | (with_reducible assumption) | (simp only [kept_mk]) | simp | (with_reducible apply setPair_kept) | (with_reducible apply count_kept) | (with_reducible apply sendControl_kept) | (with_reducible apply startCheck_kept) | (intro _) | split | (with_reducible refine And.intro ?_ ?_)))

@[simp] theorem compareWindow_kept {s₀ : State} (w : Nat) (s : State) (hs : Kept s₀ s) : Kept s₀ (compareWindow w s) := hs.trans (by
  unfold compareWindow
  repeat' (first | (with_reducible exact Kept.refl _) | (with_reducible assumption) | (simp only [kept_mk]) | simp | (with_reducible apply setPair_kept) | (with_reducible apply count_kept) | (with_reducible apply noteMismatch_kept) | (intro _) | split | (with_reducible refine And.intro ?_ ?_)))

@[simp] theorem closeWindow_kept {s₀ : State} (w : Nat) (s : State) (hs : Kept s₀ s) : Kept s₀ (closeWindow w s) := hs.trans (by
  unfold closeWindow
  repeat' (first | (with_reducible exact Kept.refl _) | (with_reducible assumption) | (simp only [kept_mk]) | simp | (with_reducible apply setPair_kept) | (with_reducible apply sendPair_kept) | (with_reducible apply compareWindow_kept) | (intro _) | split | (with_reducible refine And.intro ?_ ?_)))

@[simp] theorem countSlot_kept {s₀ : State} (r : Nat) (up : Bool) (s : State) (hs : Kept s₀ s) : Kept s₀ (countSlot r up s) := hs.trans (by
  unfold countSlot
  repeat' (first | (with_reducible exact Kept.refl _) | (with_reducible assumption) | (simp only [kept_mk]) | simp | (with_reducible apply countRecord_kept) | (intro _) | split | (with_reducible refine And.intro ?_ ?_)))

@[simp] theorem mirrorRemove_kept {s₀ : State} (r : Nat) (s : State) (hs : Kept s₀ s) : Kept s₀ (mirrorRemove r s) := hs.trans (by
  unfold mirrorRemove
  repeat' (first | (with_reducible exact Kept.refl _) | (with_reducible assumption) | (simp only [kept_mk]) | simp | (with_reducible apply clearRecord_kept) | (with_reducible apply countSlot_kept) | (intro _) | split | (with_reducible refine And.intro ?_ ?_)))

@[simp] theorem mirrorPut_kept {s₀ : State} (r hot cold : Nat) (s : State) (hs : Kept s₀ s) : Kept s₀ (mirrorPut r hot cold s) := hs.trans (by
  unfold mirrorPut
  repeat' (first | (with_reducible exact Kept.refl _) | (with_reducible assumption) | (simp only [kept_mk]) | simp | (with_reducible apply countSlot_kept) | (with_reducible apply dropHome_kept) | (with_reducible apply setHot_kept) | (with_reducible apply putSlot_kept) | (with_reducible apply addHome_kept) | (intro _) | split | (with_reducible refine And.intro ?_ ?_)))

@[simp] theorem applyMirror_kept {s₀ : State} (m : MirrorMsg) (s : State) (hs : Kept s₀ s) : Kept s₀ (applyMirror m s) := hs.trans (by
  unfold applyMirror
  repeat' (first | (with_reducible exact Kept.refl _) | (with_reducible assumption) | (simp only [kept_mk]) | simp | (with_reducible apply mirrorPut_kept) | (with_reducible apply mirrorRemove_kept) | (with_reducible apply setPort1_kept) | (with_reducible apply installSlots_kept) | (with_reducible apply setBe_kept) | (with_reducible apply wrRow_kept) | (with_reducible apply setSvc_kept) | (intro _) | split | (with_reducible refine And.intro ?_ ?_)))

@[simp] theorem bulkPin_kept {s₀ : State} (m : BulkMsg) (s : State) (hs : Kept s₀ s) : Kept s₀ (bulkPin m s) := hs.trans (by
  unfold bulkPin
  repeat' (first | (with_reducible exact Kept.refl _) | (with_reducible assumption) | (simp only [kept_mk]) | simp | (with_reducible apply pinRecords_getD_kept) | (with_reducible refine Kept.trans ?_ (pinRecords_kept ‹_›)) | (intro _) | split | (with_reducible refine And.intro ?_ ?_)))

@[simp] theorem clearMirrored_kept {s₀ : State} (s : State) (hs : Kept s₀ s) : Kept s₀ (clearMirrored s) :=
  hs.trans ⟨rfl, rfl, fun _ => Nat.le_refl _, Nat.le_refl _, List.prefix_refl _, tabRising_filter _ _, id⟩

@[simp] theorem beginJoin_kept {s₀ : State} (s : State) (hs : Kept s₀ s) : Kept s₀ (beginJoin s) := hs.trans (by
  unfold beginJoin
  repeat' (first | (with_reducible exact Kept.refl _) | (with_reducible assumption) | (simp only [kept_mk]) | simp | (with_reducible apply setRole_kept) | (with_reducible apply setPair_kept) | (with_reducible apply sendControl_kept) | (with_reducible apply writeHaltRequest_kept) | (with_reducible apply clearMirrored_kept) | (with_reducible apply emptyLedger_kept) | (intro _) | split | (with_reducible refine And.intro ?_ ?_)))

@[simp] theorem sendBulk_kept {s₀ : State} (kind : Nat) (body : Bytes) (s : State) (hs : Kept s₀ s) : Kept s₀ (sendBulk kind body s) := hs.trans (by
  unfold sendBulk
  repeat' (first | (with_reducible exact Kept.refl _) | (with_reducible assumption) | (simp only [kept_mk]) | simp | (with_reducible apply setPair_kept) | (with_reducible apply emit_kept) | (intro _) | split | (with_reducible refine And.intro ?_ ?_)))

@[simp] theorem joinRequested_kept {s₀ : State} (claim imageId imageVersion slots : Nat) (s : State) (hs : Kept s₀ s) : Kept s₀ (joinRequested claim imageId imageVersion slots s) := hs.trans (by
  unfold joinRequested
  repeat' (first | (with_reducible exact Kept.refl _) | (with_reducible assumption) | (simp only [kept_mk]) | simp | (with_reducible apply sendControl_kept) | (with_reducible apply setPair_kept) | (with_reducible apply align_kept) | (with_reducible apply Kept.forEach) | (with_reducible apply sendBulk_kept) | (intro _) | split | (with_reducible refine And.intro ?_ ?_)))

@[simp] theorem align_kept {s₀ : State} (cclk sec ns : Nat) (s : State) (hs : Kept s₀ s) : Kept s₀ (align cclk sec ns s) := hs.trans (by
  unfold align
  repeat' (first | (with_reducible exact Kept.refl _) | (with_reducible assumption) | (simp only [kept_mk]) | simp | (with_reducible apply setLoad_kept) | (intro _) | split | (with_reducible refine And.intro ?_ ?_)))

@[simp] theorem turnAsked_kept {s₀ : State} (epoch : Nat) (step : Bool) (s : State) (hs : Kept s₀ s) : Kept s₀ (turnAsked epoch step s) := hs.trans (by
  unfold turnAsked
  repeat' (first | (with_reducible exact Kept.refl _) | (with_reducible assumption) | (simp only [kept_mk]) | simp | (with_reducible apply pairDiverged_kept) | (with_reducible apply beginStep_kept) | (with_reducible apply beginTurn_kept) | (intro _) | split | (with_reducible refine And.intro ?_ ?_)))

@[simp] theorem turnSet_kept {s₀ : State} (c : Nat) (s : State) (hs : Kept s₀ s) : Kept s₀ (turnSet c s) := hs.trans (by
  unfold turnSet
  repeat' (first | (with_reducible exact Kept.refl _) | (with_reducible assumption) | (simp only [kept_mk]) | simp | (with_reducible apply setTurnT_kept) | (with_reducible apply pairDiverged_kept) | (intro _) | split | (with_reducible refine And.intro ?_ ?_)))

@[simp] theorem joinStep_kept {s₀ : State} (n : Nat) (s : State) (hs : Kept s₀ s) : Kept s₀ (joinStep n s) := hs.trans (by
  unfold joinStep
  repeat' (first | (with_reducible exact Kept.refl _) | (with_reducible assumption) | (simp only [kept_mk]) | simp | (with_reducible apply setPair_kept) | (intro _) | split | (with_reducible refine And.intro ?_ ?_)))

@[simp] theorem control_kept {s₀ : State} (m : ControlMsg) (s : State) (hs : Kept s₀ s) : Kept s₀ (control m s) := hs.trans (by
  unfold control
  repeat' (first | (with_reducible exact Kept.refl _) | (with_reducible assumption) | (simp only [kept_mk]) | simp | (with_reducible apply joinRequested_kept) | (with_reducible apply refuseJoin_kept) | (with_reducible apply align_kept) | (with_reducible apply joinStep_kept) | (with_reducible apply setPair_kept) | (with_reducible apply startCheck_kept) | (with_reducible apply turnAsked_kept) | (with_reducible apply decideTurn_kept) | (with_reducible apply turnSet_kept) | (intro _) | split | (with_reducible refine And.intro ?_ ?_)))

@[simp] theorem joinPut_kept {s₀ : State} (set obj row v : Nat) (s : State) (hs : Kept s₀ s) : Kept s₀ (joinPut set obj row v s) := hs.trans (by
  unfold joinPut
  repeat' (first | (with_reducible exact Kept.refl _) | (with_reducible assumption) | (simp only [kept_mk]) | simp | (with_reducible apply wrSet_kept) | (with_reducible apply putValue_kept) | (intro _) | split | (with_reducible refine And.intro ?_ ?_)))

@[simp] theorem joinItems_kept {s₀ : State} (m : Msg) (s : State) (hs : Kept s₀ s) : Kept s₀ (joinItems m s) := hs.trans (by
  unfold joinItems
  repeat' (first | (with_reducible exact Kept.refl _) | (with_reducible assumption) | (simp only [kept_mk]) | simp | (with_reducible apply Kept.forEach) | (with_reducible apply joinPut_kept) | (intro _) | split | (with_reducible refine And.intro ?_ ?_)))

@[simp] theorem takeDue_kept {s₀ : State} (d : PairDue) (s : State) (hs : Kept s₀ s) : Kept s₀ (takeDue d s) := hs.trans (by
  unfold takeDue
  repeat' (first | (with_reducible exact Kept.refl _) | (with_reducible assumption) | (simp only [kept_mk]) | simp | (with_reducible apply pairDiverged_kept) | (with_reducible apply setPair_kept) | (intro _) | split | (with_reducible refine And.intro ?_ ?_)))

@[simp] theorem commandDone_kept {s₀ : State} (c : SqCmd) (opcode : Nat) (body data : Bytes) (s : State) (hs : Kept s₀ s) : Kept s₀ (commandDone c opcode body data s).state := hs.trans (by
  unfold commandDone
  repeat' (first | (with_reducible exact Kept.refl _) | (with_reducible assumption) | (simp only [kept_mk]) | simp | (with_reducible apply tblPartner_kept) | (with_reducible apply rulePartner_kept) | (with_reducible apply flowPartner_kept) | (with_reducible apply capPartner_kept) | (intro _) | split | (with_reducible refine And.intro ?_ ?_)))

@[simp] theorem partnerCommand_kept {s₀ : State} (opcode : Nat) (body data : Bytes) (s : State) (hs : Kept s₀ s) : Kept s₀ (partnerCommand opcode body data s) := hs.trans (by
  unfold partnerCommand
  repeat' (first | (with_reducible exact Kept.refl _) | (with_reducible assumption) | (simp only [kept_mk]) | simp | (with_reducible apply commandDone_kept) | (with_reducible apply pairDiverged_kept) | (intro _) | split | (with_reducible refine And.intro ?_ ?_)))

@[simp] theorem partnerWrite_kept {s₀ : State} (m : Msg) (s : State) (hs : Kept s₀ s) : Kept s₀ (partnerWrite m s) := hs.trans (by
  unfold partnerWrite
  repeat' (first | (with_reducible exact Kept.refl _) | (with_reducible assumption) | (simp only [kept_mk]) | simp | (with_reducible apply putItems_kept) | (with_reducible apply pairDiverged_kept) | (intro _) | split | (with_reducible refine And.intro ?_ ?_)))

@[simp] theorem runDue_kept {s₀ : State} (d : PairDue) (s : State) (hs : Kept s₀ s) : Kept s₀ (runDue d s) := hs.trans (by
  unfold runDue
  repeat' (first | (with_reducible exact Kept.refl _) | (with_reducible assumption) | (simp only [kept_mk]) | simp | (with_reducible apply finish_kept) | (with_reducible apply commandDone_kept) | (with_reducible apply applyWrite_kept) | (with_reducible apply partnerWrite_kept) | (with_reducible apply partnerCommand_kept) | (intro _) | split | (with_reducible refine And.intro ?_ ?_)))

theorem runDues_keeps (n : Nat) (s : State) : Kept s (runDues n s) := by
  induction n generalizing s with
  | zero => exact Kept.refl s
  | succ n ih =>
    unfold runDues
    split
    · exact Kept.refl s
    · exact (runDue_kept _ _ (setPair_kept _ _ (Kept.refl s))).trans (ih _)

@[simp] theorem runDues_kept {s₀ : State} (n : Nat) (s : State) (hs : Kept s₀ s) : Kept s₀ (runDues n s) :=
  hs.trans (runDues_keeps n s)

@[simp] theorem endJoinHalt_kept {s₀ : State} (s : State) (hs : Kept s₀ s) : Kept s₀ (endJoinHalt s) := hs.trans (by
  unfold endJoinHalt
  repeat' (first | (with_reducible exact Kept.refl _) | (with_reducible assumption) | (simp only [kept_mk]) | simp | (with_reducible apply writeHaltRequest_kept) | (with_reducible apply setPair_kept) | (intro _) | split | (with_reducible refine And.intro ?_ ?_)))

@[simp] theorem countUnused_kept {s₀ : State} (n : Nat) (s : State) (hs : Kept s₀ s) : Kept s₀ (countUnused n s) := hs.trans (by
  unfold countUnused
  repeat' (first | (with_reducible exact Kept.refl _) | (with_reducible assumption) | (simp only [kept_mk]) | simp | (with_reducible apply Kept.forEach) | (with_reducible apply slotCategory_kept) | (intro _) | split | (with_reducible refine And.intro ?_ ?_)))

@[simp] theorem countSlots_kept {s₀ : State} (s : State) (hs : Kept s₀ s) : Kept s₀ (countSlots s) := hs.trans (by
  unfold countSlots
  repeat' (first | (with_reducible exact Kept.refl _) | (with_reducible assumption) | (simp only [kept_mk]) | simp | (with_reducible apply Kept.when) | (with_reducible apply Kept.forEach) | (with_reducible apply countUnused_kept) | (intro _) | split | (with_reducible refine And.intro ?_ ?_)))

@[simp] theorem countCycles_kept {s₀ : State} (s : State) (hs : Kept s₀ s) : Kept s₀ (countCycles s) := hs.trans (by
  unfold countCycles
  repeat' (first | (with_reducible exact Kept.refl _) | (with_reducible assumption) | (simp only [kept_mk]) | simp | (with_reducible apply occurGlobal_kept) | (with_reducible apply Kept.forEach) | (with_reducible apply occur_kept) | (intro _) | split | (with_reducible refine And.intro ?_ ?_)))

@[simp] theorem countWaiting_kept {s₀ : State} (s : State) (hs : Kept s₀ s) : Kept s₀ (countWaiting s) := hs.trans (by
  unfold countWaiting
  repeat' (first | (with_reducible exact Kept.refl _) | (with_reducible assumption) | (simp only [kept_mk]) | simp | (with_reducible apply Kept.forEach) | (with_reducible apply occur_kept) | (intro _) | split | (with_reducible refine And.intro ?_ ?_)))

@[simp] theorem countGated_kept {s₀ : State} (s : State) (hs : Kept s₀ s) : Kept s₀ (countGated s) := hs.trans (by
  unfold countGated
  repeat' (first | (with_reducible exact Kept.refl _) | (with_reducible assumption) | (simp only [kept_mk]) | simp | (with_reducible apply occurGlobal_kept) | (intro _) | split | (with_reducible refine And.intro ?_ ?_)))

@[simp] theorem cycleEnds_kept {s₀ : State} (s : State) (hs : Kept s₀ s) : Kept s₀ (cycleEnds s) := hs.trans (by
  unfold cycleEnds
  repeat' (first | (with_reducible exact Kept.refl _) | (with_reducible assumption) | (simp only [kept_mk]) | simp | (with_reducible apply countGated_kept) | (with_reducible apply countCycles_kept) | (with_reducible apply countSlots_kept) | (with_reducible apply applyReleases_kept) | (with_reducible apply countWaiting_kept) | (with_reducible apply countWaits_kept) | (intro _) | split | (with_reducible refine And.intro ?_ ?_)))

@[simp] theorem clocks_kept {s₀ : State} (s : State) (hs : Kept s₀ s) : Kept s₀ (clocks s) := hs.trans (by
  unfold clocks
  repeat' (first | (with_reducible exact Kept.refl _) | (with_reducible assumption) | (simp only [kept_mk]) | simp | (with_reducible apply calTick_kept) | (with_reducible apply timeTick_kept) | (intro _) | split | (with_reducible refine And.intro ?_ ?_)))

@[simp] theorem decideAlone_kept {s₀ : State} (s : State) (hs : Kept s₀ s) : Kept s₀ (decideAlone s) := hs.trans (by
  unfold decideAlone
  repeat' (first | (with_reducible exact Kept.refl _) | (with_reducible assumption) | (simp only [kept_mk]) | simp | (with_reducible apply setTurnT_kept) | (with_reducible apply rejectTurn_kept) | (intro _) | split | (with_reducible refine And.intro ?_ ?_)))

@[simp] theorem deferredGoOn_kept {s₀ : State} (s : State) (hs : Kept s₀ s) : Kept s₀ (deferredGoOn s) := hs.trans (by
  unfold deferredGoOn
  repeat' (first | (with_reducible exact Kept.refl _) | (with_reducible assumption) | (simp only [kept_mk]) | simp | (with_reducible apply flushWrites_kept) | (with_reducible apply refill_kept) | (with_reducible apply retryWaiting_kept) | (with_reducible apply startArrivals_kept) | (intro _) | split | (with_reducible refine And.intro ?_ ?_)))

@[simp] theorem goOn_kept {s₀ : State} (s : State) (hs : Kept s₀ s) : Kept s₀ (goOn s) := hs.trans (by
  unfold goOn
  repeat' (first | (with_reducible exact Kept.refl _) | (with_reducible assumption) | (simp only [kept_mk]) | simp | (with_reducible apply flushHeld_kept) | (with_reducible apply deferredGoOn_kept) | (with_reducible apply runLedger_kept) | (with_reducible apply serveNext_kept) | (with_reducible apply endJoinHalt_kept) | (with_reducible apply decideAlone_kept) | (with_reducible apply runDues_kept) | (intro _) | split | (with_reducible refine And.intro ?_ ?_)))

@[simp] theorem idle_kept {s₀ : State} (s : State) (hs : Kept s₀ s) : Kept s₀ (idle s) := hs.trans (by
  unfold idle
  repeat' (first | (with_reducible exact Kept.refl _) | (with_reducible assumption) | (simp only [kept_mk]) | simp | (with_reducible apply goOn_kept) | (with_reducible apply clocks_kept) | (with_reducible apply cycleEnds_kept) | (intro _) | split | (with_reducible refine And.intro ?_ ?_)))

end Sys2Proof.Machine
end

