-- ==== Sys2Proof/Laws/PerInstr.lean ====
section
/-! SUPPORT. What well-formedness says of each command, command by command: every unit, level and value it names is one that the
device has. -/

set_option Elab.async false

namespace Sys2Proof.Laws.WellFormedUnits
open Sys2Proof

/-- The units of an origin, each with how many the device has. -/
def originUnits (o : Origin) : List (Nat × Nat) :=
  (o.keyLevel, 4) :: (match o.path with
    | .mgmt n => [(n, 2)]
    | .queue q => [(q, 4096)]
    | .mailbox => []
    | .pairLink => [])

/-- The queue and TAG of a command. -/
def queueUnits (c : SqCmd) : List (Nat × Nat) := [(c.sq, 4096), (c.tag, 2 ^ 32)]

/-- The header bytes of a message. -/
def messageUnits (m : Msg) : List (Nat × Nat) := [(m.opcode, 256), (m.level, 256)]

/-- The units, levels and values a command names, each with how many the device has. -/
def unitsNamed : Instr → List (Nat × Nat)
  | .secondWindowEnd => []
  | .frameReception p _ _ => [(p, 512)]
  | .headAcceptance n _ => [(n, 16)]
  | .tableLookup _ _ _ => []
  | .ruleSearch _ _ a => a.map (fun x => (x, 131072))
  | .patternScan n _ => [(n, 16)]
  | .microInstruction _ _ _ _ _ => []
  | .csRepairComplete n st w => [(n, 16), (st, 4), (w, 65536)]
  | .flowSet _ _ _ _ _ => []
  | .ingressResolution _ => []
  | .recircEnqueue _ _ => []
  | .ledgerOperation _ _ => []
  | .hbmReadReturn f n _ _ => [(f, 16), (n, 4194304)]
  | .aliasAdmission f => [(f, 16)]
  | .aliasForward f => [(f, 16)]
  | .bufferGrant p _ _ _ _ => [(p, 8)]
  | .poolStarved _ => []
  | .bufferRelease _ _ k _ => [(k, 22)]
  | .undertowPass => []
  | .fabricStageOne => []
  | .fabricDiscard n m _ => [(n, 16), (m, 32)]
  | .mcFifoHead m _ => [(m, 32)]
  | .mcPipelineStruck m _ n => [(m, 32), (n, 16)]
  | .fabricStageTwo n => [(n, 16)]
  | .mcReplication n => [(n, 16)]
  | .internalDelivery n => [(n, 16)]
  | .captureCompose => []
  | .transmitSelection n => [(n, 16)]
  | .gateEntryChange p => [(p, 512)]
  | .transmissionStart p _ _ => [(p, 512)]
  | .transmissionEnd p => [(p, 512)]
  | .read o m => originUnits o ++ messageUnits m
  | .write o m => originUnits o ++ messageUnits m
  | .compoundWrite o m => originUnits o ++ messageUnits m
  | .describe o m => originUnits o ++ messageUnits m
  | .enumerate o m => originUnits o ++ messageUnits m
  | .echo o m => originUnits o ++ messageUnits m
  | .turnRequest o l v => originUnits o ++ [(l, 256), (v, 2 ^ 16)]
  | .validationComplete => []
  | .turnCycle => []
  | .snapshotWritten => []
  | .slackWaterEnd => []
  | .slackTimeout => []
  | .reseedingComplete => []
  | .stepRequest o l v => originUnits o ++ [(l, 256), (v, 2 ^ 16)]
  | .autoEpochStep => []
  | .snapRequest o l v => originUnits o ++ [(l, 256), (v, 256)]
  | .haltRequest o l v => originUnits o ++ [(l, 256), (v, 2 ^ 64)]
  | .haltedSet b => [(b, 39)]
  | .mgmtFrameReceived n _ => [(n, 2)]
  | .nonceQuery n _ => [(n, 2)]
  | .injectFrame n _ => [(n, 2)]
  | .mbDoorbell n _ => [(n, 2 ^ 32)]
  | .mailboxResponse => []
  | .keyRevoke o l t v => originUnits o ++ [(l, 256), (t, 4), (v, 256)]
  | .mgmtMode o l v => originUnits o ++ [(l, 256), (v, 2 ^ 32)]
  | .mgmtLinkRestart n => [(n, 2)]
  | .octetEnable o l n v => originUnits o ++ [(l, 256), (n, 64), (v, 256)]
  | .octetDrained n => [(n, 64)]
  | .portEnable o l p v => originUnits o ++ [(l, 256), (p, 512), (v, 256)]
  | .autonegComplete p _ _ _ => [(p, 512)]
  | .trainingComplete p => [(p, 512)]
  | .alignmentComplete p => [(p, 512)]
  | .upHoldExpiry p => [(p, 512)]
  | .linkFault p _ _ => [(p, 512)]
  | .linkFaultCleared p => [(p, 512)]
  | .downHoldExpiry p => [(p, 512)]
  | .bringupTimeout p => [(p, 512)]
  | .retryWaitEnd p => [(p, 512)]
  | .fecDegraded p _ _ _ => [(p, 512)]
  | .eeeLpiEntry p => [(p, 512)]
  | .csLoad o l v => originUnits o ++ [(l, 256), (v, 2 ^ 32)]
  | .csLoadComplete => []
  | .tblRead c _ _ => queueUnits c
  | .tblInsert c _ => queueUnits c
  | .tblUpdate c _ => queueUnits c
  | .tblDelete c _ => queueUnits c
  | .tblLock c _ => queueUnits c
  | .tblUnlock c _ => queueUnits c
  | .ecmpSet c _ => queueUnits c
  | .tableCommit _ _ _ _ => []
  | .lockExpired _ _ => []
  | .learnHoldoffExpiry _ _ => []
  | .ruleRead c _ => queueUnits c
  | .ruleWrite c _ => queueUnits c
  | .ruleClear c _ => queueUnits c
  | .ruleMove c _ => queueUnits c
  | .ruleMoveCopy _ _ => []
  | .rbScrub bad => bad.map (fun x => (x, 131072))
  | .patLoad c _ _ => queueUnits c
  | .patLoadComplete _ => []
  | .flowRead c _ _ => queueUnits c
  | .flowWalk c _ _ => queueUnits c
  | .flowInsert c _ _ _ => queueUnits c
  | .flowUpdate c _ _ => queueUnits c
  | .flowDelete c _ => queueUnits c
  | .flowPin c _ => queueUnits c
  | .flowUnpin c _ => queueUnits c
  | .writeback f n _ => [(f, 16), (n, 4194304)]
  | .fold f n _ => [(f, 16), (n, 4194304)]
  | .ledgerRepair f n _ _ => [(f, 16), (n, 4194304)]
  | .ledgerAging f => [(f, 16)]
  | .natRelease p _ => [(p, 256)]
  | .portmapAudit p _ => [(p, 256)]
  | .counterExport => []
  | .learnNotice => []
  | .macAging => []
  | .emReturn => []
  | .filterRebuild => []
  | .captureCopy => []
  | .pairMirror => []
  | .farPass _ => []
  | .rebalanceRun t => [(t, 256)]
  | .slotTableRebuild t => [(t, 256)]
  | .backendState o l r v => originUnits o ++ [(l, 256), (r, 2 ^ 32), (v, 256)]
  | .capRead c _ => queueUnits c
  | .functionLevelReset => []
  | .perstN _ => []
  | .adminEnable o l v => originUnits o ++ [(l, 256), (v, 256)]
  | .sqDoorbell q => [(q, 4096)]
  | .pushWindowDoorbell q _ _ => [(q, 4096)]
  | .sqPoll q => [(q, 4096)]
  | .entryFetch q _ _ => [(q, 4096)]
  | .cqDoorbell q => [(q, 4096)]
  | .createSq c _ => queueUnits c
  | .deleteSq c _ => queueUnits c
  | .createCq c _ => queueUnits c
  | .deleteCq c _ => queueUnits c
  | .modifyCq c _ => queueUnits c
  | .restart c _ _ _ => queueUnits c
  | .nop c => queueUnits c
  | .dict c _ _ _ => queueUnits c
  | .inject c _ _ _ => queueUnits c
  | .rxPost c _ => queueUnits c
  | .interruptSignal q _ => [(q, 4096)]
  | .msixUnmask v => [(v, 2048)]
  | .l1Entry k => [(k, 4)]
  | .l1Exit => []
  | .d3hotEntry _ _ => []
  | .d0Return => []
  | .timeSet o l sec ns => originUnits o ++ [(l, 256), (sec, 2 ^ 48), (ns, 2 ^ 32)]
  | .timeStep o l _ => originUnits o ++ [(l, 256)]
  | .timeSlew o l _ => originUnits o ++ [(l, 256)]
  | .timeLatch o l v => originUnits o ++ [(l, 256), (v, 256)]
  | .timeIncrement o l v => originUnits o ++ [(l, 256), (v, 2 ^ 64)]
  | .ppsOutEdge => []
  | .ppsIn => []
  | .synceLoss => []
  | .calSet o l sec ns => originUnits o ++ [(l, 256), (sec, 2 ^ 48), (ns, 2 ^ 32)]
  | .calSync o l v => originUnits o ++ [(l, 256), (v, 256)]
  | .calSyncLoad => []
  | .crystalStop => []
  | .vbatLow => []
  | .claimDecision c => [(c, 256)]
  | .firstClaim => []
  | .privilegedFault u => [(u, 3)]
  | .pairYield o l v => originUnits o ++ [(l, 256), (v, 256)]
  | .pairRejoin o l v => originUnits o ++ [(l, 256), (v, 256)]
  | .pairEnable o l v => originUnits o ++ [(l, 256), (v, 256)]
  | .health _ c => [(c, 256)]
  | .healthTimer => []
  | .digest _ _ _ => []
  | .digestWindowClose _ => []
  | .pairControl _ => []
  | .selfCheckComplete _ _ => []
  | .pairWrite m _ => messageUnits m
  | .pairCommand _ _ _ _ => []
  | .mirror _ => []
  | .pairFrame n _ _ => [(n, 16)]
  | .bulk _ => []
  | .retransmitTimeout _ => []
  | .pairLost => []
  | .soundingTest t _ => [(t, 7)]
  | .joinStart c _ _ _ _ => [(c, 256)]
  | .joinFinish => []
  | .energySample _ _ => []
  | .voltageLoop _ _ => []
  | .vregCheck _ _ => []
  | .regulatorRetry _ => []
  | .slotGateLoop n => [(n, 16)]
  | .engineWait n _ => [(n, 16)]
  | .bufferThresholdLoop => []
  | .voltageProtection => []
  | .thermalProtection _ => []
  | .overrideEnd k => [(k, 2)]
  | .govKnobs o l r v => originUnits o ++ [(l, 256), (r, 2 ^ 32), (v, 2 ^ 128)]
  | .perfSelect o l r v => originUnits o ++ [(l, 256), (r, 2 ^ 32), (v, 2 ^ 128)]
  | .preciseSampleWrite n => [(n, 16)]
  | .powerOn _ => []
  | .resetN _ => []
  | .resetRequest o l v => originUnits o ++ [(l, 256), (v, 256)]
  | .thermalTrip => []
  | .clockTreeFault c => [(c, 5)]
  | .railUndervoltage => []
  | .coreRestart r => [(r, 3)]
  | .bootStepComplete _ => []
  | .ledgerRebased => []
  | .bootAttemptTimeout _ => []
  | .bootContinue o l v => originUnits o ++ [(l, 256), (v, 256)]
  | .controlPathRetry _ _ => []
  | .hbmStackLost k => [(k, 4)]
  | .ledgerFault f _ => [(f, 16)]
  | .eventClear o l g b => originUnits o ++ [(l, 256), (g, 2 ^ 32), (b, 2 ^ 32)]
  | .hbmWriteComplete f => [(f, 16)]
  | .ledgerScrub f n _ _ => [(f, 16), (n, 4194304)]
  | .sliceFlushComplete f _ => [(f, 16)]
  | .indexReadComplete q _ _ => [(q, 4096)]
  | .mbOverrunClear => []
  | .ppsOutFall => []
  | .pmbAlert => []
  | .linkLeavesL1 => []
  | .mgmtLinkChange n _ => [(n, 2)]
  | .thermalTripCleared => []
  | .tapInstructionLoaded _ => []

/-- A well-formed command names only what the device has. -/
def Statement (i : Instr) : Prop := i.wf = true → (unitsNamed i).all (fun e => decide (e.1 < e.2)) = true

theorem all_append {a b : List (Nat × Nat)} (ha : a.all (fun e => decide (e.1 < e.2)) = true)
    (hb : b.all (fun e => decide (e.1 < e.2)) = true) : (a ++ b).all (fun e => decide (e.1 < e.2)) = true := by
  rw [List.all_append, ha, hb]; rfl

theorem origin_in (o : Origin) (h : o.wf = true) : (originUnits o).all (fun e => decide (e.1 < e.2)) = true := by
  cases hp : o.path <;> simp_all [Origin.wf, originUnits, isLevel, isMgmt, isQueue]

theorem queue_in (c : SqCmd) (h : c.wf = true) : (queueUnits c).all (fun e => decide (e.1 < e.2)) = true := by
  simp_all [SqCmd.wf, queueUnits, isQueue]

theorem message_in (m : Msg) (h : m.wf = true) : (messageUnits m).all (fun e => decide (e.1 < e.2)) = true := by
  simp_all [Msg.wf, messageUnits, isByte]

theorem one_in {a k : Nat} (h : decide (a < k) = true) : [(a, k)].all (fun e => decide (e.1 < e.2)) = true := by
  simpa using h

theorem two_in {a k b l : Nat} (h : (decide (a < k) && decide (b < l)) = true) :
    [(a, k), (b, l)].all (fun e => decide (e.1 < e.2)) = true := by
  simpa using h

theorem three_in {a k b l c m : Nat} (h : (decide (a < k) && decide (b < l) && decide (c < m)) = true) :
    [(a, k), (b, l), (c, m)].all (fun e => decide (e.1 < e.2)) = true := by
  simpa [and_assoc] using h

theorem origin_message {o : Origin} {m : Msg} (h : (o.wf && m.wf) = true) :
    (originUnits o ++ messageUnits m).all (fun e => decide (e.1 < e.2)) = true := by
  rw [Bool.and_eq_true] at h
  exact all_append (origin_in o h.1) (message_in m h.2)

theorem origin_two_in {o : Origin} {a k b l : Nat} (h : (o.wf && decide (a < k) && decide (b < l)) = true) :
    (originUnits o ++ [(a, k), (b, l)]).all (fun e => decide (e.1 < e.2)) = true := by
  rw [Bool.and_assoc, Bool.and_eq_true] at h
  exact all_append (origin_in o h.1) (two_in h.2)

theorem origin_three_in {o : Origin} {a k b l c m : Nat}
    (h : (o.wf && decide (a < k) && decide (b < l) && decide (c < m)) = true) :
    (originUnits o ++ [(a, k), (b, l), (c, m)]).all (fun e => decide (e.1 < e.2)) = true := by
  rw [Bool.and_assoc, Bool.and_assoc, Bool.and_eq_true, ← Bool.and_assoc] at h
  exact all_append (origin_in o h.1) (three_in h.2)

theorem origin_level {o : Origin} {l : Nat} {x y : Bool} (h : (o.wf && decide (l < 256) && x && y) = true) :
    (originUnits o ++ [(l, 256)]).all (fun e => decide (e.1 < e.2)) = true := by
  rw [Bool.and_eq_true, Bool.and_eq_true, Bool.and_eq_true] at h
  exact all_append (origin_in o h.1.1.1) (one_in h.1.1.2)

theorem reason_in {r : Nat} (h : (decide (r = 1) || decide (r = 2)) = true) :
    [(r, 3)].all (fun e => decide (e.1 < e.2)) = true := by
  rw [Bool.or_eq_true, decide_eq_true_eq, decide_eq_true_eq] at h
  rcases h with rfl | rfl <;> rfl

theorem test_in {t : Nat} (h : (decide (1 ≤ t) && decide (t ≤ 6)) = true) :
    [(t, 7)].all (fun e => decide (e.1 < e.2)) = true := by
  rw [Bool.and_eq_true, decide_eq_true_eq, decide_eq_true_eq] at h
  exact one_in (decide_eq_true (by omega))

theorem rows_in {l : List Nat} (h : l.all (fun x => decide (x < 131072)) = true) :
    (l.map (fun x => (x, 131072))).all (fun e => decide (e.1 < e.2)) = true := by
  simpa using h

theorem link_in {k : Nat} (h : (decide (1 ≤ k) && decide (k ≤ 3)) = true) :
    [(k, 4)].all (fun e => decide (e.1 < e.2)) = true := by
  rw [Bool.and_eq_true, decide_eq_true_eq, decide_eq_true_eq] at h
  exact one_in (decide_eq_true (by omega))

theorem secondWindowEnd : Statement .secondWindowEnd := fun _ => rfl
theorem frameReception (p : Nat) (frame : Bytes) (fcsOk : Bool) : Statement (.frameReception p frame fcsOk) := fun h => one_in h
theorem headAcceptance (n : Nat) (parse : Parse) : Statement (.headAcceptance n parse) := fun h => one_in h
theorem tableLookup (fid : Nat) (key : LookupKey) (bad : List (Nat × Nat)) : Statement (.tableLookup fid key bad) := fun _ => rfl
theorem ruleSearch (fid : Nat) (parity : List Nat) (a : List Nat) : Statement (.ruleSearch fid parity a) := fun h => rows_in h
theorem patternScan (n : Nat) (words : List (Nat × Ecc)) : Statement (.patternScan n words) := fun h => one_in h
theorem microInstruction (fid : Nat) (word : Nat) (op : MicroOp) (ecc : Ecc) (config : Option Nat) : Statement (.microInstruction fid word op ecc config) := fun _ => rfl
theorem csRepairComplete (n : Nat) (st : Nat) (w : Nat) : Statement (.csRepairComplete n st w) := fun h => three_in h
theorem flowSet (fid : Nat) (mask : Nat) (connState : Nat) (svcAddr : Nat) (svcPort : Nat) : Statement (.flowSet fid mask connState svcAddr svcPort) := fun _ => rfl
theorem ingressResolution (fid : Nat) : Statement (.ingressResolution fid) := fun _ => rfl
theorem recircEnqueue (fid : Nat) (egress : EgressRun) : Statement (.recircEnqueue fid egress) := fun _ => rfl
theorem ledgerOperation (fid : Nat) (ways : List (Nat × Ecc)) : Statement (.ledgerOperation fid ways) := fun _ => rfl
theorem hbmReadReturn (f : Nat) (n : Nat) (hot : Ecc) (cold : Ecc) : Statement (.hbmReadReturn f n hot cold) := fun h => two_in h
theorem aliasAdmission (f : Nat) : Statement (.aliasAdmission f) := fun h => one_in h
theorem aliasForward (f : Nat) : Statement (.aliasForward f) := fun h => one_in h
theorem bufferGrant (p : Nat) (header : Ecc) (link : Ecc) (word : Option Nat) (stray : Option (Nat × Nat)) : Statement (.bufferGrant p header link word stray) := fun h => one_in h
theorem poolStarved (fid : Nat) : Statement (.poolStarved fid) := fun _ => rfl
theorem bufferRelease (handle : Nat) (owner : Nat) (k : Nat) (header : Ecc) : Statement (.bufferRelease handle owner k header) := fun h => one_in h
theorem undertowPass : Statement .undertowPass := fun _ => rfl
theorem fabricStageOne : Statement .fabricStageOne := fun _ => rfl
theorem fabricDiscard (n : Nat) (m : Nat) (class7 : Bool) : Statement (.fabricDiscard n m class7) := fun h => two_in h
theorem mcFifoHead (m : Nat) (class7 : Bool) : Statement (.mcFifoHead m class7) := fun h => one_in h
theorem mcPipelineStruck (m : Nat) (class7 : Bool) (n : Nat) : Statement (.mcPipelineStruck m class7 n) := fun h => two_in h
theorem fabricStageTwo (n : Nat) : Statement (.fabricStageTwo n) := fun h => one_in h
theorem mcReplication (n : Nat) : Statement (.mcReplication n) := fun h => one_in h
theorem internalDelivery (n : Nat) : Statement (.internalDelivery n) := fun h => one_in h
theorem captureCompose : Statement .captureCompose := fun _ => rfl
theorem transmitSelection (n : Nat) : Statement (.transmitSelection n) := fun h => one_in h
theorem gateEntryChange (p : Nat) : Statement (.gateEntryChange p) := fun h => one_in h
theorem transmissionStart (p : Nat) (egress : EgressRun) (ecc : Ecc) : Statement (.transmissionStart p egress ecc) := fun h => one_in h
theorem transmissionEnd (p : Nat) : Statement (.transmissionEnd p) := fun h => one_in h
theorem read (o : Origin) (m : Msg) : Statement (.read o m) := fun h => origin_message h
theorem write (o : Origin) (m : Msg) : Statement (.write o m) := fun h => origin_message h
theorem compoundWrite (o : Origin) (m : Msg) : Statement (.compoundWrite o m) := fun h => origin_message h
theorem describe (o : Origin) (m : Msg) : Statement (.describe o m) := fun h => origin_message h
theorem enumerate (o : Origin) (m : Msg) : Statement (.enumerate o m) := fun h => origin_message h
theorem echo (o : Origin) (m : Msg) : Statement (.echo o m) := fun h => origin_message h
theorem turnRequest (o : Origin) (l : Nat) (v : Nat) : Statement (.turnRequest o l v) := fun h => origin_two_in h
theorem validationComplete : Statement .validationComplete := fun _ => rfl
theorem turnCycle : Statement .turnCycle := fun _ => rfl
theorem snapshotWritten : Statement .snapshotWritten := fun _ => rfl
theorem slackWaterEnd : Statement .slackWaterEnd := fun _ => rfl
theorem slackTimeout : Statement .slackTimeout := fun _ => rfl
theorem reseedingComplete : Statement .reseedingComplete := fun _ => rfl
theorem stepRequest (o : Origin) (l : Nat) (v : Nat) : Statement (.stepRequest o l v) := fun h => origin_two_in h
theorem autoEpochStep : Statement .autoEpochStep := fun _ => rfl
theorem snapRequest (o : Origin) (l : Nat) (v : Nat) : Statement (.snapRequest o l v) := fun h => origin_two_in h
theorem haltRequest (o : Origin) (l : Nat) (v : Nat) : Statement (.haltRequest o l v) := fun h => origin_two_in h
theorem haltedSet (b : Nat) : Statement (.haltedSet b) := fun h => one_in h
theorem mgmtFrameReceived (n : Nat) (frame : Bytes) : Statement (.mgmtFrameReceived n frame) := fun h => one_in h
theorem nonceQuery (n : Nat) (frame : Bytes) : Statement (.nonceQuery n frame) := fun h => one_in h
theorem injectFrame (n : Nat) (frame : Bytes) : Statement (.injectFrame n frame) := fun h => one_in h
theorem mbDoorbell (n : Nat) (area : Bytes) : Statement (.mbDoorbell n area) := fun h => one_in h
theorem mailboxResponse : Statement .mailboxResponse := fun _ => rfl
theorem keyRevoke (o : Origin) (l : Nat) (t : Nat) (v : Nat) : Statement (.keyRevoke o l t v) := fun h => origin_three_in h
theorem mgmtMode (o : Origin) (l : Nat) (v : Nat) : Statement (.mgmtMode o l v) := fun h => origin_two_in h
theorem mgmtLinkRestart (n : Nat) : Statement (.mgmtLinkRestart n) := fun h => one_in h
theorem octetEnable (o : Origin) (l : Nat) (n : Nat) (v : Nat) : Statement (.octetEnable o l n v) := fun h => origin_three_in h
theorem octetDrained (n : Nat) : Statement (.octetDrained n) := fun h => one_in h
theorem portEnable (o : Origin) (l : Nat) (p : Nat) (v : Nat) : Statement (.portEnable o l p v) := fun h => origin_three_in h
theorem autonegComplete (p : Nat) (tech : Option (Nat × Bool)) (fecPage : Nat) (eee : Bool) : Statement (.autonegComplete p tech fecPage eee) := fun h => one_in h
theorem trainingComplete (p : Nat) : Statement (.trainingComplete p) := fun h => one_in h
theorem alignmentComplete (p : Nat) : Statement (.alignmentComplete p) := fun h => one_in h
theorem upHoldExpiry (p : Nat) : Statement (.upHoldExpiry p) := fun h => one_in h
theorem linkFault (p : Nat) (late : Bool) (local_ : Bool) : Statement (.linkFault p late local_) := fun h => one_in h
theorem linkFaultCleared (p : Nat) : Statement (.linkFaultCleared p) := fun h => one_in h
theorem downHoldExpiry (p : Nat) : Statement (.downHoldExpiry p) := fun h => one_in h
theorem bringupTimeout (p : Nat) : Statement (.bringupTimeout p) := fun h => one_in h
theorem retryWaitEnd (p : Nat) : Statement (.retryWaitEnd p) := fun h => one_in h
theorem fecDegraded (p : Nat) (symbols : Nat) (codewords : Nat) (uncorrected : Nat) : Statement (.fecDegraded p symbols codewords uncorrected) := fun h => one_in h
theorem eeeLpiEntry (p : Nat) : Statement (.eeeLpiEntry p) := fun h => one_in h
theorem csLoad (o : Origin) (l : Nat) (v : Nat) : Statement (.csLoad o l v) := fun h => origin_two_in h
theorem csLoadComplete : Statement .csLoadComplete := fun _ => rfl
theorem tblRead (c : SqCmd) (a : TblArgs) (ecc : Ecc) : Statement (.tblRead c a ecc) := queue_in c
theorem tblInsert (c : SqCmd) (a : TblArgs) : Statement (.tblInsert c a) := queue_in c
theorem tblUpdate (c : SqCmd) (a : TblArgs) : Statement (.tblUpdate c a) := queue_in c
theorem tblDelete (c : SqCmd) (a : TblArgs) : Statement (.tblDelete c a) := queue_in c
theorem tblLock (c : SqCmd) (a : TblArgs) : Statement (.tblLock c a) := queue_in c
theorem tblUnlock (c : SqCmd) (a : TblArgs) : Statement (.tblUnlock c a) := queue_in c
theorem ecmpSet (c : SqCmd) (a : TblArgs) : Statement (.ecmpSet c a) := queue_in c
theorem tableCommit (sq : Nat) (tag : Nat) (d : Dma) (bad : List (Nat × Nat)) : Statement (.tableCommit sq tag d bad) := fun _ => rfl
theorem lockExpired (table : Nat) (entry : Bytes) : Statement (.lockExpired table entry) := fun _ => rfl
theorem learnHoldoffExpiry (bd : Nat) (mac : Nat) : Statement (.learnHoldoffExpiry bd mac) := fun _ => rfl
theorem ruleRead (c : SqCmd) (a : RuleArgs) : Statement (.ruleRead c a) := queue_in c
theorem ruleWrite (c : SqCmd) (a : RuleArgs) : Statement (.ruleWrite c a) := queue_in c
theorem ruleClear (c : SqCmd) (a : RuleArgs) : Statement (.ruleClear c a) := queue_in c
theorem ruleMove (c : SqCmd) (a : RuleArgs) : Statement (.ruleMove c a) := queue_in c
theorem ruleMoveCopy (sq : Nat) (tag : Nat) : Statement (.ruleMoveCopy sq tag) := fun _ => rfl
theorem rbScrub (bad : List Nat) : Statement (.rbScrub bad) := fun h => rows_in h
theorem patLoad (c : SqCmd) (length : Nat) (header : Dma) : Statement (.patLoad c length header) := queue_in c
theorem patLoadComplete (body : Dma) : Statement (.patLoadComplete body) := fun _ => rfl
theorem flowRead (c : SqCmd) (a : FlowArgs) (cold : Ecc) : Statement (.flowRead c a cold) := queue_in c
theorem flowWalk (c : SqCmd) (a : FlowArgs) (cold : List (Nat × Ecc)) : Statement (.flowWalk c a cold) := queue_in c
theorem flowInsert (c : SqCmd) (a : FlowArgs) (image : Dma) (aliasKey : Dma) : Statement (.flowInsert c a image aliasKey) := queue_in c
theorem flowUpdate (c : SqCmd) (a : FlowArgs) (image : Dma) : Statement (.flowUpdate c a image) := queue_in c
theorem flowDelete (c : SqCmd) (a : FlowArgs) : Statement (.flowDelete c a) := queue_in c
theorem flowPin (c : SqCmd) (a : FlowArgs) : Statement (.flowPin c a) := queue_in c
theorem flowUnpin (c : SqCmd) (a : FlowArgs) : Statement (.flowUnpin c a) := queue_in c
theorem writeback (f : Nat) (n : Nat) (way : Ecc) : Statement (.writeback f n way) := fun h => two_in h
theorem fold (f : Nat) (n : Nat) (cold : Ecc) : Statement (.fold f n cold) := fun h => two_in h
theorem ledgerRepair (f : Nat) (n : Nat) (cold : Ecc) (read : List (Nat × Ecc × Ecc)) : Statement (.ledgerRepair f n cold read) := fun h => two_in h
theorem ledgerAging (f : Nat) : Statement (.ledgerAging f) := fun h => one_in h
theorem natRelease (p : Nat) (entry : Nat) : Statement (.natRelease p entry) := fun h => one_in h
theorem portmapAudit (p : Nat) (entry : Nat) : Statement (.portmapAudit p entry) := fun h => one_in h
theorem counterExport : Statement .counterExport := fun _ => rfl
theorem learnNotice : Statement .learnNotice := fun _ => rfl
theorem macAging : Statement .macAging := fun _ => rfl
theorem emReturn : Statement .emReturn := fun _ => rfl
theorem filterRebuild : Statement .filterRebuild := fun _ => rfl
theorem captureCopy : Statement .captureCopy := fun _ => rfl
theorem pairMirror : Statement .pairMirror := fun _ => rfl
theorem farPass (bad : List Nat) : Statement (.farPass bad) := fun _ => rfl
theorem rebalanceRun (t : Nat) : Statement (.rebalanceRun t) := fun h => one_in h
theorem slotTableRebuild (t : Nat) : Statement (.slotTableRebuild t) := fun h => one_in h
theorem backendState (o : Origin) (l : Nat) (r : Nat) (v : Nat) : Statement (.backendState o l r v) := fun h => origin_three_in h
theorem capRead (c : SqCmd) (count : Nat) : Statement (.capRead c count) := queue_in c
theorem functionLevelReset : Statement .functionLevelReset := fun _ => rfl
theorem perstN (high : Bool) : Statement (.perstN high) := fun _ => rfl
theorem adminEnable (o : Origin) (l : Nat) (v : Nat) : Statement (.adminEnable o l v) := fun h => origin_two_in h
theorem sqDoorbell (q : Nat) : Statement (.sqDoorbell q) := fun h => one_in h
theorem pushWindowDoorbell (q : Nat) (tail : Nat) (window : Bytes) : Statement (.pushWindowDoorbell q tail window) := fun h => one_in h
theorem sqPoll (q : Nat) : Statement (.sqPoll q) := fun h => one_in h
theorem entryFetch (q : Nat) (first : Dma) (rest : Dma) : Statement (.entryFetch q first rest) := fun h => one_in h
theorem cqDoorbell (q : Nat) : Statement (.cqDoorbell q) := fun h => one_in h
theorem createSq (c : SqCmd) (a : SqArgs) : Statement (.createSq c a) := queue_in c
theorem deleteSq (c : SqCmd) (qid : Nat) : Statement (.deleteSq c qid) := queue_in c
theorem createCq (c : SqCmd) (a : CqArgs) : Statement (.createCq c a) := queue_in c
theorem deleteCq (c : SqCmd) (qid : Nat) : Statement (.deleteCq c qid) := queue_in c
theorem modifyCq (c : SqCmd) (a : CqArgs) : Statement (.modifyCq c a) := queue_in c
theorem restart (c : SqCmd) (qid : Nat) (cq : Bool) (block : Dma) : Statement (.restart c qid cq block) := queue_in c
theorem nop (c : SqCmd) : Statement (.nop c) := queue_in c
theorem dict (c : SqCmd) (respMax : Nat) (respAddr : Nat) (message : Dma) : Statement (.dict c respMax respAddr message) := queue_in c
theorem inject (c : SqCmd) (pipe : Nat) (cls : Nat) (frame : Dma) : Statement (.inject c pipe cls frame) := queue_in c
theorem rxPost (c : SqCmd) (bufLen : Nat) : Statement (.rxPost c bufLen) := queue_in c
theorem interruptSignal (q : Nat) (byCeiling : Bool) : Statement (.interruptSignal q byCeiling) := fun h => one_in h
theorem msixUnmask (v : Nat) : Statement (.msixUnmask v) := fun h => one_in h
theorem l1Entry (k : Nat) : Statement (.l1Entry k) := fun h => link_in h
theorem l1Exit : Statement .l1Exit := fun _ => rfl
theorem d3hotEntry (d3hot : Bool) (pmeEn : Bool) : Statement (.d3hotEntry d3hot pmeEn) := fun _ => rfl
theorem d0Return : Statement .d0Return := fun _ => rfl
theorem timeSet (o : Origin) (l : Nat) (sec : Nat) (ns : Nat) : Statement (.timeSet o l sec ns) := fun h => origin_three_in h
theorem timeStep (o : Origin) (l : Nat) (ns : Int) : Statement (.timeStep o l ns) := fun h => origin_level h
theorem timeSlew (o : Origin) (l : Nat) (ns : Int) : Statement (.timeSlew o l ns) := fun h => origin_level h
theorem timeLatch (o : Origin) (l : Nat) (v : Nat) : Statement (.timeLatch o l v) := fun h => origin_two_in h
theorem timeIncrement (o : Origin) (l : Nat) (v : Nat) : Statement (.timeIncrement o l v) := fun h => origin_two_in h
theorem ppsOutEdge : Statement .ppsOutEdge := fun _ => rfl
theorem ppsIn : Statement .ppsIn := fun _ => rfl
theorem synceLoss : Statement .synceLoss := fun _ => rfl
theorem calSet (o : Origin) (l : Nat) (sec : Nat) (ns : Nat) : Statement (.calSet o l sec ns) := fun h => origin_three_in h
theorem calSync (o : Origin) (l : Nat) (v : Nat) : Statement (.calSync o l v) := fun h => origin_two_in h
theorem calSyncLoad : Statement .calSyncLoad := fun _ => rfl
theorem crystalStop : Statement .crystalStop := fun _ => rfl
theorem vbatLow : Statement .vbatLow := fun _ => rfl
theorem claimDecision (c : Nat) : Statement (.claimDecision c) := fun h => one_in h
theorem firstClaim : Statement .firstClaim := fun _ => rfl
theorem privilegedFault (u : Nat) : Statement (.privilegedFault u) := fun h => one_in h
theorem pairYield (o : Origin) (l : Nat) (v : Nat) : Statement (.pairYield o l v) := fun h => origin_two_in h
theorem pairRejoin (o : Origin) (l : Nat) (v : Nat) : Statement (.pairRejoin o l v) := fun h => origin_two_in h
theorem pairEnable (o : Origin) (l : Nat) (v : Nat) : Statement (.pairEnable o l v) := fun h => origin_two_in h
theorem health (report : Bytes) (c : Nat) : Statement (.health report c) := fun h => one_in h
theorem healthTimer : Statement .healthTimer := fun _ => rfl
theorem digest (window : Nat) (subs : List Nat) (counts : List Nat) : Statement (.digest window subs counts) := fun _ => rfl
theorem digestWindowClose (window : Nat) : Statement (.digestWindowClose window) := fun _ => rfl
theorem pairControl (m : ControlMsg) : Statement (.pairControl m) := fun _ => rfl
theorem selfCheckComplete (selfFailed : Bool) (partnerFailed : Bool) : Statement (.selfCheckComplete selfFailed partnerFailed) := fun _ => rfl
theorem pairWrite (m : Msg) (live : Nat) : Statement (.pairWrite m live) := message_in m
theorem pairCommand (opcode : Nat) (body : Bytes) (data : Bytes) (commit : Nat) : Statement (.pairCommand opcode body data commit) := fun _ => rfl
theorem mirror (m : MirrorMsg) : Statement (.mirror m) := fun _ => rfl
theorem pairFrame (n : Nat) (cls : Nat) (frame : Bytes) : Statement (.pairFrame n cls frame) := fun h => one_in h
theorem bulk (m : BulkMsg) : Statement (.bulk m) := fun _ => rfl
theorem retransmitTimeout (seq : Nat) : Statement (.retransmitTimeout seq) := fun _ => rfl
theorem pairLost : Statement .pairLost := fun _ => rfl
theorem soundingTest (t : Nat) (failed : Bool) : Statement (.soundingTest t failed) := fun h => test_in h
theorem joinStart (c : Nat) (imageId : Nat) (imageVersion : Nat) (slots : Nat) (offset : Bool) : Statement (.joinStart c imageId imageVersion slots offset) := fun h => one_in h
theorem joinFinish : Statement .joinFinish := fun _ => rfl
theorem energySample (mv : Nat) (ma : Nat) : Statement (.energySample mv ma) := fun _ => rfl
theorem voltageLoop (slack : Int) (ack : Bool) : Statement (.voltageLoop slack ack) := fun _ => rfl
theorem vregCheck (mv : Nat) (lasting : Bool) : Statement (.vregCheck mv lasting) := fun _ => rfl
theorem regulatorRetry (ack : Bool) : Statement (.regulatorRetry ack) := fun _ => rfl
theorem slotGateLoop (n : Nat) : Statement (.slotGateLoop n) := fun h => one_in h
theorem engineWait (n : Nat) (express : Bool) : Statement (.engineWait n express) := fun h => one_in h
theorem bufferThresholdLoop : Statement .bufferThresholdLoop := fun _ => rfl
theorem voltageProtection : Statement .voltageProtection := fun _ => rfl
theorem thermalProtection (tj : Int) : Statement (.thermalProtection tj) := fun _ => rfl
theorem overrideEnd (k : Nat) : Statement (.overrideEnd k) := fun h => one_in h
theorem govKnobs (o : Origin) (l : Nat) (r : Nat) (v : Nat) : Statement (.govKnobs o l r v) := fun h => origin_three_in h
theorem perfSelect (o : Origin) (l : Nat) (r : Nat) (v : Nat) : Statement (.perfSelect o l r v) := fun h => origin_three_in h
theorem preciseSampleWrite (n : Nat) : Statement (.preciseSampleWrite n) := fun h => one_in h
theorem powerOn (testMode : Bool) : Statement (.powerOn testMode) := fun _ => rfl
theorem resetN (lowNs : Nat) : Statement (.resetN lowNs) := fun _ => rfl
theorem resetRequest (o : Origin) (l : Nat) (v : Nat) : Statement (.resetRequest o l v) := fun h => origin_two_in h
theorem thermalTrip : Statement .thermalTrip := fun _ => rfl
theorem clockTreeFault (c : Nat) : Statement (.clockTreeFault c) := fun h => one_in h
theorem railUndervoltage : Statement .railUndervoltage := fun _ => rfl
theorem coreRestart (r : Nat) : Statement (.coreRestart r) := fun h => reason_in h
theorem bootStepComplete (r : StepResult) : Statement (.bootStepComplete r) := fun _ => rfl
theorem ledgerRebased : Statement .ledgerRebased := fun _ => rfl
theorem bootAttemptTimeout (r : StepResult) : Statement (.bootAttemptTimeout r) := fun _ => rfl
theorem bootContinue (o : Origin) (l : Nat) (v : Nat) : Statement (.bootContinue o l v) := fun h => origin_two_in h
theorem controlPathRetry (pcieOk : Bool) (mgmtOk : Nat) : Statement (.controlPathRetry pcieOk mgmtOk) := fun _ => rfl
theorem hbmStackLost (k : Nat) : Statement (.hbmStackLost k) := fun h => one_in h
theorem ledgerFault (f : Nat) (limitOnly : Bool) : Statement (.ledgerFault f limitOnly) := fun h => one_in h
theorem eventClear (o : Origin) (l : Nat) (g : Nat) (b : Nat) : Statement (.eventClear o l g b) := fun h => origin_three_in h
theorem hbmWriteComplete (f : Nat) : Statement (.hbmWriteComplete f) := fun h => one_in h
theorem ledgerScrub (f : Nat) (n : Nat) (hot : Ecc) (cold : Ecc) : Statement (.ledgerScrub f n hot cold) := fun h => two_in h
theorem sliceFlushComplete (f : Nat) (badTags : List Nat) : Statement (.sliceFlushComplete f badTags) := fun h => one_in h
theorem indexReadComplete (q : Nat) (cq : Bool) (block : Dma) : Statement (.indexReadComplete q cq block) := fun h => one_in h
theorem mbOverrunClear : Statement .mbOverrunClear := fun _ => rfl
theorem ppsOutFall : Statement .ppsOutFall := fun _ => rfl
theorem pmbAlert : Statement .pmbAlert := fun _ => rfl
theorem linkLeavesL1 : Statement .linkLeavesL1 := fun _ => rfl
theorem mgmtLinkChange (n : Nat) (up : Bool) : Statement (.mgmtLinkChange n up) := fun h => one_in h
theorem thermalTripCleared : Statement .thermalTripCleared := fun _ => rfl
theorem tapInstructionLoaded (t : TapInstr) : Statement (.tapInstructionLoaded t) := fun _ => rfl

end Sys2Proof.Laws.WellFormedUnits
end

