-- ==== Sys2Proof/Laws/Writes.lean ====
section
/-! SUPPORT. What the write of each single object comes to once the engine takes it (`acceptsWrite`): the answer after the
object's own effect. -/

set_option linter.all false

set_option Elab.async false

namespace Sys2Proof.Machine
open Sys2Proof

theorem ofSigned_lt (w : Nat) (i : Int) : ofSigned w i < 2 ^ w := by
  unfold ofSigned
  have h : (0 : Int) < 2 ^ w := by positivity
  have := Int.emod_lt_of_pos i h
  have := Int.emod_nonneg i (ne_of_gt h)
  zify
  rw [Int.toNat_of_nonneg this]
  assumption

theorem execTurnRequest_taken {o : Origin} {level : Nat} {v : Nat} {s : State}
    (hok : (Instr.turnRequest o level v).wf = true) (h : acceptsWrite s o (oneWrite level oTurnRequest 0 2 v)) :
    execTurnRequest o level v s = .next (when (setState (counted o s) = 0) (beginTurn (some ⟨o, oneWrite level oTurnRequest 0 2 v⟩)) (wr oTurnRequest v (counted o s))) := by
  obtain ⟨d, hd, hn⟩ : ∃ d, objDesc oTurnRequest = some d ∧ d.type.size = 2 := ⟨_, rfl, rfl⟩
  have hp : ∀ r x u, putValue r oTurnRequest 0 x u = when (setState u = 0) (beginTurn r) (wr oTurnRequest x u) := fun _ _ _ => rfl
  have hv : v < 256 ^ 2 := by
    simp only [Instr.wf, Bool.and_eq_true, decide_eq_true_eq, isByte] at hok
    omega
  unfold execTurnRequest
  rw [write1_taken hok h hd hn (by decide)]
  simp only [Nat.mod_eq_of_lt hv, hp]
  rw [if_pos (by decide)]

theorem execStepRequest_taken {o : Origin} {level : Nat} {v : Nat} {s : State}
    (hok : (Instr.stepRequest o level v).wf = true) (h : acceptsWrite s o (oneWrite level oStepRequest 0 2 v)) :
    execStepRequest o level v s = .next (when (setState (counted o s) = 0) (beginStep (some ⟨o, oneWrite level oStepRequest 0 2 v⟩)) (wr oStepRequest v (counted o s))) := by
  obtain ⟨d, hd, hn⟩ : ∃ d, objDesc oStepRequest = some d ∧ d.type.size = 2 := ⟨_, rfl, rfl⟩
  have hp : ∀ r x u, putValue r oStepRequest 0 x u = when (setState u = 0) (beginStep r) (wr oStepRequest x u) := fun _ _ _ => rfl
  have hv : v < 256 ^ 2 := by
    simp only [Instr.wf, Bool.and_eq_true, decide_eq_true_eq, isByte] at hok
    omega
  unfold execStepRequest
  rw [write1_taken hok h hd hn (by decide)]
  simp only [Nat.mod_eq_of_lt hv, hp]
  rw [if_pos (by decide)]

theorem execSnapRequest_taken {o : Origin} {level : Nat} {v : Nat} {s : State}
    (hok : (Instr.snapRequest o level v).wf = true) (h : acceptsWrite s o (oneWrite level oSnapRequest 0 1 v)) :
    execSnapRequest o level v s = .next (answered (counted o s) o (oneWrite level oSnapRequest 0 1 v) (when (v = 1) (capture 0) (wr oSnapRequest v (counted o s)))) := by
  obtain ⟨d, hd, hn⟩ : ∃ d, objDesc oSnapRequest = some d ∧ d.type.size = 1 := ⟨_, rfl, rfl⟩
  have hp : ∀ r x u, putValue r oSnapRequest 0 x u = when (x = 1) (capture 0) (wr oSnapRequest x u) := fun _ _ _ => rfl
  have hv : v < 256 ^ 1 := by
    simp only [Instr.wf, Bool.and_eq_true, decide_eq_true_eq, isByte] at hok
    omega
  unfold execSnapRequest
  rw [write1_taken hok h hd hn (by decide)]
  simp only [Nat.mod_eq_of_lt hv, hp]
  rw [if_neg (by decide), if_neg (by decide)]

theorem execHaltRequest_taken {o : Origin} {level : Nat} {v : Nat} {s : State}
    (hok : (Instr.haltRequest o level v).wf = true) (h : acceptsWrite s o (oneWrite level oHaltRequest 0 8 v)) :
    execHaltRequest o level v s = .next (answered (counted o s) o (oneWrite level oHaltRequest 0 8 v) (writeHaltRequest v (counted o s))) := by
  obtain ⟨d, hd, hn⟩ : ∃ d, objDesc oHaltRequest = some d ∧ d.type.size = 8 := ⟨_, rfl, rfl⟩
  have hp : ∀ r x u, putValue r oHaltRequest 0 x u = writeHaltRequest x u := fun _ _ _ => rfl
  have hv : v < 256 ^ 8 := by
    simp only [Instr.wf, Bool.and_eq_true, decide_eq_true_eq, isByte] at hok
    omega
  unfold execHaltRequest
  rw [write1_taken hok h hd hn (by decide)]
  simp only [Nat.mod_eq_of_lt hv, hp]
  rw [if_neg (by decide), if_neg (by decide)]

theorem execKeyRevoke_taken {o : Origin} {level : Nat} {l : Nat} {v : Nat} {s : State}
    (hok : (Instr.keyRevoke o level l v).wf = true) (h : acceptsWrite s o (oneWrite level (oKeyRevoke l) 0 1 v)) :
    execKeyRevoke o level l v s = .next (answered (counted o s) o (oneWrite level (oKeyRevoke l) 0 1 v) (revokeKey l (wr (oKeyRevoke l) v (counted o s)))) := by
  have hi : isLevel l = true := by
    simp only [Instr.wf, Bool.and_eq_true] at hok
    tauto
  obtain ⟨d, hd, hn⟩ := objDesc_keyRevoke hi
  have hv : v < 256 ^ 1 := by
    simp only [Instr.wf, Bool.and_eq_true, decide_eq_true_eq, isByte] at hok
    omega
  unfold execKeyRevoke
  rw [write1_taken hok h hd hn (by decide)]
  simp only [Nat.mod_eq_of_lt hv, putValue_keyRevoke hi]
  rw [if_neg (by unfold oKeyRevoke; simp [isLevel, isOctet, isPort, oTurnRequest, oStepRequest, oResetRequest] at *; omega), if_neg (by unfold oKeyRevoke; simp [isLevel, isOctet, isPort, oTurnRequest, oStepRequest, oResetRequest] at *; omega)]

theorem execMgmtMode_taken {o : Origin} {level : Nat} {v : Nat} {s : State}
    (hok : (Instr.mgmtMode o level v).wf = true) (h : acceptsWrite s o (oneWrite level oMgmtMode 0 4 v)) :
    execMgmtMode o level v s = .next (answered (counted o s) o (oneWrite level oMgmtMode 0 4 v) (writeMgmtMode v (counted o s))) := by
  obtain ⟨d, hd, hn⟩ : ∃ d, objDesc oMgmtMode = some d ∧ d.type.size = 4 := ⟨_, rfl, rfl⟩
  have hp : ∀ r x u, putValue r oMgmtMode 0 x u = writeMgmtMode x u := fun _ _ _ => rfl
  have hv : v < 256 ^ 4 := by
    simp only [Instr.wf, Bool.and_eq_true, decide_eq_true_eq, isByte] at hok
    omega
  unfold execMgmtMode
  rw [write1_taken hok h hd hn (by decide)]
  simp only [Nat.mod_eq_of_lt hv, hp]
  rw [if_neg (by decide), if_neg (by decide)]

theorem execOctetEnable_taken {o : Origin} {level : Nat} {n : Nat} {v : Nat} {s : State}
    (hok : (Instr.octetEnable o level n v).wf = true) (h : acceptsWrite s o (oneWrite level (oOctetEnable n) 0 1 v)) :
    execOctetEnable o level n v s = .next (answered (counted o s) o (oneWrite level (oOctetEnable n) 0 1 v) (writeOctetEnable n v (counted o s))) := by
  have hi : isOctet n = true := by
    simp only [Instr.wf, Bool.and_eq_true] at hok
    tauto
  obtain ⟨d, hd, hn⟩ := objDesc_octetEnable hi
  have hv : v < 256 ^ 1 := by
    simp only [Instr.wf, Bool.and_eq_true, decide_eq_true_eq, isByte] at hok
    omega
  unfold execOctetEnable
  rw [write1_taken hok h hd hn (by decide)]
  simp only [Nat.mod_eq_of_lt hv, putValue_octetEnable hi]
  rw [if_neg (by unfold oOctetEnable; simp [isLevel, isOctet, isPort, oTurnRequest, oStepRequest, oResetRequest] at *; omega), if_neg (by unfold oOctetEnable; simp [isLevel, isOctet, isPort, oTurnRequest, oStepRequest, oResetRequest] at *; omega)]

theorem execPortEnable_taken {o : Origin} {level : Nat} {p : Nat} {v : Nat} {s : State}
    (hok : (Instr.portEnable o level p v).wf = true) (h : acceptsWrite s o (oneWrite level (oPortEnable p) 0 1 v)) :
    execPortEnable o level p v s = .next (answered (counted o s) o (oneWrite level (oPortEnable p) 0 1 v) (writePortEnable p v (counted o s))) := by
  have hi : isPort p = true := by
    simp only [Instr.wf, Bool.and_eq_true] at hok
    tauto
  obtain ⟨d, hd, hn⟩ := objDesc_portEnable hi
  have hv : v < 256 ^ 1 := by
    simp only [Instr.wf, Bool.and_eq_true, decide_eq_true_eq, isByte] at hok
    omega
  unfold execPortEnable
  rw [write1_taken hok h hd hn (by decide)]
  simp only [Nat.mod_eq_of_lt hv, putValue_portEnable hi]
  rw [if_neg (by unfold oPortEnable; simp [isLevel, isOctet, isPort, oTurnRequest, oStepRequest, oResetRequest] at *; omega), if_neg (by unfold oPortEnable; simp [isLevel, isOctet, isPort, oTurnRequest, oStepRequest, oResetRequest] at *; omega)]

theorem execCsLoad_taken {o : Origin} {level : Nat} {v : Nat} {s : State}
    (hok : (Instr.csLoad o level v).wf = true) (h : acceptsWrite s o (oneWrite level oCsLoad 0 4 v)) :
    execCsLoad o level v s = .next (answered (counted o s) o (oneWrite level oCsLoad 0 4 v) (writeCsLoad v (counted o s))) := by
  obtain ⟨d, hd, hn⟩ : ∃ d, objDesc oCsLoad = some d ∧ d.type.size = 4 := ⟨_, rfl, rfl⟩
  have hp : ∀ r x u, putValue r oCsLoad 0 x u = writeCsLoad x u := fun _ _ _ => rfl
  have hv : v < 256 ^ 4 := by
    simp only [Instr.wf, Bool.and_eq_true, decide_eq_true_eq, isByte] at hok
    omega
  unfold execCsLoad
  rw [write1_taken hok h hd hn (by decide)]
  simp only [Nat.mod_eq_of_lt hv, hp]
  rw [if_neg (by decide), if_neg (by decide)]

theorem execBackendState_taken {o : Origin} {level : Nat} {row : Nat} {v : Nat} {s : State}
    (hok : (Instr.backendState o level row v).wf = true) (h : acceptsWrite s o (oneWrite level oBackendState row 1 v)) :
    execBackendState o level row v s = .next (answered (counted o s) o (oneWrite level oBackendState row 1 v) (writeBackendState row v (counted o s))) := by
  obtain ⟨d, hd, hn⟩ : ∃ d, objDesc oBackendState = some d ∧ d.type.size = 1 := ⟨_, rfl, rfl⟩
  have hp : ∀ r x u, putValue r oBackendState row x u = writeBackendState row x u := fun _ _ _ => rfl
  have hv : v < 256 ^ 1 := by
    simp only [Instr.wf, Bool.and_eq_true, decide_eq_true_eq, isByte] at hok
    omega
  unfold execBackendState
  rw [write1_taken hok h hd hn (by decide)]
  simp only [Nat.mod_eq_of_lt hv, hp]
  rw [if_neg (by decide), if_neg (by decide)]

theorem execAdminEnable_taken {o : Origin} {level : Nat} {v : Nat} {s : State}
    (hok : (Instr.adminEnable o level v).wf = true) (h : acceptsWrite s o (oneWrite level oAdminEnable 0 1 v)) :
    execAdminEnable o level v s = .next (answered (counted o s) o (oneWrite level oAdminEnable 0 1 v) (writeAdminEnable v (counted o s))) := by
  obtain ⟨d, hd, hn⟩ : ∃ d, objDesc oAdminEnable = some d ∧ d.type.size = 1 := ⟨_, rfl, rfl⟩
  have hp : ∀ r x u, putValue r oAdminEnable 0 x u = writeAdminEnable x u := fun _ _ _ => rfl
  have hv : v < 256 ^ 1 := by
    simp only [Instr.wf, Bool.and_eq_true, decide_eq_true_eq, isByte] at hok
    omega
  unfold execAdminEnable
  rw [write1_taken hok h hd hn (by decide)]
  simp only [Nat.mod_eq_of_lt hv, hp]
  rw [if_neg (by decide), if_neg (by decide)]

theorem execTimeSet_taken {o : Origin} {level : Nat} {sec : Nat} {ns : Nat} {s : State}
    (hok : (Instr.timeSet o level sec ns).wf = true) (h : acceptsWrite s o (oneWrite level oTimeSet 0 10 (sec * 2 ^ 32 + ns))) :
    execTimeSet o level sec ns s = .next (answered (counted o s) o (oneWrite level oTimeSet 0 10 (sec * 2 ^ 32 + ns)) (writeTimeSet (sec * 2 ^ 32 + ns) (counted o s))) := by
  obtain ⟨d, hd, hn⟩ : ∃ d, objDesc oTimeSet = some d ∧ d.type.size = 10 := ⟨_, rfl, rfl⟩
  have hp : ∀ r x u, putValue r oTimeSet 0 x u = writeTimeSet x u := fun _ _ _ => rfl
  have hv : (sec * 2 ^ 32 + ns) < 256 ^ 10 := by
    simp only [Instr.wf, Bool.and_eq_true, decide_eq_true_eq, isByte] at hok
    omega
  unfold execTimeSet
  rw [write1_taken hok h hd hn (by decide)]
  simp only [Nat.mod_eq_of_lt hv, hp]
  rw [if_neg (by decide), if_neg (by decide)]

theorem execTimeStep_taken {o : Origin} {level : Nat} {ns : Int} {s : State}
    (hok : (Instr.timeStep o level ns).wf = true) (h : acceptsWrite s o (oneWrite level oTimeStep 0 8 (ofSigned 64 ns))) :
    execTimeStep o level ns s = .next (answered (counted o s) o (oneWrite level oTimeStep 0 8 (ofSigned 64 ns)) (writeTimeStep (ofSigned 64 ns) (counted o s))) := by
  obtain ⟨d, hd, hn⟩ : ∃ d, objDesc oTimeStep = some d ∧ d.type.size = 8 := ⟨_, rfl, rfl⟩
  have hp : ∀ r x u, putValue r oTimeStep 0 x u = writeTimeStep x u := fun _ _ _ => rfl
  have hv : (ofSigned 64 ns) < 256 ^ 8 := by have := ofSigned_lt 64 ns; norm_num at *; exact this
  unfold execTimeStep
  rw [write1_taken hok h hd hn (by decide)]
  simp only [Nat.mod_eq_of_lt hv, hp]
  rw [if_neg (by decide), if_neg (by decide)]

theorem execTimeSlew_taken {o : Origin} {level : Nat} {ns : Int} {s : State}
    (hok : (Instr.timeSlew o level ns).wf = true) (h : acceptsWrite s o (oneWrite level oTimeSlew 0 4 (ofSigned 32 ns))) :
    execTimeSlew o level ns s = .next (answered (counted o s) o (oneWrite level oTimeSlew 0 4 (ofSigned 32 ns)) (writeTimeSlew (ofSigned 32 ns) (counted o s))) := by
  obtain ⟨d, hd, hn⟩ : ∃ d, objDesc oTimeSlew = some d ∧ d.type.size = 4 := ⟨_, rfl, rfl⟩
  have hp : ∀ r x u, putValue r oTimeSlew 0 x u = writeTimeSlew x u := fun _ _ _ => rfl
  have hv : (ofSigned 32 ns) < 256 ^ 4 := by have := ofSigned_lt 32 ns; norm_num at *; exact this
  unfold execTimeSlew
  rw [write1_taken hok h hd hn (by decide)]
  simp only [Nat.mod_eq_of_lt hv, hp]
  rw [if_neg (by decide), if_neg (by decide)]

theorem execTimeLatch_taken {o : Origin} {level : Nat} {v : Nat} {s : State}
    (hok : (Instr.timeLatch o level v).wf = true) (h : acceptsWrite s o (oneWrite level oTimeLatch 0 1 v)) :
    execTimeLatch o level v s = .next (answered (counted o s) o (oneWrite level oTimeLatch 0 1 v) (writeTimeLatch v (counted o s))) := by
  obtain ⟨d, hd, hn⟩ : ∃ d, objDesc oTimeLatch = some d ∧ d.type.size = 1 := ⟨_, rfl, rfl⟩
  have hp : ∀ r x u, putValue r oTimeLatch 0 x u = writeTimeLatch x u := fun _ _ _ => rfl
  have hv : v < 256 ^ 1 := by
    simp only [Instr.wf, Bool.and_eq_true, decide_eq_true_eq, isByte] at hok
    omega
  unfold execTimeLatch
  rw [write1_taken hok h hd hn (by decide)]
  simp only [Nat.mod_eq_of_lt hv, hp]
  rw [if_neg (by decide), if_neg (by decide)]

theorem execTimeIncrement_taken {o : Origin} {level : Nat} {v : Nat} {s : State}
    (hok : (Instr.timeIncrement o level v).wf = true) (h : acceptsWrite s o (oneWrite level oTimeIncrement 0 8 v)) :
    execTimeIncrement o level v s = .next (answered (counted o s) o (oneWrite level oTimeIncrement 0 8 v) (wr oTimeIncrement v (counted o s))) := by
  obtain ⟨d, hd, hn⟩ : ∃ d, objDesc oTimeIncrement = some d ∧ d.type.size = 8 := ⟨_, rfl, rfl⟩
  have hp : ∀ r x u, putValue r oTimeIncrement 0 x u = wr oTimeIncrement x u := fun _ _ _ => rfl
  have hv : v < 256 ^ 8 := by
    simp only [Instr.wf, Bool.and_eq_true, decide_eq_true_eq, isByte] at hok
    omega
  unfold execTimeIncrement
  rw [write1_taken hok h hd hn (by decide)]
  simp only [Nat.mod_eq_of_lt hv, hp]
  rw [if_neg (by decide), if_neg (by decide)]

theorem execCalSet_taken {o : Origin} {level : Nat} {sec : Nat} {ns : Nat} {s : State}
    (hok : (Instr.calSet o level sec ns).wf = true) (h : acceptsWrite s o (oneWrite level oCalSet 0 10 (sec * 2 ^ 32 + ns))) :
    execCalSet o level sec ns s = .next (answered (counted o s) o (oneWrite level oCalSet 0 10 (sec * 2 ^ 32 + ns)) (writeCalSet (sec * 2 ^ 32 + ns) (counted o s))) := by
  obtain ⟨d, hd, hn⟩ : ∃ d, objDesc oCalSet = some d ∧ d.type.size = 10 := ⟨_, rfl, rfl⟩
  have hp : ∀ r x u, putValue r oCalSet 0 x u = writeCalSet x u := fun _ _ _ => rfl
  have hv : (sec * 2 ^ 32 + ns) < 256 ^ 10 := by
    simp only [Instr.wf, Bool.and_eq_true, decide_eq_true_eq, isByte] at hok
    omega
  unfold execCalSet
  rw [write1_taken hok h hd hn (by decide)]
  simp only [Nat.mod_eq_of_lt hv, hp]
  rw [if_neg (by decide), if_neg (by decide)]

theorem execCalSync_taken {o : Origin} {level : Nat} {v : Nat} {s : State}
    (hok : (Instr.calSync o level v).wf = true) (h : acceptsWrite s o (oneWrite level oCalSync 0 1 v)) :
    execCalSync o level v s = .next (answered (counted o s) o (oneWrite level oCalSync 0 1 v) (writeCalSync v (counted o s))) := by
  obtain ⟨d, hd, hn⟩ : ∃ d, objDesc oCalSync = some d ∧ d.type.size = 1 := ⟨_, rfl, rfl⟩
  have hp : ∀ r x u, putValue r oCalSync 0 x u = writeCalSync x u := fun _ _ _ => rfl
  have hv : v < 256 ^ 1 := by
    simp only [Instr.wf, Bool.and_eq_true, decide_eq_true_eq, isByte] at hok
    omega
  unfold execCalSync
  rw [write1_taken hok h hd hn (by decide)]
  simp only [Nat.mod_eq_of_lt hv, hp]
  rw [if_neg (by decide), if_neg (by decide)]

theorem execPairYield_taken {o : Origin} {level : Nat} {v : Nat} {s : State}
    (hok : (Instr.pairYield o level v).wf = true) (h : acceptsWrite s o (oneWrite level oPairYield 0 1 v)) :
    execPairYield o level v s = .next (answered (counted o s) o (oneWrite level oPairYield 0 1 v) (when (v = 1) yieldClaim (wr oPairYield v (counted o s)))) := by
  obtain ⟨d, hd, hn⟩ : ∃ d, objDesc oPairYield = some d ∧ d.type.size = 1 := ⟨_, rfl, rfl⟩
  have hp : ∀ r x u, putValue r oPairYield 0 x u = when (x = 1) yieldClaim (wr oPairYield x u) := fun _ _ _ => rfl
  have hv : v < 256 ^ 1 := by
    simp only [Instr.wf, Bool.and_eq_true, decide_eq_true_eq, isByte] at hok
    omega
  unfold execPairYield
  rw [write1_taken hok h hd hn (by decide)]
  simp only [Nat.mod_eq_of_lt hv, hp]
  rw [if_neg (by decide), if_neg (by decide)]

theorem execPairRejoin_taken {o : Origin} {level : Nat} {v : Nat} {s : State}
    (hok : (Instr.pairRejoin o level v).wf = true) (h : acceptsWrite s o (oneWrite level oPairRejoin 0 1 v)) :
    execPairRejoin o level v s = .next (answered (counted o s) o (oneWrite level oPairRejoin 0 1 v) (when (v = 1 && role (counted o s) = 5) (setRole 1) (wr oPairRejoin v (counted o s)))) := by
  obtain ⟨d, hd, hn⟩ : ∃ d, objDesc oPairRejoin = some d ∧ d.type.size = 1 := ⟨_, rfl, rfl⟩
  have hp : ∀ r x u, putValue r oPairRejoin 0 x u = when (x = 1 && role u = 5) (setRole 1) (wr oPairRejoin x u) := fun _ _ _ => rfl
  have hv : v < 256 ^ 1 := by
    simp only [Instr.wf, Bool.and_eq_true, decide_eq_true_eq, isByte] at hok
    omega
  unfold execPairRejoin
  rw [write1_taken hok h hd hn (by decide)]
  simp only [Nat.mod_eq_of_lt hv, hp]
  rw [if_neg (by decide), if_neg (by decide)]

theorem execPairEnable_taken {o : Origin} {level : Nat} {v : Nat} {s : State}
    (hok : (Instr.pairEnable o level v).wf = true) (h : acceptsWrite s o (oneWrite level oPairEnable 0 1 v)) :
    execPairEnable o level v s = .next (answered (counted o s) o (oneWrite level oPairEnable 0 1 v) (putPairMode v (counted o s))) := by
  obtain ⟨d, hd, hn⟩ : ∃ d, objDesc oPairEnable = some d ∧ d.type.size = 1 := ⟨_, rfl, rfl⟩
  have hp : ∀ r x u, putValue r oPairEnable 0 x u = putPairMode x u := fun _ _ _ => rfl
  have hv : v < 256 ^ 1 := by
    simp only [Instr.wf, Bool.and_eq_true, decide_eq_true_eq, isByte] at hok
    omega
  unfold execPairEnable
  rw [write1_taken hok h hd hn (by decide)]
  simp only [Nat.mod_eq_of_lt hv, hp]
  rw [if_neg (by decide), if_neg (by decide)]

theorem execGovKnobs_taken {o : Origin} {level : Nat} {row : Nat} {v : Nat} {s : State}
    (hok : (Instr.govKnobs o level row v).wf = true) (h : acceptsWrite s o (oneWrite level oGovKnobs row 16 v)) :
    execGovKnobs o level row v s = .next (answered (counted o s) o (oneWrite level oGovKnobs row 16 v) (writeGovKnobs row v (counted o s))) := by
  obtain ⟨d, hd, hn⟩ : ∃ d, objDesc oGovKnobs = some d ∧ d.type.size = 16 := ⟨_, rfl, rfl⟩
  have hp : ∀ r x u, putValue r oGovKnobs row x u = writeGovKnobs row x u := fun _ _ _ => rfl
  have hv : v < 256 ^ 16 := by
    simp only [Instr.wf, Bool.and_eq_true, decide_eq_true_eq, isByte] at hok
    omega
  unfold execGovKnobs
  rw [write1_taken hok h hd hn (by decide)]
  simp only [Nat.mod_eq_of_lt hv, hp]
  rw [if_neg (by decide), if_neg (by decide)]

theorem execPerfSelect_taken {o : Origin} {level : Nat} {row : Nat} {v : Nat} {s : State}
    (hok : (Instr.perfSelect o level row v).wf = true) (h : acceptsWrite s o (oneWrite level oPerfSelect row 16 v)) :
    execPerfSelect o level row v s = .next (answered (counted o s) o (oneWrite level oPerfSelect row 16 v) (writePerfSelect row v (counted o s))) := by
  obtain ⟨d, hd, hn⟩ : ∃ d, objDesc oPerfSelect = some d ∧ d.type.size = 16 := ⟨_, rfl, rfl⟩
  have hp : ∀ r x u, putValue r oPerfSelect row x u = writePerfSelect row x u := fun _ _ _ => rfl
  have hv : v < 256 ^ 16 := by
    simp only [Instr.wf, Bool.and_eq_true, decide_eq_true_eq, isByte] at hok
    omega
  unfold execPerfSelect
  rw [write1_taken hok h hd hn (by decide)]
  simp only [Nat.mod_eq_of_lt hv, hp]
  rw [if_neg (by decide), if_neg (by decide)]

theorem execResetRequest_taken {o : Origin} {level : Nat} {v : Nat} {s : State}
    (hok : (Instr.resetRequest o level v).wf = true) (h : acceptsWrite s o (oneWrite level oResetRequest 0 1 v)) :
    execResetRequest o level v s = .next (deviceReset 3 (answered (counted o s) o (oneWrite level oResetRequest 0 1 v) (wr oResetRequest v (counted o s)))) := by
  obtain ⟨d, hd, hn⟩ : ∃ d, objDesc oResetRequest = some d ∧ d.type.size = 1 := ⟨_, rfl, rfl⟩
  have hp : ∀ r x u, putValue r oResetRequest 0 x u = wr oResetRequest x u := fun _ _ _ => rfl
  have hv : v < 256 ^ 1 := by
    simp only [Instr.wf, Bool.and_eq_true, decide_eq_true_eq, isByte] at hok
    omega
  unfold execResetRequest
  rw [write1_taken hok h hd hn (by decide)]
  simp only [Nat.mod_eq_of_lt hv, hp]
  rw [if_neg (by decide), if_pos trivial]

theorem execBootContinue_taken {o : Origin} {level : Nat} {v : Nat} {s : State}
    (hok : (Instr.bootContinue o level v).wf = true) (h : acceptsWrite s o (oneWrite level oBootContinue 0 1 v)) :
    execBootContinue o level v s = .next (answered (counted o s) o (oneWrite level oBootContinue 0 1 v) (bootContinue v (counted o s))) := by
  obtain ⟨d, hd, hn⟩ : ∃ d, objDesc oBootContinue = some d ∧ d.type.size = 1 := ⟨_, rfl, rfl⟩
  have hp : ∀ r x u, putValue r oBootContinue 0 x u = bootContinue x u := fun _ _ _ => rfl
  have hv : v < 256 ^ 1 := by
    simp only [Instr.wf, Bool.and_eq_true, decide_eq_true_eq, isByte] at hok
    omega
  unfold execBootContinue
  rw [write1_taken hok h hd hn (by decide)]
  simp only [Nat.mod_eq_of_lt hv, hp]
  rw [if_neg (by decide), if_neg (by decide)]

theorem execEventClear_taken {o : Origin} {level : Nat} {group : Nat} {bits : Nat} {s : State}
    (hok : (Instr.eventClear o level group bits).wf = true) (h : acceptsWrite s o (oneWrite level oEventClear group 4 bits)) :
    execEventClear o level group bits s = .next (answered (counted o s) o (oneWrite level oEventClear group 4 bits) (clearEvents group bits (counted o s))) := by
  obtain ⟨d, hd, hn⟩ : ∃ d, objDesc oEventClear = some d ∧ d.type.size = 4 := ⟨_, rfl, rfl⟩
  have hp : ∀ r x u, putValue r oEventClear group x u = clearEvents group x u := fun _ _ _ => rfl
  have hv : bits < 256 ^ 4 := by
    simp only [Instr.wf, Bool.and_eq_true, decide_eq_true_eq, isByte] at hok
    omega
  unfold execEventClear
  rw [write1_taken hok h hd hn (by decide)]
  simp only [Nat.mod_eq_of_lt hv, hp]
  rw [if_neg (by decide), if_neg (by decide)]

end Sys2Proof.Machine
end

