-- ==== Sys2Proof/Tests/Slice0.lean ====
section
/-! SUPPORT. The author's own tests: terms that the checks of WellFormed refuse, values that the spec works out, and, for each
statement with hypotheses, small states and operands that meet them, clause by clause. -/

set_option Elab.async false

namespace Sys2Proof.Tests
open Sys2Proof Sys2Proof.Machine

/-! ### Small states -/

/-- A device whose dictionary engine is open. -/
def up : State := { State.reset with eng := { opened := true } }

/-- A request that came on MGMT0 under a key of level 3. -/
def mgmt0 : Origin := ⟨.mgmt 0, 3, 0, 1, 1, 2, 0, 0, 0, false⟩

/-- `acceptsWrite` as a test. -/
def takesMsg (s : State) (m : Msg) : Bool :=
  (s.eng.opened && s.eng.queue.isEmpty && !engineWaits s && decide (arrival mgmt0.path s = mclk s)) &&
    decide (messageCode (counted mgmt0 s) mgmt0 m = 0) && decide ((writeVerdict (counted mgmt0 s) mgmt0.path m).1 = 0) &&
    !forwarded (counted mgmt0 s) m

/-- A state that passes the test takes the write. -/
theorem takes_accepts {s : State} {m : Msg} (h : takesMsg s m = true) : acceptsWrite s mgmt0 m := by
  simp only [takesMsg, Bool.and_eq_true, Bool.not_eq_true', decide_eq_true_eq, List.isEmpty_iff] at h
  obtain ⟨⟨⟨⟨⟨⟨a, b⟩, c⟩, d⟩, e⟩, f⟩, g⟩ := h
  exact ⟨⟨a, b, c, d⟩, e, f, g⟩

/-- The test of a write of one value. -/
def takes (s : State) (obj row n v : Nat) : Bool := takesMsg s (oneWrite 3 obj row n v)

/-- A frame in the device, as frame 1. -/
def withFrame (f : Frame) : State := { up with pip := { frames := [(1, f)], nextFid := 2 } }

/-- Submission queues 0, 1 and 3 of level Admin with completion queue 0, and queue 2, a receive queue. -/
def queues : State :=
  { up with hst := { sqs := [(0, { level := 3 }), (1, { level := 3 }), (2, { kind := 1, level := 1 }), (3, { level := 0 })], cqs := [(0, {})] } }

/-- A command of queue `q`. -/
def from_ (q : Nat) : SqCmd := ⟨q, 7, false, false, 4096, .flat⟩

/-- `servesCommand` as a test. -/
def serves (c : SqCmd) (lowest : Nat) (s : State) : Bool :=
  c.wf && decide (c.sq ≠ 0) && !follows s && decide (c.links ≠ .fault) && decide (c.links ≠ .tooLong) &&
    match sq s c.sq with
    | some x => decide (x.kind ≠ 1) && decide (lowest ≤ x.level)
    | none => false

/-- A queue that passes the test serves the command. -/
theorem serves_serves {c : SqCmd} {lowest : Nat} {s : State} (h : serves c lowest s = true) : servesCommand c lowest s := by
  simp only [serves, Bool.and_eq_true, Bool.not_eq_true', decide_eq_true_eq] at h
  obtain ⟨⟨⟨⟨⟨h1, h2⟩, h3⟩, h5⟩, h6⟩, h4⟩ := h
  cases hx : sq s c.sq with
  | none => simp [hx] at h4
  | some x =>
    simp only [hx, Bool.and_eq_true, decide_eq_true_eq] at h4
    exact ⟨h1, h2, h3, h5, h6, x, hx, h4.1, h4.2⟩

/-- A ledger without slices' state is quiet. -/
theorem quiet_of {s : State} (h : s.led.slices = []) : ledgerQuiet s := by
  intro f; simp [slc, h, tabGet, tabFind]

/-- In `queues` with an unfollowed unit, queue 1 serves commands of every level. -/
theorem queues_serve (n : Nat) (h : n ≤ 3) : servesCommand (from_ 1) n queues :=
  ⟨by decide, by decide, by decide +kernel, by decide, by decide, { level := 3 }, rfl, by decide, h⟩

/-! ### WellFormed -/

/-- What a frame's parse yields, all empty. -/
def parse0 : Parse := ⟨0, 0, 0, [], [], 0, 0, 0, 0, [], .clean, .clean⟩

/-- A message with a header field too large. -/
def badMsg : Msg := { oneWrite 3 0 0 1 0 with level := 256 }

/-- One ill-formed term for each check: ports, pipelines, stores, slices, slots, pools, middle buffers, MGMT ports, octets,
queues, services, levels, stacks, bytes, origins, messages, submission commands, and each bound on a number. -/
def illFormed : List Instr :=
  [.frameReception 512 [] true, .headAcceptance 16 parse0, .csRepairComplete 0 4 0, .csRepairComplete 0 0 65536,
   .ruleSearch 0 [] [131072], .writeback 16 0 .clean, .fold 0 4194304 .clean, .bufferGrant 8 .clean .clean none none,
   .mcFifoHead 32 false, .bufferRelease 0 0 22 .clean, .l1Entry 0,
   .nonceQuery 2 [], .octetDrained 64, .sqDoorbell 4096, .natRelease 256 0, .timeLatch mgmt0 256 1, .hbmStackLost 4,
   .claimDecision 256, .timeLatch { mgmt0 with path := .mgmt 2 } 3 1, .timeLatch { mgmt0 with keyLevel := 4 } 3 1,
   .timeLatch { mgmt0 with path := .queue 4096 } 3 1, .write mgmt0 badMsg, .nop { from_ 1 with tag := 2 ^ 32 },
   .nop (from_ 4096), .turnRequest mgmt0 3 (2 ^ 16), .haltRequest mgmt0 3 (2 ^ 64), .haltedSet 39,
   .mbDoorbell (2 ^ 32) [], .csLoad mgmt0 3 (2 ^ 32), .rbScrub [131072], .backendState mgmt0 3 (2 ^ 32) 0, .msixUnmask 2048,
   .timeSet mgmt0 3 (2 ^ 48) 0, .timeStep mgmt0 3 (2 ^ 63), .timeStep mgmt0 3 (-2 ^ 63 - 1), .timeSlew mgmt0 3 (2 ^ 31),
   .timeIncrement mgmt0 3 (2 ^ 64), .calSet mgmt0 3 0 (2 ^ 32), .privilegedFault 3, .soundingTest 0 true, .soundingTest 7 true,
   .overrideEnd 2, .govKnobs mgmt0 3 (2 ^ 32) 0, .govKnobs mgmt0 3 0 (2 ^ 128), .perfSelect mgmt0 3 (2 ^ 32) 0, .clockTreeFault 5,
   .coreRestart 0, .eventClear mgmt0 3 (2 ^ 32) 0]

/-- The checks refuse each. -/
theorem test_wf_refuses : illFormed.all (fun i => !i.wf) = true := by decide +kernel

/-- A command that names a unit the device does not have stops with the one fault, and one of the last unit runs. -/
theorem test_no_such_unit : (match exec (.trainingComplete 512) up, exec (.trainingComplete 511) up with
    | .fault .noSuchUnit, .next _ => true
    | _, _ => false) = true := by decide +kernel

/-! ### Values the spec works out -/

/-- R408's example: CIR 12,000,000 and CBS 65,536, PIR 15,000,000 and PBS 131,072; frames of 1,400 B, 1,425 charged each, at
10 Gb/s: the first frame is green. -/
theorem test_policer_first :
    (judgement ⟨12000000, 65536, 15000000, 131072⟩ ⟨65536 * 2 ^ 20, 131072 * 2 ^ 20, 0⟩ 0 1400).1 = 0 := by decide +kernel

/-- The frame `k + 1` of R408's example: the colour of the last of `n` frames that came 177.5 CCLK apart, and what it found in the
committed bucket, in bytes. -/
def policed : Nat → Nat × Int × Meter
  | 0 => (0, 0, ⟨65536 * 2 ^ 20, 131072 * 2 ^ 20, 0⟩)
  | n + 1 =>
    let r : Rates := ⟨12000000, 65536, 15000000, 131072⟩
    let m := meterNow r (some (policed n).2.2) (355 * n / 2)
    let x := judgement r m 0 1420
    (x.1, m.tc / 2 ^ 20, x.2)

/-- R411's example: frame 52 is green; frame 53 finds 556.8 B in the committed bucket, and is yellow. -/
theorem test_policer_example : (policed 52).1 = 0 ∧ (policed 53).1 = 1 ∧ (policed 53).2.1 = 556 := by decide +kernel

/-- The message of Table 3-11, after the transport header, padded as the table has it. -/
def table3_11 : Bytes :=
  [0x03, 0x00, 0x02, 0x02, 0x00, 0x00, 0x10, 0x01, 0x00, 0x20, 0x00, 0x00, 0x00, 0x00, 0x00, 0x00,
   0x7E, 0x00, 0x02, 0x00, 0x00, 0x00, 0x00, 0x00, 0x00, 0x04, 0x00, 0x00, 0x00, 0x07, 0xA1, 0x20,
   0x7E, 0x00, 0x03, 0x00, 0x00, 0x00, 0x00, 0x00, 0x00, 0x04, 0x00, 0x00, 0x00, 0x00, 0x00, 0x14]

/-- The example of chapter 3: read from its bytes, the compound write sets both objects. -/
theorem test_table_3_11_applies : (match exec (.compoundWrite mgmt0 (readAny true table3_11)) up with
    | .next t => rd t oSlackLimit = 500000 && rd t oAutoDrainInterval = 20
    | _ => false) = true := by decide +kernel

/-- The same message with LEVEL 1 fails at item 0 with "access denied". -/
theorem test_table_3_11_denied :
    (writeVerdict up (.mgmt 0) { readAny true table3_11 with level := 1 }).1 = 0x07 ∧
      (writeVerdict up (.mgmt 0) { readAny true table3_11 with level := 1 }).2.1 = 0 := by decide +kernel

/-- Table 7-11: in the chain of width 2 at head bank 8, position 2,600 is bank 10 entry 552, and position 100 is global address
16,484. -/
theorem test_table_7_11 : posAddr 8 2 2600 0 = 10 * 2048 + 552 ∧ posAddr 8 2 100 0 = 16484 := by decide


/-- R275's example: record 37,922,855 lies, with four stacks in service, in stack 3, its hot part at 0x1215_4120 and its cold part
at 0x563F_C360. -/
theorem test_record_place : recordPlace up 37922855 = (3, 0x12154120, 0x563FC360) := by decide +kernel

/-- Table 5-9: a field written at its place reads back there, and no other field moves. -/
theorem test_resolved_action :
    raWord { destKind := 2 } = 2 ^ 255 ∧ raWord { mirror := 9 } = 9 * 2 ^ 149 ∧ raWord { flowRecord := 5 } = 5 * 2 ^ 33 ∧
      raOf (raWord { destKind := 1, dest := 511, cls := 7, tsOffset := 200, flowValid := 1, flowRecord := 2 ^ 26 - 1 }) =
        { destKind := 1, dest := 511, cls := 7, tsOffset := 200, flowValid := 1, flowRecord := 2 ^ 26 - 1 } := by decide +kernel
/-! ### Witnesses: the queue, and chapters 2 and 3

Each theorem names the statement whose premises it meets; `takes` and `serves` stand for the premises that their lemmas above
prove. -/

/-- A step on an empty queue, a command of the device and one of no device; rows of BAR2 and of the dictionary. -/
theorem witness_StepRunsTheFrontCommand : up.pending = [] ∧ (Instr.farPass []).wf = true ∧ (Instr.haltedSet 39).wf = false ∧
    up.canonical = true ∧ (511 : Nat) < 512 := by decide +kernel

/-- A command of the device and one of no device. -/
theorem witness_EveryCommandCompletes : (Instr.l1Entry 1).wf = true ∧ (Instr.l1Entry 0).wf = false := by decide

/-- A canonical state, and what steps from it. -/
theorem witness_StepsKeepTheCanonicalForm : up.canonical = true ∧
    (match step { up with pending := [.msixUnmask 3] } with
      | .next t => t.canonical
      | _ => false) = true := by decide +kernel

/-- A command that answers a next state. -/
theorem witness_CommandsLeaveTheQueueAndOutputsGrow : exec (.msixUnmask 3) State.reset = .next (setHst { unmasked := [3] } State.reset) := rfl

/-- Objects and rows in range. -/
theorem witness_WritingAndCountingChangeOneRow : oPolicers < 2 ^ 32 ∧ (0 : Nat) < 2 ^ 32 ∧
    (0, oPolicers, 1) ≠ ((0, oPolicers, 0) : Nat × Nat × Nat) ∧ cEvent 0x00 ≠ cEvent 0x18 := by decide

/-- The last source. -/
theorem witness_RaisingASource : (511 : Nat) < 512 ∧ (14 : Nat) ≠ 511 / 32 := by decide

/-- A run of one step. -/
theorem witness_RunsOnlyBlowGenerationFuses : runsTo 1 { State.reset with pending := [.msixUnmask 3] } (setHst { unmasked := [3] } State.reset) :=
  ⟨_, rfl, rfl⟩

/-- A state whose shadow set passes validation (R263 asks for at least one scan set), and one whose set fails. -/
def valid : State := wr oPatSets 1 (wr oSetState 1 up)
/-- A next-hop that was retired in epoch 0. -/
def retiredHop : State :=
  setLt { nh := [(1, { kind := 1, target := 0, rewrite := 0, mtu := 0, retired := some 0 })] } (wr oAutoDrainInterval 20 up)

/-- A unit whose turns capture, with the half of the next snapshot being written. -/
def noHalf : State :=
  let u := wr oSnapOnTurn 1 up
  setHalf u.ep.nextSnap { half u u.ep.nextSnap with state := 1 } u

/-- Requests at the current epoch's successor, both verdicts of validation, both cases of T, an automatic step, the cycle T. -/
theorem witness_TurnsAndSteps :
    turnsTogether up = false ∧ setState up = 0 ∧ (Instr.turnRequest mgmt0 3 1).wf = true ∧
      takes up oTurnRequest 0 2 1 = true ∧ (Instr.stepRequest mgmt0 3 1).wf = true ∧ takes up oStepRequest 0 2 1 = true ∧
      (snapAtT up && !halfFree up) = false ∧ snapAtT noHalf = true ∧ halfFree noHalf = false ∧
      setState noHalf = 0 ∧ takes noHalf oStepRequest 0 2 1 = true ∧
      validating valid = true ∧ turnsTogether valid = false ∧ validation valid = none ∧
      validating (wr oSetState 1 up) = true ∧ validation (wr oSetState 1 up) = some 0 ∧
      autoStepDue retiredHop = true ∧ turnsTogether retiredHop = false ∧
      follows retiredHop = false ∧ setState (wr oSetState 2 up) = 2 := by decide +kernel

/-- An S object in both sets. -/
theorem witness_ShadowWrites : isShadow oPolicers = true ∧ oPolicers < 2 ^ 32 ∧ isShadow oNatPools = true ∧
    oNatPools ≠ oPolicers := by decide +kernel

/-- Slack water with nothing left, and with a frame of the old epoch; a turn that reseeds. -/
theorem witness_SlackWaterAndReseeding :
    slackRuns (wr oSetState 3 up) = true ∧ framesOf (wr oSetState 3 up) (oldEpoch (wr oSetState 3 up)) = [] ∧
      snapAtSlackEnd (wr oSetState 3 up) = false ∧
      slackRuns (wr oSetState 3 (withFrame { epoch := oldEpoch up, phase := .ingress })) = true ∧
      framesOf (wr oSetState 3 (withFrame { epoch := oldEpoch up, phase := .ingress })) (oldEpoch up) ≠ [] ∧
      (wr oSetState 3 { up with ep := { stepping := true } }).ep.stepping = true ∧
      setState (wr oSetState 4 up) = 4 ∧ activeSet (wr oSetState 4 up) ≤ 1 ∧ tabRising (wr oSetState 4 up).dict = true ∧
      isShadow oPolicers = true ∧ oPolicers < 2 ^ 32 := by decide +kernel

/-- A half that is being written; snapshot requests 1 and 0; the last block asked to halt, and not; a halt request. -/
theorem witness_SnapshotsAndHalts :
    writingHalf { up with ep := { half0 := { state := 1, seq := 1 } } } = some 0 ∧ up.ep.passed = false ∧
      up.ep.turnSnapDue = false ∧ up.ep.snapDue = false ∧ (Instr.snapRequest mgmt0 3 1).wf = true ∧
      takes up oSnapRequest 0 1 1 = true ∧ takes up oSnapRequest 0 1 0 = true ∧
      haltAsked (wr oHaltRequest (2 ^ 38) up) 38 = true ∧ blockEmpty (wr oHaltRequest (2 ^ 38) up) 38 = true ∧
      haltAsked up 38 = false ∧ (Instr.haltRequest mgmt0 3 1).wf = true ∧ takes up oHaltRequest 0 8 1 = true := by decide +kernel

/-- A request of an opcode with an item that names object 00:0000.0, or with none. -/
def request (op vlen : Nat) : Msg :=
  { oneWrite 3 0 0 0 0 with opcode := op, items := [⟨0, 0, 0, 0, vlen, 0, 0, []⟩] }

/-- READ, DESCRIBE, ENUMERATE and ECHO that pass the checks of a message and whose answer has room. -/
theorem witness_ReadingRequests :
    mgmt0.wf = true ∧ up.eng.opened = true ∧ up.eng.queue = [] ∧ engineWaits up = false ∧ arrival mgmt0.path up = mclk up ∧
      ([(1, 0), (4, 12), (5, 12)].all fun e =>
        (request e.1 e.2).wf && decide (messageCode (counted mgmt0 up) mgmt0 (request e.1 e.2) = 0) &&
          !noRoomFor mgmt0 (readReply (counted mgmt0 up) (request e.1 e.2))) = true ∧
      messageCode (counted mgmt0 up) mgmt0 { request 6 0 with count := 0, items := [], length := 0 } = 0 ∧
      mgmt0.path = .mgmt 0 ∧ describeItem ⟨0, 0, 0, 0, 12, 0, 0, []⟩ ≠ .inl 0x03 := by decide +kernel

/-- A write that takes effect, one that a check stops, and DICT on an admin queue, another queue and a receive queue. -/
theorem witness_WritingRequests :
    takes up oSlackLimit 0 4 500000 = true ∧
      takesMsg up { oneWrite 3 oSlackLimit 0 4 500000 with opcode := 3 } = true ∧ (oneWrite 3 oSlackLimit 0 4 500000).wf = true ∧
      asksTurn (oneWrite 3 oSlackLimit 0 4 500000) = false ∧ asksReset (oneWrite 3 oSlackLimit 0 4 500000) = false ∧
      messageCode (counted mgmt0 up) mgmt0 (oneWrite 3 oSetState 0 1 1) = 0 ∧
      writeVerdict (counted mgmt0 up) (.mgmt 0) (oneWrite 3 oSetState 0 1 1) = (9, 0, 0) ∧
      (from_ 0).wf = true ∧ sq queues 0 = some { level := 3 } ∧ sq queues 2 = some { kind := 1, level := 1 } := by decide +kernel

/-- MGMT0 ready, with keys and a MAC address. -/
def ready : State :=
  { up with eng := { opened := true, mgmt0 := { ready := true, linkUp := true } }, fuse := { roots := [1, 2, 3, 4], mac0 := 5 } }

/-- A transport frame for MGMT0 with its code, or another one. -/
def tframe (s : State) (dest kind seq : Nat) (payload : Bytes) (code : Option Bytes) : Bytes :=
  let hp := transportHeader kind 2 0 1 seq payload.length ++ payload
  leBytes 6 dest ++ leBytes 6 2 ++ beBytes 2 (rd s oMirtyEthertype) ++ hp ++ code.getD (codeOf s 2 0 hp)

/-- The premises of a frame that the transport looks at. -/
def lookedAt (s : State) (f : Bytes) : Bool :=
  let h := readTHeader true (f.drop 14)
  isMgmt 0 && mgmtReceives s 0 && decide (14 ≤ f.length) && decide (f.length ≤ 9212) &&
    decide (beAt f 12 2 = rd s oMirtyEthertype) && decide (leAt f 0 6 = mgmtMac s 0) &&
    decide (12 + h.len + 16 ≤ (f.drop 14).length) && decide (h.version = 1) && decide (h.len ≤ 8160)

/-- Whether a frame is authentic. -/
def authenticFrame (s : State) (f : Bytes) : Bool :=
  let b := f.drop 14
  let h := readTHeader true b
  authentic s h (b.take (12 + h.len)) (slice b (12 + h.len) 16) && h.senderHigh = 0 && h.reserved = 0

/-- The ECHO of TAG 1. -/
def echo : Bytes := [6, 0, 2, 0, 0, 0, 0, 1, 0, 0, 0, 0, 0, 0, 0, 0]

/-- A request that is not authentic, one that is, of a fresh and of a seen SEQ; an inject frame that is served; a nonce query
to the broadcast address, within its limit and beyond it; a window and its bounds. -/
theorem witness_TransportRequests :
    lookedAt ready (tframe ready 5 0 1 echo (some (zeros 16))) = true ∧
      authenticFrame ready (tframe ready 5 0 1 echo (some (zeros 16))) = false ∧
      lookedAt ready (tframe ready 5 0 1 echo none) = true ∧ authenticFrame ready (tframe ready 5 0 1 echo none) = true ∧
      replayWindow none 1 = some ⟨1, 1⟩ ∧ replayWindow (some ⟨1, 1⟩) 1 = none ∧
      lookedAt (wr oPuntInject 1 ready) (tframe ready 5 4 1 (zeros 68) none) = true ∧
      authenticFrame (wr oPuntInject 1 ready) (tframe ready 5 4 1 (zeros 68) none) = true ∧
      injectRefused (wr oPuntInject 1 ready) 2 (zeros 68) = false ∧
      (readTHeader true ((tframe ready (2 ^ 48 - 1) 5 1 [] (some [])).drop 14)).kind = 5 ∧
      26 ≤ (tframe ready (2 ^ 48 - 1) 5 1 [] (some [])).length ∧ tapTakes ready = false ∧
      used ready (nonceKey 0) < 1000 ∧ 1000 ≤ used { ready with ev := { window := [(nonceKey 0, 1000)] } } (nonceKey 0) ∧
      replayWindow (some ⟨2 ^ 32 - 1, 1⟩) 0 = some ⟨0, 3⟩ := by decide +kernel

/-- A mailbox request of 28 bytes. -/
def mbArea : Bytes := [1, 0, 0, 0, 0, 0, 0, 0, 16, 0, 0, 0] ++ echo

/-- The mailbox idle, busy, and with a finished response; a revocation of level 1; the bits of MGMT_MODE; a restart due. -/
theorem witness_MailboxAndKeys :
    bar0 up = true ∧ up.eng.mb.state ≠ 1 ∧ pcieAuth up = false ∧ (readTHeader false mbArea).version = 1 ∧
      (readTHeader false mbArea).kind = 0 ∧ (readTHeader false mbArea).reserved = 0 ∧
      28 = 12 + (readTHeader false mbArea).len ∧ 28 ≤ mailboxSize ∧
      bar0 { up with eng := { opened := true, mb := { state := 1 } } } = true ∧
      (Instr.keyRevoke mgmt0 3 1 (keyGen up 1)).wf = true ∧ up.fuse.gens.length = 4 ∧
      takes up (oKeyRevoke 1) 0 1 (keyGen up 1) = true ∧ (Instr.mgmtMode mgmt0 3 1).wf = true ∧
      takes up oMgmtMode 0 4 1 = true ∧ isMgmt 1 = true ∧
      (mgmt { up with eng := { mgmt1 := { restartDue := true } } } 1).restartDue = true := by decide +kernel

/-! ### Witnesses: chapters 4 to 7 and 12 -/

/-- Port `p` in a link state, in an octet that is enabled. -/
def port_ (p st : Nat) : State := wr (oLinkState p) st (wr (oOctetState (octetOf p)) 2 up)

/-- Port 511 in the states of Table 4-4, its first, third and 102nd failed attempts. -/
theorem witness_BringUp :
    isPort 511 = true ∧ linkState (port_ 511 2) 511 = 2 ∧ (advertised (port_ 511 2) 511).contains (99, false) = false ∧
      (advertised (port_ 511 2) 511).contains (modeSpeed (modeOf (port_ 511 2) 511), false) = true ∧ linkState (port_ 511 3) 511 = 3 ∧
      linkState (port_ 511 4) 511 = 4 ∧ linkState (port_ 511 5) 511 = 5 ∧ linkState (port_ 511 8) 511 = 8 ∧
      linkState (port_ 511 5) 511 ≠ 3 ∧ linkState (port_ 511 5) 511 ≠ 4 ∧ (port (port_ 511 2) 511).fails = 0 ∧
      (port (setPort 511 { fails := 2 } up) 511).fails = 2 ∧ (port (setPort 511 { fails := 102 } up) 511).fails = 102 := by
  decide +kernel

/-- A 25G port that has negotiated, one that has not, one of another speed, and one that completes negotiation. -/
theorem witness_ResolvedFec :
    modeSpeed (modeOf (wr (oOctetMode 0) 1 up) 0) = 1 ∧
      (port (setPort 0 { negotiated := true } (wr (oOctetMode 0) 1 up)) 0).negotiated = true ∧
      (port (wr (oOctetMode 0) 1 up) 0).negotiated = false ∧ modeSpeed (modeOf up 0) ≠ 1 ∧
      linkState (port_ 0 2) 0 = 2 ∧ (advertised (wr (oOctetMode 0) 1 (port_ 0 2)) 0).contains (1, true) = true := by decide +kernel

/-- The states of R151, with a hold time. -/
theorem witness_LinkUpAndDown :
    linkState (port_ 0 5) 0 = 5 ∧ linkState (port_ 0 6) 0 = 6 ∧ rd (wr (oDownHold 0) 10 (port_ 0 6)) (oDownHold 0) ≠ 0 ∧
      linkState (port_ 0 7) 0 = 7 ∧ (port (port_ 0 7) 0).localFault ≠ true := by decide +kernel

/-- A port with backplane PMD at 25G and EEE agreed. -/
def eeePort : State :=
  setPort 0 { eee := true } (wr (oEeeEnable 0) 1 (wr (oPmdType 0) 1 (wr (oOctetMode 0) 1 (port_ 0 6))))

/-- FEC windows over a threshold, before and after the event; an EEE port without a frame; accepted enables; a port that is
present and not up; an octet that drains. -/
theorem witness_PortOperation :
    present up 0 = true ∧ rd (wr (oFecDegradeThreshold 0) 9 up) (oFecDegradeThreshold 0) < 10 ∧
      rd (wr (oFecDegradeThreshold 0) 9 up) (oFecDegradeThreshold 0) ≠ 0 ∧
      (port (setPort 0 { degraded := true } up) 0).degraded = true ∧ (port up 0).degraded = false ∧
      linkCarries eeePort 0 = true ∧ eeeAgreed eeePort 0 = true ∧ hasFrame eeePort 0 = false ∧ (port eeePort 0).lpi = false ∧
      present eeePort 0 = true ∧
      (Instr.portEnable mgmt0 3 3 1).wf = true ∧ takes up (oPortEnable 3) 0 1 1 = true ∧
      (Instr.octetEnable mgmt0 3 63 1).wf = true ∧ takes up (oOctetEnable 63) 0 1 1 = true ∧
      linkState up 0 ≠ 6 ∧ linkState up 0 ≠ 7 ∧ octetState (wr (oOctetState 63) 1 up) 63 = 1 := by decide +kernel

/-- A frame of 60 bytes before its FCS, with an EtherType. -/
def frame64 (t : Nat) : Bytes := leBytes 6 1 ++ leBytes 6 2 ++ beBytes 2 t ++ zeros 50

/-- A pipeline that takes heads: image in service, a frame of port 0 staged. -/
def headState : State :=
  let s := wr oCsState 2 (wr oServiceLevel 2 up)
  { s with pip := { frames := [(1, { port := 0, bytes := frame64 0x800, owner := 0 })], nextFid := 2,
                    pipes := [(0, { stage := [1] })] } }

/-- Reception: the five cases on an up port, with staging that holds the frame, and one that is full; heads: a pipeline that
stalls, one with no head, and one with a head of a lane. -/
theorem witness_ReceptionAndHeads :
    isPort 0 = true ∧ linkCarries (port_ 0 8) 0 = false ∧ (port (port_ 0 8) 0).cut = false ∧
      (port (setPort 0 { cut := true } (port_ 0 8)) 0).cut = true ∧ rd (wr (oLoopback 0) 2 (port_ 0 6)) (oLoopback 0) = 2 ∧
      rd (port_ 0 6) (oLoopback 0) ≠ 2 ∧ linkCarries (port_ 0 6) 0 = true ∧ (zeros 63).length < 64 ∧
      64 ≤ (frame64 0x800).length ∧ (frame64 0x800).length ≤ rd (port_ 0 6) (oMaxFrame 0) ∧
      rd (wr (oMaxFrame 0) 63 (port_ 0 6)) (oMaxFrame 0) < (frame64 0x800).length ∧
      beAt (frame64 0x8808) 12 2 = 0x8808 ∧ beAt (frame64 0x800) 12 2 ≠ 0x8808 ∧
      stagingHolds (port_ 0 6) 0 64 false = true ∧ stagingHolds (port_ 0 6) 0 stagingBytes false = false ∧
      isPipe 15 = true ∧ (headStall up 15).isSome = true ∧ headStall headState 0 = none ∧ (slotsUsed headState 0).1 < 2 ∧
      headStall headState 15 = none ∧ (slotsUsed headState 15).1 < 2 ∧ pickHead headState 15 = none ∧
      stepDebt headState 0 < 32 ∧ 32 ≤ stepDebt (setPipe 0 { debt := 32 } headState) 0 ∧ pickHead headState 0 = some 1 ∧ (frame headState 1).isSome = true := by decide +kernel

/-- A frame whose routine runs; its first instruction. -/
def running : State := withFrame { phase := .ingress }

/-- A public key, worked out apart from the model. -/
def key384 : Bytes :=
  4 :: (beBytes 48 0xd5136d1655c65b914e665c9ed35e4e01d1d8da847736957a6a751ea4cf2f80a1380f08c2ae239bc498d1b1bb3fba744f ++
    beBytes 48 0xe746b1ce69a33ebe8e8a90604f1b2804397cf0410fed1beb08a12e00f8e7f3ec07a6774569844826d0370826f7f1f9f)
/-- The signature of the image below under that key's private key, worked out apart from the model. -/
def sig384 : Bytes :=
  beBytes 48 0x4e47a237cc608f03d38bf953c2c25c8cb99de4bbada9288a6b43656520b2559143f1fd344dde210802bbc630315996be ++
    beBytes 48 0x6082c3153dc2d4b9d416a3dea42fbf513f419c75a70811ce9ec7bb9d1b2f58b9aafd975415c42206c0c7638584514ab2
/-- The image of 352 bytes that has no words, signed. -/
def image352 : Bytes :=
  [0x55, 0x4C, 0x43, 0x53, 1, 0, 0, 0] ++ orderCode ++ stepping ++ zeros 38 ++ key384 ++ zeros 95 ++ sig384
/-- An image staged and loading, with the key hash that its key has. -/
def loading (b : Bytes) : State :=
  { wr oCsState 1 (wrRow oCsStage 1 (leNat (b.drop 256)) (wrRow oCsStage 0 (leNat (b.take 256)) up)) with
    cs := { length := 352 }, fuse := { csKeyHash := leNat (sha256 key384) } }

/-- R166 step 4: the signature holds for the image as signed, and not once a bit of the image differs. -/
theorem test_signature : signatureOk image352 = true ∧ signatureOk (image352.set 0x20 1) = false := by decide +kernel

/-- Instructions below and at the step limit; a load accepted, good, bad, and none running; a bad copy beside intact ones and
with none. -/
theorem witness_InstructionsAndControlStore :
    frame running 1 = some { phase := .ingress } ∧ mayIssue running { phase := .ingress } = true ∧
      mayIssue running { phase := .ingress, finished := true } = false ∧ rdCfg running 0 oCsStepLimit ≤ 2 ^ 16 ∧ 0 < rdCfg running 0 oCsStepLimit ∧
      running.cs.bad.contains (badWord 0 2 65535) = false ∧ patched running 0 2 65535 = false ∧
      (Instr.csLoad mgmt0 3 4096).wf = true ∧ takes up oCsLoad 0 4 4096 = true ∧ rd (loading image352) oCsState = 1 ∧
      imageResult (loading image352) (stagedBytes (loading image352) 352) 352 = 1 ∧
      imageResult (loading (image352.set 0x20 1)) (stagedBytes (loading (image352.set 0x20 1)) 352) 352 = 5 ∧
      rd up oCsState ≠ 1 ∧ isPipe 0 = true ∧ isStore 3 = true ∧
      (badPipes { up with cs := { bad := [badWord 0 3 65535] } } 3 65535).length < 16 ∧
      ({ up with cs := { bad := [badWord 0 3 65535] } } : State).cs.bad.contains (badWord 0 3 65535) = true ∧
      (badPipes { up with cs := { bad := (List.range 16).map (fun n => badWord n 3 65535) } } 3 65535).length = 16 := by
  decide +kernel

/-- A frame with every search due. -/
def searching : Frame := { phase := .ingress, due := 127, tmplWord := 0, bytes := frame64 0x800 }
/-- An exact entry of key 5 and a prefix 10.0.0.0/8 of VRF 4,095. -/
def tables : State :=
  setLt { em := [(0, { key := 5, result := 0 }), (1, { key := 6, result := 2 }), (2, { key := 7, result := 0, bad := true }),
                 (3, { key := macKey 9 (leBytes 6 1), result := 0 }), (4, { key := macKey 7 (leBytes 6 2), result := 0 })],
          groups := [(0, { size := 1, base := 0 })], px := [(0, { family := 4, length := 8, vrf := 4095, addr := 0x0A000000, result := 0 })],
          filter := [(filterRow 0 4 10, 2 ^ 8)] } (withFrame searching)

/-- Lookups that hit and miss. -/
theorem witness_Lookups :
    frame tables 1 = some searching ∧ searching.due.testBit 0 = true ∧ searching.due.testBit 1 = true ∧
      inService tables 32 = true ∧ emFind tables (leNat ((leBytes 16 8).take 16)) = none ∧
      emFind tables (leNat ((leBytes 16 5).take 16)) = some (0, { key := 5, result := 0 }) ∧ rKind 0 ≠ 2 ∧ rKind 2 = 2 ∧
      emFind tables (leNat ((leBytes 16 6).take 16)) = some (1, { key := 6, result := 2 }) ∧
      tabFind tables.lt.groups (rIndex 2) = some { size := 1, base := 0 } ∧
      (emFind tables (leNat ((leBytes 16 7).take 16))).map (·.2.bad) = some true ∧ searching.due.testBit 3 = true ∧
      (9 : Nat) < 16384 ∧ (emFind tables (macKey 7 (slice searching.bytes 6 6))).isSome = true ∧
      emFind tables (macKey 9 (slice searching.bytes 6 6)) = none ∧
      (emFind tables (macKey 9 (slice searching.bytes 0 6))).map (·.2.bad) = some false ∧
      emFind tables (macKey 8 (slice searching.bytes 6 6)) = none ∧
      emFind tables (macKey 8 (slice searching.bytes 0 6)) = none ∧ (4095 : Nat) < 4096 ∧
      probeAll tables 4 4095 0x0B000000 0 (lookupLengths tables 4 4095 0x0B000000) = none ∧
      ((probeAll tables 4 4095 0x0AFFFFFF 0 (lookupLengths tables 4 4095 0x0AFFFFFF)).map
        fun x => !x.2.2.bad && rKind x.2.2.result ≠ 2) = some true := by decide +kernel

/-- Arguments of a table command. -/
def tbl (t i : Nat) : TblArgs := ⟨t, i, 1, leBytes 16 5 ++ zeros 16⟩

/-- Table commands: out of range, locked by another queue, present, new. -/
theorem witness_TableCommandsStart :
    serves (from_ 1) 1 queues = true ∧ queues.lt.arrivals = [] ∧ queues.lt.started.1 ≠ mclk queues + 1 ∧
      (setLt { started := (mclk queues + 1, 3) } queues).lt.started = (mclk queues + 1, 3) ∧ (from_ 1).sq < 3 ∧
      queues.lt.cmds = [] ∧ tblOk 0x21 (tbl 6 0) = false ∧ tblOk 0x21 (tbl 3 262143) = true ∧
      tblOk 0x23 (tbl 0 0) = true ∧ tblOk 0x24 (tbl 0 0) = true ∧ tblOk 0x25 (tbl 0 0) = true ∧ tblOk 0x22 (tbl 0 0) = true ∧
      tblOk 0x26 (tbl 5 16383) = true ∧ 1 ≤ (tbl 5 16383).size ∧ (tbl 5 16383).size ≤ 512 ∧ tblOk 0x26 { tbl 5 0 with size := 513 } = true ∧
      lockGone queues 3 262143 1 = false ∧
      lockGone (setLt { expired := [⟨3, 262143, 1, true⟩] } queues) 3 262143 1 = true ∧
      lockedFor (setLt { locks := [⟨3, 262143, 3, true⟩] } queues) 0x21 3 262143 1 = true ∧
      lockedFor (setLt { locks := [⟨3, 262143, 1, true⟩] } queues) 0x21 3 262143 1 = false ∧
      lockedFor queues 0x21 3 262143 1 = false ∧ presentCode queues 3 262143 = 0 ∧
      presentCode (setLt { nh := [(262143, ⟨1, 0, 0, 0, none, false⟩)] } queues) 3 262143 ≠ 0 ∧ partnerFollows queues = false ∧
      (from_ 1).addr ≠ 0 ∧ serves { from_ 1 with addr := 0 } 1 queues = true := by decide +kernel

/-- A table command and a rule command under way. -/
def underWay : State :=
  setRb { cmds := [⟨from_ 3, 0x31, 0, 0, 0, 0, false⟩] }
    (setLt { cmds := [⟨from_ 1, 0x21, 3, 1, 1, 1, true⟩], locks := [⟨3, 1, 1, false⟩] } queues)

/-- Next-hop 1 in use, referenced, and retired. -/
def hop (r : Option Nat) : State := setLt { nh := [(1, ⟨1, 0, 0, 0, r, false⟩)] } queues

/-- Data for a table command and a rule command; a read of an entry that exists, and of one that does not; next-hops that are
referenced, free, retired. -/
theorem witness_TableCommitsAndRetirement :
    (underWay.lt.cmds.find? (awaits underWay 1 7)).map (tblNeeds ·) = some 16 ∧
      underWay.lt.cmds.find? (awaits underWay 3 7) = none ∧
      (underWay.rb.cmds.find? (ofCommand 3 7)).isSome = true ∧
      16 + 40 * leAt (zeros 56) 1 1 ≤ (zeros 56).length ∧ partnerFollows underWay = false ∧
      serves (from_ 1) 0 queues = true ∧ queues.lt.arrivals = [] ∧ queues.lt.started.1 ≠ mclk queues + 1 ∧
      tblOk 0x20 (tbl 6 0) = false ∧ tblOk 0x20 (tbl 3 1) = true ∧ linksHold (from_ 1) 16 = true ∧
      linksHold { from_ 1 with links := .segs [(0, 8)] } 16 = false ∧
      (entryImage (setLt { nh := [(1, ⟨1, 0, 0, 0, none, true⟩)] } queues) 3 1).map (·.2) = some true ∧ (entryImage queues 3 1).map (·.2) = some false ∧ tblOk 0x20 (tbl 0 0) = true ∧
      entryImage queues 0 (tblKey (tbl 0 0)) = none ∧ tabFind (hop none).lt.nh 1 = some ⟨1, 0, 0, 0, none, false⟩ ∧
      nhRefs (hop none) 1 = 0 ∧
      nhRefs (setLt { (hop none).lt with slots := [(0, { nextHop := 1 })] } queues) 1 ≠ 0 ∧
      (tabFind (hop (some 1)).lt.nh 1).map (·.retired.isSome) = some true := by decide +kernel

/-- A dispatched operation of a kind. -/
def op_ (list kind : Nat) (args : List Nat) : DwOp := { kind := kind, cls := 7, list := list, notBefore := 0, deadline := 0, issued := 0, args := args }
/-- A device whose scheduler holds one operation on die. -/
def withOp (list kind : Nat) (args : List Nat) (s : State) : State := setDw { s.dw with onDie := [op_ list kind args] } s
/-- A device of queues whose LEARN_QUEUE is CQ 0. -/
def learning : State := wr oLearnQueue 0 queues

/-- A lock held to its limit; a rebuild, a return and a notice to dispatch; aging; a scheduler that is halted. -/
theorem witness_DeferredTableWork :
    (lockOf (setLt { locks := [⟨3, 1, 1, true⟩] } up) 3 (leNat (leBytes 16 1))).map (·.hold) = some true ∧
      nextOp (withOp 17 12 [0] up) 17 12 (fun _ => true) = some (op_ 17 12 [0]) ∧
      nextOp (withOp 17 11 [0] up) 17 11 (fun _ => true) = some (op_ 17 11 [0]) ∧
      nextOp (withOp 18 7 [] learning) 18 7 (fun _ => (cq learning (rd learning oLearnQueue)).isNone || cqTakes learning 0 2) =
        some (op_ 18 7 []) ∧
      (cq (dispatched (op_ 18 7 []) (withOp 18 7 [] learning)) 0).isSome = true ∧ cq (withOp 18 7 [] up) 0 = none ∧
      (nextStep (wr oAgePeriod 60 up) 17).isSome = true ∧ dispatches (wr oAgePeriod 60 up) = true ∧ farDue up = true ∧
      farDue { up with clk := { cclk := 1 } } = false ∧ (op_ 16 5 [0, 5]).kind = 5 ∧
      listFirst (withOp 17 12 [0] up) 17 = some (op_ 17 12 [0]) ∧
      inCycle (withOp 17 12 [0] up) (listKey 17) (fclk up) < listRate 17 ∧
      (up.dw.far.all fun o => !o.bad) = true ∧
      dispatches (wr oHalted (2 ^ 38) up) = false ∧ inService (wr oHalted (2 ^ 38) up) 38 = false := by decide +kernel

/-- Rule 0 of bank 0 matches every key. -/
def oneRule : State :=
  wr oSearchProfile 0 (setRb { entries := [(0, { valid := true, action := 9 })] } (withFrame searching))

/-- The same rule, in the bank that search profile 0 selects for a frame of epoch 0. -/
def matching : State := wrSet (setFor up 0) oSearchProfile 0 1 oneRule

/-- A frame that waits for the automaton engine of pipeline 15. -/
def scanning : State :=
  { up with pip := { frames := [(1, searching)], nextFid := 2, pipes := [(15, { scans := [1] })] } }

/-- A rule that matches; a search of intact banks; scans with no image, no such set, and a set. -/
theorem witness_RuleAndPatternSearch :
    tabRising oneRule.rb.entries = true ∧
      firstMatch oneRule [(0, 1, 0)] [] 1 0 = some (0, { valid := true, action := 9 }) ∧
      firstMatch matching (linksOf matching (setFor matching 0)) searching.segs (rdCfg matching 0 oSearchProfile 0) 0 =
        some (0, { valid := true, action := 9 }) ∧ frame matching 1 = some searching ∧ rd matching oRbFault = 0 ∧
      frame oneRule 1 = some searching ∧ searching.due.testBit 4 = true ∧ inService oneRule 33 = true ∧ rd oneRule oRbFault = 0 ∧
      (oneRule.rb.entries.all fun e => !e.2.badAction) = true ∧ isPipe 15 = true ∧
      inService (wr oHalted (2 ^ 34) up) 34 = false ∧ nextScan scanning 15 = some 1 ∧ inService scanning 34 = true ∧
      frame scanning 1 = some searching ∧ searching.due.testBit 5 = true ∧ rd scanning oPatState ≠ 2 ∧
      rd (wr oPatState 2 scanning) oPatSets ≤ rdCfg (wr oPatState 2 scanning) 0 oScanSetMap 0 ∧
      rdCfg (wr oPatSets 1 (wr oPatState 2 scanning)) 0 oScanSetMap 0 < rd (wr oPatSets 1 (wr oPatState 2 scanning)) oPatSets ∧
      scanning.pa.bad.contains (0 % 2 ^ 32) = false ∧ ([(7, Ecc.uncorrectable)] : List (Nat × Ecc)) ≠ [] ∧
      (setPa { bad := [7] } scanning).pa.bad.contains (7 % 2 ^ 32) = true ∧ (131071 : Nat) < 131072 := by decide +kernel

/-- A loading image's header: one pattern of one set, a body of 64 zero bytes. -/
def dralet64 : Bytes :=
  let h := [0x44, 0x52, 0x4C, 0x54, 1, 0, 0, 0] ++ orderCode ++ stepping ++ [1, 0] ++ leBytes 2 1 ++ zeros 2 ++ leBytes 4 77 ++
    leBytes 4 64 ++ leBytes 4 (crc32c (zeros 64))
  h ++ leBytes 4 (crc32c h) ++ zeros 16

/-- A move of two positions under way. -/
def move_ : RbMove := ⟨from_ 1, 0, 1, 0, 1, false, 0⟩

/-- Rule commands in and out of place, locked by a move and free; a move whose first copy waits for dispatch, and one that goes
on; the last bank entry; pattern loads that start, fail, meet another, and complete. -/
theorem witness_RuleAndPatternCommands :
    serves (from_ 1) 0 queues = true ∧ rulePlaceOk 63 1 2047 = true ∧ rulePlaceOk 63 2 2047 = false ∧
      serves (from_ 1) 1 queues = true ∧ moveLocks queues 63 2047 = false ∧
      moveLocks (setRb { moves := [move_] } queues) 0 1 = true ∧ partnerFollows queues = false ∧
      (setRb { moves := [move_] } queues).rb.moves.find? (fun m => m.cmd.sq = 1 && m.cmd.tag = 7) = some move_ ∧
      (opsHeld (setRb { moves := [move_] } queues) 13).any (fun o => decide (o.args = [1, 7])) = false ∧
      (opsHeld (withOp 17 13 [1, 7] queues) 13).any (fun o => decide (o.args = [1, 7])) = true ∧
      nextOp (withOp 17 13 [1, 7] queues) 17 13 (fun o => decide (o.args = [1, 7])) = some (op_ 17 13 [1, 7]) ∧
      (131071 : Nat) < 131072 ∧ serves (from_ 1) 2 queues = true ∧ queues.pa.load = none ∧ dralet dralet64 128 = 0 ∧
      dralet [] 64 = 2 ∧ (setPa { load := some (from_ 1, dralet64) } queues).pa.load.isSome = true ∧
      leAt dralet64 0x24 4 ≤ (zeros 64).length ∧ crc32c ((zeros 64).take (leAt dralet64 0x24 4)) = leAt dralet64 0x28 4 := by
  decide +kernel

/-! ### Witnesses: chapters 8 to 12 -/

/-- Hot part of a valid record, with itself in its home's list at distance 0. -/
def hot0 : Nat := 2 ^ 71 + 0x8000 * 2 ^ 80
/-- A frame whose ledger operation is due; its key's home is slot 0 of slice 0. -/
def ledFrame : Frame := { phase := .ingress, due := 2 ^ 6 }
/-- The record's slot. -/
def home0 : Nat := homeOf up 0
/-- A slice with one record on die, and a frame of its flow. -/
def ledger : State :=
  { withFrame ledFrame with led := { slots := [(home0, { hot := hot0 })], ways := [(home0, {})] }, hst := queues.hst }

/-- Nothing is under way in it. -/
theorem ledger_quiet : ledgerQuiet ledger := quiet_of rfl

/-- The slice of the record takes operations, and the record is on die. -/
theorem ledger_ready : slotReady ledger home0 := ⟨by decide +kernel, by decide +kernel, by decide +kernel⟩

/-- A frame that hits its record (`ledger_quiet` is the first premise). -/
theorem witness_FrameHitsItsRecord :
    frame ledger 1 = some ledFrame ∧ ledFrame.due.testBit 6 = true ∧ flowEnters ledger 1 ledFrame = false ∧
      crossbarTakes ledger (hashSlice 0) = true ∧ sliceOpen ledger (hashSlice 0) = true ∧
      sliceAccepts ledger (hashSlice 0) = true ∧ lookup ledger (homeOf ledger 0) (hashFp 0) 0 = .found home0 ∧
      hAlias (hotAt ledger home0) = false ∧ hPending (hotAt ledger home0) = false ∧
      isStale ledger (setFor ledger 0) home0 = false ∧ (failAction ledger (setFor ledger 0) home0).1 = 0 := by decide +kernel

/-- The frame of a pass that has found its record, in the same ledger. -/
def flowFrame (done : Bool) : State :=
  putFrame 1 { ledFrame with ra := { flowValid := 1, flowRecord := home0 }, flowSetDone := done } ledger
/-- An operation of slice 15. -/
def ledOp : LedOp := { id := 0, slice := 15, who := .aging }

/-- FLOW_SET first, second and without a record; operations where the slice takes none, is open, is closed; a reply key and a
forwarded operation of slice 15. -/
theorem witness_FlowFieldsAndArrivals :
    (frame (flowFrame false) 1).map (fun f => (f.flowSetDone, f.ra.flowValid, f.ra.flowRecord, f.finished)) = some (false, 1, home0, false) ∧
      (frame (flowFrame true) 1).map (·.flowSetDone) = some true ∧ isPrimary (flowFrame false) home0 = true ∧
      (flowFrame false).led.slices = [] ∧ sliceOpen (flowFrame false) (recSlice home0) = true ∧
      sliceAccepts (flowFrame false) (recSlice home0) = true ∧ onDie (flowFrame false) home0 = true ∧
      crossbarTakes { ledger with clk := { lim := [(crossbarKey 0, (0, 4))] } } 0 = false ∧ crossbarTakes up 15 = true ∧
      sliceAccepts (setSlc 0 { writes := List.replicate 256 home0 } ledger) 0 = false ∧ sliceOpen (wr oLedgerState 2 ledger) 0 = false ∧
      sliceAccepts (wr oLedgerState 2 ledger) 0 = true ∧ isSlice 15 = true ∧ sliceAccepts up 15 = true ∧
      (setLed { replies := [ledOp] } up).led.replies.find? (fun o => o.slice = 15) = some ledOp ∧
      (setLed { forwards := [ledOp] } up).led.forwards.find? (fun o => o.slice = 15) = some ledOp := by decide +kernel

/-- Arguments of a flow command. -/
def flow (byKey : Bool) (r : Nat) : FlowArgs := ⟨byKey, 127, 15, r, 4096, 0, zeros 48⟩

/-- Flow commands: served; by number in and out of the ledger, by key; walks in and out of range; images; and, in a quiet
ledger (`ledger_quiet`, `ledger_ready`), the record a command names. -/
theorem witness_FlowCommands :
    serves (from_ 1) 0 ledger = true ∧ serves (from_ 1) 1 ledger = true ∧ recordCode ledger (2 ^ 26) = 0x0B ∧
      recordCode ledger home0 ≠ 0x0B ∧ (15 : Nat) < 16 ∧ slotsPer ledger ≤ 2 ^ 22 ∧ 0 < slotsPer ledger ∧
      (128 : Nat) ≤ 128 ∧ (flow false 0).mask < 128 ∧ 144 ≤ (zeros 144).length ∧ (flow false 0).aliasAddr = 0 ∧
      keyFormOk (imageKey ledger (zeros 144)) = true ∧ keyFormOk (imageKey ledger (zeros 48 ++ [9] ++ zeros 95)) = false ∧
      kKind (imageKey ledger (zeros 144)) = rdAct ledger (oAdmFamily 0) ∧
      kKind (imageKey ledger (zeros 48 ++ [1] ++ zeros 95)) ≠ rdAct ledger (oAdmFamily 0) ∧
      keyFormOk (imageKey ledger (zeros 48 ++ [1] ++ zeros 95)) = true ∧
      (zeros 48 ++ zeros 96).take 48 ≠ 1 :: zeros 47 ∧ keyFormOk (zeros 48) = true ∧ linksHold (from_ 1) 144 = true ∧
      linksHold { from_ 1 with links := .segs [(0, 8)] } 144 = false ∧
      ((pinPair ledger home0).flatMap (pinSet ledger)).all (onDie ledger) = true ∧ home0 < 2 ^ 26 ∧ recSlot home0 < slotsPer ledger ∧ hValid (hotAt ledger home0) = true ∧ partnerFollows ledger = false ∧
      hAlias (hotAt ledger home0) = false := by decide +kernel

/-- The ledger with a way-held operation of its record. -/
def held (kind : Nat) : State := setDw { wayHeld := [op_ 0 kind [home0]] } ledger
/-- It is as quiet as the ledger. -/
theorem held_quiet (kind : Nat) : ledgerQuiet (held kind) := quiet_of rfl

/-- A fold that is dispatched (`held_quiet` is the first premise). -/
theorem witness_FoldKeepsTheSums :
    isSlice 0 = true ∧ isSlot 4194303 = true ∧ recNo 0 home0 = home0 ∧ takesDeferred (held 2) 0 = true ∧
      (nextWay (held 2) 2 home0).isSome = true ∧ lowLedger (held 2) = false ∧ onDie (held 2) home0 = true ∧
      hValid (hotAt (held 2) home0) = true ∧ hAlias (hotAt (held 2) home0) = false ∧ hPending (hotAt (held 2) home0) = false ∧
      (slotAt (held 2) home0).coldBad = false := by decide +kernel

/-- A write-back that is dispatched; a slice that is halted; an aging step; HBM reads awaited and not; writes; scrubs on, off,
and of the last slot. -/
theorem witness_LedgerMemory :
    (nextWay (held 1) 1 home0).isSome = true ∧ tabFind (held 1).led.ways home0 = some {} ∧ takesDeferred (held 1) 0 = true ∧
      inService (wr oHalted (2 ^ 31) up) (16 + 15) = false ∧ (nextStep up 15).isSome = true ∧ takesDeferred up 15 = true ∧
      up.svc.swept.testBit 15 = false ∧
      (slc up 15).reads.contains (recNo 15 4194303) = false ∧
      (slc (setSlc 15 { reads := [recNo 15 4194303], writes := [0] } up) 15).reads.contains (recNo 15 4194303) = true ∧
      (slc up 15).writes = [] ∧ (slc (setSlc 15 { writes := [0] } up) 15).writes = [0] ∧
      rd (wr oScrubEnable 0 up) oScrubEnable ≠ 1 ∧ rd (wr oScrubEnable 1 up) oScrubEnable = 1 ∧ lowLedger up = false ∧
      slotsPer up - 1 < slotsPer up := by decide +kernel

/-- A repair of the home slot under way and queued. -/
def repairing : State := withOp 0 4 [home0] (setSlc 0 { repairs := [home0] } up)
/-- What the slice asks of a repair of the home slot. -/
def mayRepair (s : State) (o : DwOp) : Bool :=
  o.args = [recNo 0 home0] && sliceOpen s 0 && inCycle s (deferredKey 0) s.clk.cclk = 0 && !repairWaits s (recNo 0 home0)

/-- A cold part that goes bad; a repair queued and none; faults in a unit with and without a pair; limits; flushes. -/
theorem witness_LedgerFaults :
    hValid (hotAt ledger home0) = true ∧ lowLedger ledger = false ∧ onDie ledger home0 = true ∧
      nextOp up 0 4 (mayRepair up) = none ∧ nextOp repairing 0 4 (mayRepair repairing) = some (op_ 0 4 [home0]) ∧
      role repairing ≠ 3 ∧ (slc (dispatched (op_ 0 4 [home0]) repairing) 0).repairs.contains (recNo 0 home0) = true ∧
      (slc (dispatched (op_ 0 4 [home0]) (withOp 0 4 [home0] up)) 0).repairs.contains (recNo 0 home0) = false ∧
      rd up oPairEnable ≠ 1 ∧ rd (wr oPairEnable 1 up) oPairEnable = 1 ∧ limitExceeded up = false ∧
      limitExceeded { up with pair := { errors := 2 ^ 32 } } = true ∧ (slc up 15).flushing = false ∧
      (slc (setSlc 15 { flushing := true } up) 15).flushing = true := by decide +kernel

/-- NAT pool 0: blocks of 64 ports for one inside address, 10.0.0.1. -/
def natRow : Nat :=
  leNat ([1, 0, 64, 0, 0, 4, 0, 0] ++ leBytes 4 1 ++ leBytes 4 1 ++ beBytes 4 0x0A000001 ++ zeros 12 ++ beBytes 4 0xC0000201 ++ zeros 28)
/-- That pool in the active set. -/
def nat : State := wrSet (activeSet up) oNatPools 0 natRow up
/-- A TCP key from it. -/
def natKey : Bytes := [0, 6, 0, 0, 0, 0, 0, 0] ++ beBytes 4 0x0A000001 ++ zeros 28 ++ leBytes 2 1024 ++ zeros 6
/-- Whether the first port is granted. -/
def granted : Bool :=
  match natAlloc (activeSet up) 63 0 7 0 natKey nat with
  | .inl _ => true
  | .inr _ => false

/-- A release of entry 5 of pool 255, which is held. -/
def releasing : State := setSvc { ports := [(portKey 255 5, 2 ^ 30)] } (withOp 16 5 [255, 5] up)

/-- An export queue of an open device. -/
def exporting : State := withOp 18 8 [] (wr oExportRate 1 (wr oExportQueue 0 queues))

/-- A port granted; a release queued, in a standby, and none; audits off and on; exports within the rate, beyond it and without
room. -/
theorem witness_PortsAndTelemetry :
    granted = true ∧ isService 255 = true ∧ role (wr oPairRole 3 up) = 3 ∧
      nextOp up 16 5 (fun o => o.args.take 2 = [255, 5]) = none ∧
      nextOp releasing 16 5 (fun o => o.args.take 2 = [255, 5]) = some (op_ 16 5 [255, 5]) ∧
      (portEntry releasing 255 5).testBit 30 = true ∧ (portEntry (withOp 16 5 [255, 5] up) 255 5).testBit 30 = false ∧
      rd (wr oAuditPeriod 0 nat) oAuditPeriod = 0 ∧ (nextStep (wr oAuditPeriod 1 nat) 16).isSome = true ∧
      nextOp up 18 8 (fun _ => true) = none ∧ nextOp exporting 18 8 (fun _ => true) = some (op_ 18 8 []) ∧
      follows (dispatched (op_ 18 8 []) exporting) = false ∧
      follows (dispatched (op_ 18 8 []) (withOp 18 8 [] (wr oPairRole 3 up))) = true ∧
      used (dispatched (op_ 18 8 []) exporting) exportKey < rd (dispatched (op_ 18 8 []) exporting) oExportRate ∧
      cqTakes (dispatched (op_ 18 8 []) exporting) (rd (dispatched (op_ 18 8 []) exporting) oExportQueue) 5 = true ∧
      rd up oExportRate ≤ used { up with ev := { window := [(exportKey, rd up oExportRate)] } } exportKey ∧
      cqTakes up 0 5 = false := by decide +kernel

/-- A backend row of table 0, and table 0 balanced by records. -/
def backends : State :=
  wrSet (activeSet up) oBackends 0 (leNat ([0, 0, 10, 0] ++ zeros 28))
    (wrSet (activeSet up) oBackendTables 0 (leNat ([1, 0, 6, 1] ++ zeros 44)) (wrRow oGovKnobs 3 1 (wrRow oBackendState 0 1 up)))

/-- Tables due and not; BACKEND_STATE accepted with and without a change; rebalancing runs that do nothing, and one that runs. -/
theorem witness_BackendTables :
    up.svc.rebuild.contains 255 = false ∧ (setSvc { rebuild := [255] } up).svc.rebuild.contains 255 = true ∧
      role up ≠ 3 ∧ (Instr.backendState mgmt0 3 3 0).wf = true ∧
      takes (wrRow oBackendState 3 1 (wrSet (activeSet up) oBackends 3 0 up)) oBackendState 3 1 0 = true ∧
      rd (wrRow oBackendState 3 1 up) oBackendState 3 ≠ 0 ∧ isService (beOf (beRow (wrSet (activeSet up) oBackends 3 0 up) (activeSet up) 3)) = true ∧
      (beTable up (activeSet up) 0).valid ≠ 1 ∧ (beTable backends (activeSet backends) 0).valid = 1 ∧
      (beTable backends (activeSet backends) 0).mode ≠ 0 ∧ role backends ≠ 3 ∧ rd backends oGovKnobs 3 % 256 = 1 := by
  decide +kernel

/-- A TCP reset of a record with state. -/
theorem witness_ConnectionStates : (64 : Nat) / 64 ≠ 0 ∧ (64 : Nat) / 64 = 1 ∧ (4 : Nat).testBit 2 = true ∧
    (connNext 64 false false 4).2 = false ∧ (connNext (64 + 8) true false 2).2 = true := by decide +kernel

/-- Buffer 0 of pool 0 held by owner 9 with `n` references. -/
def holding (n : Nat) : State := setHeader (mkHandle 0 0) (mkHeader 9 n) up

/-- Two releases of one cycle. -/
def twoReleases : State := { up with buf := { releases := [⟨0, 9, 21, .clean⟩, ⟨1, 9, 20, .clean⟩] } }

/-- Releases of no buffer, of a free one, under another owner, of one reference of two, and of the last. -/
theorem witness_BufferReleases :
    isRotation 21 = true ∧ twoReleases.buf.releases = [⟨0, 9, 21, .clean⟩, ⟨1, 9, 20, .clean⟩] ∧ isRotation 20 = true ∧
      handleOk up (2 ^ 24) = false ∧ handleOk up 0 = true ∧ hdrHeld (header up 0) = false ∧
      handleOk (holding 2) 0 = true ∧ hdrHeld (header (holding 2) 0) = true ∧ hdrOwner (header (holding 2) 0) = 9 ∧
      1 < hdrRefs (header (holding 2) 0) ∧ hdrRefs (header (holding 1) 0) ≤ 1 ∧
      handleOk (holding 1) 0 = true ∧ hdrHeld (header (holding 1) 0) = true := by decide +kernel

/-- A frame that waits for a buffer. -/
def waiter : Frame := { phase := .ingress, waiting := some 0, bytes := frame64 0x800 }
/-- It, waiting. -/
def starving : State := { withFrame waiter with buf := { waiters := [1], pools := [(0, {})] } }
/-- An internal requester of pool 7 that waits. -/
def askingFor : State := { up with buf := { asking := [⟨4128, 7, 0⟩] } }

/-- Pool 7 with two buffers on its list and its cache not yet refilled in this cycle. -/
def linked : State := setPool 7 { pool up 7 with list := [8, 9], refilled := 1 } up

/-- Grants in a halted pool, with no request, of a frame and of an internal requester; bad handles and a good one; link words
broken and kept; a frame that waits and one that does not; undertow on and off. -/
theorem witness_BufferGrants :
    isPool 7 = true ∧ grantsNow (wr oHalted (2 ^ 35) up) 7 = false ∧ grantsNow up 7 = true ∧ handleOk up (2 ^ 24) = false ∧
      hPool (mkHandle 7 0) = 7 ∧ handleOk up (mkHandle 7 0) = true ∧ handleOk up 0 = true ∧ hPool 0 ≠ 7 ∧
      followLink linked 7 0 (poolNow linked 7) = none ∧ (poolNow linked 7).cache = [] ∧
      (followLink linked 7 (linkWord 7 8 (mkHandle 7 9)) (poolNow linked 7)).isSome = true ∧ winner up 7 = none ∧
      framePool waiter = 0 ∧ winner starving 0 = some (.frame 1 waiter) ∧ grantsNow starving 0 = true ∧
      (poolNow starving 0).cache.head? = some 0 ∧ winner askingFor 7 = some (.internal ⟨4128, 7, 0⟩) ∧
      (poolNow askingFor 7).cache.head? = some 0 ∧ frame starving 1 = some waiter ∧ waiter.waiting.isSome = true ∧
      waiter.handle = none ∧ ({ waiter with waiting := none } : Frame).waiting = none ∧
      rd (wr oUndertowPeriod 0 up) oUndertowPeriod = 0 ∧ rd (wr oUndertowPeriod 1 up) oUndertowPeriod ≠ 0 ∧
      handleOk up 0 = true := by decide +kernel

/-- A frame that has ended its routine, with a destination. -/
def resolved (k d : Nat) : Frame :=
  { phase := .ingress, finished := true, handle := some 0, ra := { destKind := k, dest := d } }

/-- A frame not ready; ready ones to nowhere, a port, a group and RECIRC below and at the limit; recirculation queues with room
and full. -/
theorem witness_IngressResolution :
    resolveReady (withFrame waiter) 1 waiter = false ∧ resolveReady (withFrame (resolved 0 0)) 1 (resolved 0 0) = true ∧
      (resolved 0 0).forced = none ∧ mainKind (resolved 0 0) = 0 ∧ mainKind (resolved 1 511) = 1 ∧ mainKind (resolved 2 1) = 2 ∧
      mainKind (resolved 3 0) = 3 ∧ resolveReady (withFrame (resolved 1 511)) 1 (resolved 1 511) = true ∧
      resolveReady (withFrame (resolved 3 0)) 1 (resolved 3 0) = true ∧
      resolveReady (withFrame { resolved 0 0 with forced := some (0, 6) }) 1 { resolved 0 0 with forced := some (0, 6) } = true ∧
      resolveReady (withFrame { resolved 0 0 with forced := some (1, 6) }) 1 { resolved 0 0 with forced := some (1, 6) } = true ∧
      mainKind (carried (resolved 3 0)) = 3 ∧ (carried (resolved 3 0)).ra.puntCopy = 0 ∧ (carried (resolved 1 511)).ra.mirror = 0 ∧
      (carried (resolved 1 511)).ra.sample ≠ 1 ∧ (carried (resolved 1 511)).ra.dest ≠ 512 ∧
      rdCfg (withFrame (resolved 3 0)) 0 oRecircLimit ≤ 255 ∧ 0 < rdCfg (withFrame (resolved 3 0)) 0 oRecircLimit ∧
      (egressReads 0 0 ⟨[(0, .clean)], some []⟩ up).1 = none ∧ (egressReads 0 0 ⟨List.replicate 25 (0, .clean), none⟩ up).1 = some 6 ∧
      (egressReads 0 0 ⟨[(0, .uncorrectable)], none⟩ up).1 = some 7 ∧ storeFault up 0 0 3 (2047 % 2048) = false ∧
      ((withFrame { phase := .recirc }).pip.frames.map (·.2.phase)) = [.recirc] ∧
      (pipe (withFrame { phase := .recirc }) 0).recirc.contains 1 = false ∧
      (pipe (withFrame { phase := .recirc }) 0).recirc.length < 1024 ∧
      1024 ≤ (pipe (setPipe 0 { recirc := List.replicate 1024 9 } (withFrame { phase := .recirc })) 0).recirc.length ∧
      (pipe (setPipe 0 { recirc := List.replicate 1024 9 } (withFrame { phase := .recirc })) 0).recirc.contains 1 = false := by
  decide +kernel

/-- A frame for a port in the Fabric, and its descriptor at the head of stage one, of a middle FIFO, of a multicast FIFO. -/
def moving (k d : Nat) (ph : Phase) : Frame := { phase := ph, ra := { destKind := k, dest := d } }
/-- Stage one's head in pipeline 0, middle buffer 31. -/
def staged (k : Nat) (full : Nat) : State :=
  { withFrame (moving k 0 .fabric) with
    fab := { stage1 := [(s1Key 0 31 0, [1])], fifo := [(fifoKey 31 0 0, List.replicate full 9)], mc := [(62, List.replicate full 9)] } }
/-- The head of the multicast FIFO of middle buffer 31. -/
def mcHeaded (ph : Phase) (row : Nat) : State :=
  wrRow oMcGroups 0 row { withFrame { moving 2 0 ph with todo := [15] } with fab := { mc := [(62, [1])] } }
/-- A descriptor for MGMT's internal port 512 in middle buffer 31. -/
def forHost : State :=
  { withFrame (moving 1 512 .middle) with fab := { fifo := [(fifoKey 31 0 0, [1])] } }

/-- Stage one's class 7 head of the pipeline that the cycle looks at first. -/
def stagedSeven (k : Nat) : State :=
  { withFrame (moving k 0 .fabric) with fab := { stage1 := [(s1Key 0 0 1, [1])] } }

/-- Stage one out of service and in it; heads with room and without, for a port and a group; multicast heads in each phase, with
and without a group; stage two with a descriptor and with none; replicators with and without. -/
theorem witness_FabricDelivery :
    inService (wr oHalted (2 ^ 36) up) 36 = false ∧ inService up 36 = true ∧ isMiddle 31 = true ∧ isPipe 0 = true ∧
      s1Head (stagedSeven 1) 0 0 1 = some 1 ∧ fifoRoom (stagedSeven 1) 0 1 (moving 1 0 .fabric) = true ∧
      fifoRoom (stagedSeven 2) 0 1 (moving 2 0 .fabric) = true ∧ (stagedSeven 1).clk.cclk = 0 ∧
      s1Head (staged 1 0) 0 31 0 = some 1 ∧ (frame (staged 1 0) 1).isSome = true ∧
      fifoRoom (staged 1 0) 31 0 (moving 1 0 .fabric) = true ∧ fifoRoom (staged 1 96) 31 0 (moving 1 0 .fabric) = false ∧
      fifoRoom (staged 2 64) 31 0 (moving 2 0 .fabric) = false ∧ isMulticast (moving 2 0 .fabric) = true ∧
      isMulticast (moving 1 0 .fabric) = false ∧ mcHead (mcHeaded .mcFifo 1) 31 0 = some 1 ∧
      mcRowOf (mcHeaded .mcFifo 1) 0 ≠ 0 ∧ mcRowOf (mcHeaded .mcFifo 0) 0 = 0 ∧ (moving 2 0 .mcFifo).ra.policerValid = 0 ∧
      (frame (mcHeaded .middle 1) 1).map (fun f => f.phase = .middle && f.todo.contains 15) = some true ∧
      pickMiddle up 15 = none ∧ pickMiddle forHost 0 = some (31, 0, 1, false) ∧
      (frame forHost 1).map (fun f => decide (512 ≤ (destOf f).2)) = some true ∧
      tabGet [] up.fab.repl 15 = [] ∧ tabGet [] (setFab { repl := [(15, [1])] } (withFrame (moving 2 0 .replicating))).fab.repl 15 = [1] ∧
      (grantInternal 4128 7 (setFab { repl := [(15, [1])] } (withFrame (moving 2 0 .replicating)))).1.isSome = true ∧
      (grantInternal 4128 7 (wrRow oPoolBuffers 7 0 up)).1 = none := by decide +kernel

/-- A descriptor for port 0 from stage two: the port in a link state, the map of its queues, the row of its queue 0. -/
def admitting (st map row : Nat) : State :=
  wrSet (setFor up 0) (oQueueMap 0) 0 map
    (wrRow oQueueConfig 0 row { port_ 0 st with pip := { frames := [(1, moving 1 0 .middle)], nextFid := 2 } })
/-- The queue's row by default. -/
def queueRow0 : Nat := rd up oQueueConfig 0

/-- A descriptor whose buffer would move to a share that has none left. -/
def charged : State :=
  wrRow oPoolBuffers 0 0 { admitting 6 (2 ^ 24) queueRow0 with
    pip := { frames := [(1, { moving 1 0 .middle with handle := some 0 })], nextFid := 2 },
    buf := { headers := [(0, mkHeader 9 1)] } }

/-- Judgements at the bounds; descriptors for a port that is down, an unused queue, a full queue, and a queue with room. -/
theorem witness_PolicingAndAdmission :
    ((1 * 2 ^ 20 - 1 : Int) < ((1 * 2 ^ 20 : Nat) : Int)) ∧ (((1 * 2 ^ 20 : Nat) : Int) ≤ 2 ^ 20) ∧
      frame (admitting 6 (2 ^ 24) queueRow0) 1 = some (moving 1 0 .middle) ∧ (moving 1 0 .middle).kind = .own ∧
      (rdCfg (admitting 6 (2 ^ 24) queueRow0) 0 oTmPort 0).testBit 31 = false ∧
      linkCarries (admitting 8 (2 ^ 24) queueRow0) 0 = false ∧ linkCarries (admitting 6 (2 ^ 24) queueRow0) 0 = true ∧
      (rdCfg (admitting 6 (2 ^ 24) queueRow0) 0 (oQueueMap 0)).testBit (24 + 0) = true ∧
      (rdCfg (admitting 6 0 queueRow0) 0 (oQueueMap 0)).testBit (24 + 0) = false ∧
      admitTest (admitting 6 (2 ^ 24) queueRow0) 0 (moving 1 0 .middle) = 0 ∧
      frame charged 1 = some { moving 1 0 .middle with handle := some 0 } ∧
      admitTest charged 0 { moving 1 0 .middle with handle := some 0 } = 2 ∧
      admitTest (admitting 6 (2 ^ 24) 0) 0 { moving 1 0 .middle with bytes := zeros 64 } = 1 := by decide +kernel

/-- A port whose selection or transmission is frame 1. -/
def sending (st : Nat) (sel : Bool) : State :=
  { setPort 0 { sending := if sel then none else some 1 } (port_ 0 st) with
    pip := { frames := [(1, { moving 1 0 .queued with bytes := frame64 0x800 })], nextFid := 2 }
    tm := { selected := if sel then [(0, 1)] else [] } }

/-- The head of queue 0 of port 0, whose gate list never opens. -/
def shut : State :=
  setTm { queues := [(queueOf 0 0, [1])] } (wrSet (setFor up 0) oGateControl 0 (1 + 1000 * 2 ^ 32)
    (wrSet (setFor up 0) oGateLists 0 1000 (withFrame (moving 1 0 .queued))))

/-- A unit whose ports of pipeline 0 are up. -/
def carrying : State := forEach (List.range 32) (fun t p => wr (oLinkState p) 6 (wr (oOctetState (octetOf p)) 2 t)) up

/-- A gate that is shut with a head, and heads without a gate; ports that all carry; a queue with a head; a port that transmits,
one with nothing, one with a selection that carries and one that does not. -/
theorem witness_TransmitOrderAndTransmission :
    isPort 511 = true ∧ (0 : Nat) < 10 ∧ (tmQueue shut (queueOf 0 0)).head? = some 1 ∧
      frame shut 1 = some (moving 1 0 .queued) ∧ gateOpens shut (queueOf 0 0) (moving 1 0 .queued) = false ∧
      (List.range 32).all (linkCarries carrying) = true ∧ isPipe 0 = true ∧
      (egressReads 0 0 ⟨List.replicate 25 (0, .clean), none⟩ (sending 6 true)).1 = some 6 ∧
      storeFault (sending 6 true) (pipeOf 0) 0 3 (2047 % 2048) = false ∧
      (tmQueue (setTm { queues := [(queueOf 0 0, [1])] } (withFrame (moving 1 0 .queued))) (queueOf 0 0)).head? = some 1 ∧
      queueHead (setTm { queues := [(0, [1])] } (withFrame (moving 1 0 .queued))) 0 = some (1, moving 1 0 .queued) ∧
      (port (sending 6 false) 0).sending = some 1 ∧ (port (sending 6 true) 0).sending = none ∧
      tabFind (sending 6 true).tm.selected 0 = some 1 ∧ tabFind up.tm.selected 0 = none ∧ linkCarries (sending 8 true) 0 = false ∧
      linkCarries (sending 6 true) 0 = true ∧ tapTakes (sending 6 true) = false ∧
      (frame (sending 6 true) 1).map (fun f => (f.kind, f.ra.tsAction)) = some (.own, 0) := by decide +kernel

/-- A descriptor for an internal port at pipeline 15. -/
def delivering (d : Nat) : State :=
  { withFrame (moving 1 d .internal) with fab := { internal := [(15, [1])] } }
/-- A copy at the capture unit's input. -/
def capturing : State := { withFrame (moving 1 515 .internal) with cap := { input := [1] } }

/-- A unit whose replay buffer has no room for a frame to the partner. -/
def replayFull : State := { delivering 514 with pair := { partnerUp := true, replay := [(0, 7, zeros replaySize)] } }

/-- Its delivery waits. -/
theorem replay_full : pairTakes replayFull 514 (moving 1 514 .internal) = false := by
  have h : replayBytes replayFull (6 ≤ ·) = 16 + replaySize := by simp [replayBytes, replayFull, zeros]
  simp only [pairTakes, pairRoom, h]
  decide

/-- Deliveries to the capture unit and the host (and `replay_full`), and one that waits; rings with room and full in both modes; a copy composed
with and without a buffer; CAP_READ at its bounds; a copy dispatched. -/
theorem witness_InternalDeliveryAndCapture :
    tabGet [] (delivering 515).fab.internal 15 = [1] ∧ pairTakes (delivering 515) 515 (moving 1 515 .internal) = true ∧
      handOverOwner (delivering 515) 515 = none ∧ tabGet [] up.fab.internal 15 = [] ∧
      handOverOwner (wr oPuntRoute 1 (delivering 512)) 512 = some 4131 ∧
      (grantInternal 4131 6 (wr oPuntRoute 1 (delivering 512))).1.isSome = true ∧
      (grantInternal 4131 6 (wrRow oPoolBuffers 6 0 (wr oPuntRoute 1 (delivering 512)))).1 = none ∧
      handOverOwner { delivering 514 with pair := { partnerUp := true } } 514 = some 4130 ∧ rd (delivering 512) oPuntRoute = 0 ∧
      lowLedger (wr oLowWaterFlags 1 (wr oBootStep 12 (delivering 515))) = true ∧
      lowLedger (delivering 515) = false ∧ (delivering 515).cap.input.length < 4096 ∧
      ringHeld up ≠ ringSize ∧ ringHeld (wr oCapWriteIndex ringSize up) = ringSize ∧ rd (wr oCaptureMode 0 up) oCaptureMode = 0 ∧
      rd (wr oCaptureMode 1 up) oCaptureMode ≠ 0 ∧ up.cap.input = [] ∧ capturing.cap.input = [1] ∧
      capturing.cap.next ≤ 32 * capturing.clk.cclk ∧ 32 * (0 : Nat) < ({ next := 125 } : Cap).next ∧
      (grantInternal 4132 1 capturing).1.isSome = true ∧ (grantInternal 4132 1 (wrRow oPoolBuffers 1 0 capturing)).1 = none ∧
      serves (from_ 1) 1 queues = true ∧ partnerFollows queues = false ∧ nextOp up 18 9 (fun _ => true) = none ∧
      nextOp (withOp 18 9 [] up) 18 9 (fun _ => true) = some (op_ 18 9 []) ∧ (op_ 18 9 []).body = [] := by decide +kernel

/-- Queue 1 with a doorbell outstanding, its CQ 0, and what the read of its index block returns. -/
def fetching (x : Sq) : State := { up with hst := { sqs := [(1, x)], cqs := [(0, {})] } }
/-- A NOP entry. -/
def nopEntry : Bytes := [0x10, 0, 1, 0] ++ leBytes 4 7 ++ zeros 24
/-- Doorbells and polls of a queue that reads and one that does not; push windows; index reads valid and not; an entry of one
unit whose turn it is. -/
theorem witness_DoorbellsAndFetching :
    isQueue 4095 = true ∧ sq (fetching { poll := 1 }) 1 = some { poll := 1 } ∧ busAwake (fetching {}) = true ∧
      (cq (fetching {}) 0).map (fun x => (x.state, x.reading)) = some (1, false) ∧
      busAwake (setHst { busMaster := false } up) = false ∧ later 32 128 0 = true ∧ unitsTo 0 128 ≤ 128 ∧
      later 32 0 0 = false ∧ 128 < unitsTo 0 129 ∧ indexValid 0 (leAt (leBytes 4 128) 0 4) 128 = true ∧
      indexValid (leAt (leBytes 4 0) 0 4) 0 128 = true ∧ 1024 ≤ (List.replicate 1024 (⟨1, 0, 0, false, false, none, 0⟩ : CmdSt)).length ∧
      nextSq (fetching { tail := 1 }) = some 1 ∧ nextSq (fetching {}) = none ∧ nopEntry.length = 32 ∧ leAt nopEntry 2 1 = 1 ∧
      (payloadBytes (leAt nopEntry 0 1)).isSome = true ∧
      (payloadBytes (leAt nopEntry 0 1)).map (entryLong nopEntry) = some true ∧ entryReservedSet nopEntry = false ∧
      1 ≤ unitsTo 0 1 ∧ (leAt nopEntry 1 1).testBit 2 = false ∧
      roomFor {} (completionUnits (leAt nopEntry 0 1)) = true ∧
      (grantInternal 4129 4 (wakeLink (fetching { tail := 1 }))).1.isSome = true ∧
      (let s := fetching { tail := 1 }
       let t := setHst { s.hst with cmds := [⟨1, 0, 0x10, false, false, none, 1⟩] } s
       nextSq t = some 1 ∧ commandsLeft t 1 = true ∧ (leAt [0x10, 0x04] 1 1).testBit 2 = true) := by decide +kernel

/-- SQ 0 and what it creates: an SQ 5, a CQ 5; a first failing check of each; deletions; changes; commands on the wrong queue
and below the level. -/
theorem witness_QueueCommands :
    (from_ 0).wf = true ∧ sq queues 0 = some { level := 3 } ∧
      createSqCode queues ⟨5, 0, 0, 0, 0xFFFF, 4096, 0, 4096, 8192⟩ = (0, 0) ∧
      (createSqCode queues ⟨1, 0, 0, 0, 0xFFFF, 4096, 0, 4096, 8192⟩).1 ≠ 0 ∧
      createCqCode queues ⟨5, 0, 1, 0, 4096, 0, 4096, 1000, 8192⟩ = (0, 0) ∧
      (createCqCode queues ⟨0, 0, 1, 0, 4096, 0, 4096, 1000, 8192⟩).1 ≠ 0 ∧ sq queues 4095 = none ∧
      (sq queues 1).map (·.deleting) = some none ∧ commandsLeft queues 1 = false ∧ cq queues 5 = none ∧
      queues.hst.sqs.any (fun e => e.2.cq = 0) = true ∧
      ({ up with hst := { sqs := [(0, { cq := 1 })], cqs := [(0, {}), (1, {})] } } : State).hst.sqs.any (fun e => e.2.cq = 0) = false ∧
      cqFieldsBad ⟨0, 0, 1, 0, 0, 0, 0, 1000, 0⟩ = false ∧ indexValid 0 (leAt (leBytes 4 1) 0 4) 128 = true ∧
      indexValid (leAt (leBytes 4 0) 0 4) 0 128 = true ∧ sq queues 2 = some { kind := 1, level := 1 } ∧
      busAwake queues = true ∧ busAwake (setHst { queues.hst with busMaster := false } up) = false ∧
      (createSqCode (setHst { queues.hst with busMaster := false } up) ⟨5, 0, 0, 0, 0xFFFF, 4096, 0, 4096, 8192⟩).1 = 0 ∧
      (sq (setHst { queues.hst with busMaster := false, sqs := [(1, { state := 2 })] } up) 1).map (·.state) = some 2 ∧
      follows (wr oPairRole 3 queues) = true ∧ follows queues = false ∧ ({ from_ 1 with links := .fault } : SqCmd).links = .fault ∧
      sq queues 3 = some { level := 0 } ∧ (from_ 2).wf = true ∧ (from_ 3).sq ≠ 0 := by decide +kernel

/-- ADMIN_ENABLE accepted, and written where it is not 1. -/
theorem witness_AdminEnableAndFunctionReset :
    (Instr.adminEnable mgmt0 3 0).wf = true ∧ takes up oAdminEnable 0 1 0 = true ∧ rd up oAdminEnable ≠ 1 ∧
      oPolicers / 2 ^ 24 ≠ 0x60 ∧ oPolicers ∉ [oEventLog, oEventPending, oFreeFaultLast] := by decide +kernel

/-- INJECT with each kind of data; RX_POST on a receive queue at the bounds; a CQ with a signal due; vectors pending and not;
the link states; the function's states. -/
theorem witness_InjectionAndSignals :
    serves (from_ 1) 1 queues = true ∧ (60 : Nat) ≤ (zeros 60).length ∧ (zeros 60).length ≤ 9724 ∧ (zeros 59).length < 60 ∧
      partnerFollows queues = false ∧ sq queues 2 = some { kind := 1, level := 1 } ∧ (256 : Nat) ≤ 16384 ∧
      ({ kind := 1, level := 1 } : Sq).deleting = none ∧ ([] : List Posted).length < 128 ∧ cmdOf queues 2 7 = none ∧ ({ kind := 1, level := 0 } : Sq).level < 1 ∧
      (cq { up with hst := { cqs := [(4095, { pending := 1, modTimer := 1 })] } } 4095).map (fun x => (x.state, x.pending, x.modTimer)) =
        some (1, 1, 1) ∧ cq up 4095 = none ∧ vectorMasked up 2047 = true ∧
      up.hst.msixPending.contains 2047 = false ∧ (setHst { msixPending := [2047] } up).hst.msixPending.contains 2047 = true ∧
      (setHst { msixPending := [2047] } up).hst.functionMask = false ∧ busAwake (setHst { msixPending := [2047] } up) = true ∧
      up.hst.link = 0 ∧ up.hst.absent = false ∧ up.hst.perst = false ∧
      up.hst.lastTlp + 31250 ≤ ({ up with clk := { cclk := 31250 } } : State).clk.cclk ∧ (setHst { link := 1 } up).hst.link ≠ 0 ∧
      tapTakes up = false := by decide +kernel

/-! ### Witnesses: chapters 14 to 18 -/

/-- The writes of the counter's objects at bounds; the pins' cases. -/
theorem witness_TimeWritesAndPins :
    (Instr.timeSet mgmt0 3 5 999999999).wf = true ∧ takes up oTimeSet 0 10 (5 * 2 ^ 32 + 999999999) = true ∧
      (Instr.timeStep mgmt0 3 (-1)).wf = true ∧
      takes { up with tun := { ptp := 2 ^ 32 } } oTimeStep 0 8 (ofSigned 64 (-1)) = true ∧
      (Instr.timeSlew mgmt0 3 (-1)).wf = true ∧ takes up oTimeSlew 0 4 (ofSigned 32 (-1)) = true ∧
      takes up oTimeLatch 0 1 1 = true ∧ takes up oTimeLatch 0 1 0 = true ∧ (Instr.timeLatch mgmt0 3 1).wf = true ∧
      (Instr.timeIncrement mgmt0 3 0x147AE147B).wf = true ∧ takes up oTimeIncrement 0 8 0x147AE147B = true ∧
      rd (wr oPpsOutEnable 1 up) oPpsOutEnable = 1 ∧ rd (wr oPpsOutEnable 0 up) oPpsOutEnable ≠ 1 ∧
      rd (wr oPpsInEnable 1 up) oPpsInEnable = 1 ∧ ppsGlitch (wr oPpsInEnable 1 up) = false ∧
      ppsGlitch { wr oPpsInEnable 1 up with tun := { ppsAt := 1 } } = true := by decide +kernel

/-- CAL_SET and CAL_SYNC accepted; a load that waits. -/
theorem witness_CalendarClock :
    (Instr.calSet mgmt0 3 7 999999999).wf = true ∧ takes up oCalSet 0 10 (7 * 2 ^ 32 + 999999999) = true ∧
      (Instr.calSync mgmt0 3 1).wf = true ∧ takes up oCalSync 0 1 1 = true ∧
      ({ up with tun := { calSync := true } } : State).tun.calSync = true ∧ toSigned 32 (rd up oCalTrim) = 0 ∧
      0 + (32768 * (10000000 + toSigned 32 (rd up oCalTrim))).toNat < crystalParts ∧
      crystalParts ≤ (crystalParts - 1) + (32768 * (10000000 + toSigned 32 (rd up oCalTrim))).toNat ∧
      ({ load := some (7, 0) } : Cal).load = some (7, 0) ∧ ({ valid := true } : Cal).sub < 32768 := by decide +kernel

/-- A unit of a pair in a role. -/
def unit (r : Nat) (p : Pair) : State := { wr oPairRole r up with pair := p }

/-- A unit whose pipelines are halted, as PAIR_ENABLE asks. -/
def pairable : State := wr oHalted (2 ^ 16 - 1) up

/-- Claims sampled, lost and withdrawn; a first claim; faults and soundings; the writes. -/
theorem witness_ClaimBus :
    isByte 255 = true ∧ role (unit 0 {}) = 0 ∧ role (unit 3 {}) = 3 ∧ role (unit 4 {}) = 4 ∧ role (unit 1 {}) = 1 ∧
      (unit 4 { claimVld := true, claimOut := 255 }).pair.claimOut = 255 ∧
      rd (wr oUnsyncedClaim 1 (wr oServiceLevel 2 (unit 1 {}))) oServiceLevel = 2 ∧
      rd (wr oUnsyncedClaim 1 (wr oServiceLevel 2 (unit 1 {}))) oUnsyncedClaim = 1 ∧
      role (wr oUnsyncedClaim 1 (wr oServiceLevel 2 (unit 1 {}))) = 1 ∧
      (unit 1 {}).pair.claimIn = 0 ∧ (unit 1 {}).pair.yielding = false ∧ (2 : Nat) < 3 ∧
      (Instr.pairYield mgmt0 3 0).wf = true ∧ takes up oPairYield 0 1 0 = true ∧ (Instr.pairRejoin mgmt0 3 0).wf = true ∧
      takes up oPairRejoin 0 1 0 = true ∧ (Instr.pairEnable mgmt0 3 1).wf = true ∧ takes pairable oPairEnable 0 1 1 = true := by
  decide +kernel

/-- A message unacknowledged; the roles; a mirrored change with a following partner and without, with room. -/
theorem witness_PairLink :
    isByte 255 = true ∧ role (unit 0 {}) = 0 ∧ role (unit 2 {}) ≠ 0 ∧ role (unit 2 {}) = 2 ∧
      ({ replay := [(5, 1, [])] } : Pair).replay.find? (fun e => e.1 = 5) = some (5, 1, []) ∧
      ({} : Pair).replay.find? (fun e => e.1 = 5) = none ∧ isPipe 15 = true ∧
      nextOp up 19 14 (fun _ => true) = none ∧ nextOp (withOp 19 14 [2, 0, 0] up) 19 14 (fun _ => true) = some (op_ 19 14 [2, 0, 0]) ∧
      partnerFollows (withOp 19 14 [2, 0, 0] up) = false ∧ partnerFollows (withOp 19 14 [2, 0, 0] (unit 4 { partnerUp := true, partnerRole := 3 })) = true ∧
      nextOp (withOp 19 14 [2, 0, 0] (unit 4 { partnerUp := true, partnerRole := 3 })) 19 14 (fun _ => true) = some (op_ 19 14 [2, 0, 0]) ∧
      mirrorOf (unit 4 {}) [2, 0, 0] = some (.portMap 0 0 0) ∧
      pairRoom (unit 4 { partnerUp := true, partnerRole := 3 }) 6 (mirrorBytes (.portMap 0 0 0)).length = true := by decide +kernel

/-- Windows compared, equal and not, first and third; self-checks. -/
theorem witness_Digests :
    role (unit 4 { partnerUp := true, partnerRole := 3 }) = 4 ∧ (unit 3 { partnerUp := true, partnerRole := 4 }).pair.partnerRole = 7 - 3 ∧
      role (unit 5 {}) ≠ 3 ∧ role (unit 5 {}) ≠ 4 ∧
      tabFind (unit 4 { closed := [(5, ⟨[1], [1]⟩)] }).pair.closed 5 = some ⟨[1], [1]⟩ ∧
      (⟨[1], [1]⟩ : DigestWin) ≠ ⟨[2], [1]⟩ ∧ (unit 4 { mismatches := 2 }).pair.mismatches + 1 = 3 ∧
      (unit 4 { checking := true }).pair.checking = true ∧ (unit 4 { checking := true }).pair.yielding = false ∧
      role (unit 3 { checking := true, setsDiffer := true }) = 3 := by decide +kernel

/-- An unsynced unit with an active partner. -/
def joinable : State := unit 1 { partnerUp := true, partnerRole := 4 }

/-- Units in each role of a join; a live point reached and passed; a join that is refused by its code, and by its reference. -/
theorem witness_MirrorsAndJoins :
    role (unit 2 { join := 5 }) = 2 ∧ (unit 2 { join := 5, bulkDone := true }).pair.bulkDone = true ∧
      (unit 2 { join := 5 }).pair.mirrored.contains (mirrorKey (.generation 1 1)) = false ∧
      (unit 2 { mirrored := [mirrorKey (.generation 1 1)] }).pair.mirrored.contains (mirrorKey (.generation 1 1)) = true ∧
      (unit 3 {}).clk.cclk ≤ 0 ∧ (0 : Nat) < ({ unit 3 {} with clk := { cclk := 1 } } : State).clk.cclk ∧
      (oneWrite 3 oSlackLimit 0 4 1).wf = true ∧ role (unit 1 { partnerUp := true, partnerRole := 4 }) = 1 ∧
      joinCode (unit 1 {}) (rd (unit 1 {}) oPairClaim) (rd up oCsImageId) (rd up oCsImageVersion) (slotsPer up) ≠ 0 ∧
      joinCode joinable (rd joinable oPairClaim + 1) (rd joinable oCsImageId) (rd joinable oCsImageVersion) (slotsPer joinable) = 0 := by
  decide +kernel

/-- A knob 0 in service. -/
def governed : State := wrRow oGovKnobs 0 (1 + 700 * 2 ^ 32 + 820 * 2 ^ 48) up

/-- A voltage loop at rest; measurements on both sides of 15 mV; holds; a regulator that does not answer. -/
theorem witness_VoltageAndRegulator :
    up.gov.noRegulator = false ∧ up.gov.holding = false ∧ up.gov.voltOver = false ∧ up.gov.bootPin = false ∧
      15 < voutDiff up 804 ∧ voutDiff up 805 ≤ 15 ∧ voutDiff up 806 < 15 ∧
      ({ up with gov := { holding := true } } : State).gov.holding = true ∧
      ({ up with gov := { noRegulator := true } } : State).gov.noRegulator = true := by decide +kernel

/-- Knob 1 in service with its floor below a pipeline's gate, and not. -/
def gated (h : Bool) : State :=
  { wrRow oGovKnobs 1 1 up with gov := { slotGate := List.replicate 16 2, heatOver := h, voltOver := h } }

/-- A PERF_SELECT row of every class, template and pipeline. -/
def perfRow : Nat := 1 + 2 ^ 32 + 0xFF * 2 ^ 48 + 0xFFFF * 2 ^ 64 + 0xFFFF * 2 ^ 80

/-- Gates, protections at their limits, overrides, knobs and counters written, samples with room and without. -/
theorem witness_GatingProtectionAndSamples :
    up.gov.slotGate.length = 16 ∧ isPipe 15 = true ∧ (gated true).gov.heatOver = true ∧ (gated false).gov.heatOver = false ∧
      (knob (gated false) 1).enable = 1 ∧ (knob (gated false) 1).pin ≠ 1 ∧ (knob (gated false) 1).floor < slotGate (gated false) 15 ∧
      (knob (wrRow oGovKnobs 1 0 up) 1).enable ≠ 1 ∧ rd up oThermalLimit < 2 ^ 15 ∧ up.gov.voltOver = false ∧
      (gated true).gov.voltOver = true ∧ (Instr.govKnobs mgmt0 3 0 (rdOpt up 0 oGovKnobs 0).get!).wf = true ∧
      takes up oGovKnobs 0 16 ((rdOpt up 0 oGovKnobs 0).get!) = true ∧ (Instr.perfSelect mgmt0 3 1055 perfRow).wf = true ∧
      takes up oPerfSelect 1055 16 perfRow = true ∧
      ({ up with perf := { done := [(15, 1)] } } : State).perf.done.find? (fun e => e.1 = 15) = some (15, 1) ∧
      up.perf.done.find? (fun e => e.1 = 15) = none ∧
      (rd up oPreciseWriteIndex + 2 ^ 32 - rd up oPreciseReadIndex) % 2 ^ 32 ≠ 4096 ∧
      (rd (wr oPreciseWriteIndex 4096 up) oPreciseWriteIndex + 2 ^ 32 - rd up oPreciseReadIndex) % 2 ^ 32 = 4096 ∧
      byteFld (rd up oPreciseConfig) 1 1 = 0 := by decide +kernel

/-- A device in test mode and in service. -/
theorem witness_DeviceReset :
    ({ up with pins := { testMode := true } } : State).pins.testMode = true ∧ up.pins.testMode = false ∧
      oPolicers ∉ [oResetCause, oBootStep, oEventLog, oEventPending] := by decide +kernel

/-- Resets at their bounds, and the restarts of the Control Core. -/
theorem witness_ResetsAndRestarts :
    (999 : Nat) < 1000 ∧ up.boot.held ≠ 3 ∧ ({ up with boot := { held := 3 } } : State).boot.held = 3 ∧ pairEnabled up = false ∧
      (Instr.resetRequest mgmt0 3 0xA5).wf = true ∧ takes up oResetRequest 0 1 0xA5 = true ∧ up.boot.restartAt = 0 ∧
      up.eng.queue = [] ∧ up.ep.request = none ∧ up.pair.due = [] ∧
      ({ up with boot := { restartAt := 1 } } : State).clk.cclk + 1 < 1 + 15625000000 := by decide +kernel

/-- A step that runs, with a policy of one attempt for step 13. -/
def booting (k : Nat) : State := { wr oBootStep k up with cal := { retention := 2 ^ (8 * (0x40 + 16 * 12 + 4)) } }

/-- Attempts that end, fail and time out; BOOT_CONTINUE; no control path, and one. -/
theorem witness_BootSteps :
    stepRunning (booting 1) = some 1 ∧ stepMayEnd 1 0 (booting 1) = true ∧
      1 &&& andNot (stepRes (booting 4) 4) ((booting 4).boot.passed ||| (booting 4).boot.skipped) ≠ 0 ∧
      stepRunning (booting 13) = some 13 ∧ (booting 13).boot.stopped = false ∧ byteFld (policyRow (booting 13) 13) 4 4 ≠ 0 ∧
      1 &&& stepRes (booting 13) 13 ≠ 0 ∧ (Instr.bootContinue mgmt0 3 1).wf = true ∧
      takes { up with boot := { stopped := true } } oBootContinue 0 1 1 = true ∧
      ({ up with hst := { absent := true } } : State).hst.absent = true ∧ (mgmt up 0).ready = false ∧ (mgmt up 1).ready = false ∧
      up.hst.absent = false := by decide +kernel

/-- The ledger on die. -/
def lowWater : State := wr oLowWaterFlags 1 (booting 12)

/-- EVENT_CLEAR accepted; a stack lost with the ledger on HBM and on die; a rebase that ends at step 14 and elsewhere. -/
theorem witness_EventsStacksAndLinks :
    (Instr.eventClear mgmt0 3 15 1).wf = true ∧ takes up oEventClear 15 4 1 = true ∧ isStack 3 = true ∧
      pairEnabled (booting 12) = false ∧ rd (booting 12) (oStackState) 3 ≤ 1 ∧ 12 ≤ rd (booting 12) oBootStep ∧
      lowLedger (booting 12) = false ∧ lowLedger lowWater = true ∧ rd (wr oLedgerState 2 up) oLedgerState = 2 ∧
      rd (runLedger (clearFlag 0 (endRebase 1 (wr oLedgerState 2 (booting 14))))) oBootStep = 14 ∧
      rd (runLedger (clearFlag 0 (endRebase 1 (wr oLedgerState 2 up)))) oBootStep ≠ 14 ∧ rd up oLedgerState ≠ 2 ∧ isMgmt 1 = true := by
  decide +kernel


end Sys2Proof.Tests
end

section
/-! The write of an S object (R51). -/

namespace Sys2Proof.Machine
open Sys2Proof

/-- The shadow set is not the active one. -/
theorem shadowSet_ne_activeSet (s : State) : activeSet s ≠ shadowSet s := by
  unfold shadowSet
  omega

/-- Filling a bucket again touches the Traffic Manager alone. -/
theorem refillPolicer_eq (n old new : Nat) (s : State) : ∃ tm, refillPolicer n old new s = setTm tm s := by
  unfold refillPolicer
  split
  · exact ⟨s.tm, rfl⟩
  · exact ⟨_, rfl⟩

/-- The write of a shadowed row is a write of the dictionary in the shadow set; beside it, the marks of corrupt words
change, and the meters where the object is POLICERS. -/
theorem putShadow_eq (obj row v : Nat) (s : State) : ∃ (ep : Ep) (tm : Tm), (obj ≠ oPolicers → tm = s.tm) ∧
    putShadow obj row v s = wrSet (shadowSet s) obj row v { s with ep := ep, tm := tm } := by
  unfold putShadow Machine.when
  by_cases h : obj = oPolicers
  · obtain ⟨tm, ht⟩ := refillPolicer_eq row (rdSet s (shadowSet s) oPolicers row) v s
    simp only [h, ht]
    exact ⟨_, tm, fun hn => absurd rfl hn, rfl⟩
  · simp only [h]
    exact ⟨_, s.tm, fun _ => rfl, rfl⟩

/-- A shadowed row written reads the value in the shadow set. -/
theorem rdOpt_putShadow_self (obj row v : Nat) (s : State) :
    rdOpt (putShadow obj row v s) (shadowSet s) obj row = some v := by
  obtain ⟨ep, tm, -, h⟩ := putShadow_eq obj row v s
  rw [h, rdOpt_wrSet_self]

/-- Every other row, those of the active set among them, reads as before. -/
theorem rdOpt_putShadow_ne {obj row set' obj' row' : Nat} (v : Nat) (s : State)
    (h : dictKey set' obj' row' ≠ dictKey (shadowSet s) obj row) :
    rdOpt (putShadow obj row v s) set' obj' row' = rdOpt s set' obj' row' := by
  obtain ⟨ep, tm, -, e⟩ := putShadow_eq obj row v s
  rw [e, rdOpt_wrSet_ne h]
  rfl

/-- Settles O14: the write is one of the shadow set's dictionary (`putShadow_eq`), and no other row shares its key. -/
theorem shadowWrites : Obligations.ShadowWrites := by
  intro r obj row v s hs ho hr
  have ht : putValue r obj row v s = putShadow obj row v s := by simp [putValue, hs]
  have other : ∀ set' obj' row', obj' < 2 ^ 32 → row' < 2 ^ 32 → (set', obj', row') ≠ (shadowSet s, obj, row) →
      rdOpt (putShadow obj row v s) set' obj' row' = rdOpt s set' obj' row' := fun set' obj' row' ho' hr' hne =>
    rdOpt_putShadow_ne v s fun hk => hne (by simpa using (dictKey_inj ho' hr' ho hr).mp hk)
  simp only [ht]
  refine ⟨rdOpt_putShadow_self obj row v s, other _ _ _ ho hr ?_, other, ?_⟩
  · simp [shadowSet_ne_activeSet s]
  · obtain ⟨ep, tm, htm, h⟩ := putShadow_eq obj row v s
    exact h ▸ ⟨rfl, htm⟩

end Sys2Proof.Machine
end

section
/-! What of the turn's registers and of the epoch unit the effects of a turn on the flow services leave (R333, R354): a turn's
services write SERVICE_GEN, and issue deferred operations whose loss or wait raises an event. -/

namespace Sys2Proof.Machine
open Sys2Proof

/-- The epoch unit and the registers of area 7E, the turn's, stand as they were. -/
structure TurnKept (s t : State) : Prop where
  ep : t.ep = s.ep
  regs : ∀ obj, objArea obj = 0x7E → rd t obj = rd s obj

theorem TurnKept.refl (s : State) : TurnKept s s := ⟨rfl, fun _ _ => rfl⟩

theorem TurnKept.trans {s t u : State} (h : TurnKept s t) (g : TurnKept t u) : TurnKept s u :=
  ⟨g.ep.trans h.ep, fun obj ho => (g.regs obj ho).trans (h.regs obj ho)⟩

/-- Nothing of it changes where neither the epoch unit nor the dictionary does. -/
theorem TurnKept.of_dict {s t : State} (he : t.ep = s.ep) (hd : t.dict = s.dict) : TurnKept s t :=
  ⟨he, fun obj _ => rd_congr hd obj 0⟩

theorem TurnKept.when {c : Bool} {f : State → State} {s : State} (h : ∀ t, TurnKept t (f t)) : TurnKept s (when c f s) := by
  unfold Machine.when
  split
  · exact h s
  · exact TurnKept.refl s

theorem TurnKept.forEach {α : Type} {l : List α} {f : State → α → State} {s : State} (h : ∀ t, ∀ a ∈ l, TurnKept t (f t a)) :
    TurnKept s (forEach l f s) := by
  unfold Machine.forEach
  induction l generalizing s with
  | nil => exact TurnKept.refl s
  | cons a l ih =>
    exact (h s a List.mem_cons_self).trans (ih fun t b hb => h t b (List.mem_cons_of_mem a hb))

/-- A row of an object outside area 7E has a key of no register of that area. -/
theorem dictKey_area_ne {obj row obj' : Nat} (ho : obj < 2 ^ 32) (hr : row < 2 ^ 32) (ha : objArea obj ≠ 0x7E)
    (ha' : objArea obj' = 0x7E) : dictKey 0 obj' 0 ≠ dictKey 0 obj row := by
  unfold objArea at ha ha'
  exact dictKey_obj (fun e => ha (e ▸ ha')) (by omega) (by omega) ho hr

theorem wrRow_turnKept {obj row : Nat} (v : Nat) (s : State) (ho : obj < 2 ^ 32) (hr : row < 2 ^ 32)
    (ha : objArea obj ≠ 0x7E) : TurnKept s (wrRow obj row v s) :=
  ⟨rfl, fun _ ha' => rd_wrRow_ne (dictKey_area_ne ho hr ha ha')⟩

theorem raise_turnKept {src : Nat} (detail : Nat) (s : State) (h : src < 512) : TurnKept s (raise src detail s) :=
  ⟨(raise_noted src detail s (Noted.refl s)).ep, fun _ ha =>
    rd_raise_ne (dictKey_area_ne (by decide) (by omega) (by decide) ha) (dictKey_area_ne (by decide) (by omega) (by decide) ha)⟩

theorem count_turnKept (off : Nat) (s : State) : TurnKept s (count off s) := TurnKept.of_dict count_ep count_dict

theorem useLimit_turnKept (key : Nat) (s : State) : TurnKept s (useLimit key s) := TurnKept.of_dict rfl rfl

theorem setDw_turnKept (d : Dw) (s : State) : TurnKept s (setDw d s) := TurnKept.of_dict rfl rfl

theorem setSvc_turnKept (v : Svc) (s : State) : TurnKept s (setSvc v s) := TurnKept.of_dict rfl rfl

theorem raiseOnce_turnKept {src : Nat} (scope detail : Nat) (s : State) (h : src < 512) :
    TurnKept s (raiseOnce src scope detail s) := by
  unfold raiseOnce
  split
  · exact (useLimit_turnKept _ s).trans (raise_turnKept detail _ h)
  · exact TurnKept.refl s

/-! ### A deferred operation issued (R432, R435, R441, R444) -/

theorem takeBuffer_dict {p owner position h : Nat} {s t : State} (e : takeBuffer p owner position s = some (h, t)) :
    t.dict = s.dict := by
  simp only [takeBuffer] at e
  split at e
  · cases e
  · cases e
    exact when_dict _ fun _ => rfl

theorem ask_dict (owner p : Nat) (s : State) : (ask owner p s).dict = s.dict := by
  unfold ask
  split <;> rfl

/-- A grant to an internal requester writes no register. -/
theorem grantInternal_dict {owner p : Nat} {s t : State} {h : Option Nat} (e : grantInternal owner p s = (h, t)) :
    t.dict = s.dict := by
  unfold grantInternal at e
  split at e
  · cases e
    rfl
  · simp only at e
    split at e
    · split at e
      · rename_i heq
        cases e
        exact (takeBuffer_dict heq).trans (ask_dict owner p s)
      · cases e
        exact ask_dict owner p s
    · cases e
      exact ask_dict owner p s

/-- An operation taken on die writes no register. -/
theorem putOnDie_dict {o : DwOp} {s t : State} (e : putOnDie o s = some t) : t.dict = s.dict := by
  unfold putOnDie at e
  split at e
  · cases e
  · split at e
    · cases e
    · rename_i heq
      cases e
      exact (setDw_dict).trans (grantInternal_dict heq)

theorem spillOp_dict (o : DwOp) (s : State) : (spillOp o s).dict = s.dict := by
  unfold spillOp
  simp only
  split <;> rfl

theorem spillNew_dict {o : DwOp} {s t : State} (e : spillNew o s = some t) : t.dict = s.dict := by
  unfold spillNew at e
  split at e
  · cases e
    exact spillOp_dict o s
  · cases e

theorem spillFor_dict {o : DwOp} {s t : State} (e : spillFor o s = some t) : t.dict = s.dict := by
  unfold spillFor at e
  split at e
  · split at e
    · cases e
      exact spillOp_dict _ _
    · exact spillNew_dict e
  · exact spillNew_dict e

/-- An operation that finds a place, on die or spilled, writes no register. -/
theorem placeOp_dict {o : DwOp} {s t : State} (e : placeOp o s = some t) : t.dict = s.dict := by
  unfold placeOp at e
  split at e
  · rename_i heq
    cases e
    exact putOnDie_dict heq
  · exact spillFor_dict e

theorem loseOp_turnKept (o : DwOp) (s : State) : TurnKept s (loseOp o s) := by
  unfold loseOp
  exact (count_turnKept _ s).trans ((TurnKept.when (count_turnKept _)).trans ((TurnKept.when (count_turnKept _)).trans
    (raiseOnce_turnKept _ _ _ (by decide))))

theorem noRoom_turnKept (o : DwOp) (s : State) : TurnKept s (noRoom o s) := by
  unfold noRoom
  extract_lets u
  have hu : TurnKept s u := TurnKept.when (count_turnKept _)
  split
  · exact hu.trans (loseOp_turnKept o u)
  · exact hu.trans ((setDw_turnKept _ u).trans ((count_turnKept _ _).trans (raise_turnKept _ _ (by decide))))

theorem holdOp_turnKept (o : DwOp) (s : State) : TurnKept s (holdOp o s) := by
  unfold holdOp
  split
  · exact setDw_turnKept _ s
  · split
    · rename_i heq
      exact TurnKept.of_dict (placeOp_issued heq).ep (placeOp_dict heq)
    · exact noRoom_turnKept o s

theorem issue_turnKept (kind list : Nat) (args : List Nat) (body : Bytes) (s : State) :
    TurnKept s (issue kind list args body s) := by
  unfold issue issueAt
  exact (count_turnKept _ s).trans (holdOp_turnKept _ _)

/-- A change mirrored to the partner is a deferred operation (R549). -/
theorem mirrorChange_turnKept (args : List Nat) (s : State) : TurnKept s (mirrorChange args s) := by
  unfold mirrorChange
  split
  · exact issue_turnKept _ _ _ _ s
  · exact TurnKept.refl s

/-! ### The services at a turn -/

theorem rebuildDue_turnKept (t : Nat) (s : State) : TurnKept s (rebuildDue t s) := by
  unfold rebuildDue
  split
  · exact TurnKept.refl s
  · exact setSvc_turnKept _ s

theorem setBe_turnKept (r : Nat) (x : BackendSt) (s : State) : TurnKept s (setBe r x s) := setSvc_turnKept _ s

/-- A service generation written is none of the turn's registers. -/
theorem serviceGen_turnKept {t : Nat} (v : Nat) (s : State) (h : t < 64) : TurnKept s (wrRow oServiceGen t v s) :=
  wrRow_turnKept v s (by decide) (by omega) (by decide)

/-- What a turn changes in the services leaves the turn's registers and the epoch unit. -/
theorem turnServices_turnKept (before after s : State) : TurnKept s (turnServices before after s) := by
  unfold turnServices
  refine TurnKept.trans (TurnKept.forEach fun u t ht => ?_) (TurnKept.trans (TurnKept.forEach fun u r _ => ?_)
    (TurnKept.trans (TurnKept.forEach fun u r _ => ?_) (TurnKept.forEach fun u t _ => ?_)))
  · have hlt : t < 64 := List.mem_range.mp (List.mem_filter.mp ht).1
    exact (serviceGen_turnKept _ u hlt).trans ((setSvc_turnKept _ _).trans (mirrorChange_turnKept _ _))
  · exact setBe_turnKept r _ u
  · exact setBe_turnKept r _ u
  · exact rebuildDue_turnKept t u

end Sys2Proof.Machine
end

section
/-! How a turn and a step begin, leave VALIDATING and take effect at T in a unit that decides alone (R62 to R67, R72, R73, R80,
R81). -/

namespace Sys2Proof.Machine
open Sys2Proof

theorem rd_wr_other {s : State} {obj v obj' : Nat} (h : obj' ≠ obj) : rd (wr obj v s) obj' = rd s obj' :=
  rd_wr_ne (by unfold dictKey; omega)

/-- A request counted changes REQUESTS among the registers. -/
theorem rd_counted {o : Origin} {s : State} {obj : Nat} (h : obj ≠ oRequests) : rd (counted o s) obj = rd s obj :=
  rd_wr_other h

/-- Whether a unit decides with a partner is a matter of its role and of what its Pair Unit knows of the partner. -/
theorem turnsTogether_congr {s t : State} (hr : rd t oPairRole = rd s oPairRole)
    (hf : t.pair.forwardOff = s.pair.forwardOff) (hp : t.pair.partnerRole = s.pair.partnerRole) :
    turnsTogether t = turnsTogether s := by
  unfold turnsTogether partnerFollows role
  rw [hr, hf, hp]

/-- A unit that decides alone asks no partner. -/
theorem askPartner_alone {s : State} (h : turnsTogether s = false) (step : Bool) :
    askPartner step s = setPair { s.pair with ownVerdict := none, partnerVerdict := none } s := by
  have hs : turnsTogether (setPair { s.pair with ownVerdict := none, partnerVerdict := none } s) = false := h
  simp only [askPartner, Machine.when, hs, Bool.and_false, Bool.false_eq_true, if_false]

/-! ### The end of VALIDATING -/

/-- `t` is what a turn or step that has passed at `s` comes to: T is set 1,024 cycles ahead, unless the snapshot of T waits for
a half of BAR2 (R65, R81). -/
def AwaitsT (s t : State) : Prop :=
  if snapAtT s = true ∧ halfFree s = false then rd t oSetState = 1 ∧ t.ep.passed = true
  else rd t oSetState = 2 ∧ t.ep.turnT = s.clk.cclk + 1024

/-- It is so from any state of the same cycle, epoch unit and snapshot setting. -/
theorem AwaitsT.congr {s s' t : State} (h : AwaitsT s' t) (hs : rd s' oSnapOnTurn = rd s oSnapOnTurn)
    (hh : halfFree s' = halfFree s) (hc : s'.clk = s.clk) : AwaitsT s t := by
  unfold AwaitsT snapAtT at *
  rwa [hs, hh, hc] at h

/-- SET_STATE is then VALIDATING or TURNING. -/
theorem AwaitsT.validating_or_turning {s t : State} (h : AwaitsT s t) : rd t oSetState = 1 ∨ rd t oSetState = 2 := by
  unfold AwaitsT at h
  split at h
  · exact .inl h.1
  · exact .inr h.1

/-- A unit that decides alone waits for the half, or sets T. -/
theorem leaveValidating_alone {s : State} (h : turnsTogether s = false) :
    leaveValidating s = if snapAtT s = true ∧ halfFree s = false then { s with ep := { s.ep with passed := true } }
      else setTurnT (s.clk.cclk + 1024) s := by
  simp [leaveValidating, startTurn, h]

theorem leaveValidating_awaitsT {s : State} (h : turnsTogether s = false) (hv : rd s oSetState = 1) :
    AwaitsT s (leaveValidating s) := by
  rw [AwaitsT, leaveValidating_alone h]
  split
  · exact ⟨hv, rfl⟩
  · exact ⟨rd_wr_self _ _ _, rfl⟩

/-- Leaving VALIDATING keeps the kind of the turn and its request, the registers but SET_STATE, and sends nothing. -/
theorem leaveValidating_frame {s : State} (h : turnsTogether s = false) :
    (leaveValidating s).ep.stepping = s.ep.stepping ∧ (leaveValidating s).ep.request = s.ep.request ∧
      (leaveValidating s).out = s.out ∧ ∀ obj, obj ≠ oSetState → rd (leaveValidating s) obj = rd s obj := by
  rw [leaveValidating_alone h]
  split
  · exact ⟨rfl, rfl, rfl, fun _ _ => rfl⟩
  · exact ⟨rfl, rfl, rfl, fun _ ho => rd_wr_other ho⟩

/-! ### The beginning -/

/-- The state in which a turn or step of a unit that decides alone has begun: VALIDATING. -/
def begun (stepping : Bool) (r : Option Req) (s : State) : State :=
  wr oSetState 1 (setPair { s.pair with ownVerdict := none, partnerVerdict := none }
    { s with ep := { s.ep with stepping := stepping, passed := false, request := r, lastStart := s.clk.cclk } })

theorem rd_begun {s : State} (stepping : Bool) (r : Option Req) {obj : Nat} (h : obj ≠ oSetState) :
    rd (begun stepping r s) obj = rd s obj := rd_wr_other h

theorem beginTurn_alone {s : State} (h : turnsTogether s = false) (r : Option Req) : beginTurn r s = begun false r s := by
  simp only [beginTurn, askPartner_alone h]
  rfl

theorem beginStep_alone {s : State} (h : turnsTogether s = false) (r : Option Req) :
    beginStep r s = leaveValidating (begun true r s) := by
  simp only [beginStep, askPartner_alone h]
  rfl

/-- A step leaves VALIDATING as it begins (R72). -/
theorem beginStep_started {s : State} (h : turnsTogether s = false) (r : Option Req) :
    (beginStep r s).ep.stepping = true ∧ (beginStep r s).ep.request = r ∧ (beginStep r s).out = s.out ∧
      AwaitsT s (beginStep r s) ∧ ∀ obj, obj ≠ oSetState → rd (beginStep r s) obj = rd s obj := by
  have hb : turnsTogether (begun true r s) = false :=
    (turnsTogether_congr (rd_begun true r (by decide)) rfl rfl).trans h
  obtain ⟨hstep, hreq, hout, hregs⟩ := leaveValidating_frame hb
  have hT : AwaitsT (begun true r s) (leaveValidating (begun true r s)) :=
    leaveValidating_awaitsT hb (rd_wr_self _ _ _)
  rw [beginStep_alone h]
  exact ⟨hstep, hreq, hout, hT.congr (rd_begun true r (by decide)) rfl rfl,
    fun obj ho => (hregs obj ho).trans (rd_begun true r ho)⟩

/-! ### The commands -/

/-- A request counted and its value written leave the registers but REQUESTS and the one written. -/
theorem rd_wr_counted {o : Origin} {s : State} {obj v obj' : Nat} (h : obj' ≠ obj) (hr : obj' ≠ oRequests) :
    rd (wr obj v (counted o s)) obj' = rd s obj' := (rd_wr_other h).trans (rd_counted hr)

/-- An accepted TURN_REQUEST begins a turn where none runs (R62). -/
theorem exec_turnRequest {o : Origin} {level v : Nat} {s : State} (h0 : setState s = 0)
    (hok : (Instr.turnRequest o level v).wf = true) (h : acceptsWrite s o (oneWrite level oTurnRequest 0 2 v)) :
    exec (.turnRequest o level v) s =
      .next (beginTurn (some ⟨o, oneWrite level oTurnRequest 0 2 v⟩) (wr oTurnRequest v (counted o s))) := by
  have hc : setState (counted o s) = 0 := (rd_counted (by decide)).trans h0
  exact (execTurnRequest_taken hok h).trans (by simp [Machine.when, hc])

/-- An accepted STEP_REQUEST begins a step where no turn runs (R72). -/
theorem exec_stepRequest {o : Origin} {level v : Nat} {s : State} (h0 : setState s = 0)
    (hok : (Instr.stepRequest o level v).wf = true) (h : acceptsWrite s o (oneWrite level oStepRequest 0 2 v)) :
    exec (.stepRequest o level v) s =
      .next (beginStep (some ⟨o, oneWrite level oStepRequest 0 2 v⟩) (wr oStepRequest v (counted o s))) := by
  have hc : setState (counted o s) = 0 := (rd_counted (by decide)).trans h0
  exact (execStepRequest_taken hok h).trans (by simp [Machine.when, hc])

/-- The end of a validation under way. -/
theorem exec_validationComplete {s : State} (h : validating s = true) : exec .validationComplete s = .next (validated s) := by
  show execValidationComplete s = _
  rw [execValidationComplete, if_pos h]

/-- A validation that fails in a unit that decides alone rejects the turn (R64). -/
theorem validated_fails {s : State} {g : Nat} (h : turnsTogether s = false) (hv : validation s = some g) :
    validated s = rejectTurn g s := by
  simp only [validated, hv, h, Bool.false_eq_true, if_false]

theorem validated_passes {s : State} (hv : validation s = none) : validated s = leaveValidating s := by
  simp only [validated, hv]

/-- The registers of a rejected turn, before its event. -/
def rejected (g : Nat) (s : State) : State :=
  wr oFailedGroup g (wr oTurnResult 2 (wr oSetState 0
    (setPair { s.pair with ownVerdict := none, partnerVerdict := none } { s with ep := { s.ep with passed := false } })))

theorem rejectTurn_eq (g : Nat) (s : State) : rejectTurn g s = acknowledge (raise evTurnRejected g (rejected g s)) := rfl

theorem rd_rejected_ne {g : Nat} {s : State} {obj : Nat} (h : obj ≠ oFailedGroup) (h' : obj ≠ oTurnResult)
    (h'' : obj ≠ oSetState) : rd (rejected g s) obj = rd s obj :=
  (rd_wr_other h).trans ((rd_wr_other h').trans (rd_wr_other h''))

theorem exec_autoEpochStep {s : State} (h : autoStepDue s = true) (hf : follows s = false) :
    exec .autoEpochStep s = .next (beginStep none s) := by
  show execAutoEpochStep s = _
  rw [execAutoEpochStep, if_pos (by simp [h, hf])]

/-! ### Cycle T -/

theorem setHalf_dict (n : Nat) (h : Half) (s : State) : (setHalf n h s).dict = s.dict := by
  unfold setHalf
  split <;> rfl

theorem setHalf_request (n : Nat) (h : Half) (s : State) : (setHalf n h s).ep.request = s.ep.request := by
  unfold setHalf
  split <;> rfl

theorem turnSnapshot_dict (s : State) : (turnSnapshot s).dict = s.dict := by
  unfold turnSnapshot
  split
  · rfl
  · split
    · exact setHalf_dict _ _ s
    · rfl

theorem turnSnapshot_request (s : State) : (turnSnapshot s).ep.request = s.ep.request := by
  unfold turnSnapshot
  split
  · rfl
  · split
    · exact setHalf_request _ _ s
    · rfl

/-- The epoch advances, and a turn exchanges the sets where a step does not (R67, R72). -/
def nextEpoch (s : State) : State :=
  if s.ep.stepping then wr oActiveEpoch ((activeEpoch s + 1) % 2 ^ 16) s
  else wr oActiveSet (shadowSet s) (wr oActiveEpoch ((activeEpoch s + 1) % 2 ^ 16) s)

/-- The registers that T writes (R67). -/
def turnedRegs (s : State) : State :=
  wr oSetState 3 (turnSnapshot (wr oTurnCclk s.ep.turnT (wr oTurnTime (nowTime80 s) (nextEpoch s))))

/-- The state at T before TIDE_TURNED: the registers, and what a turn changes beside the sets. -/
def turned (s : State) : State := if s.ep.stepping then turnedRegs s else turnEffects s (turnedRegs s)

theorem turnCycle_eq (s : State) :
    turnCycle s = acknowledge (raise evTideTurned ((activeEpoch s + 1) % 2 ^ 16) (turned s)) := rfl

/-- What a turn changes in the services leaves those registers. -/
theorem turned_turnKept (s : State) : TurnKept (turnedRegs s) (turned s) := by
  unfold turned
  split
  · exact TurnKept.refl _
  · exact turnServices_turnKept s _ _

theorem turnedRegs_request (s : State) : (turnedRegs s).ep.request = s.ep.request := by
  rw [turnedRegs, wr_ep, turnSnapshot_request, wr_ep, wr_ep, nextEpoch]
  split
  · rw [wr_ep]
  · rw [wr_ep, wr_ep]

/-- The registers at T: those of R67, and SET_STATE, which is SLACK. -/
theorem rd_turnedRegs (s : State) : rd (turnedRegs s) oActiveEpoch = (activeEpoch s + 1) % 2 ^ 16 ∧
    rd (turnedRegs s) oActiveSet = (if s.ep.stepping then activeSet s else 1 - activeSet s) ∧
    rd (turnedRegs s) oTurnCclk = s.ep.turnT ∧ rd (turnedRegs s) oTurnTime = nowTime80 s ∧
    rd (turnedRegs s) oSetState = 3 := by
  have snap (t : State) (obj : Nat) : rd (turnSnapshot t) obj = rd t obj := rd_congr (turnSnapshot_dict t) obj 0
  unfold turnedRegs nextEpoch
  cases s.ep.stepping <;>
    simp (disch := decide) only [if_true, if_false, Bool.false_eq_true, rd_wr_other, snap, rd_wr_self, and_self, activeSet,
      shadowSet]

/-! ### The statement -/

/-- An accepted TURN_REQUEST, not yet answered. -/
theorem turnRequest_starts {o : Origin} {level v : Nat} {s : State} (hs : turnsTogether s = false) (h0 : setState s = 0)
    (hok : (Instr.turnRequest o level v).wf = true) (h : acceptsWrite s o (oneWrite level oTurnRequest 0 2 v)) :
    ∃ t, exec (.turnRequest o level v) s = .next t ∧ rd t oSetState = 1 ∧ t.ep.stepping = false ∧ t.ep.passed = false ∧
      t.ep.request = some ⟨o, oneWrite level oTurnRequest 0 2 v⟩ ∧ t.ep.lastStart = s.clk.cclk ∧ t.out = s.out ∧
      rd t oActiveEpoch = rd s oActiveEpoch ∧ rd t oActiveSet = rd s oActiveSet := by
  have hu : turnsTogether (wr oTurnRequest v (counted o s)) = false :=
    (turnsTogether_congr (rd_wr_counted (by decide) (by decide)) rfl rfl).trans hs
  refine ⟨_, exec_turnRequest h0 hok h, ?_⟩
  rw [beginTurn_alone hu]
  exact ⟨rd_wr_self _ _ _, rfl, rfl, rfl, rfl, rfl,
    (rd_begun _ _ (by decide)).trans (rd_wr_counted (by decide) (by decide)),
    (rd_begun _ _ (by decide)).trans (rd_wr_counted (by decide) (by decide))⟩

/-- An accepted STEP_REQUEST, not yet answered. -/
theorem stepRequest_starts {o : Origin} {level v : Nat} {s : State} (hs : turnsTogether s = false) (h0 : setState s = 0)
    (hok : (Instr.stepRequest o level v).wf = true) (h : acceptsWrite s o (oneWrite level oStepRequest 0 2 v)) :
    ∃ t, exec (.stepRequest o level v) s = .next t ∧ t.ep.stepping = true ∧
      t.ep.request = some ⟨o, oneWrite level oStepRequest 0 2 v⟩ ∧ t.out = s.out ∧ AwaitsT s t ∧
      rd t oActiveEpoch = rd s oActiveEpoch ∧ rd t oActiveSet = rd s oActiveSet := by
  have hu : turnsTogether (wr oStepRequest v (counted o s)) = false :=
    (turnsTogether_congr (rd_wr_counted (by decide) (by decide)) rfl rfl).trans hs
  obtain ⟨hstep, hreq, hout, hT, hregs⟩ := beginStep_started hu (some ⟨o, oneWrite level oStepRequest 0 2 v⟩)
  exact ⟨_, exec_stepRequest h0 hok h, hstep, hreq, hout, hT.congr (rd_wr_counted (by decide) (by decide)) rfl rfl,
    (hregs _ (by decide)).trans (rd_wr_counted (by decide) (by decide)),
    (hregs _ (by decide)).trans (rd_wr_counted (by decide) (by decide))⟩

/-- A validation that fails ends the turn with the lowest failing group. -/
theorem validation_rejects {s : State} {g : Nat} (hs : turnsTogether s = false) (hv : validating s = true)
    (hg : validation s = some g) :
    ∃ u, exec .validationComplete s = .next (acknowledge (raise evTurnRejected g u)) ∧ rd u oSetState = 0 ∧
      rd u oTurnResult = 2 ∧ rd u oFailedGroup = g ∧ rd u oActiveSet = rd s oActiveSet ∧
      rd u oActiveEpoch = rd s oActiveEpoch := by
  refine ⟨rejected g s, ?_, ?_, ?_, rd_wr_self _ _ _, rd_rejected_ne (by decide) (by decide) (by decide),
    rd_rejected_ne (by decide) (by decide) (by decide)⟩
  · rw [exec_validationComplete hv, validated_fails hs hg, rejectTurn_eq]
  · exact (rd_wr_other (by decide)).trans ((rd_wr_other (by decide)).trans (rd_wr_self _ _ _))
  · exact (rd_wr_other (by decide)).trans (rd_wr_self _ _ _)

/-- A validation that passes sets T, or waits for a half. -/
theorem validation_accepts {s : State} (hs : turnsTogether s = false) (hv : validating s = true)
    (hn : validation s = none) : ∃ t, exec .validationComplete s = .next t ∧ AwaitsT s t := by
  have h1 : rd s oSetState = 1 := by
    simp only [validating, setState, Bool.and_eq_true] at hv
    obtain ⟨⟨⟨hstate, -⟩, -⟩, -⟩ := hv
    exact of_decide_eq_true hstate
  exact ⟨_, by rw [exec_validationComplete hv, validated_passes hn], leaveValidating_awaitsT hs h1⟩

/-- The cycle T. -/
theorem turnCycle_takesEffect {s : State} (h : setState s = 2) : ∃ u,
    exec .turnCycle s = .next (acknowledge (raise evTideTurned ((activeEpoch s + 1) % 2 ^ 16) u)) ∧
    rd u oActiveEpoch = (activeEpoch s + 1) % 2 ^ 16 ∧
    rd u oActiveSet = (if s.ep.stepping then activeSet s else 1 - activeSet s) ∧
    rd u oTurnCclk = s.ep.turnT ∧ rd u oTurnTime = nowTime80 s ∧ rd u oSetState = 3 ∧ u.ep.request = s.ep.request := by
  have he : exec .turnCycle s = .next (turnCycle s) := by
    show execTurnCycle s = _
    rw [execTurnCycle, if_pos h]
  obtain ⟨hep, hregs⟩ := turned_turnKept s
  obtain ⟨hepoch, hset, hcclk, htime, hstate⟩ := rd_turnedRegs s
  exact ⟨turned s, by rw [he, turnCycle_eq], (hregs _ (by decide)).trans hepoch, (hregs _ (by decide)).trans hset,
    (hregs _ (by decide)).trans hcclk, (hregs _ (by decide)).trans htime, (hregs _ (by decide)).trans hstate,
    by rw [hep, turnedRegs_request]⟩

/-- Settles O9: how a turn and a step start, how their validation ends, the step that is due by itself, and the cycle T. -/
theorem turnsAndSteps : Obligations.TurnsAndSteps := by
  refine ⟨fun o level v s hs h0 => ⟨turnRequest_starts hs h0, stepRequest_starts hs h0⟩,
    fun s hs => ⟨fun hv => ⟨fun g hg => validation_rejects hs hv hg, validation_accepts hs hv⟩, fun hd hf => ?_⟩,
    fun s h => turnCycle_takesEffect h⟩
  obtain ⟨hstep, hreq, -, hT, -⟩ := beginStep_started hs none
  exact ⟨_, exec_autoEpochStep hd hf, hstep, hreq, hT.validating_or_turning⟩

end Sys2Proof.Machine
end

section
/-! The mailbox of the dictionary engine (R118 to R122), the end of a key generation (R129), and the restart of a MGMT port's link
(R127; that it takes the link down until MGMT_LINK_CHANGE is the model's reading, log entry 94). -/

namespace Sys2Proof.Machine
open Sys2Proof

/-! ### The mailbox -/

/-- OVERRUN is set while STATE is busy, and nothing else happens (R121). -/
theorem exec_mbDoorbell_busy {n : Nat} {area : Bytes} {s : State} (hn : n < 2 ^ 32) (hb : bar0 s = true)
    (hbusy : s.eng.mb.state = 1) : exec (.mbDoorbell n area) s = .next (setMb { s.eng.mb with overrun := true } s) := by
  show execMbDoorbell n area s = _
  rw [execMbDoorbell, onUnits, if_pos (decide_eq_true hn), if_neg (by simp [hb]), if_pos hbusy]

/-- A mailbox that is not busy copies the request area and becomes busy (R120). -/
theorem exec_mbDoorbell_idle {n : Nat} {area : Bytes} {s : State} (hn : n < 2 ^ 32) (hb : bar0 s = true)
    (hidle : s.eng.mb.state ≠ 1) : exec (.mbDoorbell n area) s =
      .next (mailboxRequest n ((area ++ zeros mailboxSize).take mailboxSize)
        (setMb { s.eng.mb with state := 1, finished := none } s)) := by
  show execMbDoorbell n area s = _
  rw [execMbDoorbell, onUnits, if_pos (decide_eq_true hn), if_neg (by simp [hb]), if_neg hidle]

/-- A copied request of the right form reaches the engine where the mailbox needs no authentication (R119). -/
theorem mailboxRequest_reaches {n : Nat} {b : Bytes} {s : State} (ha : pcieAuth s = false)
    (hver : (readTHeader false b).version = 1) (hkind : (readTHeader false b).kind = 0)
    (hres : (readTHeader false b).reserved = 0) (hlen : n = 12 + (readTHeader false b).len) (hmax : n ≤ mailboxSize) :
    mailboxRequest n b s =
      reachEngine (mailboxOrigin (readTHeader false b)) (readAny false (slice b 12 (readTHeader false b).len)) s := by
  have hok : mailboxLengthOk s (readTHeader false b) n = true := by simp [mailboxLengthOk, ha, hmax, ← hlen]
  simp [mailboxRequest, hver, hkind, hres, hok, ha]

/-- The response that the engine has finished is written (R122). -/
theorem exec_mailboxResponse_finished {r : Bytes} {s : State} (hbusy : s.eng.mb.state = 1)
    (hr : s.eng.mb.finished = some r) : exec .mailboxResponse s =
      .next (sendVector (rd s oMbVector)
        (setMb { s.eng.mb with state := 2, respLen := r.length, response := r, finished := none } s)) := by
  show execMailboxResponse s = _
  simp only [execMailboxResponse, hbusy, hr]

/-! ### Key generations -/

theorem setNth_eq_set {α : Type} (l : List α) (i : Nat) (v : α) : setNth l i v = l.set i v := by
  induction l generalizing i with
  | nil => rfl
  | cons a t ih =>
    cases i with
    | zero => rfl
    | succ i => exact congrArg (a :: ·) (ih i)

theorem nth_setNth_self {α : Type} {d v : α} {l : List α} {i : Nat} (h : i < l.length) : nth d (setNth l i v) i = v := by
  simp [nth, setNth_eq_set, h]

theorem nth_setNth_ne {α : Type} {d v : α} {l : List α} {i j : Nat} (h : j ≠ i) : nth d (setNth l i v) j = nth d l j := by
  simp [nth, setNth_eq_set, List.getElem?_set_ne h.symm]

/-- The generation of a revoked level is the next (R129). -/
theorem keyGen_revokeKey_self {l : Nat} {s : State} (h : l < s.fuse.gens.length) :
    keyGen (revokeKey l s) l = keyGen s l + 1 := nth_setNth_self h

/-- That of every other level stands. -/
theorem keyGen_revokeKey_ne {l l' : Nat} (s : State) (h : l' ≠ l) : keyGen (revokeKey l s) l' = keyGen s l' :=
  nth_setNth_ne h

/-- An accepted KEY_REVOKE, answered. -/
theorem keyRevoke_endsGeneration {o : Origin} {level target v : Nat} {s : State}
    (hok : (Instr.keyRevoke o level target v).wf = true) (hg : s.fuse.gens.length = 4)
    (h : acceptsWrite s o (oneWrite level (oKeyRevoke target) 0 1 v)) : ∃ t,
      exec (.keyRevoke o level target v) s = .next (answered (counted o s) o (oneWrite level (oKeyRevoke target) 0 1 v) t) ∧
      keyGen t target = keyGen s target + 1 ∧ (∀ l, l ≠ target → keyGen t l = keyGen s l) ∧
      { t.fuse with gens := s.fuse.gens } = s.fuse ∧ t.eng = (counted o s).eng := by
  have hlt : target < 4 := by
    simp only [Instr.wf, isLevel, Bool.and_eq_true, decide_eq_true_eq] at hok
    omega
  exact ⟨_, execKeyRevoke_taken hok h, keyGen_revokeKey_self (hg ▸ hlt), fun l hl => keyGen_revokeKey_ne _ hl, rfl, rfl⟩

/-! ### The MGMT ports -/

theorem mgmt_setMgmt_self (n : Nat) (m : Mgmt) (s : State) : mgmt (setMgmt n m s) n = m := by
  unfold mgmt setMgmt
  split <;> rfl

/-- The other of the two ports stands as it was. -/
theorem mgmt_setMgmt_ne {n k : Nat} (m : Mgmt) (s : State) (hk : k < 2) (hn : n < 2) (h : n ≠ k) :
    mgmt (setMgmt k m s) n = mgmt s n := by
  unfold mgmt setMgmt
  obtain rfl | rfl : k = 0 ∨ k = 1 := by omega
  · rw [if_neg h, if_neg h, if_pos rfl]
  · obtain rfl : n = 0 := by omega
    rfl

/-- Nothing changes outside the engine. -/
theorem setMgmt_frame (n : Nat) (m : Mgmt) (s : State) : { setMgmt n m s with eng := s.eng } = s := by
  unfold setMgmt
  split <;> rfl

theorem setMgmt_dict (n : Nat) (m : Mgmt) (s : State) : (setMgmt n m s).dict = s.dict := by
  unfold setMgmt
  split <;> rfl

/-- A port's link is to be restarted. -/
def markRestart (s : State) (n : Nat) : State := setMgmt n { mgmt s n with restartDue := true } s

/-- The ports whose bit of MGMT_MODE a written value changes. -/
def changedPorts (s : State) (v : Nat) : List Nat := (List.range 2).filter (rd s oMgmtMode ^^^ v).testBit

theorem writeMgmtMode_eq (v : Nat) (s : State) :
    writeMgmtMode v s = forEach (changedPorts s v) markRestart (wr oMgmtMode v s) := rfl

theorem markRestarts_dict (l : List Nat) (s : State) : (forEach l markRestart s).dict = s.dict := by
  unfold forEach
  induction l generalizing s with
  | nil => rfl
  | cons k l ih => exact (ih (markRestart s k)).trans (setMgmt_dict _ _ _)

/-- A port is marked where the list names it, and is else as it was. -/
theorem mgmt_markRestarts {l : List Nat} {n : Nat} {s : State} (hl : ∀ k ∈ l, k < 2) (hn : n < 2) :
    mgmt (forEach l markRestart s) n = { mgmt s n with restartDue := (mgmt s n).restartDue || decide (n ∈ l) } := by
  unfold forEach
  induction l generalizing s with
  | nil => simp
  | cons k l ih =>
    rw [List.foldl_cons, ih fun j hj => hl j (List.mem_cons_of_mem k hj), markRestart]
    by_cases hk : n = k
    · subst hk
      simp [mgmt_setMgmt_self]
    · simp [mgmt_setMgmt_ne _ s (hl k List.mem_cons_self) hn hk, hk]

theorem mem_changedPorts {s : State} {v n : Nat} (hn : n < 2) :
    decide (n ∈ changedPorts s v) = ((rd s oMgmtMode).testBit n != v.testBit n) := by
  exact Bool.eq_iff_iff.mpr (by simp [changedPorts, hn])

/-- A port whose bit the written value changes is marked (R127). -/
theorem mgmt_writeMgmtMode {v n : Nat} (s : State) (hn : n < 2) : mgmt (writeMgmtMode v s) n =
    { mgmt s n with restartDue := (mgmt s n).restartDue || ((rd s oMgmtMode).testBit n != v.testBit n) } := by
  have hl : ∀ k ∈ changedPorts s v, k < 2 := fun k hk => List.mem_range.mp (List.mem_filter.mp hk).1
  rw [writeMgmtMode_eq, mgmt_markRestarts hl hn, mem_changedPorts hn]
  rfl

theorem rd_writeMgmtMode_self (v : Nat) (s : State) : rd (writeMgmtMode v s) oMgmtMode = v := by
  rw [writeMgmtMode_eq, rd_congr (markRestarts_dict _ _), rd_wr_self]

/-- An accepted MGMT_MODE, answered. -/
theorem mgmtMode_marksRestart {o : Origin} {level v : Nat} {s : State} (hok : (Instr.mgmtMode o level v).wf = true)
    (h : acceptsWrite s o (oneWrite level oMgmtMode 0 4 v)) : ∃ t,
      exec (.mgmtMode o level v) s = .next (answered (counted o s) o (oneWrite level oMgmtMode 0 4 v) t) ∧
      rd t oMgmtMode = v ∧ (∀ n, n < 2 → mgmt t n =
        { mgmt s n with restartDue := (mgmt s n).restartDue || ((rd s oMgmtMode).testBit n != v.testBit n) }) := by
  refine ⟨_, execMgmtMode_taken hok h, rd_writeMgmtMode_self v _, fun n hn => ?_⟩
  rw [mgmt_writeMgmtMode _ hn, rd_counted (by decide)]
  rfl

/-- The restart that is due takes the link down (log entry 94). -/
theorem exec_mgmtLinkRestart_due {n : Nat} {s : State} (hn : isMgmt n = true) (hd : (mgmt s n).restartDue = true) :
    exec (.mgmtLinkRestart n) s = .next (setMgmt n { mgmt s n with restartDue := false, linkUp := false } s) := by
  show execMgmtLinkRestart n s = _
  rw [execMgmtLinkRestart, onUnits, if_pos hn, if_pos hd]

/-- That link alone goes down. -/
theorem mgmtLinkRestart_takesLinkDown {n : Nat} {s : State} (hn : isMgmt n = true) (hd : (mgmt s n).restartDue = true) :
    ∃ t, exec (.mgmtLinkRestart n) s = .next t ∧ mgmt t n = { mgmt s n with restartDue := false, linkUp := false } ∧
      mgmt t (1 - n) = mgmt s (1 - n) ∧ { t with eng := s.eng } = s := by
  have hlt : n < 2 := by simpa [isMgmt] using hn
  exact ⟨_, exec_mgmtLinkRestart_due hn hd, mgmt_setMgmt_self _ _ _, mgmt_setMgmt_ne _ s hlt (by omega) (by omega),
    setMgmt_frame _ _ _⟩

/-- Settles O16: the doorbell by the mailbox's STATE, the finished response, and the writes of KEY_REVOKE and MGMT_MODE with the
restart that follows. -/
theorem mailboxAndKeys : Obligations.MailboxAndKeys := by
  refine ⟨fun s => ⟨fun n area hn hb hbusy => exec_mbDoorbell_busy hn hb hbusy, ?_,
      fun r hbusy hr => exec_mailboxResponse_finished hbusy hr, rfl⟩,
    fun o level target v s hok hg h => keyRevoke_endsGeneration hok hg h,
    fun o level v s hok h => mgmtMode_marksRestart hok h, fun n s hn hd => mgmtLinkRestart_takesLinkDown hn hd⟩
  intro n area hn hb hidle ha b h hver hkind hres hlen hmax
  exact (exec_mbDoorbell_idle hn hb hidle).trans
    (congrArg Host.Outcome.next (mailboxRequest_reaches ha hver hkind hres hlen hmax))

end Sys2Proof.Machine
end

section
/-! Link up and down (R151): the states a port passes between up-hold and retry wait. That SYNCE_STATE follows when a lane is there
again is the model's reading (log entry 54). -/

namespace Sys2Proof.Machine
open Sys2Proof

theorem emit_dict (o : Output) (s : State) : (emit o s).dict = s.dict := by
  unfold emit
  split <;> rfl

theorem setLocalFault_of_ne {p : Nat} {on : Bool} {s : State} (h : (port s p).localFault ≠ on) :
    setLocalFault p on s = emit (.remoteFault p on) (setPort p { port s p with localFault := on } s) := by
  rw [setLocalFault, if_neg h]

/-- Local fault seen or no longer seen changes no register. -/
theorem setLocalFault_dict (p : Nat) (on : Bool) (s : State) : (setLocalFault p on s).dict = s.dict := by
  by_cases h : (port s p).localFault = on
  · rw [setLocalFault, if_pos h]
  · rw [setLocalFault_of_ne h, emit_dict, setPort_dict]

theorem octetState_congr {s t : State} (h : t.dict = s.dict) (o : Nat) : octetState t o = octetState s o := by
  rw [octetState, octetState, rd_congr h, rd_congr h]

theorem present_congr {s t : State} (h : t.dict = s.dict) (p : Nat) : present t p = present s p := by
  rw [present, present, modeOf, modeOf, rd_congr h, octetState_congr h]

/-- LINK_STATE of a port is a matter of the registers alone. -/
theorem linkState_congr {s t : State} (h : t.dict = s.dict) (p : Nat) : linkState t p = linkState s p := by
  rw [linkState, linkState, present_congr h, rd_congr h]

theorem linkState_setLocalFault (p : Nat) (on : Bool) (s : State) : linkState (setLocalFault p on s) p = linkState s p :=
  linkState_congr (setLocalFault_dict p on s) p

/-- A fault of an up port with a hold time leaves it in down-hold, and nothing else happens yet. -/
theorem linkFault_of_up {p : Nat} {s : State} (late : Bool) (h : linkState s p = 6) (hd : rd s (oDownHold p) ≠ 0) :
    linkFault p late s = wr (oLinkState p) 7 s := by
  have hold : rd (wr (oLinkState p) 7 s) (oDownHold p) = rd s (oDownHold p) := rd_wr_other (by unfold oDownHold oLinkState; omega)
  simp only [linkFault, setLink, if_pos h, hold, if_neg hd]

theorem exec_linkFault_of_up {p : Nat} {s : State} (late loc : Bool) (hp : isPort p = true) (h : linkState s p = 6)
    (hd : rd s (oDownHold p) ≠ 0) :
    exec (.linkFault p late loc) s = .next (wr (oLinkState p) 7 (when loc (setLocalFault p true) s)) := by
  have hf : (when loc (setLocalFault p true) s).dict = s.dict := when_dict s (setLocalFault_dict p true)
  show execLinkFault p late loc s = _
  rw [execLinkFault, onUnits, if_pos hp, if_pos (by omega),
    linkFault_of_up late ((linkState_congr hf p).trans h) (by rwa [rd_congr hf])]

theorem exec_upHoldExpiry_of_upHold {p : Nat} {s : State} (hp : isPort p = true) (h : linkState s p = 5) :
    exec (.upHoldExpiry p) s =
      .next (synceFollow (raise evPortUp p (wr (oLinkState p) 6 (setPort p { port s p with fails := 0 } s)))) := by
  show execUpHoldExpiry p s = _
  rw [execUpHoldExpiry, onUnits, if_pos hp, if_pos h, setLink]

theorem linkCarries_of_downHold {p : Nat} {s : State} (h : linkState s p = 7) : linkCarries s p = true := by
  simp [linkCarries, h]

theorem exec_linkFaultCleared_of_downHold {p : Nat} {s : State} (hp : isPort p = true) (h : linkState s p = 7) :
    exec (.linkFaultCleared p) s = .next (synceFollow (wr (oLinkState p) 6 (setLocalFault p false s))) := by
  show execLinkFaultCleared p s = _
  rw [execLinkFaultCleared, onUnits, if_pos hp, if_pos ((linkState_setLocalFault p false s).trans h), setLink]

theorem exec_downHoldExpiry_of_downHold {p : Nat} {s : State} (hp : isPort p = true) (h : linkState s p = 7) :
    exec (.downHoldExpiry p) s =
      .next (abortTransmission p (raise evPortDown p (count (cPort p 0x78) (wr (oLinkState p) 8
        (setPort p { port s p with cut := true } s))))) := by
  show execDownHoldExpiry p s = _
  rw [execDownHoldExpiry, onUnits, if_pos hp, if_pos h, portDown, setLink]

/-- Settles O19: one lemma for each command of R151 in the state where it acts, and the change of what is sent as remote fault. -/
theorem linkUpAndDown : Obligations.LinkUpAndDown := fun _ _ hp =>
  ⟨exec_upHoldExpiry_of_upHold hp,
    fun h hd late => ⟨exec_linkFault_of_up late false hp h hd, exec_linkFault_of_up late true hp h hd⟩,
    fun h => ⟨linkCarries_of_downHold h, exec_linkFaultCleared_of_downHold hp h, exec_downHoldExpiry_of_downHold hp h⟩,
    fun _ => setLocalFault_of_ne⟩

end Sys2Proof.Machine
end

section
/-! Doorbells, polls and index reads (R455, R468, R469, R485), push windows (R473), and the fetching of entries (R470 to R472). -/

namespace Sys2Proof.Machine
open Sys2Proof

/-! ### The queues after a change of the Host Interface -/

@[simp] theorem sq_setSq_self (q : Nat) (x : Sq) (s : State) : sq (setSq q x s) q = some x := tabFind_insert_self _ _ _

theorem sq_setSq_ne {q k : Nat} (x : Sq) (s : State) (h : k ≠ q) : sq (setSq q x s) k = sq s k :=
  (tabFind_insert _ _ _ _).trans (if_neg h)

@[simp] theorem cq_setCq_self (q : Nat) (x : Cq) (s : State) : cq (setCq q x s) q = some x := tabFind_insert_self _ _ _

theorem cq_setCq_ne {q k : Nat} (x : Cq) (s : State) (h : k ≠ q) : cq (setCq q x s) k = cq s k :=
  (tabFind_insert _ _ _ _).trans (if_neg h)

@[simp] theorem cq_setSq (q k : Nat) (x : Sq) (s : State) : cq (setSq q x s) k = cq s k := rfl
@[simp] theorem sq_setCq (q k : Nat) (x : Cq) (s : State) : sq (setCq q x s) k = sq s k := rfl

theorem sq_congr {s t : State} (h : t.hst = s.hst) (q : Nat) : sq t q = sq s q := congrArg (fun x : Hst => tabFind x.sqs q) h
theorem cq_congr {s t : State} (h : t.hst = s.hst) (q : Nat) : cq t q = cq s q := congrArg (fun x : Hst => tabFind x.cqs q) h

@[simp] theorem sq_ctrAdd (off n q : Nat) (s : State) : sq (ctrAdd off n s) q = sq s q := sq_congr ctrAdd_hst q
@[simp] theorem sq_count (off q : Nat) (s : State) : sq (count off s) q = sq s q := sq_congr count_hst q
@[simp] theorem cq_count (off q : Nat) (s : State) : cq (count off s) q = cq s q := cq_congr count_hst q

@[simp] theorem busAwake_count (off : Nat) (s : State) : busAwake (count off s) = busAwake s := by
  simp only [busAwake, count_hst]

@[simp] theorem setSq_cqs (q : Nat) (x : Sq) (s : State) : (setSq q x s).hst.cqs = s.hst.cqs := rfl
@[simp] theorem setSq_cmds (q : Nat) (x : Sq) (s : State) : (setSq q x s).hst.cmds = s.hst.cmds := rfl
@[simp] theorem setSq_lastSq (q : Nat) (x : Sq) (s : State) : (setSq q x s).hst.lastSq = s.hst.lastSq := rfl
@[simp] theorem setCq_sqs (q : Nat) (x : Cq) (s : State) : (setCq q x s).hst.sqs = s.hst.sqs := rfl
@[simp] theorem setCq_cmds (q : Nat) (x : Cq) (s : State) : (setCq q x s).hst.cmds = s.hst.cmds := rfl
@[simp] theorem setCq_lastSq (q : Nat) (x : Cq) (s : State) : (setCq q x s).hst.lastSq = s.hst.lastSq := rfl

@[simp] theorem sq_wakeLink (q : Nat) (s : State) : sq (wakeLink s) q = sq s q := rfl
@[simp] theorem cq_wakeLink (q : Nat) (s : State) : cq (wakeLink s) q = cq s q := rfl
@[simp] theorem busAwake_setSq (q : Nat) (x : Sq) (s : State) : busAwake (setSq q x s) = busAwake s := rfl
@[simp] theorem commandsLeft_wakeLink (q : Nat) (s : State) : commandsLeft (wakeLink s) q = commandsLeft s q := rfl

/-- The queues and the commands in progress of `t` are those of `s`, and `t` has last served the same queue. -/
structure QueuesKept (s t : State) : Prop where
  sqs : t.hst.sqs = s.hst.sqs
  cqs : t.hst.cqs = s.hst.cqs
  cmds : t.hst.cmds = s.hst.cmds
  lastSq : t.hst.lastSq = s.hst.lastSq

theorem QueuesKept.of_hst {s t : State} (h : t.hst = s.hst) : QueuesKept s t := by
  constructor <;> rw [h]

theorem QueuesKept.trans {s t u : State} (h : QueuesKept s t) (g : QueuesKept t u) : QueuesKept s u :=
  ⟨g.sqs.trans h.sqs, g.cqs.trans h.cqs, g.cmds.trans h.cmds, g.lastSq.trans h.lastSq⟩

theorem QueuesKept.sq {s t : State} (h : QueuesKept s t) (q : Nat) : sq t q = sq s q :=
  congrArg (tabFind · q) h.sqs

theorem QueuesKept.cq {s t : State} (h : QueuesKept s t) (q : Nat) : cq t q = cq s q :=
  congrArg (tabFind · q) h.cqs

theorem QueuesKept.when {c : Bool} {f : State → State} {s : State} (h : ∀ t, QueuesKept t (f t)) :
    QueuesKept s (when c f s) := by
  unfold Machine.when
  split
  · exact h s
  · exact .of_hst rfl

theorem emit_hst (o : Output) (s : State) : (emit o s).hst = s.hst := by
  unfold emit
  split <;> rfl

theorem wakeLink_queues (s : State) : QueuesKept s (wakeLink s) := ⟨rfl, rfl, rfl, rfl⟩

/-- A TLP sent changes the link alone. -/
theorem sendTlp_queues (o : Output) (s : State) : QueuesKept s (sendTlp o s) :=
  (QueuesKept.of_hst (emit_hst o s)).trans ⟨rfl, rfl, rfl, rfl⟩

theorem hostWrite_queues (a : Nat) (b : Bytes) (s : State) : QueuesKept s (hostWrite a b s) := by
  unfold hostWrite
  split
  · exact sendTlp_queues _ s
  · exact ⟨rfl, rfl, rfl, rfl⟩

theorem sendVector_queues (v : Nat) (s : State) : QueuesKept s (sendVector v s) := by
  unfold sendVector
  split
  · unfold pendVector
    split <;> exact ⟨rfl, rfl, rfl, rfl⟩
  · exact sendTlp_queues _ s

theorem sendGroupVectors_queues (before : State) (groups : List Nat) (s : State) :
    QueuesKept s (sendGroupVectors before groups s) := by
  unfold sendGroupVectors forEach
  induction groups generalizing s with
  | nil => exact .of_hst rfl
  | cons g groups ih =>
    refine .trans ?_ (ih _)
    dsimp only
    split
    · exact sendVector_queues _ s
    · exact .of_hst rfl

theorem setMgmt_hst (n : Nat) (m : Mgmt) (s : State) : (setMgmt n m s).hst = s.hst := by
  unfold setMgmt
  split <;> rfl

theorem sendNotice_queues (n src : Nat) (s : State) : QueuesKept s (sendNotice n src s) := by
  unfold sendNotice
  split
  · exact .of_hst rfl
  · exact .of_hst ((setMgmt_hst _ _ _).trans (emit_hst _ _))

/-- An event raised sends vectors and notices, and changes no queue. -/
theorem raise_queues (src detail : Nat) (s : State) : QueuesKept s (raise src detail s) := by
  unfold raise
  extract_lets g m t₁ ev t₂ t₃ t₄ routed t₅
  have hev (u : State) (y : Ev) : ({ u with ev := y } : State).hst = u.hst := rfl
  have h₁ : t₁.hst = s.hst := wrRow_hst.trans count_hst
  have h₃ : t₃.hst = s.hst := wrRow_hst.trans ((hev t₁ _).trans h₁)
  have h₄ : QueuesKept s t₄ := (QueuesKept.of_hst h₃).trans (sendGroupVectors_queues _ _ _)
  exact (h₄.trans (.when (sendNotice_queues _ _))).trans (.when (sendNotice_queues _ _))

theorem when_hst {c : Bool} {f : State → State} (s : State) (h : ∀ t, (f t).hst = t.hst) :
    (when c f s).hst = s.hst := by
  unfold Machine.when
  split
  · exact h s
  · rfl

theorem useCycle_hst (key c : Nat) (s : State) : (useCycle key c s).hst = s.hst := rfl
theorem setHeld_hst (owner p n : Nat) (s : State) : (setHeld owner p n s).hst = s.hst := rfl
theorem setHeader_hst (h v : Nat) (s : State) : (setHeader h v s).hst = s.hst := rfl
theorem setPool_hst (p : Nat) (x : PoolSt) (s : State) : (setPool p x s).hst = s.hst := rfl

theorem takeBuffer_hst {p owner position h : Nat} {s t : State} (e : takeBuffer p owner position s = some (h, t)) :
    t.hst = s.hst := by
  simp only [takeBuffer] at e
  split at e
  · cases e
  · cases e
    rw [when_hst _ fun _ => count_hst, useCycle_hst, count_hst, setHeld_hst, setHeader_hst, setPool_hst]

theorem ask_hst (owner p : Nat) (s : State) : (ask owner p s).hst = s.hst := by
  unfold ask
  split <;> rfl

/-- A grant to an internal requester leaves the Host Interface. -/
theorem grantInternal_hst {owner p : Nat} {s t : State} {h : Option Nat} (e : grantInternal owner p s = (h, t)) :
    t.hst = s.hst := by
  simp only [grantInternal] at e
  split at e
  · cases e
    rfl
  · split at e
    · split at e
      · rename_i heq
        cases e
        exact (takeBuffer_hst heq).trans (ask_hst owner p s)
      · cases e
        exact ask_hst owner p s
    · cases e
      exact ask_hst owner p s

/-! ### Index reads (R468, R469) -/

theorem readSq_idle {q : Nat} {x : Sq} {s : State} (hx : sq s q = some x) (hrun : x.state = 1) (hb : busAwake s = true)
    (hr : x.reading = false) :
    readSq q s = count (cHost 0x08) (wakeLink (setSq q { x with reading := true } s)) := by
  simp [readSq, hx, hrun, hb, hr]

theorem sq_readSq_setSq {q : Nat} {x : Sq} {s : State} (hrun : x.state = 1) (hb : busAwake s = true)
    (hr : x.reading = false) : sq (readSq q (setSq q x s)) q = some { x with reading := true } := by
  rw [readSq_idle (sq_setSq_self q x s) hrun ((busAwake_setSq q x s).trans hb) hr]
  simp

theorem readSq_reading {q : Nat} {x : Sq} {s : State} (hx : sq s q = some x) (hrun : x.state = 1) (hb : busAwake s = true)
    (hr : x.reading = true) : readSq q s = setSq q { x with again := true } s := by
  simp [readSq, hx, hrun, hb, hr]

theorem readSq_asleep (q : Nat) {s : State} (hb : busAwake s = false) : readSq q s = s := by
  unfold readSq
  split <;> simp [hb]

theorem readCq_idle {q : Nat} {x : Cq} {s : State} (hx : cq s q = some x) (hrun : x.state = 1) (hb : busAwake s = true)
    (hr : x.reading = false) :
    readCq q s = count (cHost 0x08) (wakeLink (setCq q { x with reading := true } s)) := by
  simp [readCq, hx, hrun, hb, hr]

theorem readCq_asleep (q : Nat) {s : State} (hb : busAwake s = false) : readCq q s = s := by
  unfold readCq
  split <;> simp [hb]

theorem exec_sqDoorbell {q : Nat} (hq : isQueue q = true) (s : State) :
    exec (.sqDoorbell q) s = .next (readSq q (count (cHost 0x00) s)) := if_pos hq

theorem exec_cqDoorbell {q : Nat} (hq : isQueue q = true) (s : State) :
    exec (.cqDoorbell q) s = .next (readCq q (count (cHost 0x00) s)) := if_pos hq

theorem exec_sqPoll {q : Nat} {x : Sq} {s : State} (hq : isQueue q = true) (hx : sq s q = some x) :
    exec (.sqPoll q) s = .next (if x.poll = 0 then s else readSq q s) := by
  show execSqPoll q s = _
  rw [execSqPoll, onUnits, if_pos hq, hx]

/-- A doorbell of a running SQ that reads nothing begins a read, and counts itself and the read. -/
theorem sqDoorbell_begins_read {q : Nat} {x : Sq} {s : State} (hq : isQueue q = true) (hx : sq s q = some x)
    (hrun : x.state = 1) (hb : busAwake s = true) (hr : x.reading = false) : ∃ t, exec (.sqDoorbell q) s = .next t ∧
      sq t q = some { x with reading := true } ∧ (∀ k, k ≠ q → sq t k = sq s k) ∧ t.hst.cqs = s.hst.cqs ∧
      t.hst.cmds = s.hst.cmds ∧ ctr t (cHost 0x00) = (ctr s (cHost 0x00) + 1) % 2 ^ 64 ∧
      ctr t (cHost 0x08) = (ctr s (cHost 0x08) + 1) % 2 ^ 64 := by
  have hc : ∀ o, ctr (wakeLink (setSq q { x with reading := true } (count (cHost 0x00) s))) o = ctr (count (cHost 0x00) s) o :=
    ctr_congr rfl
  refine ⟨_, (exec_sqDoorbell hq s).trans (congrArg _ (readSq_idle hx hrun hb hr)), by simp,
    fun k hk => (sq_count _ _ _).trans (sq_setSq_ne _ _ hk), by simp [(wakeLink_queues _).cqs],
    by simp [(wakeLink_queues _).cmds], ?_, ?_⟩
  · rw [ctr_count, if_neg (by decide), hc, ctr_count, if_pos rfl]
  · rw [ctr_count, if_pos rfl, hc, ctr_count, if_neg (by decide)]

theorem sqPoll_begins_read {q : Nat} {x : Sq} {s : State} (hq : isQueue q = true) (hx : sq s q = some x)
    (hrun : x.state = 1) (hb : busAwake s = true) (hpoll : x.poll ≠ 0) (hr : x.reading = false) :
    ∃ t, exec (.sqPoll q) s = .next t ∧ sq t q = some { x with reading := true } := by
  refine ⟨_, exec_sqPoll hq hx, ?_⟩
  rw [if_neg hpoll, readSq_idle hx hrun hb hr]
  simp

theorem cqDoorbell_begins_read {q : Nat} {x : Cq} {s : State} (hq : isQueue q = true) (hx : cq s q = some x)
    (hrun : x.state = 1) (hb : busAwake s = true) (hr : x.reading = false) : ∃ t, exec (.cqDoorbell q) s = .next t ∧
      cq t q = some { x with reading := true } ∧ t.hst.sqs = s.hst.sqs :=
  ⟨_, (exec_cqDoorbell hq s).trans (congrArg _ (readCq_idle hx hrun hb hr)), by simp, by simp [(wakeLink_queues _).sqs]⟩

/-! ### The end of an index read (R455, R468, R485) -/

theorem exec_indexReadComplete_sq {q : Nat} {x : Sq} {s : State} (block : Dma) (hq : isQueue q = true) (hx : sq s q = some x)
    (hr : x.reading = true) : exec (.indexReadComplete q false block) s =
      .next (when x.again (readSq q) (sqIndex q block (setSq q { x with reading := false, again := false } s))) := by
  show execIndexReadComplete q false block s = _
  simp [execIndexReadComplete, onUnits, hq, sqReadEnds, hx, hr, Machine.when]

theorem exec_indexReadComplete_cq {q : Nat} {x : Cq} {s : State} (block : Dma) (hq : isQueue q = true) (hx : cq s q = some x)
    (hr : x.reading = true) : exec (.indexReadComplete q true block) s =
      .next (when x.again (readCq q) (cqIndex q block (setCq q { x with reading := false, again := false } s))) := by
  show execIndexReadComplete q true block s = _
  simp [execIndexReadComplete, onUnits, hq, cqReadEnds, hx, hr, Machine.when]

theorem sqIndex_valid {q : Nat} {x : Sq} {b : Bytes} {s : State} (hx : sq s q = some x) (hrun : x.state = 1)
    (hv : indexValid x.head (leAt b 0 4) x.units = true) :
    sqIndex q (.data b) s = setSq q { x with tail := leAt b 0 4 } s := by
  simp [sqIndex, hx, hrun, hv]

theorem cqIndex_valid {q : Nat} {x : Cq} {b : Bytes} {s : State} (hx : cq s q = some x) (hrun : x.state = 1)
    (hv : indexValid (leAt b 0 4) x.tail x.units = true) :
    cqIndex q (.data b) s = setCq q { x with head := leAt b 0 4 } s := by
  simp [cqIndex, hx, hrun, hv]

theorem sqIndex_fault {q : Nat} {x : Sq} {s : State} (hx : sq s q = some x) (hrun : x.state = 1) :
    sqIndex q .fault s = stallSq q s := by
  simp [sqIndex, hx, hrun]

theorem testBit_setBit_self (v n : Nat) : (setBit v n).testBit n = true := by
  simp [setBit, Nat.testBit_shiftLeft]

/-- A raised source is pending. -/
theorem raise_pending (src detail : Nat) (s : State) :
    (rd (raise src detail s) oEventPending (src / 32)).testBit (src % 32) = true := by
  rw [rd_congr (raise_dict src detail s), rd_wrRow_self, testBit_setBit_self]

/-- A queue that stalls is stalled, and WQ_STALL is pending. -/
theorem stallSq_stalls {q : Nat} {x : Sq} {s : State} (hx : sq s q = some x) :
    sq (stallSq q s) q = some { x with state := 2 } ∧
      (rd (stallSq q s) oEventPending (evWqStall / 32)).testBit (evWqStall % 32) = true := by
  have he : stallSq q s = raise evWqStall q (count (cHost 0x38) (setSq q { x with state := 2 } s)) := by
    rw [stallSq, hx]
  rw [he, (raise_queues _ _ _).sq]
  exact ⟨by simp, raise_pending _ _ _⟩

section IndexRead
variable {q : Nat} {x : Sq} {s : State} (hq : isQueue q = true) (hx : sq s q = some x) (hrun : x.state = 1)
  (hr : x.reading = true)
include hq hx hrun hr

theorem indexRead_sets_tail {b : Bytes} (ha : x.again = false) (hv : indexValid x.head (leAt b 0 4) x.units = true) :
    exec (.indexReadComplete q false (.data b)) s = .next (setSq q { x with reading := false, again := false, tail := leAt b 0 4 }
      (setSq q { x with reading := false, again := false } s)) := by
  rw [exec_indexReadComplete_sq _ hq hx hr, ha,
    sqIndex_valid (sq_setSq_self q { x with reading := false, again := false } s) hrun hv]
  rfl

theorem indexRead_fault_stalls (ha : x.again = false) : ∃ t, exec (.indexReadComplete q false .fault) s = .next t ∧
    sq t q = some { x with state := 2, reading := false, again := false } ∧
    (rd t oEventPending (evWqStall / 32)).testBit (evWqStall % 32) = true := by
  refine ⟨_, exec_indexReadComplete_sq _ hq hx hr, ?_⟩
  rw [ha, sqIndex_fault (sq_setSq_self q { x with reading := false, again := false } s) hrun]
  exact stallSq_stalls (sq_setSq_self _ _ _)

/-- A read asked for meanwhile follows. -/
theorem indexRead_reads_again {b : Bytes} (ha : x.again = true) (hb : busAwake s = true)
    (hv : indexValid x.head (leAt b 0 4) x.units = true) : ∃ t, exec (.indexReadComplete q false (.data b)) s = .next t ∧
      sq t q = some { x with reading := true, again := false, tail := leAt b 0 4 } := by
  refine ⟨_, exec_indexReadComplete_sq _ hq hx hr, ?_⟩
  rw [ha, sqIndex_valid (sq_setSq_self q { x with reading := false, again := false } s) hrun hv, Machine.when, if_pos rfl]
  exact sq_readSq_setSq hrun hb rfl

end IndexRead

theorem indexRead_sets_head {q : Nat} {x : Cq} {b : Bytes} {s : State} (hq : isQueue q = true) (hx : cq s q = some x)
    (hrun : x.state = 1) (hr : x.reading = true) (ha : x.again = false)
    (hv : indexValid (leAt b 0 4) x.tail x.units = true) : ∃ t, exec (.indexReadComplete q true (.data b)) s = .next t ∧
      cq t q = some { x with reading := false, again := false, head := leAt b 0 4 } ∧ t.hst.sqs = s.hst.sqs := by
  refine ⟨_, exec_indexReadComplete_cq _ hq hx hr, ?_⟩
  rw [ha, cqIndex_valid (cq_setCq_self q { x with reading := false, again := false } s) hrun hv]
  exact ⟨cq_setCq_self _ _ _, rfl⟩

/-! ### Push windows (R473) -/

theorem exec_pushWindowDoorbell {q tail : Nat} {x : Sq} {s : State} (w : Bytes) (hq : isQueue q = true)
    (hx : sq s q = some x) : exec (.pushWindowDoorbell q tail w) s = .next
      (if x.state = 1 && x.push ≠ 0xFFFF && later 32 tail x.head && unitsTo x.head tail ≤ 128 then
        ctrAdd (cHost 0x18) (unitsTo x.head tail - x.pushed.length / 32)
          (setSq q { x with tail := tail % 2 ^ 32, pushed := windowUnits w x.head (unitsTo x.head tail) } (count (cHost 0x00) s))
      else readSq q (count (cHost 0x00) s)) := by
  show execPushWindowDoorbell q tail w s = _
  rw [execPushWindowDoorbell, onUnits, if_pos hq]
  simp only [sq_count, hx]

/-- A valid TAIL takes its units from the window, and reads nothing. -/
theorem pushWindow_takes_units {q tail : Nat} {x : Sq} {w : Bytes} {s : State} (hq : isQueue q = true) (hx : sq s q = some x)
    (hrun : x.state = 1) (hp : x.push ≠ 0xFFFF) (hl : later 32 tail x.head = true) (hn : unitsTo x.head tail ≤ 128) :
    ∃ t, exec (.pushWindowDoorbell q tail w) s = .next t ∧
      sq t q = some { x with tail := tail % 2 ^ 32, pushed := windowUnits w x.head (unitsTo x.head tail) } ∧
      (∀ k, k ≠ q → sq t k = sq s k) ∧ t.out = s.out := by
  refine ⟨_, exec_pushWindowDoorbell w hq hx, ?_⟩
  rw [if_pos (by simp only [hrun, hp, hl, hn, ne_eq, not_false_eq_true, decide_true, Bool.and_self])]
  exact ⟨by simp only [sq_ctrAdd, sq_setSq_self], fun k hk => by rw [sq_ctrAdd, sq_setSq_ne _ _ hk, sq_count], ctrAdd_out⟩

/-- Any other value is as a doorbell without a window. -/
theorem pushWindow_otherwise {q tail : Nat} {x : Sq} (w : Bytes) {s : State} (hq : isQueue q = true) (hx : sq s q = some x)
    (h : later 32 tail x.head = false ∨ 128 < unitsTo x.head tail) :
    exec (.pushWindowDoorbell q tail w) s = exec (.sqDoorbell q) s := by
  rw [exec_sqDoorbell hq, exec_pushWindowDoorbell w hq hx, if_neg]
  simp only [Bool.and_eq_true, decide_eq_true_eq]
  rintro ⟨⟨_, hl⟩, hn⟩
  exact h.elim (fun hf => absurd hl (by simp [hf])) (Nat.not_lt.mpr hn)

/-- A unit of 32 bytes needs no padding. -/
theorem take_pad_of_length {b : Bytes} (h : b.length = 32) : (b ++ zeros 32).take 32 = b := List.take_left' h

theorem length_windowUnit {w : Bytes} (a : Nat) (hw : w.length = 4096) : (slice w (32 * (a % 128)) 32).length = 32 := by
  simp only [slice, List.length_take, List.length_drop]
  omega

/-- Unit `i` taken from index `a` on stands at its place modulo 128 in the window. -/
theorem slice_windowUnits {w : Bytes} (hw : w.length = 4096) {n i : Nat} (a : Nat) (h : i < n) :
    slice (windowUnits w a n) (32 * i) 32 = slice w (32 * ((a + i) % 128)) 32 := by
  induction n generalizing a i with
  | zero => omega
  | succ n ih =>
    have hu := length_windowUnit a hw
    rw [windowUnits, take_pad_of_length hu]
    cases i with
    | zero => exact List.take_left' hu
    | succ i =>
      have hstep : a + 1 + i = a + (i + 1) := by omega
      have hdrop : (slice w (32 * (a % 128)) 32 ++ windowUnits w (a + 1) n).drop (32 * (i + 1)) =
          (windowUnits w (a + 1) n).drop (32 * i) := by
        rw [Nat.mul_add, Nat.add_comm, ← List.drop_drop, List.drop_left' hu]
      rw [← hstep, ← ih (a + 1) (by omega)]
      exact congrArg (List.take 32) hdrop

/-! ### Fetching (R470 to R472) -/

/-- R471, R125, R451: nothing is fetched for a queue whose turn has not come, while commands fill their buffer or the engine's,
or while the function cannot master the bus. -/
theorem entryFetch_waits {q : Nat} {s : State} (first rest : Dma) (hq : isQueue q = true)
    (h : nextSq s ≠ some q ∨ busAwake s = false ∨ 1024 ≤ s.hst.cmds.length ∨ 256 ≤ s.eng.queue.length) :
    exec (.entryFetch q first rest) s = .next s := by
  show execEntryFetch q first rest s = _
  rw [execEntryFetch, onUnits, if_pos hq, if_pos (by simpa [or_assoc] using h)]

/-- It is queue `q`'s turn, whose state is `x` with no unit pushed, and a fetch is free to begin. -/
structure FetchTurn (q : Nat) (x : Sq) (s : State) : Prop where
  next : nextSq s = some q
  awake : busAwake s = true
  cmds : s.hst.cmds.length < 1024
  engine : s.eng.queue.length < 256
  sq : sq s q = some x
  pushed : x.pushed = []

theorem exec_entryFetch_turn {q : Nat} {x : Sq} {e : Bytes} {rest : Dma} {s : State} (hq : isQueue q = true)
    (h : FetchTurn q x s) :
    exec (.entryFetch q (.data e) rest) s = .next (fetchEntry q x e rest (wakeLink s)) := by
  show execEntryFetch q (.data e) rest s = _
  rw [execEntryFetch, onUnits, if_pos hq,
    if_neg (by simpa [h.next, h.awake] using ⟨h.cmds, h.engine⟩), h.sq]
  simp [h.pushed]

theorem fetchEntry_fenced {q : Nat} {x : Sq} {e : Bytes} {s : State} (rest : Dma) (he : e.length = 32)
    (hf : (leAt e 1 1).testBit 2 = true) (hc : commandsLeft s q = true) :
    fetchEntry q x e rest s = entryWaits q x (completionUnits (leAt e 0 1)) true s := by
  simp [fetchEntry, take_pad_of_length he, entryCmd, hf, hc]

/-- A fenced entry waits while a command of its queue is in progress, and its queue is not ready meanwhile. -/
theorem entryFetch_fenced {q : Nat} {x : Sq} {e : Bytes} {rest : Dma} {s : State} (hq : isQueue q = true) (h : FetchTurn q x s)
    (he : e.length = 32) (hf : (leAt e 1 1).testBit 2 = true) (hc : commandsLeft s q = true) :
    ∃ t, exec (.entryFetch q (.data e) rest) s = .next t ∧
      sq t q = some { x with needs := completionUnits (leAt e 0 1), fenced := true } ∧ t.hst.cmds = s.hst.cmds ∧
      sqReady t q = false := by
  refine ⟨_, exec_entryFetch_turn hq h, ?_⟩
  rw [fetchEntry_fenced (s := wakeLink s) rest he hf hc]
  have hsq : sq (entryWaits q x (completionUnits (leAt e 0 1)) true (wakeLink s)) q =
      some { x with needs := completionUnits (leAt e 0 1), fenced := true } := sq_setSq_self _ _ _
  have hleft : commandsLeft (entryWaits q x (completionUnits (leAt e 0 1)) true (wakeLink s)) q = true := hc
  exact ⟨hsq, rfl, by simp [sqReady, hsq, hleft]⟩

/-- A sound entry of one unit: its length, its opcode's payload, and no reserved field set (R483). -/
structure OneUnitEntry (e : Bytes) : Prop where
  length : e.length = 32
  units : leAt e 2 1 = 1
  reserved : entryReservedSet e = false
  payload : ∃ n, payloadBytes (leAt e 0 1) = some n ∧ entryLong e n = true

/-- The command in progress of an entry with a staging buffer. -/
def startedCommand (q : Nat) (e : Bytes) (h : Nat) : CmdSt :=
  ⟨q, leAt e 4 4, leAt e 0 1, (leAt e 1 1).testBit 2, (leAt e 1 1).testBit 1, some h, completionUnits (leAt e 0 1)⟩

/-- The state when an entry has its buffer: counted, and its queue the one last served. -/
def fetched (q : Nat) (s : State) : State :=
  count (cHost 0x10) (count (cSq q 0x00) (setHst { s.hst with lastSq := q } s))

theorem fetched_hst (q : Nat) (s : State) : (fetched q s).hst = { s.hst with lastSq := q } :=
  count_hst.trans (count_hst.trans setHst_hst)

theorem sq_fetched (q k : Nat) (s : State) : sq (fetched q s) k = sq s k := by
  rw [sq, fetched_hst, sq]

theorem cq_fetched (q k : Nat) (s : State) : cq (fetched q s) k = cq s k := by
  rw [cq, fetched_hst, cq]

theorem fetched_cmds (q : Nat) (s : State) : (fetched q s).hst.cmds = s.hst.cmds := by rw [fetched_hst]
theorem fetched_lastSq (q : Nat) (s : State) : (fetched q s).hst.lastSq = q := by rw [fetched_hst]

/-- The state with one more command in progress, the newest. -/
def addCommand (c : CmdSt) (s : State) : State := setHst { s.hst with cmds := s.hst.cmds ++ [c] } s

theorem sq_addCommand (c : CmdSt) (s : State) (q : Nat) : sq (addCommand c s) q = sq s q := rfl
theorem cq_addCommand (c : CmdSt) (s : State) (q : Nat) : cq (addCommand c s) q = cq s q := rfl
theorem addCommand_cmds (c : CmdSt) (s : State) : (addCommand c s).hst.cmds = s.hst.cmds ++ [c] := rfl
theorem addCommand_lastSq (c : CmdSt) (s : State) : (addCommand c s).hst.lastSq = s.hst.lastSq := rfl

theorem fetchEntry_starts {q h : Nat} {x : Sq} {y : Cq} {e : Bytes} {rest : Dma} {s u : State} (he : OneUnitEntry e)
    (hf : (leAt e 1 1).testBit 2 = false) (hp : x.pushed = []) (hu : 0 < x.units) (havail : 1 ≤ unitsTo x.head x.tail)
    (hy : cq s x.cq = some y) (hroom : roomFor y (completionUnits (leAt e 0 1)) = true)
    (hg : grantInternal 4129 4 s = (some h, u)) (hrest : ∀ d, rest ≠ .data d) :
    fetchEntry q x e rest s = startEntry q 1 e h (fetched q u) := by
  have hfit : ¬(unitsTo x.head x.tail < 1 ∨ x.units < x.head % x.units + 1) := by
    have := Nat.mod_lt x.head hu
    omega
  simp only [fetchEntry, take_pad_of_length he.length, entryCmd, hf, Bool.false_and, Bool.false_eq_true, if_false, hy, hroom,
    Option.map_some, Option.getD_some, Bool.not_true, hg, he.units, hp]
  rw [if_neg (by simpa using hfit), if_neg (by simp)]
  cases rest with
  | data d => exact absurd rfl (hrest d)
  | fault => rfl
  | tooLong => rfl

theorem startEntry_starts {q len h : Nat} {x : Sq} {y : Cq} {e : Bytes} {s : State} (he : OneUnitEntry e) (hx : sq s q = some x)
    (hy : cq s x.cq = some y) : startEntry q len e h s = passUnits q len (addCommand (startedCommand q e h)
      (setCq x.cq { y with reserved := y.reserved + completionUnits (leAt e 0 1) } s)) := by
  obtain ⟨n, hn, hl⟩ := he.payload
  simp only [startEntry, hn, he.reserved, hl, Bool.not_true, Bool.or_self, Bool.false_eq_true, if_false, hx, hy]
  rfl

/-- HEAD passes the units, and beside it no queue and no command changes. -/
theorem passUnits_queues {q n : Nat} {x : Sq} {s : State} (hx : sq s q = some x) : QueuesKept
    (setSq q { x with head := (x.head + n) % 2 ^ 32, pushed := x.pushed.drop (32 * n), needs := 1, fenced := false } s)
    (passUnits q n s) := by
  rw [passUnits, hx]
  exact hostWrite_queues _ _ _

/-- The entry of a queue whose turn it is, with room and a buffer, becomes a command in progress (R471). -/
theorem entryFetch_starts {q h : Nat} {x : Sq} {y : Cq} {e : Bytes} {rest : Dma} {s u : State} (hq : isQueue q = true)
    (ht : FetchTurn q x s) (he : OneUnitEntry e) (hf : (leAt e 1 1).testBit 2 = false) (hu : 0 < x.units)
    (havail : 1 ≤ unitsTo x.head x.tail) (hy : cq s x.cq = some y)
    (hroom : roomFor y (completionUnits (leAt e 0 1)) = true) (hg : grantInternal 4129 4 (wakeLink s) = (some h, u))
    (hrest : ∀ d, rest ≠ .data d) : ∃ t, exec (.entryFetch q (.data e) rest) s = .next t ∧ t.hst.cmds = s.hst.cmds ++ [startedCommand q e h] ∧
      sq t q = some { x with head := (x.head + 1) % 2 ^ 32, needs := 1, fenced := false } ∧ (∀ k, k ≠ q → sq t k = sq s k) ∧
      cq t x.cq = some { y with reserved := y.reserved + completionUnits (leAt e 0 1) } ∧
      (∀ k, k ≠ x.cq → cq t k = cq s k) ∧ t.hst.lastSq = q := by
  have hu' : QueuesKept s u := (wakeLink_queues s).trans (.of_hst (grantInternal_hst hg))
  have hx' : sq (fetched q u) q = some x := (sq_fetched q q u).trans ((hu'.sq q).trans ht.sq)
  have hy' : cq (fetched q u) x.cq = some y := (cq_fetched q _ u).trans ((hu'.cq _).trans hy)
  refine ⟨_, exec_entryFetch_turn hq ht, ?_⟩
  rw [fetchEntry_starts (s := wakeLink s) he hf ht.pushed hu havail hy hroom hg hrest, startEntry_starts he hx' hy']
  have hpass := passUnits_queues (n := 1) (s := addCommand (startedCommand q e h)
    (setCq x.cq { y with reserved := y.reserved + completionUnits (leAt e 0 1) } (fetched q u))) hx'
  refine ⟨?_, ?_, fun k hk => ?_, ?_, fun k hk => ?_, ?_⟩
  · rw [hpass.cmds, setSq_cmds, addCommand_cmds, setCq_cmds, fetched_cmds, hu'.cmds]
  · rw [hpass.sq, sq_setSq_self, ht.pushed, List.drop_nil]
  · rw [hpass.sq, sq_setSq_ne _ _ hk, sq_addCommand, sq_setCq, sq_fetched, hu'.sq]
  · rw [hpass.cq, cq_setSq, cq_addCommand, cq_setCq_self]
  · rw [hpass.cq, cq_setSq, cq_addCommand, cq_setCq_ne _ _ hk, cq_fetched, hu'.cq]
  · rw [hpass.lastSq, setSq_lastSq, addCommand_lastSq, setCq_lastSq, fetched_lastSq]

/-- Settles O45: one lemma for each command of R468, R469 and R473 by the state of its queue, and for a fetch by the turn and the
entry (R470 to R472). -/
theorem doorbellsAndFetching : Obligations.DoorbellsAndFetching := by
  refine ⟨fun q s hq => ⟨?_, ?_, ?_, ?_, ?_, ?_, ?_, ?_, ?_⟩, ?_, ?_, ?_⟩
  · exact fun x hx hrun hb => ⟨sqDoorbell_begins_read hq hx hrun hb,
      fun hr => (exec_sqDoorbell hq s).trans (congrArg _ (readSq_reading hx hrun hb hr)),
      fun hpoll => (exec_sqPoll hq hx).trans (congrArg _ (if_pos hpoll)),
      fun hpoll hr => (exec_sqPoll hq hx).trans (congrArg _ ((if_neg hpoll).trans (readSq_reading hx hrun hb hr))),
      sqPoll_begins_read hq hx hrun hb⟩
  · exact fun x => cqDoorbell_begins_read hq
  · exact fun hb => ⟨(exec_sqDoorbell hq s).trans (congrArg _ (readSq_asleep q hb)),
      (exec_cqDoorbell hq s).trans (congrArg _ (readCq_asleep q hb))⟩
  · exact fun x tail w => pushWindow_takes_units hq
  · exact fun x tail w => pushWindow_otherwise w hq
  · exact fun w a n i hi hw => slice_windowUnits hw a hi
  · exact fun x hx hrun hr ha => ⟨fun b => indexRead_sets_tail hq hx hrun hr ha, indexRead_fault_stalls hq hx hrun hr ha⟩
  · exact fun x b hx hrun hr => indexRead_reads_again hq hx hrun hr
  · exact fun x b => indexRead_sets_head hq
  · exact fun q first rest s hq => entryFetch_waits first rest hq
  · intro q n h e rest x y s u hq hn hb hc hg hx hy hp hunits hlen hone hpay hlong hres havail hf hroom hgrant hrest
    have := entryFetch_starts hq ⟨hn, hb, hc, hg, hx, hp⟩ ⟨hlen, hone, hres, n, hpay, hlong⟩ hf
      hunits havail hy hroom hgrant hrest
    rwa [startedCommand, hf] at this
  · exact fun q e rest x s hq hn hb hc hg hx hp hlen hf hleft => entryFetch_fenced hq ⟨hn, hb, hc, hg, hx, hp⟩ hlen hf hleft

end Sys2Proof.Machine
end

section
/-! Time writes and pins (R497 to R500, R515 to R519) and the calendar clock (R520 to R524). -/

namespace Sys2Proof.Machine
open Sys2Proof

/-! ### What counting a request leaves -/

@[simp] theorem counted_tun {o : Origin} {s : State} : (counted o s).tun = s.tun := rfl
@[simp] theorem counted_clk {o : Origin} {s : State} : (counted o s).clk = s.clk := rfl

/-! ### Values as they are written -/

/-- A TIME80 takes its seconds apart from its nanoseconds (Table 3-1). -/
theorem time80_parts {sec ns : Nat} (h : ns < 2 ^ 32) :
    (sec * 2 ^ 32 + ns) / 2 ^ 32 = sec ∧ (sec * 2 ^ 32 + ns) % 2 ^ 32 = ns := by
  omega

/-- A signed value that fits its field is read back as it was written. -/
theorem toSigned_ofSigned {w : Nat} {x : Int} (hw : 0 < w) (hlo : -2 ^ (w - 1) ≤ x) (hhi : x < 2 ^ (w - 1)) :
    toSigned w (ofSigned w x) = x := by
  have hpow : (2 : Int) ^ w = 2 * 2 ^ (w - 1) := by rw [← pow_succ', Nat.sub_add_cancel hw]
  have hpowNat : 2 ^ w = 2 * 2 ^ (w - 1) := by rw [← pow_succ', Nat.sub_add_cancel hw]
  have hcast : ((2 ^ (w - 1) : Nat) : Int) = 2 ^ (w - 1) := by push_cast; rfl
  have hmod : ofSigned w x % 2 ^ w = ofSigned w x := Nat.mod_eq_of_lt (ofSigned_lt w x)
  rw [toSigned, hmod, ofSigned]
  by_cases hx : 0 ≤ x
  · rw [Int.emod_eq_of_lt hx (by omega), if_pos (by omega), Int.toNat_of_nonneg hx]
  · have hneg : x % 2 ^ w = x + 2 ^ w := by
      rw [← Int.add_emod_right, Int.emod_eq_of_lt (by omega) (by omega)]
    rw [hneg, if_neg (by omega), Int.toNat_of_nonneg (by omega), Int.add_sub_cancel]

/-! ### Writes of the counter's objects -/

/-- An accepted TIME_SET falls due at the next tick, in place of a step that waits (R498). -/
theorem timeSet_fallsDue {o : Origin} {level sec ns : Nat} {s : State} (hok : (Instr.timeSet o level sec ns).wf = true)
    (h : acceptsWrite s o (oneWrite level oTimeSet 0 10 (sec * 2 ^ 32 + ns))) : ∃ t,
      exec (.timeSet o level sec ns) s =
        .next (answered (counted o s) o (oneWrite level oTimeSet 0 10 (sec * 2 ^ 32 + ns)) t) ∧
      t.tun = { s.tun with setDue := some (sec * 1000000000 + ns), stepDue := none } := by
  have hns : ns < 2 ^ 32 := by
    simp only [Instr.wf, Bool.and_eq_true, decide_eq_true_eq] at hok
    exact hok.2
  obtain ⟨hdiv, hmod⟩ := time80_parts (sec := sec) hns
  refine ⟨_, execTimeSet_taken hok h, ?_⟩
  rw [writeTimeSet, hdiv, hmod]
  rfl

/-- An accepted TIME_STEP is added to what is due at the next tick (R498). -/
theorem timeStep_fallsDue {o : Origin} {level : Nat} {ns : Int} {s : State} (hok : (Instr.timeStep o level ns).wf = true)
    (h : acceptsWrite s o (oneWrite level oTimeStep 0 8 (ofSigned 64 ns))) : ∃ t,
      exec (.timeStep o level ns) s = .next (answered (counted o s) o (oneWrite level oTimeStep 0 8 (ofSigned 64 ns)) t) ∧
      t.tun = { s.tun with stepDue := some (s.tun.stepDue.getD 0 + ns) } := by
  obtain ⟨hlo, hhi⟩ : -2 ^ 63 ≤ ns ∧ ns < 2 ^ 63 := by
    simp only [Instr.wf, Bool.and_eq_true, decide_eq_true_eq] at hok
    exact hok.imp_left And.right
  refine ⟨_, execTimeStep_taken hok h, ?_⟩
  rw [writeTimeStep, toSigned_ofSigned (by decide) hlo hhi]
  rfl

/-- An accepted TIME_SLEW replaces what remains of a slew (R499). -/
theorem timeSlew_replacesRemainder {o : Origin} {level : Nat} {ns : Int} {s : State}
    (hok : (Instr.timeSlew o level ns).wf = true) (h : acceptsWrite s o (oneWrite level oTimeSlew 0 4 (ofSigned 32 ns))) : ∃ t,
      exec (.timeSlew o level ns) s = .next (answered (counted o s) o (oneWrite level oTimeSlew 0 4 (ofSigned 32 ns)) t) ∧
      t.tun = { s.tun with slew := ns * 2 ^ 32 } := by
  obtain ⟨hlo, hhi⟩ : -2 ^ 31 ≤ ns ∧ ns < 2 ^ 31 := by
    simp only [Instr.wf, Bool.and_eq_true, decide_eq_true_eq] at hok
    exact hok.imp_left And.right
  refine ⟨_, execTimeSlew_taken hok h, ?_⟩
  rw [writeTimeSlew, toSigned_ofSigned (by decide) hlo hhi]
  rfl

/-- `execTimeLatch_taken` of the command, for every value; at a literal value the kernel would unfold both sides. -/
theorem exec_timeLatch_taken {o : Origin} {level v : Nat} {s : State} (hok : (Instr.timeLatch o level v).wf = true)
    (h : acceptsWrite s o (oneWrite level oTimeLatch 0 1 v)) : exec (.timeLatch o level v) s =
      .next (answered (counted o s) o (oneWrite level oTimeLatch 0 1 v) (writeTimeLatch v (counted o s))) :=
  execTimeLatch_taken hok h

/-- A write of 1 to TIME_LATCH captures the counter and the CCLK count of its tick (R500). -/
theorem writeTimeLatch_one (s : State) : writeTimeLatch 1 s =
    wr oTimeLatched (time80 (stampOf s.tun.ptp)) (wr oTimeLatchedFrac (stampOf s.tun.ptp).frac
      (wr oTimeLatchedCclk (s.clk.cclk - s.clk.cclk % 2) (wr oTimeLatch 1 s))) := rfl

/-- A write of 0 is held and captures nothing. -/
theorem writeTimeLatch_zero (s : State) : writeTimeLatch 0 s = wr oTimeLatch 0 s := rfl

theorem timeLatch_captures {o : Origin} {level : Nat} {s : State} (hok : (Instr.timeLatch o level 1).wf = true)
    (h : acceptsWrite s o (oneWrite level oTimeLatch 0 1 1)) : ∃ t,
      exec (.timeLatch o level 1) s = .next (answered (counted o s) o (oneWrite level oTimeLatch 0 1 1) t) ∧
      rd t oTimeLatched = time80 (stampOf s.tun.ptp) ∧ rd t oTimeLatchedFrac = (stampOf s.tun.ptp).frac ∧
      rd t oTimeLatchedCclk = s.clk.cclk - s.clk.cclk % 2 ∧ t.tun = s.tun := by
  refine ⟨_, exec_timeLatch_taken hok h, ?_⟩
  rw [writeTimeLatch_one, counted_tun, counted_clk]
  refine ⟨rd_wr_self _ _ _, ?_, ?_, ?_⟩
  · rw [rd_wr_other (by decide), rd_wr_self]
  · rw [rd_wr_other (by decide), rd_wr_other (by decide), rd_wr_self]
  · rw [wr_tun, wr_tun, wr_tun, wr_tun, counted_tun]

/-- An accepted TIME_INCREMENT is held (R497). -/
theorem timeIncrement_held {o : Origin} {level v : Nat} {s : State} (hok : (Instr.timeIncrement o level v).wf = true)
    (h : acceptsWrite s o (oneWrite level oTimeIncrement 0 8 v)) : ∃ t,
      exec (.timeIncrement o level v) s = .next (answered (counted o s) o (oneWrite level oTimeIncrement 0 8 v) t) ∧
      timeIncrement t = v ∧ t.tun = s.tun :=
  ⟨_, execTimeIncrement_taken hok h, rd_wr_self _ _ _, rfl⟩

/-! ### Time pins -/

/-- The pin rises at an edge while it is enabled (R515). -/
theorem exec_ppsOutEdge_enabled {s : State} (h : rd s oPpsOutEnable = 1) :
    exec .ppsOutEdge s = .next { s with tun := { s.tun with ppsOut := true } } := by
  show execPpsOutEdge s = _
  rw [execPpsOutEdge, if_pos h]

theorem exec_ppsOutEdge_disabled {s : State} (h : rd s oPpsOutEnable ≠ 1) : exec .ppsOutEdge s = .next s := by
  show execPpsOutEdge s = _
  rw [execPpsOutEdge, if_neg h]

/-- An edge within 100 ms of the accepted one is only counted (R516). -/
theorem exec_ppsIn_glitch {s : State} (hen : rd s oPpsInEnable = 1) (hg : ppsGlitch s = true) :
    exec .ppsIn s = .next (count (cTime 0x10) s) := by
  show execPpsIn s = _
  rw [execPpsIn, if_neg (not_not_intro hen), if_pos hg]

/-- The registers of an accepted edge (R516). -/
def ppsRegisters (s : State) : State :=
  let t := stampOf s.tun.ptp
  wr oPpsInTime (time80 t) (wr oPpsInFrac t.frac (wr oPpsInCount ((rd s oPpsInCount + 1) % 2 ^ 32) s))

theorem rd_ppsRegisters_time (s : State) : rd (ppsRegisters s) oPpsInTime = time80 (stampOf s.tun.ptp) := by
  rw [ppsRegisters, rd_wr_self]

theorem rd_ppsRegisters_frac (s : State) : rd (ppsRegisters s) oPpsInFrac = (stampOf s.tun.ptp).frac := by
  rw [ppsRegisters, rd_wr_other (by decide), rd_wr_self]

theorem rd_ppsRegisters_count (s : State) : rd (ppsRegisters s) oPpsInCount = (rd s oPpsInCount + 1) % 2 ^ 32 := by
  rw [ppsRegisters, rd_wr_other (by decide), rd_wr_other (by decide), rd_wr_self]

theorem ppsRegisters_tun (s : State) : (ppsRegisters s).tun = s.tun := by
  rw [ppsRegisters, wr_tun, wr_tun, wr_tun]

theorem ppsRegisters_clk (s : State) : (ppsRegisters s).clk = s.clk := by
  rw [ppsRegisters, wr_clk, wr_clk, wr_clk]

/-- An accepted edge as it stands before it is counted and raised: its registers, and its instant, from which the next 100 ms
are measured (R516). -/
def ppsRecorded (s : State) : State :=
  let r := ppsRegisters s
  { r with tun := { r.tun with ppsAt := r.clk.cclk + 1 } }

theorem ppsRecorded_dict (s : State) : (ppsRecorded s).dict = (ppsRegisters s).dict := rfl

theorem ppsRecorded_tun (s : State) : (ppsRecorded s).tun = { s.tun with ppsAt := s.clk.cclk + 1 } := by
  rw [← ppsRegisters_tun s, ← ppsRegisters_clk s]
  rfl

theorem ppsAccept_eq (s : State) : ppsAccept s =
    ppsLoad (raise evPpsIn ((stampOf s.tun.ptp).sec % 2 ^ 32) (count (cTime 0x08) (ppsRecorded s))) := by
  unfold ppsAccept ppsRecorded ppsRegisters
  rfl

/-- An accepted edge is recorded, counted and raised, and loads the counter where it is armed (R516, R517). -/
theorem exec_ppsIn_accepted {s : State} (hen : rd s oPpsInEnable = 1) (hg : ppsGlitch s = false) :
    exec .ppsIn s =
      .next (ppsLoad (raise evPpsIn ((stampOf s.tun.ptp).sec % 2 ^ 32) (count (cTime 0x08) (ppsRecorded s)))) := by
  show execPpsIn s = _
  rw [execPpsIn, if_neg (not_not_intro hen), if_neg (by simp [hg]), ppsAccept_eq]

/-- A loss that SYNCE_STATE does not show yet is announced (R519). -/
theorem exec_synceLoss_new {s : State} (h : synceState s = 3) (hnew : rd s oSynceState ≠ 3) :
    exec .synceLoss s = .next (raise evSynceLoss (rd s oSynceSource) (count (cTime 0x18) (wr oSynceState 3 s))) := by
  show Host.Outcome.next (synceEval s) = _
  simp only [synceEval, h, hnew, decide_true, Bool.and_self, ne_eq, not_false_eq_true, if_true]

/-- The same loss is announced once (R519). -/
theorem exec_synceLoss_known {s : State} (h : synceState s = 3) (hold : rd s oSynceState = 3) :
    exec .synceLoss s = .next (wr oSynceState 3 s) := by
  show Host.Outcome.next (synceEval s) = _
  simp only [synceEval, h, hold, ne_eq, not_true_eq_false, decide_false, Bool.and_false, Bool.false_eq_true, if_false]

/-- Settles O49: one lemma for each write at its live point, and for each pin by what it does at an edge. -/
theorem timeWritesAndPins : Obligations.TimeWritesAndPins := by
  refine ⟨fun o level s => ⟨fun sec ns => timeSet_fallsDue, fun ns => timeStep_fallsDue,
      fun ns => timeSlew_replacesRemainder, timeLatch_captures,
      fun hok h => by rw [exec_timeLatch_taken hok h, writeTimeLatch_zero],
      fun v => timeIncrement_held⟩,
    fun s => ⟨exec_ppsOutEdge_enabled, exec_ppsOutEdge_disabled, rfl, exec_ppsIn_glitch, fun hen hg => ?_,
      exec_synceLoss_new, exec_synceLoss_known⟩⟩
  have hd := ppsRecorded_dict s
  exact ⟨ppsRecorded s, exec_ppsIn_accepted hen hg, (rd_congr hd _ _).trans (rd_ppsRegisters_time s),
    (rd_congr hd _ _).trans (rd_ppsRegisters_frac s), (rd_congr hd _ _).trans (rd_ppsRegisters_count s), ppsRecorded_tun s⟩

/-! ### The calendar clock -/

/-- The time of an accepted CAL_SET waits for the next crystal cycle (R521). -/
theorem calSet_waits {o : Origin} {level sec ns : Nat} {s : State} (hok : (Instr.calSet o level sec ns).wf = true)
    (h : acceptsWrite s o (oneWrite level oCalSet 0 10 (sec * 2 ^ 32 + ns))) : ∃ t,
      exec (.calSet o level sec ns) s = .next (answered (counted o s) o (oneWrite level oCalSet 0 10 (sec * 2 ^ 32 + ns)) t) ∧
      t.cal = { s.cal with load := some (sec, ns * 32768 / 1000000000) } ∧ t.tun = s.tun := by
  obtain ⟨hsec, hns⟩ : sec < 2 ^ 48 ∧ ns < 2 ^ 32 := by
    simp only [Instr.wf, Bool.and_eq_true, decide_eq_true_eq] at hok
    exact hok.imp_left And.right
  obtain ⟨hdiv, hmod⟩ := time80_parts (sec := sec) hns
  refine ⟨_, execCalSet_taken hok h, ?_⟩
  rw [writeCalSet, hdiv, hmod, Nat.mod_eq_of_lt hsec]
  exact ⟨rfl, rfl⟩

/-- A crystal cycle loads what waits and makes the clock valid (R521). -/
theorem crystalCycle_load {c : Cal} {sec sub : Nat} (h : c.load = some (sec, sub)) :
    crystalCycle c = { c with seconds := sec, sub := sub, valid := true, load := none } := by
  simp only [crystalCycle, h]

/-- Every other crystal cycle of a running clock counts one 32,768th of a second (R520). -/
theorem crystalCycle_count {c : Cal} (h : c.load = none) (hrun : c.valid = true ∨ c.stopped = false)
    (hsub : c.sub < 32768) : crystalCycle c = { c with
      sub := (c.sub + 1) % 32768, seconds := if c.sub = 32767 then (c.seconds + 1) % 2 ^ 48 else c.seconds } := by
  have hstands : (c.stopped && !c.valid) = false := by
    rcases hrun with hv | hs
    · rw [hv, Bool.not_true, Bool.and_false]
    · rw [hs, Bool.false_and]
  simp only [crystalCycle, h, hstands, Bool.false_eq_true, if_false]
  by_cases hlast : c.sub = 32767
  · rw [if_neg (by omega), if_pos hlast, hlast]
  · rw [if_pos (by omega), if_neg hlast, Nat.mod_eq_of_lt (by omega)]

/-- The parts of a crystal cycle that have passed at the end of the next CCLK cycle, CAL_TRIM counted in. -/
def crystalPart (s : State) : Nat := s.cal.part + (32768 * (10000000 + toSigned 32 (rd s oCalTrim))).toNat

theorem calTick_within {s : State} (h : crystalPart s < crystalParts) :
    calTick s = { s with cal := { s.cal with part := crystalPart s } } := if_pos h

theorem calTick_cycle {s : State} (h : crystalParts ≤ crystalPart s) :
    calTick s = { s with cal := crystalCycle { s.cal with part := crystalPart s - crystalParts } } := if_neg (Nat.not_lt.mpr h)

/-- A written CAL_SYNC waits for the next whole second (R524). -/
theorem calSync_waits {o : Origin} {level : Nat} {s : State} (hok : (Instr.calSync o level 1).wf = true)
    (h : acceptsWrite s o (oneWrite level oCalSync 0 1 1)) : ∃ t,
      exec (.calSync o level 1) s = .next (answered (counted o s) o (oneWrite level oCalSync 0 1 1) t) ∧
      t.tun = { s.tun with calSync := true } ∧ t.cal = s.cal :=
  ⟨_, execCalSync_taken hok h, rfl, rfl⟩

/-- The whole second that CAL_SYNC waits for is loaded with no sub-second count (R524). -/
theorem exec_calSyncLoad_waiting {s : State} (h : s.tun.calSync = true) : exec .calSyncLoad s =
    .next { s with tun := { s.tun with calSync := false },
                   cal := { s.cal with seconds := (nowStamp s).sec % 2 ^ 48, sub := 0, part := 0, valid := true,
                                       load := none } } := by
  show execCalSyncLoad s = _
  rw [execCalSyncLoad, if_pos h]
  rfl

/-! The bits of CAL_STATE (R522, Table 14-2). -/

theorem b2n_sum_bits : ∀ a b c : Bool, (b2n a + 2 * b2n b + 4 * b2n c) % 2 = b2n a ∧
    (b2n a + 2 * b2n b + 4 * b2n c).testBit 1 = b ∧ (b2n a + 2 * b2n b + 4 * b2n c).testBit 2 = c := by decide

theorem calState_bits (s : State) : calState s % 2 = b2n s.cal.valid ∧ (calState s).testBit 1 = s.cal.stopped ∧
    (calState s).testBit 2 = s.cal.vbatLow := b2n_sum_bits _ _ _

/-- Settles O50: the two writes, the crystal cycle within the CCLK cycle that completes one, the load at a whole second, and the two
causes of an invalid clock by their bits of CAL_STATE. -/
theorem calendarClock : Obligations.CalendarClock := by
  refine ⟨fun o level sec ns s => calSet_waits, fun s => ⟨calTick_within, ?_, ?_⟩, fun o level s => calSync_waits,
    fun s => exec_calSyncLoad_waiting, fun s => ⟨_, rfl, ?_⟩, fun s => ⟨_, rfl, ?_⟩⟩
  · intro hfull sec sub hload
    rw [calTick_cycle hfull]
    exact crystalCycle_load hload
  · intro hfull hload hrun hsub
    rw [calTick_cycle hfull]
    exact crystalCycle_count hload hrun hsub
  · obtain ⟨hvalid, hstopped, -⟩ := calState_bits { s with cal := { s.cal with valid := false, stopped := true, invalidDue := true } }
    exact ⟨hvalid, hstopped, rfl, rfl, rfl⟩
  · obtain ⟨hvalid, -, hlow⟩ := calState_bits { s with cal := { s.cal with valid := false, vbatLow := true, invalidDue := true } }
    exact ⟨hvalid, hlow, rfl, rfl, rfl⟩

end Sys2Proof.Machine
end

section
/-! The claim bus (R534, R536 to R538): what a role drives, what a sampled byte makes of a claiming unit, and the roles a unit takes
by itself. -/

namespace Sys2Proof.Machine
open Sys2Proof

/-! ### The byte that a role drives (Table 15-1) -/

theorem claimOf_of_yielding {s : State} (h : s.pair.yielding = true) : claimOf s = (true, 0) := by
  simp [claimOf, h]

theorem claimOf_of_unsynced {s : State} (hy : s.pair.yielding = false) (hr : role s = 1) :
    claimOf s = (true, if s.pair.claiming then rd s oPairClaim else 0) := by
  simp [claimOf, hy, hr]

theorem claimOf_of_standby {s : State} (hy : s.pair.yielding = false) (hr : role s = 3) :
    claimOf s = (true, rd s oPairClaim) := by
  simp [claimOf, hy, hr]

theorem claimOf_of_active {s : State} (hy : s.pair.yielding = false) (hr : role s = 4) :
    claimOf s = (true, 0x80 + rd s oPairClaim) := by
  simp [claimOf, hy, hr]

/-- A failed unit drives 0x00, whether or not it yields. -/
theorem claimOf_of_failed {s : State} (hr : role s = 5) : claimOf s = (true, 0) := by
  simp [claimOf, hr]

/-- The active alone sets HOLD. -/
theorem claimOf_without_hold {s : State} (hr : role s ≠ 4) : (claimOf s).2 = 0 ∨ (claimOf s).2 = rd s oPairClaim := by
  unfold claimOf
  cases hy : s.pair.yielding
  · simp only [Bool.false_eq_true, if_false]
    split
    case h_2 => cases s.pair.claiming <;> simp
    case h_4 h => exact absurd h hr
    all_goals simp
  · exact .inl rfl

/-! ### Driving the claim, and taking a role -/

theorem driveClaim_dict (s : State) : (driveClaim s).dict = s.dict := by
  unfold driveClaim
  dsimp only
  split
  · rfl
  · rw [emit_dict, setPair_dict]

theorem role_driveClaim (s : State) : role (driveClaim s) = role s := rd_congr (driveClaim_dict s) oPairRole 0

/-- Of the Pair Unit, the byte driven and its validity follow the role. -/
theorem driveClaim_pair (s : State) :
    (driveClaim s).pair = { s.pair with claimVld := (claimOf s).1, claimOut := (claimOf s).2 } := by
  unfold driveClaim
  dsimp only
  split
  case isTrue h =>
    obtain ⟨hvld, hout⟩ : s.pair.claimVld = (claimOf s).1 ∧ s.pair.claimOut = (claimOf s).2 := by simpa using h
    rw [← hvld, ← hout]
  case isFalse => exact (emit_noted _ _ (Noted.refl _)).pair

theorem rd_setRole_ne {r obj : Nat} (s : State) (h : obj ≠ oPairRole) : rd (setRole r s) obj = rd s obj :=
  (rd_congr (driveClaim_dict _) obj 0).trans (rd_wr_other h)

@[simp] theorem role_setRole (r : Nat) (s : State) : role (setRole r s) = r :=
  (role_driveClaim _).trans (rd_wr_self s oPairRole r)

/-- The unit in a role that it has not yet driven the claim of. -/
def inRole (r : Nat) (s : State) : State := setPair { s.pair with claiming := false } (wr oPairRole r s)

theorem role_inRole (r : Nat) (s : State) : role (inRole r s) = r := rd_wr_self s oPairRole r

/-- A role taken ends a claim of R536, and drives the byte of that role. -/
theorem setRole_pair (r : Nat) (s : State) : (setRole r s).pair =
    { s.pair with claiming := false, claimVld := (claimOf (inRole r s)).1, claimOut := (claimOf (inRole r s)).2 } :=
  driveClaim_pair (inRole r s)

/-! ### A sampled byte (R534, R535) -/

/-- What an event of R535 and a change of role leave of a claiming unit: the byte sampled, the cycle of a yield, PAIR_CLAIM. -/
structure SampleKept (s t : State) : Prop where
  claimIn : t.pair.claimIn = s.pair.claimIn
  yielding : t.pair.yielding = s.pair.yielding
  number : rd t oPairClaim = rd s oPairClaim

theorem SampleKept.trans {s t u : State} (h : SampleKept s t) (g : SampleKept t u) : SampleKept s u :=
  ⟨g.claimIn.trans h.claimIn, g.yielding.trans h.yielding, g.number.trans h.number⟩

theorem setRole_sampleKept (r : Nat) (s : State) : SampleKept s (setRole r s) :=
  ⟨by rw [setRole_pair], by rw [setRole_pair], rd_setRole_ne s (by decide)⟩

/-- A raise writes registers of area 7C alone. -/
theorem rd_raise_of_area {src obj : Nat} (detail : Nat) (s : State) (hs : src < 512) (ho : obj < 2 ^ 32)
    (ha : objArea obj ≠ 0x7C) : rd (raise src detail s) obj = rd s obj :=
  rd_raise_ne (dictKey_obj (fun e => ha (e ▸ rfl)) ho (by decide) (by decide) (by omega))
    (dictKey_obj (fun e => ha (e ▸ rfl)) ho (by decide) (by decide) (by omega))

theorem rd_raiseOnce_of_area {src obj : Nat} (scope detail : Nat) (s : State) (hs : src < 512) (ho : obj < 2 ^ 32)
    (ha : objArea obj ≠ 0x7C) : rd (raiseOnce src scope detail s) obj = rd s obj := by
  unfold raiseOnce
  split
  · exact (rd_raise_of_area detail _ hs ho ha).trans (rd_congr useLimit_dict obj 0)
  · rfl

/-- The unit with the byte of a KCLK edge sampled, a claim fault raised, and its role not yet decided. -/
def sampled (own b : Nat) (s : State) : State :=
  let u := setPair { s.pair with claimIn := b, yielding := false } s
  when (claimFault u own b) (fun u => raiseOnce evClaimFault 0 b (count (cPair 0x18) u)) u

theorem sampled_pair (own b : Nat) (s : State) : (sampled own b s).pair = { s.pair with claimIn := b, yielding := false } :=
  (Noted.when (fun _ => raiseOnce_noted _ _ _ _ (count_noted _ _ (Noted.refl _))) (Noted.refl _)).pair

theorem rd_sampled {obj : Nat} (own b : Nat) (s : State) (ho : obj < 2 ^ 32) (ha : objArea obj ≠ 0x7C) :
    rd (sampled own b s) obj = rd s obj := by
  unfold sampled Machine.when
  dsimp only
  split
  · exact (rd_raiseOnce_of_area _ _ _ (by decide) ho ha).trans rfl
  · rfl

theorem role_sampled (own b : Nat) (s : State) : role (sampled own b s) = role s :=
  rd_sampled own b s (by decide) (by decide)

theorem claimOutcome_sampleKept (own b : Nat) (s : State) : SampleKept s (claimOutcome own b s) := by
  have same : SampleKept s s := ⟨rfl, rfl, rfl⟩
  unfold claimOutcome
  split
  · exact same
  · split
    · split
      · exact same
      · exact (setRole_sampleKept 4 s).trans ⟨rfl, rfl, rfl⟩
    · split
      · exact setRole_sampleKept 3 s
      · split
        · exact ⟨rfl, rfl, rfl⟩
        · exact same

/-- A claiming unit that samples its own byte is chosen. -/
theorem role_claimOutcome_own {own : Nat} {s : State} (h : own ≠ 0) : role (claimOutcome own own s) = 4 := by
  rw [claimOutcome, if_neg h, if_pos rfl]
  split
  case isTrue hr => exact hr
  case isFalse => exact role_setRole 4 s

/-- An active that samples another byte is standby (log entry 73). -/
theorem role_claimOutcome_lost {own b : Nat} {s : State} (h : own ≠ 0) (hb : own ≠ b) (hr : role s = 4) :
    role (claimOutcome own b s) = 3 := by
  rw [claimOutcome, if_neg h, if_neg hb.symm, if_pos hr, role_setRole]

/-- A claiming unit that samples another byte is not active. -/
theorem role_claimOutcome_other {own b : Nat} {s : State} (h : own ≠ 0) (hb : own ≠ b) :
    role (claimOutcome own b s) ≠ 4 := by
  by_cases hr : role s = 4
  · rw [role_claimOutcome_lost h hb hr]
    decide
  · rw [claimOutcome, if_neg h, if_neg hb.symm, if_neg hr]
    split
    · exact hr
    · exact hr

theorem claimDecision_of_valid {s : State} (b : Nat) (hv : s.pair.claimVld = true) : claimDecision b s =
    driveClaim (claimOutcome s.pair.claimOut b (sampled s.pair.claimOut b s)) := by
  unfold claimDecision sampled
  rw [if_pos hv]

/-- What the byte sampled makes of a unit that drives a claim, before it drives the claim of its new role. -/
def decided (b : Nat) (s : State) : State := claimOutcome s.pair.claimOut b (sampled s.pair.claimOut b s)

theorem decided_yielding (b : Nat) (s : State) : (decided b s).pair.yielding = false := by
  rw [decided, (claimOutcome_sampleKept _ _ _).yielding, sampled_pair]

theorem decided_claimIn (b : Nat) (s : State) : (decided b s).pair.claimIn = b := by
  rw [decided, (claimOutcome_sampleKept _ _ _).claimIn, sampled_pair]

theorem decided_number (b : Nat) (s : State) : rd (decided b s) oPairClaim = rd s oPairClaim :=
  (claimOutcome_sampleKept _ _ _).number.trans (rd_sampled _ _ s (by decide) (by decide))

theorem exec_claimDecision_alone {b : Nat} {s : State} (hb : isByte b = true) (hr : role s = 0) :
    exec (.claimDecision b) s = .next s := by
  show execClaimDecision b s = _
  rw [execClaimDecision, onUnits, if_pos hb, if_pos hr]

theorem exec_claimDecision_of_valid {b : Nat} {s : State} (hb : isByte b = true) (hr : role s ≠ 0)
    (hv : s.pair.claimVld = true) : exec (.claimDecision b) s = .next (driveClaim (decided b s)) := by
  show execClaimDecision b s = _
  rw [execClaimDecision, onUnits, if_pos hb, if_neg hr, claimDecision_of_valid b hv, decided]

section Decision
variable {b : Nat} {s : State} (hb : isByte b = true) (hv : s.pair.claimVld = true)
include hb hv

theorem claimDecision_own_activates (hr : role s ≠ 0) (hown : s.pair.claimOut = b) (h0 : b ≠ 0) : ∃ t,
    exec (.claimDecision b) s = .next t ∧ role t = 4 ∧ t.pair.claimVld = true ∧
      t.pair.claimOut = 0x80 + rd s oPairClaim ∧ t.pair.claimIn = b := by
  have hactive : role (decided b s) = 4 := by
    rw [decided, hown]
    exact role_claimOutcome_own h0
  refine ⟨_, exec_claimDecision_of_valid hb hr hv, (role_driveClaim _).trans hactive, ?_⟩
  rw [driveClaim_pair, claimOf_of_active (decided_yielding b s) hactive, decided_number]
  exact ⟨rfl, rfl, decided_claimIn b s⟩

theorem claimDecision_active_loses (hr : role s = 4) (h0 : s.pair.claimOut ≠ 0) (hother : s.pair.claimOut ≠ b) : ∃ t,
    exec (.claimDecision b) s = .next t ∧ role t = 3 ∧ t.pair.claimOut = rd s oPairClaim ∧ t.pair.claimIn = b := by
  have hstandby : role (decided b s) = 3 := role_claimOutcome_lost h0 hother ((role_sampled _ _ s).trans hr)
  refine ⟨_, exec_claimDecision_of_valid hb (by omega) hv, (role_driveClaim _).trans hstandby, ?_⟩
  rw [driveClaim_pair, claimOf_of_standby (decided_yielding b s) hstandby, decided_number]
  exact ⟨rfl, decided_claimIn b s⟩

theorem claimDecision_other_without_hold (hr : role s ≠ 0) (h0 : s.pair.claimOut ≠ 0) (hother : s.pair.claimOut ≠ b) : ∃ t,
    exec (.claimDecision b) s = .next t ∧ role t ≠ 4 ∧ (t.pair.claimOut = 0 ∨ t.pair.claimOut = rd s oPairClaim) := by
  have hnot : role (decided b s) ≠ 4 := role_claimOutcome_other h0 hother
  refine ⟨_, exec_claimDecision_of_valid hb hr hv, (role_driveClaim _).trans_ne hnot, ?_⟩
  rw [driveClaim_pair, ← decided_number b s]
  exact claimOf_without_hold hnot

end Decision

/-! ### A silent bus, a failure and a yield (R536 to R538) -/

theorem exec_firstClaim_not_due {s : State} (h : role s ≠ 1 ∨ rd s oUnsyncedClaim ≠ 1 ∨ s.pair.claimIn ≠ 0) :
    exec .firstClaim s = .next s := by
  show execFirstClaim s = _
  rw [execFirstClaim, if_neg]
  simp only [Bool.and_eq_true, decide_eq_true_eq]
  tauto

theorem firstClaim_claims {s : State} (hr : role s = 1) (hl : rd s oServiceLevel = 2) (hu : rd s oUnsyncedClaim = 1)
    (hi : s.pair.claimIn = 0) (hy : s.pair.yielding = false) : ∃ t, exec .firstClaim s = .next t ∧
      t.pair.claiming = true ∧ t.pair.claimVld = true ∧ t.pair.claimOut = rd s oPairClaim ∧ role t = 1 := by
  have hex : exec .firstClaim s = .next (driveClaim (setPair { s.pair with claiming := true } s)) := by
    show execFirstClaim s = _
    rw [execFirstClaim, if_pos (by simp only [hr, hl, hu, hi, decide_true, Bool.and_self])]
  have hclaim : claimOf (setPair { s.pair with claiming := true } s) = (true, rd s oPairClaim) := claimOf_of_unsynced hy hr
  refine ⟨_, hex, ?_⟩
  rw [driveClaim_pair, hclaim, role_driveClaim]
  exact ⟨rfl, rfl, rfl, hr⟩

/-- A unit that gives up the ports takes role 5 and drives 0x00 (R537). -/
theorem failUnit_drives_zero (code : Nat) (s : State) : role (failUnit code s) = 5 ∧ (failUnit code s).pair.claimOut = 0 ∧
    (failUnit code s).pair.claimVld = true ∧ (failUnit code s).pair.lastFail = code := by
  refine ⟨role_setRole 5 _, ?_⟩
  rw [failUnit, setRole_pair, claimOf_of_failed (role_inRole 5 _)]
  exact ⟨rfl, rfl, rfl⟩

theorem exec_privilegedFault {u : Nat} (s : State) (hu : u < 3) :
    exec (.privilegedFault u) s = .next (if role s = 0 then s else failUnit (0x20 + u) s) :=
  if_pos (decide_eq_true hu)

theorem exec_soundingTest {k : Nat} (x : Bool) (s : State) (h1 : 1 ≤ k) (h6 : k ≤ 6) : exec (.soundingTest k x) s =
    .next (if role s ≠ 3 then s else
      let u := setPair { s.pair with soundings := (s.pair.soundings + 1) % 2 ^ 32 } s
      if x then failUnit k u else u) :=
  if_pos (by simp only [h1, h6, decide_true, Bool.and_self])

theorem privilegedFault_fails {u : Nat} {s : State} (hu : u < 3) (hr : role s ≠ 0) : ∃ t,
    exec (.privilegedFault u) s = .next t ∧ role t = 5 ∧ t.pair.claimOut = 0 ∧ t.pair.claimVld = true ∧
      t.pair.lastFail = 0x20 + u :=
  ⟨failUnit (0x20 + u) s, by rw [exec_privilegedFault s hu, if_neg hr], failUnit_drives_zero _ s⟩

theorem soundingTest_fails {k : Nat} {s : State} (h1 : 1 ≤ k) (h6 : k ≤ 6) (hr : role s = 3) : ∃ t,
    exec (.soundingTest k true) s = .next t ∧ role t = 5 ∧ t.pair.claimOut = 0 ∧ t.pair.lastFail = k := by
  obtain ⟨hrole, hout, -, hfail⟩ :=
    failUnit_drives_zero k (setPair { s.pair with soundings := (s.pair.soundings + 1) % 2 ^ 32 } s)
  exact ⟨_, by rw [exec_soundingTest true s h1 h6, if_neg (not_not.mpr hr)]; rfl, hrole, hout, hfail⟩

theorem soundingTest_passes {k : Nat} {s : State} (h1 : 1 ≤ k) (h6 : k ≤ 6) (hr : role s = 3) :
    exec (.soundingTest k false) s = .next (setPair { s.pair with soundings := (s.pair.soundings + 1) % 2 ^ 32 } s) := by
  rw [exec_soundingTest false s h1 h6, if_neg (not_not.mpr hr)]
  rfl

theorem yieldClaim_drives_zero (s : State) : role (yieldClaim s) = 3 ∧ (yieldClaim s).pair.claimOut = 0 := by
  refine ⟨role_setRole 3 _, ?_⟩
  rw [yieldClaim, setRole_pair, claimOf_of_yielding rfl]

theorem role_counted (o : Origin) (s : State) : role (counted o s) = role s := rd_counted (by decide)

theorem putRecord_dict (r : Nat) (s : State) : (putRecord r s).dict = s.dict := by
  rw [putRecord, setRetention]

theorem putPairMode_dict (v : Nat) (s : State) : (putPairMode v s).dict = s.dict := putRecord_dict _ s

/-- Settles O51: the outcome of a sampled byte (`decided`) and the byte that each role drives (`claimOf`), a role being driven as soon
as it is taken (`setRole_pair`). -/
theorem claimBus : Obligations.ClaimBus := by
  refine ⟨fun b s hb => ⟨exec_claimDecision_alone hb, fun hr hv => claimDecision_own_activates hb hv hr,
      fun hr hv => claimDecision_active_loses hb hv hr, fun hr hv => claimDecision_other_without_hold hb hv hr⟩,
    fun s => ⟨exec_firstClaim_not_due, firstClaim_claims⟩,
    fun u s hu => ⟨fun hr => by rw [exec_privilegedFault s hu, if_pos hr], fun hr _ => privilegedFault_fails hu hr⟩,
    fun k s h1 h6 => ⟨fun hr x => by rw [exec_soundingTest x s h1 h6, if_pos hr],
      fun hr _ => ⟨soundingTest_fails h1 h6 hr, soundingTest_passes h1 h6 hr⟩⟩,
    fun o level v s => ⟨execPairYield_taken, fun hok h => ?_, execPairEnable_taken⟩, fun s => ?_⟩
  · exact role_counted o s ▸ execPairRejoin_taken hok h
  · obtain ⟨hrole, hout⟩ := yieldClaim_drives_zero s
    exact ⟨hrole, hout, rd_congr (putPairMode_dict 1 s) oPairEnable 0⟩

end Sys2Proof.Machine
end

section
/-! The governor's slot gating and buffer thresholds (R566, R567, R573, R574, R576), the protections and their overrides (R578 to
R581), and the writes and samples of chapter 16 (R566, R586, R592). -/

namespace Sys2Proof.Machine
open Sys2Proof

/-! ### The parts of the governor's operations -/

/-- A source counted and raised under a condition changes what a raised event may change. -/
theorem announce_noted (c : Bool) (off src detail : Nat) (s : State) :
    Noted s (if c then count off (raise src detail s) else s) := by
  cases c with
  | false => exact Noted.refl s
  | true => exact count_noted _ _ (raise_noted _ _ _ (Noted.refl s))

/-- A period of a demand changes the runs and the pressure of the governor; beyond it, what a raised event changes (R582). -/
theorem notePressure_noted (k i : Nat) (beyond : Bool) (s : State) :
    ∃ b p, Noted (setGov { s.gov with beyond := b, pressed := p } s) (notePressure k i beyond s) :=
  ⟨_, _, announce_noted _ _ _ _ _⟩

theorem slotGate_congr {s t : State} (h : t.gov.slotGate = s.gov.slotGate) (k : Nat) : slotGate t k = slotGate s k := by
  rw [slotGate, slotGate, h]

/-- SLOT_GATE of a pipeline that is set reads the value. -/
theorem slotGate_setGate_self {n : Nat} {s : State} (v : Int) (h : n < s.gov.slotGate.length) :
    slotGate (setGate n v s) n = v := nth_setNth_self h

/-- That of every other pipeline stands. -/
theorem slotGate_setGate_ne {n k : Nat} (v : Int) (s : State) (h : k ≠ n) : slotGate (setGate n v s) k = slotGate s k :=
  nth_setNth_ne h

/-- A pipeline put in place is the one that is read. -/
theorem pipe_setPipe_self (n : Nat) (p : PipeSt) (s : State) : pipe (setPipe n p s) n = p := tabGet_put_self _ _ _ _

/-! ### Slot gating (R573, R574) -/

/-- The demand of a period of slot gating: none but SLOT_GATE itself while the loop does not run (R567, R573). -/
def gatingDemand (n : Nat) (s : State) : Int :=
  if (knob s 1).enable = 1 then gateDemand (slotGate s n) (pipe s n).issued else slotGate s n

/-- A period of slot gating starts the count of the pipeline's instructions anew, and then sets its SLOT_GATE unless a thermal
override holds it. -/
theorem gatePeriod_eq (n : Nat) (s : State) : ∃ u, u.gov.slotGate = s.gov.slotGate ∧ (pipe u n).issued = 0 ∧
    gatePeriod n s = if s.gov.heatOver then u
      else setGate n (stepTo 1 (slotGate s n) (knobTarget 1 (knob s 1) (gatingDemand n s))) u := by
  unfold gatePeriod gatingDemand
  extract_lets r g d old started _ demanded u
  obtain ⟨b, m, hu⟩ : ∃ b m, Noted (setGov { demanded.gov with beyond := b, pressed := m } demanded) u :=
    notePressure_noted _ _ _ _
  have hgov : u.gov = { demanded.gov with beyond := b, pressed := m } := hu.gov
  have hpip : u.pip = started.pip := hu.pip
  refine ⟨u, by rw [hgov]; rfl, ?_, by rw [hgov]; rfl⟩
  rw [pipe, hpip]
  exact congrArg PipeSt.issued (pipe_setPipe_self n _ s)

theorem exec_slotGateLoop {n : Nat} (hn : isPipe n = true) (s : State) : exec (.slotGateLoop n) s = .next (gatePeriod n s) :=
  if_pos hn

theorem exec_engineWait {n : Nat} (express : Bool) (hn : isPipe n = true) (s : State) :
    exec (.engineWait n express) s = .next (engineWait n express s) := if_pos hn

/-- The number of a pipeline names an entry of the gates. -/
theorem isPipe_lt_gates {n : Nat} {s : State} (hn : isPipe n = true) (hl : s.gov.slotGate.length = 16) :
    n < s.gov.slotGate.length := by
  rw [hl]
  exact of_decide_eq_true hn

/-- R573: a period of a pipeline's slot gating, with a thermal override and without. -/
theorem slotGateLoop_moves_gate {n : Nat} {s : State} (hn : isPipe n = true) (hl : s.gov.slotGate.length = 16) : ∃ t,
    exec (.slotGateLoop n) s = .next t ∧ (pipe t n).issued = 0 ∧
    (s.gov.heatOver = true → t.gov.slotGate = s.gov.slotGate) ∧
    (s.gov.heatOver = false →
      slotGate t n = stepTo 1 (slotGate s n) (knobTarget 1 (knob s 1) (gatingDemand n s)) ∧
      (∀ k, k ≠ n → slotGate t k = slotGate s k)) := by
  obtain ⟨u, hg, hi, he⟩ := gatePeriod_eq n s
  refine ⟨_, exec_slotGateLoop hn s, ?_⟩
  rw [he]
  cases hh : s.gov.heatOver with
  | true => exact ⟨hi, fun _ => hg, nofun⟩
  | false =>
    have hlt : n < u.gov.slotGate.length := hg ▸ isPipe_lt_gates hn hl
    exact ⟨hi, nofun, fun _ => ⟨slotGate_setGate_self _ hlt,
      fun k hk => (slotGate_setGate_ne _ u hk).trans (slotGate_congr hg k)⟩⟩

/-- A waiting head changes nothing while the knob is off, pinned or overridden, or at FLOOR (R574, log entry 63). -/
theorem engineWait_of_held {n : Nat} (express : Bool) {s : State} (h : (knob s 1).enable ≠ 1 ∨ (knob s 1).pin = 1 ∨
    s.gov.heatOver = true ∨ slotGate s n ≤ (knob s 1).floor) : engineWait n express s = s :=
  if_pos (by simpa [or_assoc] using h)

/-- Otherwise it lowers SLOT_GATE (R574). -/
theorem engineWait_of_free {n : Nat} (express : Bool) {s : State} (he : (knob s 1).enable = 1) (hp : (knob s 1).pin ≠ 1)
    (hh : s.gov.heatOver = false) (hf : (knob s 1).floor < slotGate s n) :
    engineWait n express s = setGate n (if express then (knob s 1).floor else slotGate s n - 1) s :=
  if_neg (by simp [he, hp, hh, hf])

/-- R574: the gate that a waiting head lowers, and what it leaves. -/
theorem engineWait_lowers_gate {n : Nat} (express : Bool) {s : State} (hn : isPipe n = true) (hl : s.gov.slotGate.length = 16)
    (he : (knob s 1).enable = 1) (hp : (knob s 1).pin ≠ 1) (hh : s.gov.heatOver = false)
    (hf : (knob s 1).floor < slotGate s n) : ∃ t, exec (.engineWait n express) s = .next t ∧
      slotGate t n = (if express then (knob s 1).floor else slotGate s n - 1) ∧
      (∀ k, k ≠ n → slotGate t k = slotGate s k) ∧ { t with gov := s.gov } = s :=
  ⟨_, by rw [exec_engineWait express hn, engineWait_of_free express he hp hh hf],
    slotGate_setGate_self _ (isPipe_lt_gates hn hl), fun _ hk => slotGate_setGate_ne _ s hk, rfl⟩

/-! ### Buffer thresholds (R576) -/

/-- R576: a period moves DT_ADJUST one step towards its target, counts refusals anew and touches no buffer. -/
theorem dtPeriod_moves_adjust (s : State) : (dtPeriod s).gov.refused = 0 ∧
    (dtPeriod s).gov.dtAdjust = stepTo 1 s.gov.dtAdjust (knobTarget 2 (knob s 2)
      (if (knob s 2).enable = 1 then dtDemandOf s else s.gov.dtAdjust)) ∧ (dtPeriod s).buf = s.buf := by
  unfold dtPeriod
  extract_lets r d _ demanded u
  obtain ⟨b, m, hu⟩ : ∃ b m, Noted (setGov { demanded.gov with beyond := b, pressed := m } demanded) u :=
    notePressure_noted _ _ _ _
  have hgov : u.gov = { demanded.gov with beyond := b, pressed := m } := hu.gov
  have hrefused : u.gov.refused = 0 := by rw [hgov]; rfl
  have hadjust : u.gov.dtAdjust = s.gov.dtAdjust := by rw [hgov]; rfl
  exact ⟨hrefused, congrArg (stepTo 1 · (knobTarget 2 r d)) hadjust, hu.buf⟩

/-! ### Protection (R578 to R581) -/

/-- An edge of an override changes what a raised event changes. -/
theorem logOverride_noted (cause edge k : Nat) (before after : Int) (s : State) :
    Noted s (logOverride cause edge k before after s) :=
  raise_noted _ _ _ (wr_noted _ _ _ (wrRow_noted _ _ _ _ (Noted.refl s)))

/-- It advances OVERRIDE_NEXT (R581). -/
theorem rd_logOverride_next (cause edge k : Nat) (before after : Int) (s : State) :
    rd (logOverride cause edge k before after s) oOverrideNext = (rd s oOverrideNext + 1) % 16 := by
  rw [logOverride, rd_raise_of_area _ _ (by decide) (by decide) (by decide), rd_wr_self]

/-- It leaves GOV_OVERRIDE pending (R581). -/
theorem logOverride_pending (cause edge k : Nat) (before after : Int) (s : State) :
    (rd (logOverride cause edge k before after s) oEventPending (evGovOverride / 32)).testBit (evGovOverride % 32) = true :=
  raise_pending _ _ _

/-- VCORE of a regulator that answers is the one commanded, and nothing else of the governor moves. -/
theorem commandVcore_gov (v : Int) {s : State} (h : s.gov.noRegulator = false) :
    (commandVcore v s).gov = { s.gov with vcore := v } := by
  unfold commandVcore
  by_cases hv : v = s.gov.vcore
  · simp [hv]
  · rw [if_neg (by simp [hv, h])]
    exact (emit_noted _ _ (Noted.refl _)).gov

/-- A command to the regulator changes no register. -/
theorem commandVcore_dict (v : Int) (s : State) : (commandVcore v s).dict = s.dict := by
  unfold commandVcore
  split
  · rfl
  · rw [emit_dict, setGov_dict]

/-- The governor as voltage protection leaves it (R578). -/
theorem voltageProtection_gov {s : State} (h : s.gov.noRegulator = false) :
    (voltageProtection s).gov = { s.gov with voltOver := true, vcore := min 820 (s.gov.vcore + 20) } := by
  have hc : (commandVcore (min 820 (s.gov.vcore + 20)) (setGov { s.gov with voltOver := true } s)).gov =
      { s.gov with voltOver := true, vcore := min 820 (s.gov.vcore + 20) } := commandVcore_gov _ h
  unfold voltageProtection
  rw [if_neg (by simp [h])]
  dsimp only
  split
  · exact hc
  · exact (logOverride_noted _ _ _ _ _ _).gov.trans hc

/-- The start of an override by voltage protection is logged and raised (R581). -/
theorem voltageProtection_logs {s : State} (h : s.gov.noRegulator = false) (ho : s.gov.voltOver = false) :
    rd (voltageProtection s) oOverrideNext = (rd s oOverrideNext + 1) % 16 ∧
      (rd (voltageProtection s) oEventPending (evGovOverride / 32)).testBit (evGovOverride % 32) = true := by
  unfold voltageProtection
  rw [if_neg (by simp [h])]
  dsimp only
  rw [if_neg (by simp [ho]), rd_logOverride_next]
  exact ⟨by rw [rd_congr (count_dict.trans (commandVcore_dict _ _))]; rfl, logOverride_pending _ _ _ _ _ _⟩

/-- Below its limit thermal protection only notes the temperature (R579). -/
theorem thermalProtection_below {tj : Int} {s : State} (hl : rd s oThermalLimit < 2 ^ 15) (h : tj < rd s oThermalLimit) :
    thermalProtection tj s = wr oTjMax ((tj % 2 ^ 16).toNat) s := by
  unfold thermalProtection
  dsimp only
  rw [rd_wr_other (by decide), if_pos hl, if_pos h]

/-- The state as thermal protection at its limit leaves it before it is logged: the temperature noted, and every gate one up
(R579). -/
def heated (tj : Int) (s : State) : State :=
  setGov { s.gov with heatOver := true, slotGate := s.gov.slotGate.map (fun g => min 3 (g + 1)) }
    (wr oTjMax ((tj % 2 ^ 16).toNat) s)

theorem thermalProtection_at {tj : Int} {s : State} (hl : rd s oThermalLimit < 2 ^ 15) (h : (rd s oThermalLimit : Int) ≤ tj) :
    thermalProtection tj s = if s.gov.heatOver then heated tj s
      else logOverride 2 1 1 (gateTop s) (gateTop (heated tj s)) (count (cGlobal 0x118) (heated tj s)) := by
  unfold thermalProtection
  dsimp only
  rw [rd_wr_other (by decide), if_pos hl, if_neg (not_lt.mpr h)]
  rfl

/-- The gates and the override after thermal protection at its limit (R579). -/
theorem thermalProtection_gov {tj : Int} {s : State} (hl : rd s oThermalLimit < 2 ^ 15) (h : (rd s oThermalLimit : Int) ≤ tj) :
    (thermalProtection tj s).gov = (heated tj s).gov := by
  rw [thermalProtection_at hl h]
  split
  · rfl
  · exact (logOverride_noted _ _ _ _ _ _).gov.trans count_gov

/-- The start of an override by thermal protection is logged (R581). -/
theorem thermalProtection_logs {tj : Int} {s : State} (hl : rd s oThermalLimit < 2 ^ 15) (h : (rd s oThermalLimit : Int) ≤ tj)
    (ho : s.gov.heatOver = false) : rd (thermalProtection tj s) oOverrideNext = (rd s oOverrideNext + 1) % 16 := by
  rw [thermalProtection_at hl h, if_neg (by simp [ho]), rd_logOverride_next, rd_congr count_dict, heated, rd_congr setGov_dict,
    rd_wr_other (by decide)]

theorem exec_overrideEnd {k : Nat} (hk : k < 2) (s : State) : exec (.overrideEnd k) s = .next (overrideEnd k s) :=
  if_pos (decide_eq_true hk)

/-- An override that is not in force does not end. -/
theorem overrideEnd_of_none {k : Nat} {s : State} (h : (if k = 0 then s.gov.voltOver else s.gov.heatOver) = false) :
    overrideEnd k s = s := by
  unfold overrideEnd
  split at h <;> simp [*]

/-- R580, R581: the end of a voltage override is logged and leaves VCORE. -/
theorem overrideEnd_volt {s : State} (h : s.gov.voltOver = true) : (overrideEnd 0 s).gov = { s.gov with voltOver := false } ∧
    rd (overrideEnd 0 s) oOverrideNext = (rd s oOverrideNext + 1) % 16 := by
  unfold overrideEnd
  rw [if_pos rfl, if_pos h]
  exact ⟨(logOverride_noted _ _ _ _ _ _).gov, rd_logOverride_next _ _ _ _ _ _⟩

/-- R580, R581: the end of a thermal override is logged and leaves every gate. -/
theorem overrideEnd_heat {s : State} (h : s.gov.heatOver = true) : (overrideEnd 1 s).gov = { s.gov with heatOver := false } ∧
    rd (overrideEnd 1 s) oOverrideNext = (rd s oOverrideNext + 1) % 16 := by
  unfold overrideEnd
  rw [if_neg (by decide), if_pos h]
  exact ⟨(logOverride_noted _ _ _ _ _ _).gov, rd_logOverride_next _ _ _ _ _ _⟩

/-! ### Knobs and counters written (R566, R586) -/

/-- Changes that leave the dictionary leave it together. -/
theorem forEach_dict {α : Type} {f : State → α → State} (h : ∀ t a, (f t a).dict = t.dict) (l : List α) (s : State) :
    (forEach l f s).dict = s.dict := by
  unfold Machine.forEach
  induction l generalizing s with
  | nil => rfl
  | cons a l ih => exact (ih (f s a)).trans (h s a)

theorem rebuildDue_dict (t : Nat) (s : State) : (rebuildDue t s).dict = s.dict := by
  unfold rebuildDue
  split
  · rfl
  · exact setSvc_dict

/-- Of the registers a write of a GOV_KNOBS row changes that row (R566). -/
theorem writeGovKnobs_dict (k v : Nat) (s : State) : (writeGovKnobs k v s).dict = (wrRow oGovKnobs k v s).dict := by
  unfold writeGovKnobs
  dsimp only
  have hpin : (if k = 0 then setGov { (wrRow oGovKnobs k v s).gov with bootPin := false } (wrRow oGovKnobs k v s)
      else wrRow oGovKnobs k v s).dict = (wrRow oGovKnobs k v s).dict := by
    split
    · exact setGov_dict
    · rfl
  split
  · exact (forEach_dict (fun t r => (rebuildDue_dict _ _).trans setSvc_dict) _ _).trans hpin
  · exact hpin

theorem rd_writeGovKnobs_self (k v : Nat) (s : State) : rd (writeGovKnobs k v s) oGovKnobs k = v := by
  rw [rd_congr (writeGovKnobs_dict k v s), rd_wrRow_self]

theorem rd_writePerfSelect_self (row v : Nat) (s : State) : rd (writePerfSelect row v s) oPerfSelect row = v :=
  rd_wrRow_self s oPerfSelect row v

/-- R586: the counter of the row is clear. -/
theorem ctr_writePerfSelect_cell (row v : Nat) (s : State) : ctr (writePerfSelect row v s) (perfCell row) = 0 :=
  (ctr_ctrSet (wrRow oPerfSelect row v s) (perfCell row) 0 (perfCell row)).trans (if_pos rfl)

/-! ### Samples (R592) -/

/-- The buffer of samples is full (R592). -/
def samplesFull (s : State) : Bool := (rd s oPreciseWriteIndex + 2 ^ 32 - rd s oPreciseReadIndex) % 2 ^ 32 = 4096

/-- A sample that finds room goes into the row of its index, and the index advances (R592). -/
theorem writeSample_room {s : State} (entry : Nat) (h : samplesFull s = false) :
    rd (writeSample entry s) oPreciseBuffer (rd s oPreciseWriteIndex % 4096) = entry ∧
    rd (writeSample entry s) oPreciseWriteIndex = (rd s oPreciseWriteIndex + 1) % 2 ^ 32 ∧
    (writeSample entry s).perf = s.perf := by
  have hw : writeSample entry s = count (cGlobal 0x120) (wr oPreciseWriteIndex ((rd s oPreciseWriteIndex + 1) % 2 ^ 32)
      (wrRow oPreciseBuffer (rd s oPreciseWriteIndex % 4096) entry s)) := by
    unfold writeSample
    extract_lets w r full t
    have hf : ¬ full := of_decide_eq_false h
    have ht : t = s := if_neg hf
    rw [if_neg (by simp [hf]), ht]
  rw [hw, rd_congr count_dict, rd_congr count_dict, rd_wr_self]
  exact ⟨(rd_wr_ne (dictKey_obj (by decide) (by decide) (by omega) (by decide) (by decide))).trans (rd_wrRow_self _ _ _ _),
    rfl, rfl⟩

/-- In MODE 0 a sample that finds the buffer full is lost, and counted (R592). -/
theorem writeSample_lost {s : State} (entry : Nat) (h : samplesFull s = true) (hm : byteFld (rd s oPreciseConfig) 1 1 = 0) :
    writeSample entry s = count (cGlobal 0x128) s := by
  unfold writeSample
  extract_lets w r full
  have hf : full := of_decide_eq_true h
  simp only [hf, hm, decide_true, Bool.and_self, if_true]

/-- A complete sample taken from those that wait. -/
def takeSample (e : Nat × Nat) (s : State) : State := { s with perf := { s.perf with done := s.perf.done.erase e } }

theorem exec_preciseSampleWrite_none {n : Nat} {s : State} (hn : isPipe n = true)
    (h : s.perf.done.find? (fun e => e.1 = n) = none) : exec (.preciseSampleWrite n) s = .next s := by
  show execPreciseSampleWrite n s = _
  rw [execPreciseSampleWrite, onUnits, if_pos hn, h]

theorem exec_preciseSampleWrite_some {n : Nat} {e : Nat × Nat} {s : State} (hn : isPipe n = true)
    (h : s.perf.done.find? (fun e => e.1 = n) = some e) :
    exec (.preciseSampleWrite n) s = .next (writeSample e.2 (takeSample e s)) := by
  show execPreciseSampleWrite n s = _
  rw [execPreciseSampleWrite, onUnits, if_pos hn, h]
  rfl

/-! ### The statement -/

/-- Settles O56: a period and a waiting head set one gate (`gatePeriod_eq`, `engineWait_of_free`), an edge of an override is one log
entry and one event (`logOverride_noted`), and the writes change the row that they name. -/
theorem gatingProtectionAndSamples : Obligations.GatingProtectionAndSamples := by
  refine ⟨⟨fun n s => slotGateLoop_moves_gate,
      fun n express s hn hl => ⟨fun h => ?_, engineWait_lowers_gate express hn hl⟩,
      fun s => ⟨_, rfl, dtPeriod_moves_adjust s⟩⟩,
    ⟨fun s => ⟨fun h => congrArg Host.Outcome.next (if_pos h), fun h => ⟨_, rfl, ?_⟩⟩,
      fun tj s hl => ⟨fun h => congrArg Host.Outcome.next (thermalProtection_below hl h), fun h => ⟨_, rfl, ?_⟩⟩,
      fun s => ⟨fun h => ?_, fun h => ?_, fun h => ?_, fun h => ?_⟩⟩,
    fun o level row v s hok h => ⟨execGovKnobs_taken hok h, rd_writeGovKnobs_self _ _ _⟩,
    fun o level row v s hok h => ⟨execPerfSelect_taken hok h, rd_writePerfSelect_self _ _ _, ctr_writePerfSelect_cell _ _ _⟩,
    fun n s hn => ⟨exec_preciseSampleWrite_none hn, fun e he hroom => ?_, fun e he hfull hm => ?_⟩⟩
  · rw [exec_engineWait express hn, engineWait_of_held express h]
  · have hg := voltageProtection_gov h
    exact ⟨congrArg Gov.vcore hg, congrArg Gov.voltOver hg, voltageProtection_logs h⟩
  · have hg := thermalProtection_gov hl h
    exact ⟨congrArg Gov.slotGate hg, congrArg Gov.heatOver hg, thermalProtection_logs hl h⟩
  · rw [exec_overrideEnd (by decide), overrideEnd_of_none (k := 0) h]
  · rw [exec_overrideEnd (by decide), overrideEnd_of_none (k := 1) h]
  · obtain ⟨hg, hnext⟩ := overrideEnd_volt h
    exact ⟨_, exec_overrideEnd (by decide) s, by rw [hg], by rw [hg], hnext⟩
  · obtain ⟨hg, hnext⟩ := overrideEnd_heat h
    exact ⟨_, exec_overrideEnd (by decide) s, by rw [hg], by rw [hg], hnext⟩
  · obtain ⟨hrow, hindex, hperf⟩ := writeSample_room (s := takeSample e s) e.2 (decide_eq_false hroom)
    exact ⟨_, exec_preciseSampleWrite_some hn he, hrow, hindex, congrArg Perf.done hperf⟩
  · have hlost := writeSample_lost (s := takeSample e s) e.2 (decide_eq_true hfull) hm
    refine ⟨_, exec_preciseSampleWrite_some hn he, ?_⟩
    rw [hlost]
    exact ⟨rfl, (ctr_count _ _ _).trans (if_pos rfl)⟩

end Sys2Proof.Machine
end

section
/-! Boot steps (R600 to R605): attempts that end, fail and time out, BOOT_CONTINUE, and the steps that run again without a control
path. -/

namespace Sys2Proof.Machine
open Sys2Proof

/-! ### The end of an attempt (R601, R602) -/

/-- The resources that an attempt of step `k` tries: those that have neither passed nor been skipped. -/
def triedRes (k : Nat) (s : State) : Nat := andNot (stepRes s k) (s.boot.passed ||| s.boot.skipped)

/-- An attempt as it is counted, before a failure of its resources has any consequence. -/
def countedAttempt (k failed : Nat) (s : State) : State :=
  setBoot { s.boot with
    passed := s.boot.passed ||| andNot (triedRes k s) (failed &&& triedRes k s)
    tried := s.boot.tried + 1
    attempts := s.boot.attempts + b2n (andNot (triedRes k s) s.boot.altRes ≠ 0)
    altAttempts := s.boot.altAttempts + b2n (triedRes k s &&& s.boot.altRes ≠ 0) } s

/-- Only the boot sequencer changes. -/
theorem countedAttempt_frame (k failed : Nat) (s : State) : { countedAttempt k failed s with boot := s.boot } = s := rfl

theorem countedAttempt_skipped (k failed : Nat) (s : State) :
    (countedAttempt k failed s).boot.skipped = s.boot.skipped := rfl

theorem countedAttempt_held (k failed : Nat) (s : State) : (countedAttempt k failed s).boot.held = s.boot.held := rfl

theorem countedAttempt_attempts (k failed : Nat) (s : State) : (countedAttempt k failed s).boot.attempts =
    s.boot.attempts + b2n (andNot (triedRes k s) s.boot.altRes ≠ 0) := rfl

theorem attemptEnds_passed {k failed : Nat} {s : State} (h : failed &&& triedRes k s = 0) :
    attemptEnds k failed s = endStep k (countedAttempt k failed s) := if_pos h

/-- A failed attempt of a fixed step is counted; the third holds the device (R601). -/
theorem attemptEnds_fixed {k failed : Nat} {s : State} (hk : k ≤ 4) (h : failed &&& triedRes k s ≠ 0) :
    attemptEnds k failed s = if 3 ≤ (countedAttempt k failed s).boot.attempts then failFixed (countedAttempt k failed s)
      else countedAttempt k failed s :=
  (if_neg h).trans (if_pos hk)

/-- INT_N is low while a fixed step has failed, whatever events are pending. -/
theorem intLow_of_bootFail {s : State} (h : s.ev.bootFail = true) : intLow s = true := by
  rw [intLow, h, Bool.true_or]

theorem intLow_failFixed (s : State) : intLow (failFixed s) = true := intLow_of_bootFail rfl

theorem failFixed_held (s : State) : (failFixed s).boot.held = 2 := rfl

theorem failFixed_attempts (s : State) : (failFixed s).boot.attempts = s.boot.attempts := rfl

theorem failFixed_dict (s : State) : (failFixed s).dict = s.dict := rfl

/-- A failed attempt of a fixed step holds the device with INT_N low where it is the third, and else not. -/
theorem attemptEnds_fixed_holds {k failed : Nat} {s : State} (hk : k ≤ 4) (h : failed &&& triedRes k s ≠ 0) : ∃ t,
    attemptEnds k failed s = t ∧ (3 ≤ t.boot.attempts → t.boot.held = 2 ∧ intLow t = true) ∧
      (t.boot.attempts < 3 → t.boot.held = s.boot.held) ∧
      t.boot.attempts = s.boot.attempts + b2n (andNot (triedRes k s) s.boot.altRes ≠ 0) ∧ t.dict = s.dict := by
  refine ⟨_, attemptEnds_fixed hk h, ?_⟩
  split
  case isTrue h3 =>
    rw [failFixed_attempts]
    exact ⟨fun _ => ⟨failFixed_held _, intLow_failFixed _⟩, fun hlt => absurd h3 (Nat.not_le.mpr hlt),
      countedAttempt_attempts k failed s, failFixed_dict _⟩
  case isFalse h3 =>
    exact ⟨fun hle => absurd hle h3, fun _ => countedAttempt_held k failed s, countedAttempt_attempts k failed s, rfl⟩

/-! ### The commands -/

/-- The completion of a step that may end is the end of an attempt, in which steps 08, 09 and 14 fail nothing (log entry 66). -/
theorem exec_bootStepComplete_of_running {k : Nat} {r : StepResult} {s : State} (hk : stepRunning s = some k)
    (h : stepMayEnd k (if k = 8 || k = 9 || k = 14 then 0 else r.failed) s = true) :
    exec (.bootStepComplete r) s = .next (attemptEnds k (if k = 8 || k = 9 || k = 14 then 0 else r.failed) s) := by
  show execBootStepComplete r s = _
  simp only [execBootStepComplete, hk, h, if_true]

/-- A timeout of a step that has one fails the attempt for the resources that it lists (R602). -/
theorem exec_bootAttemptTimeout_of_running {k : Nat} {r : StepResult} {s : State} (hk : stepRunning s = some k) (h5 : 5 ≤ k)
    (h13 : k ≤ 13) (h9 : k ≠ 9) (hstop : s.boot.stopped = false) (htime : byteFld (policyRow s k) 4 4 ≠ 0)
    (hres : r.failed &&& stepRes s k ≠ 0) : exec (.bootAttemptTimeout r) s = .next (attemptEnds k r.failed s) := by
  have h4 : ¬k ≤ 4 := by omega
  have h14 : k ≠ 14 := by omega
  show execBootAttemptTimeout r s = _
  simp only [execBootAttemptTimeout, hk, h4, h9, h14, hstop, htime, hres, decide_false, Bool.or_self, Bool.false_eq_true, if_false]

/-- A device with a control path left, or one whose step 06 has not ended, runs nothing again (R605). -/
theorem exec_controlPathRetry_of_path {pcie : Bool} {m : Nat} {s : State}
    (h : s.hst.absent = false ∨ (mgmt s 0).ready = true ∨ (mgmt s 1).ready = true) :
    exec (.controlPathRetry pcie m) s = .next s := by
  show execControlPathRetry pcie m s = _
  rw [execControlPathRetry, if_pos]
  rcases h with h | h | h <;> simp [h]

/-- What steps 05 and 06 leave when they run again. -/
def pathsRetried (pcie : Bool) (m : Nat) (s : State) : State :=
  let t := setHst { s.hst with absent := !pcie } s
  setMgmt 1 { mgmt t 1 with ready := m.testBit 1 } (setMgmt 0 { mgmt t 0 with ready := m.testBit 0 } t)

theorem exec_controlPathRetry_without_path {pcie : Bool} {m : Nat} {s : State} (ha : s.hst.absent = true)
    (h0 : (mgmt s 0).ready = false) (h1 : (mgmt s 1).ready = false) (ho : s.eng.opened = true) :
    exec (.controlPathRetry pcie m) s = .next (pathsRetried pcie m s) := by
  show execControlPathRetry pcie m s = _
  rw [execControlPathRetry, if_neg (by simp [ha, h0, h1, ho])]
  rfl

theorem pathsRetried_hst (pcie : Bool) (m : Nat) (s : State) : (pathsRetried pcie m s).hst = { s.hst with absent := !pcie } := by
  rw [pathsRetried, setMgmt_hst, setMgmt_hst, setHst_hst]

theorem mgmt_pathsRetried_zero (pcie : Bool) (m : Nat) (s : State) :
    (mgmt (pathsRetried pcie m s) 0).ready = m.testBit 0 := by
  rw [pathsRetried, mgmt_setMgmt_ne _ _ (by decide) (by decide) (by decide), mgmt_setMgmt_self]

theorem mgmt_pathsRetried_one (pcie : Bool) (m : Nat) (s : State) :
    (mgmt (pathsRetried pcie m s) 1).ready = m.testBit 1 := by
  rw [pathsRetried, mgmt_setMgmt_self]

/-- Nothing changes outside the Host Interface and the engine. -/
theorem pathsRetried_frame (pcie : Bool) (m : Nat) (s : State) :
    { pathsRetried pcie m s with hst := s.hst, eng := s.eng } = s := rfl

/-- Settles O59: an attempt by whether it failed (`attemptEnds_passed`, `attemptEnds_fixed`), and each command by when it acts. -/
theorem bootSteps : Obligations.BootSteps := by
  refine ⟨fun k r s hk h => exec_bootStepComplete_of_running hk h,
    fun k s => ⟨_, attemptEnds_passed (Nat.zero_and _), countedAttempt_skipped k 0 s, countedAttempt_frame k 0 s⟩,
    fun k failed s hk h => attemptEnds_fixed_holds hk h,
    fun k r s hk h5 h13 h9 hstop htime hres => exec_bootAttemptTimeout_of_running hk h5 h13 h9 hstop htime hres,
    fun o level v s hok h => execBootContinue_taken hok h, fun pcie m s ha h0 h1 ho => ?_,
    fun pcie m s h => exec_controlPathRetry_of_path h⟩
  exact ⟨_, exec_controlPathRetry_without_path ha h0 h1 ho, pathsRetried_hst pcie m s, mgmt_pathsRetried_zero pcie m s,
    mgmt_pathsRetried_one pcie m s, pathsRetried_frame pcie m s⟩

end Sys2Proof.Machine
end

section
/-! EVENT_CLEAR (R622), a stack lost in service (R613, R614), the end of a rebase (R326), and the limits and links of R664, R624 and
R649. -/

namespace Sys2Proof.Machine
open Sys2Proof

/-! ### EVENT_CLEAR (R622) -/

/-- Bit 0 taken away leaves the bits above. -/
theorem testBit_sub_one {v i : Nat} (h : v.testBit 0 = true) : (v - 1).testBit i = (v.testBit i && decide (i ≠ 0)) := by
  have hodd : v % 2 = 1 := Nat.mod_two_eq_one_iff_testBit_zero.mpr h
  cases i with
  | zero =>
    have heven : (v - 1) % 2 = 0 := by omega
    simp [Nat.testBit_zero, heven]
  | succ i =>
    have hhalf : (v - 1) / 2 = v / 2 := by omega
    simp [Nat.testBit_add_one, hhalf]

/-- A set bit taken away leaves the others. -/
theorem testBit_sub_two_pow {v n i : Nat} (h : v.testBit n = true) :
    (v - 2 ^ n).testBit i = (v.testBit i && decide (i ≠ n)) := by
  induction n generalizing v i with
  | zero => exact testBit_sub_one h
  | succ n ih =>
    have hhalf : (v - 2 ^ (n + 1)) / 2 = v / 2 - 2 ^ n := by rw [pow_succ]; omega
    have hpar : (v - 2 ^ (n + 1)) % 2 = v % 2 := by
      have := Nat.ge_two_pow_of_testBit h
      rw [pow_succ] at this ⊢
      omega
    rw [Nat.testBit_add_one] at h
    cases i with
    | zero => simp [Nat.testBit_zero, hpar]
    | succ i => simp [Nat.testBit_add_one, hhalf, ih h]

theorem testBit_clearBit (v n i : Nat) : (clearBit v n).testBit i = (v.testBit i && decide (i ≠ n)) := by
  unfold clearBit
  split
  case isTrue h => exact testBit_sub_two_pow h
  case isFalse h =>
    by_cases hi : i = n
    · subst hi
      simp [h]
    · simp [hi]

/-- Bits cleared one after another. -/
theorem testBit_clearBits (l : List Nat) (v i : Nat) :
    (l.foldl (fun a b => clearBit a b) v).testBit i = (v.testBit i && decide (i ∉ l)) := by
  induction l generalizing v with
  | nil => simp
  | cons b l ih => simp [ih, testBit_clearBit, Bool.and_assoc]

/-- Whether a source of a group was raised in this MCLK cycle. -/
def raisedNow (s : State) (group b : Nat) : Bool := decide (tabGet 0 s.ev.lastMclk (32 * group + b) = mclk s + 1)

/-- A PENDING bit stays where it is not written 1, and where its source is raised in this cycle. -/
theorem clearEvents_pending {b : Nat} (group bits : Nat) (s : State) (hb : b < 32) :
    (rd (clearEvents group bits s) oEventPending group).testBit b =
      ((rd s oEventPending group).testBit b && (!bits.testBit b || raisedNow s group b)) := by
  rw [clearEvents, rd_wrRow_self, testBit_clearBits]
  simp [raisedNow, hb]

/-- The PENDING bits of another group stay. -/
theorem clearEvents_pending_ne {group g : Nat} (bits : Nat) (s : State) (h : g ≠ group) :
    rd (clearEvents group bits s) oEventPending g = rd s oEventPending g := rd_wrRow_ne (dictKey_row h)

theorem clearEvents_ev (group bits : Nat) (s : State) : (clearEvents group bits s).ev = s.ev := wrRow_ev

theorem rd_counted_pending {o : Origin} {s : State} {g : Nat} (hg : g < 2 ^ 32) :
    rd (counted o s) oEventPending g = rd s oEventPending g :=
  rd_wr_ne (dictKey_obj (by decide) (by decide) hg (by decide) (by decide))

theorem eventClear_clears {o : Origin} {level group bits : Nat} {s : State}
    (hok : (Instr.eventClear o level group bits).wf = true) (h : acceptsWrite s o (oneWrite level oEventClear group 4 bits)) :
    ∃ t, exec (.eventClear o level group bits) s =
        .next (answered (counted o s) o (oneWrite level oEventClear group 4 bits) t) ∧
      (∀ b, b < 32 → (rd t oEventPending group).testBit b =
        ((rd s oEventPending group).testBit b && (!bits.testBit b || raisedNow s group b))) ∧
      (∀ g, g < 2 ^ 32 → g ≠ group → rd t oEventPending g = rd s oEventPending g) ∧ t.ev = s.ev := by
  have hg : group < 2 ^ 32 := by
    simp only [Instr.wf, Bool.and_eq_true, decide_eq_true_eq] at hok
    exact hok.1.2
  refine ⟨_, execEventClear_taken hok h, fun b hb => ?_, fun g hlt hne => ?_, clearEvents_ev _ _ _⟩
  · rw [clearEvents_pending _ _ _ hb, rd_counted_pending hg]
    rfl
  · rw [clearEvents_pending_ne _ _ hne, rd_counted_pending hlt]

/-! ### A stack lost (R613, R614) -/

/-- A lost stack marked, announced and counted, with LEDGER_STACKS, before the ledger answers to the loss. -/
def stackMarked (n : Nat) (s : State) : State :=
  let t := count (cEvent 0x20) (raise evHbmStackLost n (wrRow oStackState n 3 s))
  wr oLedgerStacks (stacksIn t) t

/-- Beside the row of the stack, the mark writes EVENT_PENDING, EVENT_LOG and LEDGER_STACKS alone. -/
theorem rd_stackMarked {n obj row : Nat} {s : State} (hp : dictKey 0 obj row ≠ dictKey 0 oEventPending (evHbmStackLost / 32))
    (hl : dictKey 0 obj row ≠ dictKey 0 oEventLog evHbmStackLost) (hs : dictKey 0 obj row ≠ dictKey 0 oLedgerStacks 0) :
    rd (stackMarked n s) obj row = rd (wrRow oStackState n 3 s) obj row := by
  rw [stackMarked, rd_wr_ne hs, rd_congr count_dict, rd_raise_ne hp hl]

theorem stackMarked_state {n : Nat} (s : State) (hn : n < 2 ^ 32) : rd (stackMarked n s) oStackState n = 3 := by
  rw [rd_stackMarked (dictKey_obj (by decide) (by decide) hn (by decide) (by decide))
    (dictKey_obj (by decide) (by decide) hn (by decide) (by decide))
    (dictKey_obj (by decide) (by decide) hn (by decide) (by decide)), rd_wrRow_self]

/-- Whether the ledger is on die is no matter of the mark. -/
theorem lowLedger_stackMarked {n : Nat} (s : State) (hn : n < 2 ^ 32) : lowLedger (stackMarked n s) = lowLedger s := by
  rw [lowLedger, rd_stackMarked (by decide) (by decide) (by decide),
    rd_wrRow_ne (dictKey_obj (by decide) (by decide) (by decide) (by decide) hn), lowLedger]

theorem stackMarked_svc (n : Nat) (s : State) : (stackMarked n s).svc = s.svc := by
  rw [stackMarked, wr_svc, count_svc, (raise_noted _ _ _ (Noted.refl _)).svc, wrRow_svc]

theorem stackMarked_ctr (n : Nat) (s : State) :
    ctr (stackMarked n s) (cEvent 0x20) = (ctr s (cEvent 0x20) + 1) % 2 ^ 64 := by
  rw [stackMarked, ctr_congr wr_ctr, ctr_count, if_pos rfl, raise_ctr _ _ _ (by decide) (by decide), ctr_count,
    if_neg (by decide), ctr_congr wrRow_ctr]

theorem stackMarked_pending (n : Nat) (s : State) :
    (rd (stackMarked n s) oEventPending (evHbmStackLost / 32)).testBit (evHbmStackLost % 32) = true := by
  rw [stackMarked, rd_wr_ne (by decide), rd_congr count_dict, raise_pending]

/-- With the ledger on die, the mark is all that a lost stack leaves. -/
theorem stackLost_of_lowLedger {n : Nat} {s : State} (hn : n < 2 ^ 32) (h : lowLedger s = true) :
    stackLost n s = stackMarked n s := if_pos ((lowLedger_stackMarked s hn).trans h)

/-- With the ledger on HBM, the port maps are empty in the end. -/
theorem stackLost_ports {n : Nat} {s : State} (hn : n < 2 ^ 32) (h : lowLedger s = false) : (stackLost n s).svc.ports = [] := by
  have hlow : ¬lowLedger (stackMarked n s) = true := by simp [lowLedger_stackMarked s hn, h]
  exact congrArg (fun t : State => t.svc.ports) (if_neg hlow : stackLost n s = _)

theorem exec_hbmStackLost_inService {n : Nat} {s : State} (hn : isStack n = true) (hp : pairEnabled s = false)
    (hs : rd s oStackState n ≤ 1) (hb : 12 ≤ rd s oBootStep) :
    exec (.hbmStackLost n) s = .next (when (bootDone (stackLost n s)) writeHistory (stackLost n s)) := by
  have hs' : ¬2 ≤ rd s oStackState n := by omega
  have hb' : ¬rd s oBootStep < 12 := by omega
  show execHbmStackLost n s = _
  rw [execHbmStackLost, onUnits, if_pos hn, if_neg (by simp [hp, hs', hb'])]

/-! ### The end of a rebase (R326) -/

theorem exec_ledgerRebased_rebasing {s : State} (h : rd s oLedgerState = 2) : exec .ledgerRebased s =
    .next (if rd (runLedger (clearFlag 0 (endRebase 1 s))) oBootStep = 14 then
      attemptEnds 14 0 (runLedger (clearFlag 0 (endRebase 1 s))) else runLedger (clearFlag 0 (endRebase 1 s))) := by
  show execLedgerRebased s = _
  rw [execLedgerRebased, ledgerRebased, if_neg (not_not.mpr h)]

theorem exec_ledgerRebased_idle {s : State} (h : rd s oLedgerState ≠ 2) : exec .ledgerRebased s = .next s := by
  show execLedgerRebased s = _
  rw [execLedgerRebased, ledgerRebased, if_pos h]

/-! ### Limits and links (R664, R624) -/

theorem secondWindowEnd_resets (s : State) : ∃ t, exec .secondWindowEnd s = .next t ∧ (∀ key, used t key = 0) ∧
    t.pair = { s.pair with repairs := 0, errors := 0 } ∧ { t with ev := s.ev, pair := s.pair } = s :=
  ⟨_, rfl, fun _ => rfl, rfl, rfl⟩

theorem exec_mgmtLinkChange {n : Nat} (up : Bool) (s : State) (hn : isMgmt n = true) :
    exec (.mgmtLinkChange n up) s = .next (setMgmt n { mgmt s n with linkUp := up } s) := if_pos hn

theorem mgmtLinkChange_changes {n : Nat} (up : Bool) (s : State) (hn : isMgmt n = true) : ∃ t,
    exec (.mgmtLinkChange n up) s = .next t ∧ mgmt t n = { mgmt s n with linkUp := up } ∧
      mgmt t (1 - n) = mgmt s (1 - n) ∧ { t with eng := s.eng } = s := by
  have hlt : n < 2 := of_decide_eq_true hn
  exact ⟨_, exec_mgmtLinkChange up s hn, mgmt_setMgmt_self _ _ _, mgmt_setMgmt_ne _ s hlt (by omega) (by omega),
    setMgmt_frame _ _ _⟩

/-- Settles O60: EVENT_CLEAR bit by bit, a lost stack by where the ledger lies (`stackMarked`), and the end of a rebase by the boot
step. -/
theorem eventsStacksAndLinks : Obligations.EventsStacksAndLinks := by
  refine ⟨fun o level group bits s hok h => eventClear_clears hok h,
    ⟨fun n s hn hp hs hb => ?_,
      fun s h => ⟨fun hk => (exec_ledgerRebased_rebasing h).trans (congrArg _ (if_neg hk)),
        fun hk => (exec_ledgerRebased_rebasing h).trans (congrArg _ (if_pos hk))⟩,
      fun s h => exec_ledgerRebased_idle h⟩,
    fun s => ⟨secondWindowEnd_resets s, fun n up hn => mgmtLinkChange_changes up s hn, fun i => rfl⟩⟩
  have hlt : n < 2 ^ 32 := by
    have : n < 4 := of_decide_eq_true hn
    omega
  refine ⟨exec_hbmStackLost_inService hn hp hs hb, stackLost_ports hlt, fun hlow => ?_⟩
  rw [stackLost_of_lowLedger hlt hlow]
  exact ⟨stackMarked_state s hlt, stackMarked_svc n s, stackMarked_ctr n s, stackMarked_pending n s⟩

end Sys2Proof.Machine
end

section
/-! What every step keeps (`Kept`): the queue of a command, the fuses but for key generations that rise, the outputs and the free
values drawn, and the canonical form of registers and counters. Every command leads to one state or to the fault. -/

namespace Sys2Proof.Machine
open Sys2Proof

/-- Where an outcome is a next state, that state keeps what every operation keeps. -/
def Leads (s : State) (o : Host.Outcome State Fault Refusal) : Prop := ∀ t, o = .next t → Kept s t

theorem leads_next {s t : State} (h : Kept s t) : Leads s (.next t) := fun _ e => by cases e; exact h

theorem leads_onUnits {s t : State} (c : Bool) (h : Kept s t) : Leads s (onUnits c t) := by
  unfold onUnits
  split
  · exact leads_next h
  · exact fun _ e => nomatch e

/-- A repair that finds no intact copy asks the pipelines to halt and announces each (R184). -/
theorem execCsRepairComplete_leads (n st w : Nat) (s : State) : Leads s (execCsRepairComplete n st w s) := by
  refine leads_onUnits _ (kept_ite (fun _ => Kept.refl s) fun _ => kept_ite (fun _ => kept_mk.mpr (Kept.refl s)) fun _ => ?_)
  exact Kept.forEach (fun t k => raise_kept _ _ _ (Kept.refl t)) (kept_mk.mpr (wr_kept _ _ _ (Kept.refl s)))

/-- What a replicator does with its oldest descriptor: it waits for its buffer, or replicates. -/
theorem execMcReplication_leads (j : Nat) (s : State) : Leads s (execMcReplication j s) := by
  refine leads_onUnits _ ?_
  split
  · exact Kept.refl s
  · split
    · exact Kept.refl s
    · split
      · exact replicate_kept _ _ _ _ _ (grantInternal_kept ‹_›)
      · exact grantInternal_kept ‹_›

/-- What an internal delivery does with its oldest descriptor: it waits for room or for its buffer, or hands it over. -/
theorem execInternalDelivery_leads (n : Nat) (s : State) : Leads s (execInternalDelivery n s) := by
  have handed (fid : Nat) (f : Frame) (l : Tab (List Nat)) {t : State} (h : Kept s t) :
      Kept s (handOver fid f (setFab { t.fab with internal := l } t)) := handOver_kept _ _ _ (setFab_kept _ _ h)
  refine leads_onUnits _ ?_
  split
  · exact Kept.refl s
  · split
    · exact Kept.refl s
    · refine kept_ite (fun _ => Kept.refl s) fun _ => ?_
      split
      · exact handed _ _ _ (Kept.refl s)
      · split
        · exact grantInternal_kept ‹_›
        · exact releaseBuffer_kept _ _ _ (handed _ _ _ (grantInternal_kept ‹_›))

/-- A vector unmasked is sent where it was pending. -/
theorem execMsixUnmask_leads (v : Nat) (s : State) : Leads s (execMsixUnmask v s) := by
  refine leads_onUnits _ ?_
  generalize hu : (if s.hst.unmasked.contains v then s else setHst { s.hst with unmasked := s.hst.unmasked ++ [v] } s) = u
  have ht : Kept s u := hu ▸ kept_ite (fun _ => Kept.refl s) fun _ => setHst_kept _ _ (Kept.refl s)
  exact kept_ite (fun _ => sendTlp_kept _ _ (setHst_kept _ _ (writeVectorHeld_kept _ _ ht))) fun _ => ht

/-- A step of the aging sweep visits entries of one bucket. -/
theorem execMacAging_leads (s : State) : Leads s (execMacAging s) := by
  refine leads_next ?_
  split
  · exact Kept.refl s
  · exact Kept.forEach (fun t e => ageEntry_kept _ _ _ (Kept.refl t)) (stepCursor_kept _ _ _ (Kept.refl s))

/-- Every command keeps what every operation keeps: the state after it is built of the operations of the blocks alone. -/
theorem exec_leads (c : Instr) (s : State) : Leads s (exec c s) := by
  cases c
  case csRepairComplete n st w => exact execCsRepairComplete_leads n st w s
  case mcReplication j => exact execMcReplication_leads j s
  case internalDelivery n => exact execInternalDelivery_leads n s
  case msixUnmask v => exact execMsixUnmask_leads v s
  case macAging => exact execMacAging_leads s
  all_goals first
    | refine leads_onUnits _ ?_
    | refine leads_next ?_
  all_goals repeat' first
    | with_reducible exact Kept.refl s
    | simp
    | with_reducible apply Kept.forEach
    | with_reducible apply Kept.when
    | with_reducible apply adminCmd_kept
    | with_reducible apply applyMirror_kept
    | with_reducible apply arrive_kept
    | with_reducible apply bulkPin_kept
    | with_reducible apply compareWindow_kept
    | with_reducible apply count_kept
    | with_reducible apply ctrAdd_kept
    | with_reducible apply ctrSet_kept
    | with_reducible apply deliverResult_kept
    | with_reducible apply entryFails_kept
    | with_reducible apply linkFault_kept
    | with_reducible apply mcTaken_kept
    | with_reducible apply mirrorChange_kept
    | with_reducible apply modFrame_kept
    | with_reducible apply postSystem_kept
    | with_reducible apply pressure_kept
    | with_reducible apply raise_kept
    | with_reducible apply restartCq_kept
    | with_reducible apply restartSq_kept
    | with_reducible apply selectOne_kept
    | with_reducible apply sendPair_kept
    | with_reducible apply sendTlp_kept
    | with_reducible apply setHst_kept
    | with_reducible apply setMgmt_kept
    | with_reducible apply setPair_kept
    | with_reducible apply setPort1_kept
    | with_reducible apply setPort_kept
    | with_reducible apply setRole_kept
    | with_reducible apply setSvc_kept
    | with_reducible apply startCmd_kept
    | with_reducible apply synceFollow_kept
    | with_reducible apply tblCommit_kept
    | with_reducible apply voltagePeriod_kept
    | with_reducible apply writeHaltRequest_kept
    | intro _
    | split

theorem exec_kept {c : Instr} {s t : State} (h : exec c s = .next t) : Kept s t := exec_leads c s t h

/-! ### The statements -/

theorem canonical_iff (s : State) : s.canonical = true ↔ tabRising s.dict = true ∧ ctrWf s.ctr = true := by
  rw [State.canonical, Bool.and_eq_true]

/-- A step keeps what a command or a cycle keeps, but that a command leaves the queue first. -/
theorem step_kept {s t : State} (h : step s = .next t) : ∃ l, Kept { s with pending := l } t := by
  unfold step at h
  split at h
  · have k : Kept s (idle s) := idle_kept s (Kept.refl s)
    rw [← Host.Outcome.next.inj h]
    exact ⟨s.pending, k⟩
  · exact ⟨_, exec_kept h⟩

/-- Settles O4: a step keeps both halves of the canonical form, whatever it takes from the queue. -/
theorem stepsKeepTheCanonicalForm : Obligations.StepsKeepTheCanonicalForm := by
  intro s t hs h
  obtain ⟨l, k⟩ := step_kept h
  obtain ⟨hd, hc⟩ := (canonical_iff s).mp hs
  exact (canonical_iff t).mpr ⟨k.dict hd, k.ctr hc⟩

theorem fusesOnlyBlow_refl (s : State) : fusesOnlyBlow s s := ⟨rfl, fun _ => Nat.le_refl _⟩

theorem fusesOnlyBlow_trans {s t u : State} (h : fusesOnlyBlow s t) (g : fusesOnlyBlow t u) : fusesOnlyBlow s u := by
  obtain ⟨h, hg⟩ := h
  obtain ⟨g, gg⟩ := g
  exact ⟨by rw [← h, ← g], fun level => (hg level).trans (gg level)⟩

theorem step_fusesOnlyBlow {s t : State} (h : step s = .next t) : fusesOnlyBlow s t := by
  obtain ⟨l, k⟩ := step_kept h
  exact ⟨k.fuse, k.gens⟩

/-- Settles O5, by induction on the number of steps. -/
theorem runsOnlyBlowGenerationFuses : Obligations.RunsOnlyBlowGenerationFuses := by
  intro n
  induction n with
  | zero =>
    rintro s t rfl
    exact fusesOnlyBlow_refl s
  | succ n ih =>
    rintro s t ⟨u, h, hr⟩
    exact fusesOnlyBlow_trans (step_fusesOnlyBlow h) (ih u t hr)

/-- Settles O6: what a command keeps of the queue, and a step of the outputs and the free values. -/
theorem commandsLeaveTheQueueAndOutputsGrow : Obligations.CommandsLeaveTheQueueAndOutputsGrow := by
  refine ⟨fun c s t h => (exec_kept h).pending, fun s t h => ?_⟩
  obtain ⟨l, k⟩ := step_kept h
  exact ⟨k.out, k.free⟩

/-- Settles O1: the two arms of the step. -/
theorem stepRunsTheFrontCommand : Obligations.StepRunsTheFrontCommand := by
  refine ⟨fun c s rest => rfl, fun s h => ?_⟩
  rw [step, h]

/-- Refutes O3: RULE_SEARCH runs where the entries whose parity fails are of the Rule Banks, and its well-formedness asks that
of the rules whose ACTION cannot be read; address 131,072 as a parity error is well-formed and stops with the fault. -/
theorem not_everyCommandCompletes : ¬ Obligations.EveryCommandCompletes := by
  intro h
  obtain ⟨t, ht⟩ : ∃ t, exec (.ruleSearch 0 [131072] []) State.reset = .next t := h (.ruleSearch 0 [131072] []) State.reset
  have stops : exec (.ruleSearch 0 [131072] []) State.reset = .fault .noSuchUnit := rfl
  rw [stops] at ht
  cases ht

theorem rdOpt_reset (set obj row : Nat) : rdOpt State.reset set obj row = dfltOf obj row := rfl

theorem intLow_reset : intLow State.reset = false := by decide +kernel

/-- Settles O2: the reset state holds no register, no counter, no frame and no command. -/
theorem resetState : Obligations.ResetState :=
  ⟨rfl, rfl, rdOpt_reset, fun _ => rfl, intLow_reset, rfl, rfl⟩

/-- Settles O7: a write reads back under its own key alone, and so does a count. -/
theorem writingAndCountingChangeOneRow : Obligations.WritingAndCountingChangeOneRow := by
  refine ⟨fun s set obj row v ho hr => ⟨rdOpt_wrSet_self s set obj row v, fun set' obj' row' ho' hr' hne => ?_, rfl⟩,
    fun s off n => ⟨?_, fun o h => ?_, rfl⟩⟩
  · exact rdOpt_wrSet_ne fun hk => hne (by simpa using (dictKey_inj ho' hr' ho hr).mp hk)
  · rw [ctr_ctrAdd, if_pos rfl]
  · rw [ctr_ctrAdd, if_neg h]

/-! ### Raising a source -/

/-- The PENDING row of a source's group has another key than the source's log row. -/
theorem pendingKey_ne_logKey {g src : Nat} (hg : g < 2 ^ 32) (hs : src < 2 ^ 32) :
    dictKey 0 oEventPending g ≠ dictKey 0 oEventLog src :=
  dictKey_obj (by decide) (by decide) hg (by decide) hs

theorem rd_raise_pending_self (src detail : Nat) (s : State) :
    rd (raise src detail s) oEventPending (src / 32) = setBit (rd s oEventPending (src / 32)) (src % 32) := by
  rw [rd_congr (raise_dict src detail s), rd_wrRow_self]

theorem rd_raise_pending_ne {src g : Nat} (detail : Nat) (s : State) (hs : src < 512) (hg : g < 2 ^ 32) (h : g ≠ src / 32) :
    rd (raise src detail s) oEventPending g = rd s oEventPending g :=
  rd_raise_ne (dictKey_row h) (pendingKey_ne_logKey hg (by omega))

theorem rd_raise_log {src : Nat} (detail : Nat) (s : State) (hs : src < 512) :
    rd (raise src detail s) oEventLog src = logRow src detail s := by
  rw [rd_congr (raise_dict src detail s), rd_wrRow_ne (pendingKey_ne_logKey (by omega) (by omega)).symm, rd_wrRow_self]

/-- Settles O8: the two rows that a raise writes, its count, and what it leaves. -/
theorem raisingASource : Obligations.RaisingASource := by
  intro s src detail hs
  refine ⟨rd_raise_pending_self src detail s, fun g hg hne => rd_raise_pending_ne detail s hs hg hne, ?_, ?_, ?_, ?_,
    raise_noted src detail s (Noted.refl s)⟩
  · rw [rd_raise_log detail s hs, logRow_count]
  · rw [rd_raise_log detail s hs, logRow_time]
  · rw [rd_raise_log detail s hs, logRow_detail]
    rfl
  · rw [raise_ctr src detail s (by decide) (by decide), ctr_count, if_pos rfl]

end Sys2Proof.Machine
end

section
/-! Slack water ends and reseeding makes the two configuration sets equal (R68 to R72). -/

namespace Sys2Proof.Machine
open Sys2Proof

/-! ### Tables whose keys rise -/

section
variable {α : Type}

/-- A key below every key of a table is not in it. -/
theorem tabFind_of_lt (t : Tab α) (k : Nat) (h : ∀ e ∈ t, k < e.1) : tabFind t k = none := by
  induction t with
  | nil => rfl
  | cons e t ih =>
    rw [tabFind, if_neg (Nat.ne_of_gt (h e List.mem_cons_self)), ih fun x hx => h x (List.mem_cons_of_mem e hx)]

/-- Entries chosen by their key: a chosen key reads as before, any other is absent. -/
theorem tabFind_filter (p : Nat → Bool) (t : Tab α) (k : Nat) :
    tabFind (t.filter fun e => p e.1) k = if p k then tabFind t k else none := by
  induction t with
  | nil => simp [tabFind]
  | cons e t ih =>
    by_cases hk : e.1 = k
    · by_cases hp : p k
      · simp [hk, hp, tabFind]
      · simp [hk, hp, ih]
    · by_cases hp : p e.1
      · simp [hp, tabFind, hk, ih]
      · simp [hp, tabFind, hk, ih]

/-- Entries of a rising table inserted under new keys, of which `j` is that of `k` alone. -/
theorem tabFind_foldl_insert {f : Nat → Nat} {j k : Nat} (l t : Tab α) (hl : tabRising l = true)
    (h : ∀ e ∈ l, f e.1 = j ↔ e.1 = k) :
    tabFind (l.foldl (fun a e => tabInsert a (f e.1) e.2) t) j = (tabFind l k).or (tabFind t j) := by
  induction l generalizing t with
  | nil => rfl
  | cons e l ih =>
    have hc := List.pairwise_cons.mp ((tabRising_iff _).mp hl)
    rw [List.foldl_cons, ih _ ((tabRising_iff l).mpr hc.2) fun x hx => h x (List.mem_cons_of_mem e hx), tabFind,
      tabFind_insert]
    by_cases hk : e.1 = k
    · have hj : f e.1 = j := (h e List.mem_cons_self).mpr hk
      have hn : tabFind l k = none := tabFind_of_lt l k (hk ▸ hc.1)
      rw [hn, if_pos hj.symm, if_pos hk]
      rfl
    · have hj : j ≠ f e.1 := fun e' => hk ((h e List.mem_cons_self).mp e'.symm)
      simp [hk, hj]

/-- Entries inserted under keys other than `j` leave what `j` reads. -/
theorem tabFind_foldl_insert_ne {f : Nat → Nat} {j : Nat} (l t : Tab α) (h : ∀ e ∈ l, f e.1 ≠ j) :
    tabFind (l.foldl (fun a e => tabInsert a (f e.1) e.2) t) j = tabFind t j := by
  induction l generalizing t with
  | nil => rfl
  | cons e l ih =>
    rw [List.foldl_cons, ih _ fun x hx => h x (List.mem_cons_of_mem e hx), tabFind_insert,
      if_neg (h e List.mem_cons_self).symm]

end

/-! ### Reseeding -/

theorem keySet_dictKey {set obj row : Nat} (ho : obj < 2 ^ 32) (hr : row < 2 ^ 32) : keySet (dictKey set obj row) = set := by
  unfold keySet dictKey
  omega

theorem keyObj_dictKey {set obj row : Nat} (ho : obj < 2 ^ 32) (hr : row < 2 ^ 32) : keyObj (dictKey set obj row) = obj := by
  unfold keyObj dictKey
  omega

theorem keyRow_dictKey {set obj row : Nat} (hr : row < 2 ^ 32) : keyRow (dictKey set obj row) = row := by
  unfold keyRow dictKey
  omega

theorem dictKey_of_parts (k : Nat) : dictKey (keySet k) (keyObj k) (keyRow k) = k := by
  unfold dictKey keySet keyObj keyRow
  omega

theorem keyObj_lt (k : Nat) : keyObj k < 2 ^ 32 := Nat.mod_lt _ (by decide)

theorem keyRow_lt (k : Nat) : keyRow k < 2 ^ 32 := Nat.mod_lt _ (by decide)

/-- The key of a row's copy in a set. -/
def keyIn (set k : Nat) : Nat := dictKey set (keyObj k) (keyRow k)

/-- The copies of two rows of one set are one only where the rows are. -/
theorem keyIn_eq_iff {set set' obj row k : Nat} (ho : obj < 2 ^ 32) (hr : row < 2 ^ 32) (hk : keySet k = set) :
    keyIn set' k = dictKey set' obj row ↔ k = dictKey set obj row := by
  rw [keyIn, dictKey_inj (keyObj_lt k) (keyRow_lt k) ho hr, ← dictKey_of_parts k, hk,
    keyObj_dictKey (keyObj_lt k) (keyRow_lt k), keyRow_dictKey (keyRow_lt k), dictKey_inj (keyObj_lt k) (keyRow_lt k) ho hr]
  simp

/-- The keys of the shadowed rows of a set. -/
def shadowedIn (set k : Nat) : Bool := keySet k = set && isShadow (keyObj k)

theorem shadowedIn_dictKey {set set' obj row : Nat} (ho : obj < 2 ^ 32) (hr : row < 2 ^ 32) (hs : isShadow obj = true) :
    shadowedIn set (dictKey set' obj row) = decide (set' = set) := by
  rw [shadowedIn, keySet_dictKey ho hr, keyObj_dictKey ho hr, hs, Bool.and_true]

theorem reseed_eq (active : Nat) (t : Tab Nat) : reseed active t =
    ((t.filter fun e => !shadowedIn (1 - active) e.1).filter fun e => shadowedIn active e.1).foldl
      (fun a e => tabInsert a (keyIn (1 - active) e.1) e.2) (t.filter fun e => !shadowedIn (1 - active) e.1) := rfl

/-- After reseeding a shadowed row reads in either set what its active copy read. -/
theorem dictAt_reseed {active set obj row : Nat} {t : Tab Nat} (ha : active ≤ 1) (ht : tabRising t = true)
    (ho : obj < 2 ^ 32) (hr : row < 2 ^ 32) (hs : isShadow obj = true) (hset : set = active ∨ set = 1 - active) :
    dictAt (reseed active t) set obj row = dictAt t active obj row := by
  have hne : active ≠ 1 - active := by omega
  have found : tabFind (reseed active t) (dictKey set obj row) = tabFind t (dictKey active obj row) := by
    rw [reseed_eq]
    rcases hset with rfl | rfl
    · rw [tabFind_foldl_insert_ne, tabFind_filter (fun k => !shadowedIn (1 - set) k), shadowedIn_dictKey ho hr hs]
      · simp [hne]
      · intro e _ he
        exact hne ((dictKey_inj (keyObj_lt _) (keyRow_lt _) ho hr).mp he).1.symm
    · rw [tabFind_foldl_insert (k := dictKey active obj row), tabFind_filter (shadowedIn active),
        tabFind_filter (fun k => !shadowedIn (1 - active) k), tabFind_filter (fun k => !shadowedIn (1 - active) k),
        shadowedIn_dictKey ho hr hs, shadowedIn_dictKey ho hr hs, shadowedIn_dictKey ho hr hs]
      · simp [hne]
      · exact tabRising_filter _ _ (tabRising_filter _ _ ht)
      · intro e he
        have hk : keySet e.1 = active := by
          have := (List.mem_filter.mp he).2
          simp only [shadowedIn, Bool.and_eq_true, decide_eq_true_eq] at this
          exact this.1
        exact keyIn_eq_iff ho hr hk
  unfold dictAt
  rw [found]

/-- A shadowed row has another key than a live register. -/
theorem rdOpt_wr_shadow {set obj row obj' v : Nat} {s : State} (ho : obj < 2 ^ 32) (hr : row < 2 ^ 32)
    (hs : isShadow obj = true) (ho' : obj' < 2 ^ 32) (hs' : isShadow obj' = false) :
    rdOpt (wr obj' v s) set obj row = rdOpt s set obj row :=
  rdOpt_wrSet_ne fun e => by
    obtain ⟨-, rfl, -⟩ := (dictKey_inj ho hr ho' (by decide)).mp e
    simp [hs] at hs'

theorem exec_reseedingComplete_due {s : State} (h : setState s = 4) : exec .reseedingComplete s = .next (reseedingDone s) := by
  show execReseedingComplete s = _
  rw [execReseedingComplete, if_pos h]

/-- What a row reads after reseeding. -/
theorem rdOpt_reseedingDone {s : State} {set obj row : Nat} (ha : activeSet s ≤ 1) (ht : tabRising s.dict = true)
    (ho : obj < 2 ^ 32) (hr : row < 2 ^ 32) (hs : isShadow obj = true) (hset : set = activeSet s ∨ set = 1 - activeSet s) :
    rdOpt (reseedingDone s) set obj row = rdOpt s (activeSet s) obj row := by
  unfold reseedingDone
  rw [rdOpt_wr_shadow ho hr hs (by decide) (by decide), rdOpt_wr_shadow ho hr hs (by decide) (by decide)]
  exact dictAt_reseed ha ht ho hr hs hset

/-! ### The end of slack water -/

theorem exec_slackWaterEnd_drained {s : State} (h : slackRuns s = true) (hf : framesOf s (oldEpoch s) = []) :
    exec .slackWaterEnd s = .next (endSlack s) := by
  show execSlackWaterEnd s = _
  rw [execSlackWaterEnd, if_pos (by simp [h, hf])]

theorem exec_slackWaterEnd_waits {s : State} (hf : framesOf s (oldEpoch s) ≠ []) : exec .slackWaterEnd s = .next s := by
  show execSlackWaterEnd s = _
  rw [execSlackWaterEnd, if_neg (by simp [hf])]

theorem exec_slackTimeout_frames {s : State} (h : slackRuns s = true) (hf : framesOf s (oldEpoch s) ≠ []) :
    exec .slackTimeout s = .next (endSlack (discardOld s)) := by
  show execSlackTimeout s = _
  rw [execSlackTimeout, if_pos (by simp [h, hf])]

theorem exec_slackTimeout_drained {s : State} (hf : framesOf s (oldEpoch s) = []) : exec .slackTimeout s = .next s := by
  show execSlackTimeout s = _
  rw [execSlackTimeout, if_neg (by simp [hf])]

/-- The drain of the old epoch, before the turn or step goes on. -/
def drainedSlack (s : State) : State := freeRetired (wr oDrainedEpoch (oldEpoch s) s)

theorem freeRetired_dict (s : State) : (freeRetired s).dict = s.dict := rfl

theorem freeRetired_pip (s : State) : (freeRetired s).pip = s.pip := rfl

theorem freeRetired_ctr (s : State) : (freeRetired s).ctr = s.ctr := rfl

theorem drainedSlack_dict (s : State) : (drainedSlack s).dict = (wr oDrainedEpoch (oldEpoch s) s).dict := freeRetired_dict _

theorem endSlack_eq {s : State} (h : snapAtSlackEnd s = false) : endSlack s = afterSlack (drainedSlack s) := by
  have hr : rd (drainedSlack s) oSnapOnTurn = rd s oSnapOnTurn :=
    (rd_congr (drainedSlack_dict s) _ _).trans (rd_wr_other (by decide))
  have hs : ¬snapAtSlackEnd (drainedSlack s) = true := by
    rw [snapAtSlackEnd, hr]
    exact Bool.eq_false_iff.mp h
  exact (if_neg hs : endSlack s = _)

/-- The registers as slack water leaves them: a step ends, a turn goes on to reseeding. -/
theorem afterSlack_dict (s : State) : (afterSlack s).dict =
    if s.ep.stepping then (wr oTurnResult 1 (wr oSetState 0 s)).dict else (wr oSetState 4 s).dict := by
  unfold afterSlack
  split <;> rfl

/-- What follows slack water writes SET_STATE and TURN_RESULT alone among the registers, and nothing but the kind of the turn. -/
theorem afterSlack_frame (s : State) : (∀ obj, obj ≠ oSetState → obj ≠ oTurnResult → rd (afterSlack s) obj = rd s obj) ∧
    (afterSlack s).lt = s.lt ∧ (afterSlack s).pip = s.pip ∧ (afterSlack s).ctr = s.ctr := by
  refine ⟨fun obj h h' => ?_, ?_⟩
  · have hd := afterSlack_dict s
    split at hd
    · rw [rd_congr hd, rd_wr_other h', rd_wr_other h]
    · rw [rd_congr hd, rd_wr_other h]
  · unfold afterSlack
    split <;> exact ⟨rfl, rfl, rfl⟩

/-- A step ends; a turn goes on to reseeding. -/
theorem afterSlack_state (s : State) : if s.ep.stepping then
    rd (afterSlack s) oSetState = 0 ∧ rd (afterSlack s) oTurnResult = 1 ∧ (afterSlack s).ep.stepping = false
    else rd (afterSlack s) oSetState = 4 := by
  have hd := afterSlack_dict s
  by_cases h : s.ep.stepping = true
  · rw [if_pos h] at hd ⊢
    have he : (afterSlack s).ep.stepping = false := by rw [afterSlack, if_pos h]
    exact ⟨by rw [rd_congr hd, rd_wr_other (by decide), rd_wr_self], by rw [rd_congr hd, rd_wr_self], he⟩
  · rw [if_neg h] at hd ⊢
    rw [rd_congr hd, rd_wr_self]

theorem keepRetired_congr {s t : State} (h : rd t oDrainedEpoch = rd s oDrainedEpoch) : keepRetired t = keepRetired s := by
  funext r
  unfold keepRetired drained
  rw [h]

/-- Slack water that ends with no snapshot asked for. -/
theorem endSlack_drains {s : State} (h : snapAtSlackEnd s = false) : ∃ t, endSlack s = t ∧
    rd t oDrainedEpoch = oldEpoch s ∧
    (if s.ep.stepping then rd t oSetState = 0 ∧ rd t oTurnResult = 1 ∧ t.ep.stepping = false else rd t oSetState = 4) ∧
    t.lt = { s.lt with nh := s.lt.nh.filter (fun e => keepRetired t e.2.retired),
                       rw := s.lt.rw.filter (fun e => keepRetired t e.2.retired),
                       slots := s.lt.slots.filter (fun e => keepRetired t e.2.retired) } ∧ t.pip = s.pip ∧ t.ctr = s.ctr := by
  obtain ⟨hregs, hlt, hpip, hctr⟩ := afterSlack_frame (drainedSlack s)
  have hw : rd (wr oDrainedEpoch (oldEpoch s) s) oDrainedEpoch = oldEpoch s := rd_wr_self _ _ _
  have ht : rd (afterSlack (drainedSlack s)) oDrainedEpoch = oldEpoch s := by
    rw [hregs _ (by decide) (by decide), rd_congr (drainedSlack_dict s), hw]
  have hk : keepRetired (afterSlack (drainedSlack s)) = keepRetired (wr oDrainedEpoch (oldEpoch s) s) :=
    keepRetired_congr (ht.trans hw.symm)
  refine ⟨_, endSlack_eq h, ht, afterSlack_state (drainedSlack s), ?_,
    by rw [hpip, drainedSlack, freeRetired_pip, wr_pip], by rw [hctr, drainedSlack, freeRetired_ctr, wr_ctr]⟩
  rw [hk]
  exact hlt

/-- Settles O10: the end of slack water by what remains of the old epoch, and the copy that reseeding makes key by key
(`dictAt_reseed`). -/
theorem slackWaterAndReseeding : Obligations.SlackWaterAndReseeding := by
  refine ⟨fun s h => ⟨fun hf hn => ?_, fun hf => ⟨exec_slackTimeout_frames h hf, exec_slackWaterEnd_waits hf⟩,
    exec_slackTimeout_drained⟩, fun s h ha ht => ?_⟩
  · obtain ⟨t, he, ht⟩ := endSlack_drains hn
    exact ⟨t, by rw [exec_slackWaterEnd_drained h hf, he], ht⟩
  · refine ⟨_, exec_reseedingComplete_due h, (rd_wr_other (by decide)).trans (rd_wr_self _ _ _), rd_wr_self _ _ _,
      fun obj row ho hr hs => ⟨rdOpt_reseedingDone ha ht ho hr hs (.inr rfl), rdOpt_reseedingDone ha ht ho hr hs (.inl rfl)⟩, rfl⟩

end Sys2Proof.Machine
end

section
/-! The snapshots of BAR2 (R78 to R82) and the halts of the blocks (R55 to R57). -/

namespace Sys2Proof.Machine
open Sys2Proof

/-! ### Snapshots -/

/-- A half that frees where nothing waits for one changes nothing. -/
theorem halfFreed_of_none {s : State} (hp : s.ep.passed = false) (ht : s.ep.turnSnapDue = false) (hs : s.ep.snapDue = false) :
    halfFreed s = s := by
  simp [halfFreed, hp, ht, hs]

/-- Replacing a half leaves what waits for one. -/
theorem setHalf_waiting (n : Nat) (h : Half) (s : State) : (setHalf n h s).ep.passed = s.ep.passed ∧
    (setHalf n h s).ep.turnSnapDue = s.ep.turnSnapDue ∧ (setHalf n h s).ep.snapDue = s.ep.snapDue := by
  unfold setHalf
  split <;> exact ⟨rfl, rfl, rfl⟩

theorem exec_snapshotWritten_alone {s : State} {n : Nat} (hn : writingHalf s = some n) (hp : s.ep.passed = false)
    (ht : s.ep.turnSnapDue = false) (hs : s.ep.snapDue = false) :
    exec .snapshotWritten s = .next (wr oSnapSeq (half s n).seq (setHalf n { half s n with state := 2 } s)) := by
  obtain ⟨ep, et, es⟩ := setHalf_waiting n { half s n with state := 2 } s
  show Host.Outcome.next (snapshotDone s) = _
  rw [snapshotDone, hn]
  exact congrArg _ (halfFreed_of_none (ep.trans hp) (et.trans ht) (es.trans hs))

/-- The time of day depends on the clocks and TIME_INCREMENT. -/
theorem nowTime80_congr {s t : State} (hc : t.clk = s.clk) (hu : t.tun = s.tun) (hi : rd t oTimeIncrement = rd s oTimeIncrement) :
    nowTime80 t = nowTime80 s := by
  simp only [nowTime80, nowStamp, ptpNow, timeIncrement, hc, hu, hi]

/-- The half that a software snapshot of a state takes (R79). -/
def softwareHalf (s : State) : Half :=
  { state := 1, seq := s.ep.nextSnap, epoch := activeEpoch s, cause := 0, time := nowTime80 s, cclk := s.clk.cclk, values := s.ctr }

theorem capture_zero_eq (s : State) : capture 0 s =
    { setHalf s.ep.nextSnap (softwareHalf s) s with
      ep := { (setHalf s.ep.nextSnap (softwareHalf s) s).ep with nextSnap := s.ep.nextSnap + 1 } } := rfl

theorem half_capture_self (s : State) : half (capture 0 s) s.ep.nextSnap = softwareHalf s := by
  rw [capture_zero_eq]
  unfold half setHalf
  split <;> rfl

/-- The other half stays. -/
theorem half_capture_other (s : State) : half (capture 0 s) (s.ep.nextSnap + 1) = half s (s.ep.nextSnap + 1) := by
  rw [capture_zero_eq]
  rcases Nat.mod_two_eq_zero_or_one s.ep.nextSnap with h | h
  · have h' : (s.ep.nextSnap + 1) % 2 = 1 := by omega
    simp [half, setHalf, h, h']
  · have h' : (s.ep.nextSnap + 1) % 2 = 0 := by omega
    simp [half, setHalf, h, h']

theorem capture_zero_ctr (s : State) : (capture 0 s).ctr = s.ctr := by
  rw [capture_zero_eq]
  unfold setHalf
  split <;> rfl

/-- An accepted SNAP_REQUEST of 1 captures the state at once (R78, R82). -/
theorem snapRequest_captures {o : Origin} {level : Nat} {s : State} (hok : (Instr.snapRequest o level 1).wf = true)
    (h : acceptsWrite s o (oneWrite level oSnapRequest 0 1 1)) : ∃ t,
    exec (.snapRequest o level 1) s = .next (answered (counted o s) o (oneWrite level oSnapRequest 0 1 1) t) ∧
    half t s.ep.nextSnap = softwareHalf s ∧ half t (s.ep.nextSnap + 1) = half s (s.ep.nextSnap + 1) ∧
    t.ep.nextSnap = s.ep.nextSnap + 1 ∧ t.ctr = s.ctr := by
  have hsame : softwareHalf (wr oSnapRequest 1 (counted o s)) = softwareHalf s := by
    have he : activeEpoch (wr oSnapRequest 1 (counted o s)) = activeEpoch s := rd_wr_counted (by decide) (by decide)
    have ht : nowTime80 (wr oSnapRequest 1 (counted o s)) = nowTime80 s :=
      nowTime80_congr rfl rfl (rd_wr_counted (by decide) (by decide))
    rw [softwareHalf, he, ht]
    rfl
  refine ⟨capture 0 (wr oSnapRequest 1 (counted o s)), execSnapRequest_taken hok h, ?_, half_capture_other _, rfl,
    (capture_zero_ctr _).trans rfl⟩
  exact (half_capture_self _).trans hsame

/-! ### Halts -/

theorem testBit_setBit_ne {v n m : Nat} (h : m ≠ n) : (setBit v n).testBit m = v.testBit m := by
  simp [setBit, Nat.testBit_or, Nat.one_shiftLeft, Nat.testBit_two_pow_of_ne h.symm]

theorem exec_haltedSet {b : Nat} (s : State) (hb : b < 39) : exec (.haltedSet b) s =
    .next (if haltAsked s b && !halted s b && blockEmpty s b then wr oHalted (setBit (rd s oHalted) b) s else s) :=
  if_pos (decide_eq_true hb)

/-- A block that was asked to halt and holds nothing is halted, and no other becomes so. -/
theorem haltedSet_halts {b : Nat} {s : State} (hb : b < 39) (ha : haltAsked s b = true) (he : blockEmpty s b = true) : ∃ t,
    exec (.haltedSet b) s = .next t ∧ halted t b = true ∧ (∀ c, c ≠ b → halted t c = halted s c) ∧
    { t with dict := s.dict } = s := by
  refine ⟨_, exec_haltedSet s hb, ?_⟩
  cases hh : halted s b with
  | true => simp [hh]
  | false =>
    simp only [ha, he, Bool.not_false, Bool.and_self, if_true]
    refine ⟨?_, fun c hc => ?_, rfl⟩
    · rw [halted, rd_wr_self, testBit_setBit_self]
    · rw [halted, rd_wr_self, testBit_setBit_ne hc, halted]

theorem haltedSet_waits {b : Nat} {s : State} (hb : b < 39) (h : haltAsked s b = false ∨ blockEmpty s b = false) :
    exec (.haltedSet b) s = .next s := by
  rw [exec_haltedSet s hb, if_neg (by rcases h with h | h <;> simp [h])]

/-- Settles O11: the half that completes, the half that a software snapshot takes, and a halt by what its block holds. -/
theorem snapshotsAndHalts : Obligations.SnapshotsAndHalts :=
  ⟨⟨fun _ _ hn hp ht hs => exec_snapshotWritten_alone hn hp ht hs, fun _ _ _ hok h => snapRequest_captures hok h,
      fun _ _ _ hok h => execSnapRequest_taken hok h⟩,
    fun _ _ hb ha he => haltedSet_halts hb ha he, fun _ _ hb h => haltedSet_waits hb h,
    fun _ _ _ _ hok h => execHaltRequest_taken hok h⟩

end Sys2Proof.Machine
end

section
/-! Requests of the dictionary engine that it takes as they come: the reading opcodes (R99, R103, R657, R658), the writing ones (R59,
R60, R102), and DICT (R477, R480, R484). -/

namespace Sys2Proof.Machine
open Sys2Proof

/-! ### What the engine serves -/

/-- A request of an opcode that the engine takes as it comes is counted and served. -/
theorem requestOf_taken {op : Nat} {o : Origin} {m : Msg} {s : State} (ho : o.wf = true) (hm : m.wf = true)
    (h : engineTakes s o) (hc : messageCode (counted o s) o { m with opcode := op } = 0) : requestOf op o m s =
      .next (if op = 2 || op = 3 then serveWrite o { m with opcode := op } (counted o s)
        else serveRead o { m with opcode := op } (counted o s)) := by
  rw [requestOf, onUnits, if_pos (by simp [ho, hm]), reachEngine_taken h, serve_counted, hc, if_neg (not_not.mpr rfl)]

/-- An answer on the transport changes no register and no counter. -/
theorem respond_mgmt {o : Origin} {n : Nat} (h : o.path = .mgmt n) (r : Msg) (area : Nat) (s : State) :
    (respond o r area s).dict = s.dict ∧ (respond o r area s).ctr = s.ctr := by
  unfold respond
  simp only [h]
  unfold emit
  split <;> exact ⟨rfl, rfl⟩

/-! ### Reads -/

/-- A reading opcode whose answer finds room. -/
theorem serveRead_room {o : Origin} {m : Msg} {s : State} (h : noRoomFor o (readReply s m) = false) :
    serveRead o m s = respond o (readReply s m) (areaOf m (readReply s m).failItem) s :=
  if_neg (by rw [h]; exact Bool.false_ne_true)

/-- The commands of the reading opcodes. -/
theorem exec_reading {op : Nat} {o : Origin} {m : Msg} {c : Instr} (h : (op = 1 ∧ c = .read o m) ∨ (op = 4 ∧ c = .describe o m) ∨
    (op = 5 ∧ c = .enumerate o m) ∨ (op = 6 ∧ c = .echo o m)) (s : State) :
    exec c s = requestOf op o m s ∧ op ≠ 2 ∧ op ≠ 3 := by
  obtain ⟨rfl, rfl⟩ | ⟨rfl, rfl⟩ | ⟨rfl, rfl⟩ | ⟨rfl, rfl⟩ := h <;> exact ⟨rfl, by decide, by decide⟩

theorem describeItem_eq (i : Item) : describeItem i = match objDesc (Item.obj i) with
    | none => .inl 0x03
    | some d => if i.vlen = 12 then (if i.row = 0 then .inr (description d) else .inl 0x06) else .inl 0x05 := by
  unfold describeItem
  cases objDesc (Item.obj i) with
  | none => rfl
  | some d => simp only [ne_eq, ite_not]

theorem description_length (d : ObjDesc) : (description d).length = 12 := by
  simp [description, leBytes_length]

theorem readReply_echo (s : State) (m : Msg) (h : m.opcode = 6) : readReply s m = answer m 0 0xFF 0 [] := by
  simp [readReply, h]

/-- Settles O12: the engine takes and counts the request, and answers it (`serveRead_room`). -/
theorem readingRequests : Obligations.ReadingRequests := by
  refine ⟨fun o m s ho hm ht op c hop => ?_, describeItem_eq, description_length, readReply_echo⟩
  intro r hc hroom
  obtain ⟨he, h2, h3⟩ := exec_reading hop s
  have hs : exec c s = .next (respond o r (areaOf { m with opcode := op } r.failItem) (counted o s)) := by
    rw [he, requestOf_taken ho hm ht hc, if_neg (by simp [h2, h3]), serveRead_room hroom]
  have hctr : (counted o s).ctr = s.ctr := rfl
  refine ⟨hs, fun n hn => ⟨_, hs, ?_⟩⟩
  obtain ⟨hd, hk⟩ := respond_mgmt hn r (areaOf { m with opcode := op } r.failItem) (counted o s)
  exact ⟨hd, hk.trans hctr⟩

/-! ### Writes -/

/-- The commands of the writing opcodes. -/
theorem exec_writing {op : Nat} {o : Origin} {m : Msg} {c : Instr}
    (h : (op = 2 ∧ c = .write o m) ∨ (op = 3 ∧ c = .compoundWrite o m)) (s : State) :
    exec c s = requestOf op o m s ∧ (op = 2 || op = 3) = true := by
  obtain ⟨rfl, rfl⟩ | ⟨rfl, rfl⟩ := h <;> exact ⟨rfl, rfl⟩

/-- A write that passes every check, and that no partner takes, is applied at once. -/
theorem serveWrite_accepted {o : Origin} {m : Msg} {s : State} (hv : (writeVerdict s o.path m).1 = 0)
    (hf : forwarded s m = false) : serveWrite o m s = applyWrite o m s := by
  simp only [serveWrite, hv, hf, ne_eq, not_true_eq_false, if_false, Bool.false_eq_true]

/-- A write that starts no turn and asks for no reset is put and answered. -/
theorem applyWrite_answered {o : Origin} {m : Msg} (s : State) (ht : asksTurn m = false) (hr : asksReset m = false) :
    applyWrite o m s = answered s o m (putItems (some ⟨o, m⟩) m.items s) := by
  simp only [applyWrite, ht, hr, Bool.false_eq_true, if_false, answered]

/-- A write that a check stops is answered with what the check found. -/
theorem serveWrite_stopped {o : Origin} {m : Msg} {s : State} {code item detail : Nat}
    (hv : writeVerdict s o.path m = (code, item, detail)) (hc : code ≠ 0) :
    serveWrite o m s = respond o (answer m code item detail []) (areaOf m item) s := by
  simp only [serveWrite, hv, ne_eq, hc, not_false_eq_true, if_true]

/-! ### DICT -/

theorem exec_dict_receive {c : SqCmd} {x : Sq} {s : State} (hc : c.wf = true) (hx : sq s c.sq = some x) (hk : x.kind = 1)
    (respMax respAddr : Nat) (d : Dma) : exec (.dict c respMax respAddr d) s = .next (complete c 0x89 0x60 0 s) := by
  show execDict c respMax respAddr d s = _
  rw [execDict, onUnits, if_pos hc, hx]
  exact congrArg _ (if_pos hk)

theorem exec_dict_message {c : SqCmd} {x : Sq} {s : State} (hc : c.wf = true) (hx : sq s c.sq = some x) (hk : x.kind ≠ 1)
    (respMax respAddr : Nat) (d : Dma) :
    exec (.dict c respMax respAddr d) s = .next (dictMessage c respMax respAddr d s) := by
  show execDict c respMax respAddr d s = _
  rw [execDict, onUnits, if_pos hc, hx]
  exact congrArg _ (if_neg hk)

/-- Settles O13: a write by its verdict, and DICT by the kind of its queue and by what of its message could be read. -/
theorem writingRequests : Obligations.WritingRequests := by
  refine ⟨fun o m s ho hm op c hop => ⟨fun ha ht hr => ?_, fun ht hc code item detail n hv hne hn => ?_⟩,
    fun c x respMax respAddr s hc hx => ⟨fun hk d => exec_dict_receive hc hx hk respMax respAddr d, fun hk => ?_⟩⟩
  · obtain ⟨he, hop'⟩ := exec_writing hop s
    obtain ⟨htakes, hcode, hverdict, hfwd⟩ := ha
    rw [he, requestOf_taken ho hm htakes hcode, if_pos hop', serveWrite_accepted hverdict hfwd,
      applyWrite_answered (m := { m with opcode := op }) _ ht hr]
  · obtain ⟨he, hop'⟩ := exec_writing hop s
    refine ⟨_, ?_, (respond_mgmt hn _ _ _).1, rfl⟩
    rw [he, requestOf_taken ho hm ht hc, if_pos hop', serveWrite_stopped hv hne]
    rfl
  · exact ⟨fun b => exec_dict_message hc hx hk respMax respAddr (.data b), exec_dict_message hc hx hk respMax respAddr .fault,
      exec_dict_message hc hx hk respMax respAddr .tooLong⟩

end Sys2Proof.Machine
end

section
/-! The transport of the dictionary engine on a MGMT port (R109 to R117) and its replay windows (R113). -/

namespace Sys2Proof.Machine
open Sys2Proof

/-! ### Replay windows -/

/-- The highest number of a window has been taken where bit 0 of its mask is set. -/
theorem replayWindow_high {seq mask : Nat} (h : mask.testBit 0 = true) : replayWindow (some ⟨seq, mask⟩) seq = none := by
  simp [replayWindow, h]

/-- A window that has taken a number does not take it again (R113). -/
theorem replayWindow_once {w : Option Window} {x : Window} {seq : Nat} (hseq : seq < 2 ^ 32)
    (hw : ∀ y, w = some y → y.high < 2 ^ 32) (h : replayWindow w seq = some x) :
    x.high < 2 ^ 32 ∧ replayWindow (some x) seq = none := by
  cases w with
  | none =>
    cases h
    exact ⟨hseq, replayWindow_high rfl⟩
  | some y =>
    simp only [replayWindow] at h
    split at h
    · cases h
      exact ⟨hseq, replayWindow_high (by rw [Nat.testBit_or]; exact Bool.or_true _)⟩
    · rename_i hfar
      split at h
      · cases h
        refine ⟨hw y rfl, ?_⟩
        simp only [replayWindow, if_neg hfar, testBit_setBit_self, Bool.not_true, Bool.and_false, Bool.false_eq_true, if_false]
      · cases h

/-! ### A frame received -/

/-- The three commands that a frame on a MGMT port comes by are one reception. -/
theorem exec_mgmtFrame {n : Nat} (frame : Bytes) (s : State) (hn : isMgmt n = true) :
    exec (.mgmtFrameReceived n frame) s = .next (mgmtFrame n frame s) ∧
    exec (.injectFrame n frame) s = .next (mgmtFrame n frame s) ∧
    exec (.nonceQuery n frame) s = .next (mgmtFrame n frame s) := ⟨if_pos hn, if_pos hn, if_pos hn⟩

/-- A frame of the Mirty EtherType, of a length that the port takes, with a header of version 1 addressed to the port: a nonce
query is answered, a frame of another kind is authenticated (R109). -/
theorem mgmtFrame_header {n : Nat} {frame : Bytes} {s : State} (hr : mgmtReceives s n = true) (hl : 26 ≤ frame.length)
    (hu : frame.length ≤ 9212) (he : beAt frame 12 2 = rd s oMirtyEthertype)
    (hv : (readTHeader true (frame.drop 14)).version = 1) (hp : (readTHeader true (frame.drop 14)).len ≤ 8160)
    (ha : mgmtAddressed s n frame (readTHeader true (frame.drop 14)).kind = true)
    (hk : (readTHeader true (frame.drop 14)).kind ≠ 6) : mgmtFrame n frame s =
      if (readTHeader true (frame.drop 14)).kind = 5 then answerNonce n (readTHeader true (frame.drop 14)) (leAt frame 6 6) s
      else authFrame n (readTHeader true (frame.drop 14)) (leAt frame 6 6) (frame.drop 14) s := by
  have h1 : (frame.drop 14).length = frame.length - 14 := List.length_drop
  rw [mgmtFrame, if_neg (by simp [hr, he]; omega), if_neg]
  rw [h1]
  simp [hv, ha, hk]
  omega

theorem slice_length {b : Bytes} {o n : Nat} (h : o + n ≤ b.length) : (slice b o n).length = n := by
  rw [slice, List.length_take, List.length_drop]
  omega

theorem authFrame_fails {n : Nat} {h : THeader} {src : Nat} {b : Bytes} {s : State} (hl : 12 + h.len + 16 ≤ b.length)
    (ha : authentic s h (b.take (12 + h.len)) (slice b (12 + h.len) 16) = false) :
    authFrame n h src b s = authFails n s := by
  rw [authFrame, if_neg (not_not.mpr (slice_length hl)), if_pos (by rw [ha]; rfl)]

/-- An authentic frame by what its window says of its SEQ. -/
theorem authFrame_authentic {n : Nat} {h : THeader} {src : Nat} {b : Bytes} {s : State} (hl : 12 + h.len + 16 ≤ b.length)
    (ha : authentic s h (b.take (12 + h.len)) (slice b (12 + h.len) 16) = true) (hs : h.senderHigh = 0) (hr : h.reserved = 0)
    (hk : h.kind = 0 ∨ h.kind = 4) : authFrame n h src b s =
      match replayWindow (tabFind s.eng.windows (windowKey h.level h.sender)) h.seq with
      | none => countObj oReplays s
      | some w => takeFrame n h src (slice b 12 h.len)
          (setEng { s.eng with windows := tabInsert s.eng.windows (windowKey h.level h.sender) w } s) := by
  have hk' : ¬((h.senderHigh ≠ 0 || h.reserved ≠ 0 || (h.kind ≠ 0 && h.kind ≠ 4)) = true) := by
    rcases hk with hk | hk <;> simp [hs, hr, hk]
  exact (if_neg (not_not.mpr (slice_length hl))).trans ((if_neg (by rw [ha]; exact Bool.false_ne_true)).trans (if_neg hk'))

/-! ### Nonce queries -/

theorem used_useLimit_self (key : Nat) (s : State) : used (useLimit key s) key = used s key + 1 :=
  tabGet_put_self 0 s.ev.window key (used s key + 1)


/-- A nonce query is counted, and answered while its port's limit of the second is not used up (R112). -/
theorem answerNonce_answers {n : Nat} (h : THeader) (src : Nat) {s : State} (ht : tapTakes s = false) :
    rd (answerNonce n h src s) oNonceQueries = (rd s oNonceQueries + 1) % 2 ^ 64 ∧ (answerNonce n h src s).eng = s.eng ∧
    (if used s (nonceKey n) < 1000 then
      (answerNonce n h src s).out = s.out ++ [.mgmt n (leBytes 6 src ++ leBytes 6 (mgmtMac s n) ++
        beBytes 2 (rd s oMirtyEthertype) ++ transportHeader 6 h.level h.gen h.sender h.seq 8 ++ leBytes 8 s.eng.nonce)] ∧
      used (answerNonce n h src s) (nonceKey n) = used s (nonceKey n) + 1
     else (answerNonce n h src s).out = s.out) := by
  have hq : rd (countObj oNonceQueries s) oNonceQueries = (rd s oNonceQueries + 1) % 2 ^ 64 := rd_wr_self _ _ _
  by_cases hlim : used s (nonceKey n) < 1000
  · have hm : mgmtMac (countObj oNonceQueries s) n = mgmtMac s n := rfl
    have he : rd (countObj oNonceQueries s) oMirtyEthertype = rd s oMirtyEthertype := rd_wr_other (by decide)
    have hans : answerNonce n h src s = emit (.mgmt n (leBytes 6 src ++ leBytes 6 (mgmtMac s n) ++
        beBytes 2 (rd s oMirtyEthertype) ++ transportHeader 6 h.level h.gen h.sender h.seq 8 ++ leBytes 8 s.eng.nonce))
        (useLimit (nonceKey n) (countObj oNonceQueries s)) := by
      rw [← hm, ← he]
      exact if_neg (by show ¬1000 ≤ used s (nonceKey n); omega)
    have htap : ¬tapTakes (useLimit (nonceKey n) (countObj oNonceQueries s)) = true := by
      show ¬tapTakes s = true
      simp [ht]
    rw [if_pos hlim, hans, emit, if_neg htap]
    exact ⟨hq, rfl, rfl, used_useLimit_self (nonceKey n) (countObj oNonceQueries s)⟩
  · have hans : answerNonce n h src s = countObj oNonceQueries s :=
      if_pos (by show 1000 ≤ used s (nonceKey n); omega)
    rw [if_neg hlim, hans]
    exact ⟨hq, rfl, rfl⟩

/-- Settles O15: a frame by its header and code (`mgmtFrame_header`), an authentic one by its window, a nonce query by the limit of
its port, and a window by where the number it took lies. -/
theorem transportRequests : Obligations.TransportRequests := by
  refine ⟨fun n frame s hn hr hl hu he hd => ?_, fun n frame s hn hr hl hu he hd => ?_,
    fun w x seq hseq hw h => replayWindow_once hseq hw h⟩
  · intro b h hlen hv hp
    obtain ⟨hreceived, hinjected, -⟩ := exec_mgmtFrame frame s hn
    have hframe (hk : h.kind = 0 ∨ h.kind = 4) : mgmtFrame n frame s = authFrame n h (leAt frame 6 6) b s := by
      have hb : b.length = frame.length - 14 := List.length_drop
      have h5 : h.kind ≠ 5 := by rcases hk with hk | hk <;> rw [hk] <;> decide
      have h6 : h.kind ≠ 6 := by rcases hk with hk | hk <;> rw [hk] <;> decide
      rw [mgmtFrame_header hr (by omega) hu he hv hp (by simp [mgmtAddressed, hd]) h6, if_neg h5]
    refine ⟨fun hk ha => ?_, fun ha hs hres => ⟨fun w hw => ⟨fun hk => ?_, fun hk _ => ?_⟩, fun hk hw => ?_⟩⟩
    · rw [hreceived, hinjected, hframe hk, authFrame_fails hlen ha]
      exact ⟨rfl, rfl⟩
    · rw [hreceived, hframe (.inl hk), authFrame_authentic hlen ha hs hres (.inl hk), hw]
      simp only [takeFrame, hk]
      rfl
    · rw [hinjected, hframe (.inr hk), authFrame_authentic hlen ha hs hres (.inr hk), hw]
      simp only [takeFrame, hk]
      rfl
    · rw [hreceived, hframe (.inl hk), authFrame_authentic hlen ha hs hres (.inl hk), hw]
  · intro h hv hp hk ht
    obtain ⟨-, -, hquery⟩ := exec_mgmtFrame frame s hn
    have ha : mgmtAddressed s n frame h.kind = true := by
      rcases hd with hd | hd <;> simp [mgmtAddressed, hd, hk]
    have h6 : h.kind ≠ 6 := by rw [hk]; decide
    refine ⟨_, by rw [hquery, mgmtFrame_header hr hl hu he hv hp ha h6, if_pos hk], ?_⟩
    exact answerNonce_answers h (leAt frame 6 6) ht

end Sys2Proof.Machine
end

section
/-! Bring-up and the FEC it resolves (R147 to R150). -/

namespace Sys2Proof.Machine
open Sys2Proof

/-- Port 0 negotiates while the TAP has the balls: nothing that would be sent leaves the device (R649). -/
def negotiatingUnderTap : State :=
  { wr (oLinkState 0) 2 (wr (oOctetState 0) 2 State.reset) with pins := { State.reset.pins with tap := .extest } }

theorem linkState_negotiatingUnderTap : linkState negotiatingUnderTap 0 = 2 := by decide +kernel

theorem advertised_negotiatingUnderTap : (advertised negotiatingUnderTap 0).contains (3, false) = true := by decide +kernel

/-- Under the TAP no lane's training leaves the device. -/
theorem negotiatingUnderTap_sends_nothing :
    ∃ t, exec (.autonegComplete 0 (some (3, false)) 0 false) negotiatingUnderTap = .next t ∧ t.out = [] :=
  ⟨negotiatedPort 0 false 0 false negotiatingUnderTap, by
    show execAutonegComplete 0 (some (3, false)) 0 false negotiatingUnderTap = _
    rw [execAutonegComplete, onUnits, if_pos (by decide), if_neg (not_not.mpr linkState_negotiatingUnderTap)]
    exact congrArg Host.Outcome.next (if_pos advertised_negotiatingUnderTap), by decide +kernel⟩

/-- Refutes O17: every lane of the port is said to transmit in training, as an output of the device, with no condition on the
TAP; with EXTEST in the TAP's instruction register nothing leaves the device (R649), so a port of one lane adds no output. -/
theorem not_bringUp : ¬ Obligations.BringUp := by
  rintro ⟨goesOn, -⟩
  obtain ⟨negotiating, -⟩ := goesOn 0 negotiatingUnderTap rfl
  obtain ⟨-, resolves⟩ := negotiating linkState_negotiatingUnderTap 0 false
  obtain ⟨t, runs, -, -, sends, -⟩ := (resolves (3, false)).2 advertised_negotiatingUnderTap
  obtain ⟨u, runs', silent⟩ := negotiatingUnderTap_sends_nothing
  rw [runs] at runs'
  cases runs'
  rw [silent] at sends
  exact absurd sends (by decide +kernel)

/-! ### RESOLVED_FEC (R148) -/

theorem driveLane_dict (training : Bool) (lane : Nat) (s : State) : (driveLane training lane s).dict = s.dict := emit_dict _ s

theorem driveLanes_dict (training : Bool) (p : Nat) (s : State) : (driveLanes training p s).dict = s.dict :=
  forEach_dict (fun t k => driveLane_dict training (p + k) t) _ s

theorem driveLane_prt (training : Bool) (lane : Nat) (s : State) : (driveLane training lane s).prt = s.prt := by
  rw [driveLane, emit]
  split <;> rfl

theorem forEach_prt {α : Type} {f : State → α → State} (h : ∀ t a, (f t a).prt = t.prt) (l : List α) (s : State) :
    (forEach l f s).prt = s.prt := by
  induction l generalizing s with
  | nil => rfl
  | cons a l ih => exact (ih (f s a)).trans (h s a)

theorem driveLanes_prt (training : Bool) (p : Nat) (s : State) : (driveLanes training p s).prt = s.prt :=
  forEach_prt (fun t k => driveLane_prt training (p + k) t) _ s

/-- What a port resolves is a matter of its working state and of three registers. -/
theorem resolveFec_congr {s t : State} {p : Nat} (hp : t.prt = s.prt) (hm : modeOf t p = modeOf s p)
    (ha : rd t (oFecAdvertise p) = rd s (oFecAdvertise p)) (hf : rd t (oFecMode p) = rd s (oFecMode p)) :
    resolveFec t p = resolveFec s p := by
  have hx : port t p = port s p := by rw [port, hp]; rfl
  rw [resolveFec, hm, ha, hf, hx]
  rfl

theorem resolveFec_of_25G {p : Nat} {s : State} (hs : modeSpeed (modeOf s p) = 1) (hn : (port s p).negotiated = true) :
    resolveFec s p =
      (let own := rd s (oFecAdvertise p)
       let page := (port s p).fecPage
       let base := own.testBit 0 && page.testBit 0
       let rs := own.testBit 2 || page.testBit 2
       let br := own.testBit 1 || page.testBit 1
       if (port s p).sTech then (if base && (br || rs) then 1 else 0)
       else if rs then 2 else if base && br then 1 else 0) := by
  simp [resolveFec, hs, hn]

theorem resolveFec_of_other {p : Nat} {s : State} (h : modeSpeed (modeOf s p) ≠ 1 ∨ (port s p).negotiated = false) :
    resolveFec s p = rd s (oFecMode p) := by
  rcases h with h | h <;> simp [resolveFec, h]

/-- A write of a port's RESOLVED_FEC or LINK_STATE leaves what the port resolves. -/
theorem resolveFec_wr {p obj : Nat} (v : Nat) (s : State) (h : obj = oResolvedFec p ∨ obj = oLinkState p) :
    resolveFec (wr obj v s) p = resolveFec s p := by
  have distinct : oOctetMode (octetOf p) ≠ obj ∧ oFecAdvertise p ≠ obj ∧ oFecMode p ≠ obj := by
    unfold oOctetMode oFecAdvertise oFecMode
    rcases h with rfl | rfl <;> [unfold oResolvedFec; unfold oLinkState] <;> omega
  obtain ⟨hm, ha, hf⟩ := distinct
  exact resolveFec_congr wr_prt (rd_wr_other hm) (rd_wr_other ha) (rd_wr_other hf)

/-- The end of a negotiation reports what it resolved: neither the state that training is entered in nor the lanes that
transmit change it. -/
theorem negotiatedPort_reports (p : Nat) (sTech : Bool) (page : Nat) (eee : Bool) (s : State) :
    rd (negotiatedPort p sTech page eee s) (oResolvedFec p) = resolveFec (negotiatedPort p sTech page eee s) p := by
  generalize hu : setPort p { port s p with negotiated := true, sTech := sTech, fecPage := page, eee := eee } s = u
  have hn : negotiatedPort p sTech page eee s = driveLanes true p (wr (oLinkState p) 3 (wr (oResolvedFec p) (resolveFec u p) u)) := by
    rw [← hu]
    rfl
  have hd (v : State) : (driveLanes true p v).dict = v.dict := driveLanes_dict true p v
  rw [hn, rd_congr (hd _), rd_wr_other (by unfold oResolvedFec oLinkState; omega), rd_wr_self,
    resolveFec_congr (driveLanes_prt true p _) (rd_congr (hd _) _ 0) (rd_congr (hd _) _ 0) (rd_congr (hd _) _ 0),
    resolveFec_wr _ _ (.inr rfl), resolveFec_wr _ _ (.inl rfl)]

theorem exec_autonegComplete_of_common {p page : Nat} {eee : Bool} {tech : Nat × Bool} {s : State} (hp : isPort p = true)
    (h2 : linkState s p = 2) (ht : (advertised s p).contains tech = true) :
    exec (.autonegComplete p (some tech) page eee) s = .next (negotiatedPort p tech.2 page eee s) := by
  show execAutonegComplete p (some tech) page eee s = _
  rw [execAutonegComplete, onUnits, if_pos hp, if_neg (not_not.mpr h2)]
  exact congrArg Host.Outcome.next (if_pos ht)

/-- Settles O18: the two cases of `resolveFec`, and what the end of a negotiation leaves in RESOLVED_FEC. -/
theorem resolvedFec : Obligations.ResolvedFec :=
  ⟨fun _ _ => resolveFec_of_25G, fun _ _ => resolveFec_of_other,
    fun p s tech page eee hp h2 ht => ⟨negotiatedPort p tech.2 page eee s, exec_autonegComplete_of_common hp h2 ht,
      negotiatedPort_reports p tech.2 page eee s⟩⟩

end Sys2Proof.Machine
end

section
/-! Connection states (R357, R358), slot tables and the rebalancing loop (R348 to R354). -/

namespace Sys2Proof.Machine
open Sys2Proof

/-! ### CONN_STATE -/

theorem mem_of_nth_eq_some {l : List (Option Nat)} {i n : Nat} (h : nth none l i = some n) : some n ∈ l := by
  rw [nth, List.getD_eq_getElem?_getD] at h
  cases hl : l[i]? with
  | none => simp [hl] at h
  | some o =>
    rw [hl, Option.getD_some] at h
    exact h ▸ List.mem_of_getElem? hl

/-- The states of Table 9-7 fit in the four bits of STATE. -/
theorem tcpNext_lt {st flags n : Nat} {resp oneSided : Bool} (h : tcpNext st resp oneSided flags = some n) : n < 16 := by
  have bounded (l : List (Option Nat)) (hl : ∀ o ∈ l, o.getD 0 < 16) (hn : nth none l st = some n) : n < 16 :=
    hl (some n) (mem_of_nth_eq_some hn)
  simp only [tcpNext] at h
  split_ifs at h
  · cases h
    decide
  · exact bounded _ (by decide) h
  · exact bounded _ (by decide) h
  · exact bounded _ (by decide) h
  · exact bounded _ (by decide) h
  · exact bounded _ (by decide) h
  · cases h
    decide
  · exact bounded _ (by decide) h

theorem testBit_four_eq (v : Nat) : v.testBit 4 = decide (v / 16 % 2 = 1) := by rw [Nat.testBit_eq_decide_div_mod_eq]

theorem testBit_five_eq (v : Nat) : v.testBit 5 = decide (v / 32 % 2 = 1) := by rw [Nat.testBit_eq_decide_div_mod_eq]

/-- The parts of a CONN_STATE that is put together from MACHINE, INIT_DIR and a STATE of four bits. -/
theorem connParts {m st : Nat} (d : Bool) (h : st < 16) :
    (m * 64 + b2n d * 32 + st) % 16 = st ∧ (m * 64 + b2n d * 32 + st).testBit 5 = d ∧
      (m * 64 + b2n d * 32 + st).testBit 4 = false ∧ (m * 64 + b2n d * 32 + st) / 64 = m := by
  rw [testBit_five_eq, testBit_four_eq]
  have hd : b2n d = 0 ∧ d = false ∨ b2n d = 1 ∧ d = true := by cases d <;> simp [b2n]
  rcases hd with ⟨hb, rfl⟩ | ⟨hb, rfl⟩ <;> rw [hb] <;>
    simp only [decide_eq_true_eq, decide_eq_false_iff_not] <;> omega

theorem connInit_parts (proto flags : Nat) (swapped : Bool) :
    let c := connInit true proto flags swapped
    c % 16 = (if proto = 6 ∧ ¬(flags.testBit 1 = true ∧ flags.testBit 4 = false) then 8 else 0) ∧ c.testBit 5 = swapped ∧
      c.testBit 4 = false ∧ c / 64 = (if proto = 6 then 1 else if proto = 17 then 2 else 3) ∧
      connInit false proto flags swapped = 0 := by
  have hm : machineOf proto = 1 ↔ proto = 6 := by unfold machineOf; split_ifs <;> omega
  have hst : (machineOf proto = 1 && !(flags.testBit 1 && !flags.testBit 4)) = true ↔
      proto = 6 ∧ ¬(flags.testBit 1 = true ∧ flags.testBit 4 = false) := by
    rw [Bool.and_eq_true, decide_eq_true_eq, hm]
    cases flags.testBit 1 <;> cases flags.testBit 4 <;> simp
  have hc : connInit true proto flags swapped = machineOf proto * 64 + b2n swapped * 32 +
      (if proto = 6 ∧ ¬(flags.testBit 1 = true ∧ flags.testBit 4 = false) then 8 else 0) := by
    simp only [connInit, hst, Bool.not_true, Bool.false_eq_true, if_false]
  obtain ⟨h1, h2, h3, h4⟩ := connParts (m := machineOf proto)
    (st := if proto = 6 ∧ ¬(flags.testBit 1 = true ∧ flags.testBit 4 = false) then 8 else 0) swapped (by split <;> omega)
  simp only [hc]
  exact ⟨h1, h2, h3, h4, rfl⟩

theorem connNext_parts {conn flags : Nat} {resp oneSided : Bool} (h : conn / 64 ≠ 0) :
    let x := connNext conn resp oneSided flags
    (x.2 = true → x.1 % 16 = conn % 16 ∧ x.1.testBit 4 = true) ∧ (x.2 = false → x.1.testBit 4 = false) ∧
      x.1 / 32 = conn / 32 ∧ (conn / 64 = 1 → flags.testBit 2 = true → x = (conn / 32 * 32 + 7, false)) := by
  simp only [connNext, if_neg h, testBit_four_eq]
  by_cases tcp : conn / 64 = 1
  · rw [if_pos tcp]
    cases hn : tcpNext (conn % 16) resp oneSided flags with
    | some n =>
      have hlt := tcpNext_lt hn
      have reset (hr : flags.testBit 2 = true) : n = 7 := by simpa [tcpNext, hr] using hn.symm
      refine ⟨fun e => (by cases e), fun _ => ?_, by simp only; omega, fun _ hr => by rw [reset hr]⟩
      simp only [decide_eq_false_iff_not]
      omega
    | none =>
      have noReset (hr : flags.testBit 2 = true) : False := by simp [tcpNext, hr] at hn
      refine ⟨fun _ => ⟨by simp only; omega, ?_⟩, fun e => (by cases e), by simp only; omega, fun _ hr => (noReset hr).elim⟩
      simp only [decide_eq_true_eq]
      omega
  · rw [if_neg tcp]
    have hlt : (if (decide (conn % 16 = 0) && resp) = true then 1 else conn % 16) < 16 := by split <;> omega
    refine ⟨fun e => (by cases e), fun _ => ?_, by simp only; omega, fun e => absurd e tcp⟩
    simp only [decide_eq_false_iff_not]
    omega

/-- Settles O37: the fields of CONN_STATE as `connInit` and `connNext` put them together. -/
theorem connectionStates : Obligations.ConnectionStates :=
  ⟨connInit_parts, fun _ _ _ _ => connNext_parts⟩

/-! ### Slot tables -/

theorem mirrorChange_issued (args : List Nat) (s : State) : Issued s (mirrorChange args s) := by
  unfold mirrorChange
  split
  · exact issue_issued 14 19 args [] s (Issued.refl s)
  · exact Issued.refl s

theorem length_keepSlots (n : List (Nat × Nat)) (l : List (Option Nat)) (kept : Tab Nat) :
    (keepSlots n l kept).1.length = l.length := by
  induction l generalizing kept with
  | nil => rfl
  | cons o t ih =>
    rw [keepSlots]
    split
    · split <;> simp [ih]
    · simp [ih]

theorem length_fillSlots (n : List (Nat × Nat)) (l : List (Option Nat)) (kept : Tab Nat) :
    (fillSlots n l kept).length = l.length := by
  induction l generalizing kept with
  | nil => rfl
  | cons o t ih =>
    cases o with
    | some r => simp [fillSlots, ih]
    | none =>
      rw [fillSlots]
      split <;> simp [ih]

theorem length_newSlots (s : State) (t : Nat) : (newSlots s t).length = 4096 := by
  simp [newSlots, length_fillSlots, length_keepSlots]

/-- The values of a list put at consecutive keys from `base + n` on. -/
theorem tabGet_foldl_put (base : Nat) (l : List Nat) (n : Nat) (a : Tab Nat) (k : Nat) :
    tabGet 0 ((l.zipIdx n).foldl (fun a x => tabPut 0 a (base + x.2) x.1) a) k =
      if base + n ≤ k ∧ k < base + n + l.length then nth 0 l (k - (base + n)) else tabGet 0 a k := by
  induction l generalizing n a with
  | nil => simp
  | cons v l ih =>
    rw [List.zipIdx_cons, List.foldl_cons, ih, tabGet_put]
    by_cases hk : k = base + n
    · subst hk
      rw [if_neg (by omega), if_pos rfl, if_pos ⟨Nat.le_refl _, by simp⟩, Nat.sub_self]
      rfl
    · by_cases hin : base + n ≤ k ∧ k < base + n + (v :: l).length
      · obtain ⟨j, rfl⟩ : ∃ j, k = base + (n + 1) + j := ⟨k - (base + (n + 1)), by omega⟩
        rw [if_pos hin, if_pos ⟨by omega, by simp at hin; omega⟩, show base + (n + 1) + j - (base + n) = j + 1 by omega,
          show base + (n + 1) + j - (base + (n + 1)) = j by omega]; rfl
      · rw [if_neg hin, if_neg (by simp at hin ⊢; omega), if_neg hk]

/-- Slot tables hold 0 or a row plus 1. -/
def slotCode : Option Nat → Nat
  | some r => r + 1
  | none => 0

theorem tabGet_installSlots (t : Nat) (l : List Nat) (s : State) (k i : Nat) (hl : l.length = 4096) (hi : i < 4096) :
    tabGet 0 (installSlots t l s).svc.slotTab (k * 4096 + i) =
      if k = t then nth 0 l i else tabGet 0 s.svc.slotTab (k * 4096 + i) := by
  show tabGet 0 (List.foldl _ _ _) _ = _
  rw [tabGet_foldl_put, hl]
  by_cases hk : k = t
  · subst hk
    rw [if_pos ⟨by omega, by omega⟩, if_pos rfl, show k * 4096 + i - (k * 4096 + 0) = i by omega]
  · have other : (k * 4096 + i) / 4096 ≠ t := by omega
    rw [if_neg (by omega), if_neg hk, tabGet, tabGet, tabFind_filter fun j => decide (j / 4096 ≠ t),
      if_pos (decide_eq_true other)]

theorem nth_map_slotCode (l : List (Option Nat)) (i : Nat) :
    (if nth 0 (l.map slotCode) i = 0 then none else some (nth 0 (l.map slotCode) i - 1)) = nth none l i := by
  simp only [nth, List.getD_eq_getElem?_getD, List.getElem?_map]
  rcases l[i]? with _ | _ | r <;> simp [slotCode]

theorem installSlots_led (t : Nat) (l : List Nat) (s : State) : (installSlots t l s).led = s.led := rfl
theorem installSlots_rebuild (t : Nat) (l : List Nat) (s : State) : (installSlots t l s).svc.rebuild = s.svc.rebuild := rfl
theorem installSlots_backends (t : Nat) (l : List Nat) (s : State) : (installSlots t l s).svc.backends = s.svc.backends := rfl
theorem installSlots_ports (t : Nat) (l : List Nat) (s : State) : (installSlots t l s).svc.ports = s.svc.ports := rfl

/-- A rebuild takes the table from those that are due. -/
def rebuilt (t : Nat) (s : State) : State := setSvc { s.svc with rebuild := s.svc.rebuild.erase t } s

theorem exec_slotTableRebuild_due {t : Nat} {s : State} (ht : isService t = true) (hd : s.svc.rebuild.contains t = true)
    (hr : role s ≠ 3) : exec (.slotTableRebuild t) s = .next (mirrorChange [3, t] (count (cBackend t 0x20)
      (installSlots t ((newSlots s t).map slotCode) (rebuilt t s)))) := by
  have code : (newSlots s t).map slotCode = (newSlots s t).map (fun o => match o with | some r => r + 1 | none => 0) :=
    List.map_congr_left fun o _ => by cases o <;> rfl
  show execSlotTableRebuild t s = _
  rw [execSlotTableRebuild, onUnits, if_pos ht, if_pos (by rw [hd, decide_eq_true hr]; rfl), code]
  rfl

theorem exec_slotTableRebuild_idle {t : Nat} {s : State} (ht : isService t = true)
    (h : s.svc.rebuild.contains t = false ∨ role s = 3) : exec (.slotTableRebuild t) s = .next s := by
  show execSlotTableRebuild t s = _
  rw [execSlotTableRebuild, onUnits, if_pos ht, if_neg]
  rw [Bool.and_eq_true, decide_eq_true_eq]
  rintro ⟨hd, hr⟩
  rcases h with h | h
  · rw [hd] at h
    cases h
  · exact hr h

/-- A rebuild installs the new slots of its table and leaves those of every other. -/
theorem slotTableRebuild_installs {t : Nat} {s : State} (ht : isService t = true) (hd : s.svc.rebuild.contains t = true)
    (hr : role s ≠ 3) : ∃ u, exec (.slotTableRebuild t) s = .next u ∧
      (∀ i, i < 4096 → tableSlot u t i = nth none (newSlots s t) i) ∧
      (∀ k i, k ≠ t → i < 4096 → tableSlot u k i = tableSlot s k i) ∧ u.svc.rebuild = s.svc.rebuild.erase t ∧
      u.svc.backends = s.svc.backends ∧ u.svc.ports = s.svc.ports ∧ u.led = s.led := by
  refine ⟨_, exec_slotTableRebuild_due ht hd hr, ?_⟩
  generalize hl : (newSlots s t).map slotCode = l
  generalize hv : rebuilt t s = v
  have hvs : v.svc = { s.svc with rebuild := s.svc.rebuild.erase t } ∧ v.led = s.led := by subst hv; exact ⟨rfl, rfl⟩
  have issued := mirrorChange_issued [3, t] (count (cBackend t 0x20) (installSlots t l v))
  have hsvc := issued.svc.trans count_svc
  have slots (k i : Nat) (hi : i < 4096) := tabGet_installSlots t l v k i (by simp [← hl, length_newSlots]) hi
  refine ⟨fun i hi => ?_, fun k i hk hi => ?_, ?_, ?_, ?_, ?_⟩
  · rw [tableSlot, hsvc, slots t i hi, if_pos rfl, ← hl]
    exact nth_map_slotCode _ i
  · rw [tableSlot, tableSlot, hsvc, slots k i hi, if_neg hk, hvs.1]
  · rw [hsvc, installSlots_rebuild, hvs.1]
  · rw [hsvc, installSlots_backends, hvs.1]
  · rw [hsvc, installSlots_ports, hvs.1]
  · rw [issued.led, count_led, installSlots_led, hvs.2]

/-! ### BACKEND_STATE -/

theorem rebuildDue_contains (t : Nat) (s : State) : (rebuildDue t s).svc.rebuild.contains t = true := by
  unfold rebuildDue
  split
  · assumption
  · simp [setSvc]

theorem rebuildDue_slotTab (t : Nat) (s : State) : (rebuildDue t s).svc.slotTab = s.svc.slotTab := by
  unfold rebuildDue
  split <;> rfl

theorem rebuildDue_ports (t : Nat) (s : State) : (rebuildDue t s).svc.ports = s.svc.ports := by
  unfold rebuildDue
  split <;> rfl

theorem rebuildDue_backends (t : Nat) (s : State) : (rebuildDue t s).svc.backends = s.svc.backends := by
  unfold rebuildDue
  split <;> rfl

theorem rebuildDue_led (t : Nat) (s : State) : (rebuildDue t s).led = s.led := by
  unfold rebuildDue
  split <;> rfl

/-- A change of BACKEND_STATE as one written register, with the table made due where the state changes. -/
theorem writeBackendState_eq (row v : Nat) (s : State) : writeBackendState row v s =
    if (decide (rd s oBackendState row ≠ v) && isService (beOf (beRow s (activeSet s) row))) = true
    then rebuildDue (beOf (beRow s (activeSet s) row)) (wrRow oBackendState row v s) else wrRow oBackendState row v s := rfl

theorem writeBackendState_dict (row v : Nat) (s : State) : (writeBackendState row v s).dict = (wrRow oBackendState row v s).dict := by
  rw [writeBackendState_eq]
  split
  · exact rebuildDue_dict _ _
  · rfl

theorem writeBackendState_slotTab (row v : Nat) (s : State) : (writeBackendState row v s).svc.slotTab = s.svc.slotTab := by
  rw [writeBackendState_eq]
  split
  · rw [rebuildDue_slotTab, wrRow_svc]
  · rw [wrRow_svc]

theorem writeBackendState_led (row v : Nat) (s : State) : (writeBackendState row v s).led = s.led := by
  rw [writeBackendState_eq]
  split
  · rw [rebuildDue_led, wrRow_led]
  · rw [wrRow_led]

/-- BACKENDS rows and the active set are read past the count of a request. -/
theorem beRow_counted (o : Origin) {row : Nat} (s : State) (hr : row < 2 ^ 32) :
    beRow (counted o s) (activeSet (counted o s)) row = beRow s (activeSet s) row := by
  have hset : activeSet (counted o s) = activeSet s := rd_counted (by decide)
  have hk : dictKey (activeSet s) oBackends row ≠ dictKey 0 oRequests 0 := fun e =>
    absurd ((dictKey_inj (by decide) hr (by decide) (by decide)).mp e).2.1 (by decide)
  rw [hset, beRow, beRow, rdSet, rdSet]
  exact congrArg (fun v : Option Nat => leBytes 32 (v.getD 0)) (rdOpt_wrSet_ne hk)

theorem backendState_accepted {o : Origin} {level row v : Nat} {s : State} (hok : (Instr.backendState o level row v).wf = true)
    (h : acceptsWrite s o (oneWrite level oBackendState row 1 v)) : ∃ t,
      exec (.backendState o level row v) s = .next (answered (counted o s) o (oneWrite level oBackendState row 1 v) t) ∧
      rd t oBackendState row = v ∧ (∀ r, r < 2 ^ 32 → r ≠ row → rd t oBackendState r = rd s oBackendState r) ∧
      (rd s oBackendState row ≠ v → isService (beOf (beRow s (activeSet s) row)) = true →
        t.svc.rebuild.contains (beOf (beRow s (activeSet s) row)) = true) ∧
      t.svc.slotTab = s.svc.slotTab ∧ t.led = s.led := by
  have hrow : row < 2 ^ 32 := by
    simp only [Instr.wf, Bool.and_eq_true, decide_eq_true_eq] at hok
    exact hok.1.2
  have hst {r : Nat} (hr : r < 2 ^ 32) : rd (counted o s) oBackendState r = rd s oBackendState r :=
    rd_wr_ne (dictKey_obj (by decide) (by decide) hr (by decide) (by decide))
  refine ⟨_, execBackendState_taken hok h, ?_, fun r hr hne => ?_, fun hv hsv => ?_, writeBackendState_slotTab row v _,
    writeBackendState_led row v _⟩
  · rw [rd_congr (writeBackendState_dict row v _), rd_wrRow_self]
  · rw [rd_congr (writeBackendState_dict row v _), rd_wrRow_ne (dictKey_row hne), hst hr]
  · rw [writeBackendState_eq, hst hrow, beRow_counted o s hrow, if_pos (by simp [hv, hsv])]
    exact rebuildDue_contains _ _

/-! ### The rebalancing loop -/

/-- What the rebalancing loop leaves as it was. -/
def LoopKept (s t : State) : Prop := t.svc.ports = s.svc.ports ∧ t.svc.slotTab = s.svc.slotTab ∧ t.led = s.led

theorem LoopKept.refl (s : State) : LoopKept s s := ⟨rfl, rfl, rfl⟩

theorem LoopKept.trans {s t u : State} (h : LoopKept s t) (g : LoopKept t u) : LoopKept s u :=
  ⟨g.1.trans h.1, g.2.1.trans h.2.1, g.2.2.trans h.2.2⟩

theorem LoopKept.forEach {α : Type} {f : State → α → State} (h : ∀ t a, LoopKept t (f t a)) (l : List α) (s : State) :
    LoopKept s (forEach l f s) := by
  induction l generalizing s with
  | nil => exact LoopKept.refl s
  | cons a l ih => exact (h s a).trans (ih (f s a))

theorem be_setBe (r k : Nat) (x : BackendSt) (s : State) : be (setBe r x s) k = if k = r then x else be s k :=
  tabGet_put _ _ _ _ _

theorem be_congr {s t : State} (h : t.svc.backends = s.svc.backends) (r : Nat) : be t r = be s r := by rw [be, be, h]

theorem setBe_loopKept (r : Nat) (x : BackendSt) (s : State) : LoopKept s (setBe r x s) := ⟨rfl, rfl, rfl⟩

/-- The effective weight that the loop gives a row. -/
def newEff (tab : BeTable) (e load w totalLoad totalW : Nat) : Nat :=
  fracRound (fracMin (fracMax (wantOf e load w totalLoad totalW) (16 * w * tab.floor, 100)) (16 * w * tab.ceiling, 100))

/-- One row of the loop: its working values change, and what follows from a changed weight leaves all working values. -/
theorem rebalanceRow_effect (tab : BeTable) (r e load w totalLoad totalW : Nat) (s : State) : ∃ n u,
    u = setBe r { be s r with beyond := n, eff := newEff tab e load w totalLoad totalW } s ∧
    (rebalanceRow tab r e load w totalLoad totalW s).svc.backends = u.svc.backends ∧
    LoopKept u (rebalanceRow tab r e load w totalLoad totalW s) := by
  unfold rebalanceRow
  extract_lets want lo hi beyond n src x u
  refine ⟨_, u, rfl, ?_⟩
  split
  · obtain hm := mirrorChange_issued [4, r] (rebuildDue (beOf (beRow u (activeSet u) r)) u)
    refine ⟨?_, ?_, ?_, ?_⟩
    · rw [hm.svc, rebuildDue_backends]
    · rw [hm.svc, rebuildDue_ports]
    · rw [hm.svc, rebuildDue_slotTab]
    · rw [hm.led, rebuildDue_led]
  · exact ⟨rfl, LoopKept.refl u⟩

theorem be_rebalanceRow (tab : BeTable) (r e load w totalLoad totalW k : Nat) (s : State) :
    (be (rebalanceRow tab r e load w totalLoad totalW s) k).eff =
      (if k = r then newEff tab e load w totalLoad totalW else (be s k).eff) ∧
    (be (rebalanceRow tab r e load w totalLoad totalW s) k).records = (be s k).records := by
  obtain ⟨n, u, rfl, hb, -⟩ := rebalanceRow_effect tab r e load w totalLoad totalW s
  rw [be_congr hb, be_setBe]
  by_cases hk : k = r
  · simp [hk]
  · simp [hk]

theorem rebalanceRow_loopKept (tab : BeTable) (r e load w totalLoad totalW : Nat) (s : State) :
    LoopKept s (rebalanceRow tab r e load w totalLoad totalW s) := by
  obtain ⟨n, u, rfl, -, hk⟩ := rebalanceRow_effect tab r e load w totalLoad totalW s
  exact (setBe_loopKept _ _ s).trans hk

/-- A row of the loop's plan: effective weight, load and weight as they were at the start of the run. -/
def planRow (s : State) (mode r : Nat) : Nat × Nat × Nat × Nat :=
  (r, effWeight s r, loadOf s mode r, beWeight (beRow s (activeSet s) r))

/-- The loop over rows, with the plan made in state `v`. -/
def loopRows (v : State) (tab : BeTable) (total weights : Nat) (rows : List Nat) (s : State) : State :=
  forEach (rows.map (planRow v tab.mode)) (fun u x => rebalanceRow tab x.1 x.2.1 x.2.2.1 x.2.2.2 total weights u) s

theorem be_loopRows (v : State) (tab : BeTable) (total weights : Nat) (rows : List Nat) (s : State) (k : Nat) :
    (be (loopRows v tab total weights rows s) k).eff =
      (if k ∈ rows then newEff tab (effWeight v k) (loadOf v tab.mode k) (beWeight (beRow v (activeSet v) k)) total weights
       else (be s k).eff) ∧
    (be (loopRows v tab total weights rows s) k).records = (be s k).records := by
  induction rows generalizing s with
  | nil => exact ⟨rfl, rfl⟩
  | cons r rows ih =>
    have first := be_rebalanceRow tab r (effWeight v r) (loadOf v tab.mode r) (beWeight (beRow v (activeSet v) r)) total weights k s
    obtain ⟨he, hr⟩ := ih (rebalanceRow tab r (effWeight v r) (loadOf v tab.mode r) (beWeight (beRow v (activeSet v) r))
      total weights s)
    refine ⟨he.trans ?_, hr.trans first.2⟩
    rw [first.1]
    by_cases hk : k = r
    · simp [hk]
    · simp [hk]

theorem loopRows_loopKept (v : State) (tab : BeTable) (total weights : Nat) (rows : List Nat) (s : State) :
    LoopKept s (loopRows v tab total weights rows s) := by
  unfold loopRows
  refine LoopKept.forEach (fun t x => ?_) _ s
  with_reducible exact rebalanceRow_loopKept tab _ _ _ _ total weights t

/-- Rows that are not in the loop, or run with no load, are no longer beyond their bound. -/
def clearBeyond (rows : List Nat) (s : State) : State := forEach rows (fun u r => setBe r { be u r with beyond := 0 } u) s

theorem be_clearBeyond (rows : List Nat) (s : State) (k : Nat) :
    (be (clearBeyond rows s) k).eff = (be s k).eff ∧ (be (clearBeyond rows s) k).records = (be s k).records := by
  induction rows generalizing s with
  | nil => exact ⟨rfl, rfl⟩
  | cons r rows ih =>
    obtain ⟨he, hr⟩ := ih (setBe r { be s r with beyond := 0 } s)
    rw [be_setBe] at he hr
    refine ⟨he.trans ?_, hr.trans ?_⟩ <;> split <;> simp [*]

theorem clearBeyond_loopKept (rows : List Nat) (s : State) : LoopKept s (clearBeyond rows s) :=
  LoopKept.forEach (fun t r => setBe_loopKept r { be t r with beyond := 0 } t) _ s

theorem setSvc_loopKept {v : Svc} {s : State} (hp : v.ports = s.svc.ports) (ht : v.slotTab = s.svc.slotTab) :
    LoopKept s (setSvc v s) := ⟨hp, ht, rfl⟩

theorem LoopKept.of_eq {s t : State} (h : t.svc = s.svc) (hl : t.led = s.led) : LoopKept s t :=
  ⟨congrArg Svc.ports h, congrArg Svc.slotTab h, hl⟩

theorem pressure_effect (t : Nat) (rows : List Nat) (s : State) :
    (pressure t rows s).svc.backends = s.svc.backends ∧ LoopKept s (pressure t rows s) := by
  have after {u v : State} (hu : u.svc.backends = s.svc.backends) (k : LoopKept s u) (hs : v.svc = u.svc) (hl : v.led = u.led) :
      v.svc.backends = s.svc.backends ∧ LoopKept s v := ⟨(congrArg Svc.backends hs).trans hu, k.trans (.of_eq hs hl)⟩
  unfold pressure
  split
  · exact after (u := setSvc { s.svc with pressed := s.svc.pressed.erase t } s) rfl (setSvc_loopKept rfl rfl) wrRow_svc wrRow_led
  · split
    · have noted (w : State) := raise_noted evPolicyPressure t (wrRow oRebalPressure t 1 (count (cBackend t 0x28) w)) (Noted.refl _)
      exact after (u := setSvc { s.svc with pressed := s.svc.pressed ++ [t] } s) rfl (setSvc_loopKept rfl rfl)
        ((noted _).svc.trans (wrRow_svc.trans count_svc)) ((noted _).led.trans (wrRow_led.trans count_led))
    · exact ⟨rfl, LoopKept.refl s⟩

/-- The rows that the loop moves, and those it no longer holds beyond their bound. -/
def movedRows (s : State) (t : Nat) : List Nat := (activeRows s t).filter fun r => !bePin (beRow s (activeSet s) r)
def idleRows (s : State) (t total : Nat) : List Nat :=
  (s.svc.backends.map (·.1)).filter fun r =>
    beOf (beRow s (activeSet s) r) = t && (total = 0 || !(movedRows s t).contains r)

def totalLoad (s : State) (t : Nat) : Nat :=
  (activeRows s t).foldl (fun a r => a + loadOf s (beTable s (activeSet s) t).mode r) 0
def totalWeight (s : State) (t : Nat) : Nat := (activeRows s t).foldl (fun a r => a + beWeight (beRow s (activeSet s) r)) 0

/-- What a run does before pressure is judged. -/
def rebalanced (s : State) (t : Nat) : State :=
  if totalLoad s t = 0 then clearBeyond (idleRows s t (totalLoad s t)) s
  else loopRows s (beTable s (activeSet s) t) (totalLoad s t) (totalWeight s t) (movedRows s t)
    (clearBeyond (idleRows s t (totalLoad s t)) s)

theorem exec_rebalanceRun_idle {t : Nat} {s : State} (ht : isService t = true)
    (h : (beTable s (activeSet s) t).valid ≠ 1 ∨ (beTable s (activeSet s) t).mode = 0 ∨ role s = 3 ∨
      rd s oGovKnobs 3 % 256 ≠ 1) : exec (.rebalanceRun t) s = .next s := by
  show execRebalanceRun t s = _
  rw [execRebalanceRun, onUnits, if_pos ht]
  refine congrArg Host.Outcome.next (if_pos ?_)
  simpa [or_assoc] using h

theorem exec_rebalanceRun_due {t : Nat} {s : State} (ht : isService t = true) (hv : (beTable s (activeSet s) t).valid = 1)
    (hm : (beTable s (activeSet s) t).mode ≠ 0) (hr : role s ≠ 3) (hk : rd s oGovKnobs 3 % 256 = 1) :
    exec (.rebalanceRun t) s = .next (pressure t (movedRows s t) (rebalanced s t)) := by
  show execRebalanceRun t s = _
  rw [execRebalanceRun, onUnits, if_pos ht]
  refine congrArg Host.Outcome.next (if_neg ?_)
  simp [hv, hm, hr, hk]

theorem be_rebalanced (s : State) (t r : Nat) :
    (be (rebalanced s t) r).eff =
      (if totalLoad s t ≠ 0 ∧ r ∈ movedRows s t then
        newEff (beTable s (activeSet s) t) (effWeight s r) (loadOf s (beTable s (activeSet s) t).mode r)
          (beWeight (beRow s (activeSet s) r)) (totalLoad s t) (totalWeight s t)
       else (be s r).eff) ∧
    (be (rebalanced s t) r).records = (be s r).records := by
  have clear := be_clearBeyond (idleRows s t (totalLoad s t)) s r
  by_cases h : totalLoad s t = 0
  · rw [rebalanced, if_pos h, if_neg fun hc => hc.1 h]
    exact clear
  · have loop := be_loopRows s (beTable s (activeSet s) t) (totalLoad s t) (totalWeight s t) (movedRows s t)
      (clearBeyond (idleRows s t (totalLoad s t)) s) r
    rw [clear.1, clear.2] at loop
    rw [rebalanced, if_neg h]
    simpa only [ne_eq, h, not_false_eq_true, true_and] using loop

theorem rebalanced_loopKept (s : State) (t : Nat) : LoopKept s (rebalanced s t) := by
  have clear := clearBeyond_loopKept (idleRows s t (totalLoad s t)) s
  unfold rebalanced
  split
  · exact clear
  · exact clear.trans (loopRows_loopKept _ _ _ _ _ _)

theorem mem_movedRows {s : State} {t r : Nat} :
    r ∈ movedRows s t ↔ r ∈ activeRows s t ∧ bePin (beRow s (activeSet s) r) = false := by
  simp [movedRows]

/-- Settles O36: the new slots of a table that is due, the register and the table that an accepted BACKEND_STATE changes, and
the loop as a pass over the active rows that are not pinned. -/
theorem backendTables : Obligations.BackendTables := by
  refine ⟨⟨fun t s ht => ⟨exec_slotTableRebuild_idle ht, slotTableRebuild_installs ht⟩,
    fun o level row v s hok h => backendState_accepted hok h⟩, fun t s ht => ⟨exec_rebalanceRun_idle ht, fun hv hm hr hk => ?_⟩⟩
  obtain ⟨hb, kept⟩ := pressure_effect t (movedRows s t) (rebalanced s t)
  obtain ⟨hports, hslots, hled⟩ := (rebalanced_loopKept s t).trans kept
  refine ⟨_, exec_rebalanceRun_due ht hv hm hr hk, hports, hslots, hled, fun r hact hpin hload => ?_, fun r h => ?_, fun r => ?_⟩
  · rw [be_congr hb, (be_rebalanced s t r).1, if_pos ⟨hload, mem_movedRows.mpr ⟨hact, hpin⟩⟩]
    rfl
  · rw [be_congr hb, (be_rebalanced s t r).1, if_neg]
    rintro ⟨hload, hmem⟩
    obtain ⟨hact, hpin⟩ := mem_movedRows.mp hmem
    rcases h with h | h | h
    · exact h hact
    · exact absurd (hpin.symm.trans h) (by decide)
    · exact hload h
  · rw [be_congr hb, (be_rebalanced s t r).2]

end Sys2Proof.Machine
end

section
/-! Reception (R22 to R25, R141, R142) and the acceptance of heads (R26, R28, R164). -/

namespace Sys2Proof.Machine
open Sys2Proof

/-! ### Frames in the device -/

theorem frame_putFrame (fid k : Nat) (f : Frame) (s : State) : frame (putFrame fid f s) k = if k = fid then some f else frame s k :=
  tabFind_insert _ _ _ _

@[simp] theorem frame_putFrame_self (fid : Nat) (f : Frame) (s : State) : frame (putFrame fid f s) fid = some f :=
  tabFind_insert_self _ _ _

theorem frame_congr {s t : State} (h : t.pip = s.pip) (fid : Nat) : frame t fid = frame s fid :=
  congrArg (fun x : Pip => tabFind x.frames fid) h

theorem pipe_congr {s t : State} (h : t.pip = s.pip) (n : Nat) : pipe t n = pipe s n :=
  congrArg (fun x : Pip => tabGet ({} : PipeSt) x.pipes n) h

theorem frame_setPipe (n : Nat) (x : PipeSt) (s : State) (fid : Nat) : frame (setPipe n x s) fid = frame s fid := rfl

theorem frame_newFrame (f : Frame) (s : State) (fid : Nat) :
    frame (newFrame f s).2 fid = if fid = s.pip.nextFid then some f else frame s fid := tabFind_insert _ _ _ _

theorem pipe_newFrame (f : Frame) (s : State) (n : Nat) : pipe (newFrame f s).2 n = pipe s n := rfl

/-! ### Reception -/

theorem exec_frameReception_of_carries {p : Nat} {b : Bytes} {ok : Bool} {s : State} (hp : isPort p = true)
    (hc : linkCarries s p = true) : exec (.frameReception p b ok) s = .next (receive p b ok (loopFar p b s)) := by
  show execFrameReception p b ok s = _
  rw [execFrameReception, onUnits, if_pos hp, if_pos hc]

theorem exec_frameReception_of_dark {p : Nat} {b : Bytes} {ok : Bool} {s : State} (hp : isPort p = true)
    (hc : linkCarries s p = false) (hcut : (port s p).cut = false) : exec (.frameReception p b ok) s = .next s := by
  show execFrameReception p b ok s = _
  rw [execFrameReception, onUnits, if_pos hp, hc, hcut]
  rfl

theorem exec_frameReception_of_cut {p : Nat} {b : Bytes} {ok : Bool} {s : State} (hp : isPort p = true)
    (hc : linkCarries s p = false) (hcut : (port s p).cut = true) :
    exec (.frameReception p b ok) s = .next (receive p b false (setPort p { port s p with cut := false } s)) := by
  show execFrameReception p b ok s = _
  rw [execFrameReception, onUnits, if_pos hp, if_neg (by rw [hc]; decide), if_pos hcut]

section
variable {p : Nat} {b : Bytes} {u : State}

theorem receive_short (ok : Bool) (h : b.length < 64) : receive p b ok u = count (cPort p 0x18) u := if_pos h

theorem receive_long (ok : Bool) (h : 64 ≤ b.length) (hl : rd u (oMaxFrame p) < b.length) :
    receive p b ok u = count (cPort p 0x20) u := by
  rw [receive, if_neg (by omega), if_pos hl]

theorem receive_badFcs (h : 64 ≤ b.length) (hl : b.length ≤ rd u (oMaxFrame p)) :
    receive p b false u = count (cPort p 0x10) u := by
  rw [receive, if_neg (by omega), if_neg (by omega), if_pos (by decide)]

theorem receive_control (h : 64 ≤ b.length) (hl : b.length ≤ rd u (oMaxFrame p)) (ht : beAt b 12 2 = 0x8808) :
    receive p b true u = count (cPort p 0x28) u := by
  rw [receive, if_neg (by omega), if_neg (by omega), if_neg (by decide), if_pos ht]

theorem receive_whole (h : 64 ≤ b.length) (hl : b.length ≤ rd u (oMaxFrame p)) (ht : beAt b 12 2 ≠ 0x8808) :
    receive p b true u = stageFrame p b u := by
  rw [receive, if_neg (by omega), if_neg (by omega), if_neg (by decide), if_neg ht]

end

theorem loopFar_other {p : Nat} {b : Bytes} {s : State} (h : rd s (oLoopback p) ≠ 2) : loopFar p b s = s := by
  rw [loopFar, when, if_neg (by simpa using h)]

theorem loopFar_loops {p : Nat} {b : Bytes} {s : State} (h : rd s (oLoopback p) = 2) :
    loopFar p b s = emit (.lane p (preamble ++ b)) s := by
  rw [loopFar, when, if_pos (by simpa using h), transmit]

/-- The frame that reception puts into staging. -/
def stagedFrame (p : Nat) (b : Bytes) (u : State) : Frame :=
  let cls := ingressClass u (activeSet u) p b
  { port := p, pipe := pipeOf p, bytes := b, stamp := nowStamp u, rxCclk := u.clk.cclk,
    express := isExpress u (activeSet u) p cls, cls := cls, owner := 8 * p + cls }

/-- The frame is the newest of the device, and the last in staging of its pipeline. -/
def enterStaging (f : Frame) (u : State) : State :=
  let t := (newFrame f u).2
  setPipe f.pipe { pipe t f.pipe with stage := (pipe t f.pipe).stage ++ [u.pip.nextFid] } t

theorem stageFrame_full {p : Nat} {b : Bytes} {u : State}
    (h : stagingHolds u (pipeOf p) b.length (stagedFrame p b u).express = false) :
    stageFrame p b u = count (cPort p 0x30) u :=
  if_pos (by rw [Bool.not_eq_true']; exact h)

theorem stageFrame_holds {p : Nat} {b : Bytes} {u : State}
    (h : stagingHolds u (pipeOf p) b.length (stagedFrame p b u).express = true) :
    stageFrame p b u = when (stagedFrame p b u).express (count (cPort p 0x38)) (count (cPort p 0x00) (ctrAdd (cPort p 0x08) b.length
      (enterStaging (stagedFrame p b u) u))) :=
  if_neg (by rw [Bool.not_eq_true', Bool.not_eq_false]; exact h)

/-- The counters that staging a frame moves. -/
theorem ctr_staged {p k : Nat} {c : Bool} (v : State) (n : Nat) (hk : k ≠ cPort p 0x38) :
    ctr (when c (count (cPort p 0x38)) (count (cPort p 0x00) (ctrAdd (cPort p 0x08) n v))) k =
      if k = cPort p 0x00 then (ctr v k + 1) % 2 ^ 64 else if k = cPort p 0x08 then (ctr v k + n) % 2 ^ 64 else ctr v k := by
  rw [when_ctr _ fun t => by rw [ctr_count, if_neg hk], ctr_count, ctr_ctrAdd, ctr_ctrAdd]
  have distinct : cPort p 0x00 ≠ cPort p 0x08 := by unfold cPort; omega
  by_cases h0 : k = cPort p 0x00
  · rw [if_pos h0, if_pos h0, if_neg distinct, h0]
  · rw [if_neg h0, if_neg h0]
    split <;> simp [*]

theorem stageFrame_enters {p : Nat} {b : Bytes} {u : State}
    (h : stagingHolds u (pipeOf p) b.length (stagedFrame p b u).express = true) :
    frame (stageFrame p b u) u.pip.nextFid = some (stagedFrame p b u) ∧
      (∀ fid, fid ≠ u.pip.nextFid → frame (stageFrame p b u) fid = frame u fid) ∧
      (stageFrame p b u).pip.nextFid = u.pip.nextFid + 1 ∧
      (pipe (stageFrame p b u) (pipeOf p)).stage = (pipe u (pipeOf p)).stage ++ [u.pip.nextFid] ∧
      ctr (stageFrame p b u) (cPort p 0x00) = (ctr u (cPort p 0x00) + 1) % 2 ^ 64 ∧
      ctr (stageFrame p b u) (cPort p 0x08) = (ctr u (cPort p 0x08) + b.length) % 2 ^ 64 ∧
      { stageFrame p b u with pip := u.pip, ctr := u.ctr } = u := by
  rw [stageFrame_holds h]
  have hf : (stagedFrame p b u).pipe = pipeOf p := rfl
  generalize stagedFrame p b u = f at hf ⊢
  have kept (v : State) : (when f.express (count (cPort p 0x38)) (count (cPort p 0x00) (ctrAdd (cPort p 0x08) b.length v))).pip = v.pip := by
    cases f.express <;> rfl
  have h0 : cPort p 0x00 ≠ cPort p 0x38 := by unfold cPort; omega
  have h8 : cPort p 0x08 ≠ cPort p 0x38 := by unfold cPort; omega
  have h80 : cPort p 0x08 ≠ cPort p 0x00 := by unfold cPort; omega
  refine ⟨?_, fun fid hfid => ?_, ?_, ?_, ?_, ?_, ?_⟩
  · rw [frame_congr (kept _)]
    exact (frame_newFrame f u _).trans (if_pos rfl)
  · rw [frame_congr (kept _)]
    exact (frame_newFrame f u _).trans (if_neg hfid)
  · rw [kept]
    rfl
  · rw [pipe_congr (kept _), enterStaging, hf, pipe_setPipe_self, pipe_newFrame]
  · rw [ctr_staged _ _ h0, if_pos rfl]
    rfl
  · rw [ctr_staged _ _ h8, if_neg h80, if_pos rfl]
    rfl
  · have hc (k : Nat) (v : State) : { count k v with pip := u.pip, ctr := u.ctr } = { v with pip := u.pip, ctr := u.ctr } := rfl
    have ha (k n : Nat) (v : State) :
        { ctrAdd k n v with pip := u.pip, ctr := u.ctr } = { v with pip := u.pip, ctr := u.ctr } := rfl
    have hw (c : Bool) (k : Nat) (v : State) :
        { when c (count k) v with pip := u.pip, ctr := u.ctr } = { v with pip := u.pip, ctr := u.ctr } := by
      cases c <;> rfl
    rw [hw, hc, ha]
    rfl

/-! ### Heads -/

theorem exec_headAcceptance_held {n : Nat} {r : Parse} {s : State} (hn : isPipe n = true)
    (h : (headStall s n).isSome = true ∨ 2 ≤ (slotsUsed s n).1 ∨ 32 ≤ stepDebt s n) : exec (.headAcceptance n r) s = .next s := by
  show execHeadAcceptance n r s = _
  rw [execHeadAcceptance, onUnits, if_pos hn, if_pos (by simpa [or_assoc] using h)]

theorem exec_headAcceptance_open {n : Nat} {r : Parse} {s : State} (hn : isPipe n = true) (h0 : headStall s n = none)
    (h1 : (slotsUsed s n).1 < 2) (h2 : stepDebt s n < 32) : exec (.headAcceptance n r) s =
      .next (match pickHead s n with | some fid => acceptHead n fid r s | none => s) := by
  show execHeadAcceptance n r s = _
  rw [execHeadAcceptance, onUnits, if_pos hn]
  exact congrArg Host.Outcome.next (if_neg (by simp [h0]; omega))

theorem exec_headAcceptance_picks {n fid : Nat} {r : Parse} {s : State} (hn : isPipe n = true) (h0 : headStall s n = none)
    (h1 : (slotsUsed s n).1 < 2) (h2 : stepDebt s n < 32) (h : pickHead s n = some fid) :
    exec (.headAcceptance n r) s = .next (acceptHead n fid r s) := by
  rw [exec_headAcceptance_open hn h0 h1 h2, h]

theorem exec_headAcceptance_none {n : Nat} {r : Parse} {s : State} (hn : isPipe n = true) (h0 : headStall s n = none)
    (h1 : (slotsUsed s n).1 < 2) (h2 : stepDebt s n < 32) (h : pickHead s n = none) :
    exec (.headAcceptance n r) s = .next s := by
  rw [exec_headAcceptance_open hn h0 h1 h2, h]

/-- A head from a lane takes the active epoch and waits for a buffer. -/
theorem acceptNew_lane {fid : Nat} {f : Frame} (s : State) (h : f.port < 512) :
    ∃ g, frame (acceptNew fid f s) fid = some g ∧ g.epoch = activeEpoch s ∧
      g.cls = ingressClass s (activeSet s) f.port f.bytes ∧ g.waiting = some s.clk.cclk ∧ g.bytes = f.bytes ∧
      (acceptNew fid f s).buf.waiters = s.buf.waiters ++ [fid] := by
  simp only [acceptNew, if_pos h]
  exact ⟨_, frame_putFrame_self _ _ _, rfl, rfl, rfl, rfl, rfl⟩

/-- Settles O21: the checks of reception in their order, what staging a frame comes to, and the conditions of the head slot. -/
theorem receptionAndHeads : Obligations.ReceptionAndHeads := by
  refine ⟨⟨fun p b ok s hp hc => ⟨exec_frameReception_of_dark hp hc, fun hcut h hl => ?_⟩, fun p b ok s hp hc => ?_⟩,
    fun n r s hn => ⟨exec_headAcceptance_held hn, fun h0 h1 h2 => ⟨exec_headAcceptance_none hn h0 h1 h2,
      fun fid f hpick _ => ⟨exec_headAcceptance_picks hn h0 h1 h2 hpick, acceptNew_lane s⟩⟩⟩⟩
  · have hmax : rd (setPort p { port s p with cut := false } s) (oMaxFrame p) = rd s (oMaxFrame p) := rd_congr setPort_dict _ _
    rw [exec_frameReception_of_cut hp hc hcut, receive_badFcs h (hl.trans hmax.ge)]
  · rw [exec_frameReception_of_carries hp hc]
    refine ⟨loopFar_other, loopFar_loops, fun h => by rw [receive_short ok h], fun h hl => by rw [receive_long ok h hl], ?_, ?_, ?_⟩
    · rintro h hl rfl
      rw [receive_badFcs h hl]
    · rintro h hl rfl ht
      rw [receive_control h hl ht]
    · rintro h hl rfl ht
      rw [receive_whole h hl ht]
      exact ⟨fun hfull => by rw [stageFrame_full hfull], fun hroom => ⟨_, rfl, stageFrame_enters hroom⟩⟩

end Sys2Proof.Machine
end

section
/-! A lookup by length rewrites the place of the entry it hits (R210). -/

namespace Sys2Proof.Machine
open Sys2Proof

/-- An entry of length 0 of VRF 0 in place 3, listed behind one of VRF 1 in place 5: a table whose places do not rise. -/
def unsortedPrefixes : Lt :=
  { px := [(5, ⟨4, 0, 1, 0, 0, false⟩), (3, ⟨4, 0, 0, 0, 0, false⟩)], filter := [(filterRow 0 4 0, 1)] }

/-- Frame 1 waits for its IPv4 lookup. -/
def prefixWaiter : Frame := { phase := .ingress, due := 2 }

def unsortedLookup : State := { State.reset with lt := unsortedPrefixes, pip := { frames := [(1, prefixWaiter)], nextFid := 2 } }

/-- The lookup hits the entry in place 3 and writes it back, in front of place 5: the table then has three entries. -/
theorem unsortedLookup_grows :
    ∃ t, exec (.tableLookup 1 (.prefix4 0 0) []) unsortedLookup = .next t ∧ t.lt.px.length = 3 :=
  ⟨_, rfl, by decide +kernel⟩

theorem unsortedLookup_hits : probeAll unsortedLookup 4 0 0 0 (lookupLengths unsortedLookup 4 0 0) =
    some (0, 3, ⟨4, 0, 0, 0, 0, false⟩) := by decide +kernel

/-- Refutes O23: a lookup by length that hits is said to leave the tables as they were, in every state; it writes the entry it hit
back into its place, and where the table's places do not rise that adds an entry. -/
theorem not_lookups : ¬ Obligations.Lookups := by
  rintro ⟨-, prefixes, -⟩
  have lookup := prefixes 1 prefixWaiter 4 0 0 unsortedLookup rfl rfl (by decide +kernel) (.inl rfl) (by decide) (by decide)
    (by decide)
  obtain ⟨-, -, -, -, t, runs, kept, -⟩ := lookup.2 0 3 ⟨4, 0, 0, 0, 0, false⟩ [] unsortedLookup_hits rfl rfl (by decide)
  obtain ⟨u, runs', grows⟩ := unsortedLookup_grows
  have same : t = u := by
    have e := runs.symm.trans runs'
    injection e
  rw [← same, kept] at grows
  exact absurd grows (by decide)

end Sys2Proof.Machine
end

section
/-! How table commands start (R216, R217, R221). -/

namespace Sys2Proof.Machine
open Sys2Proof

/-! ### Commands that a queue serves -/

/-- A command that its queue serves starts (R476, R480, R543). -/
theorem startCmd_of_serves {c : SqCmd} {lowest : Nat} {s : State} (h : servesCommand c lowest s) (f : State → State) :
    startCmd c lowest f s = f s := by
  obtain ⟨-, hq, hfol, hfault, htoo, x, hx, hkind, hlevel⟩ := h
  have links : withLinks c f s = f s := by
    unfold withLinks
    split
    · exact absurd ‹_› hfault
    · exact absurd ‹_› htoo
    · rfl
  rw [startCmd, atLevel, hx]
  simp only [hq, hkind, hfol, links, Nat.not_lt.mpr hlevel, decide_false, Bool.or_self, Bool.false_eq_true, if_false]

theorem onUnits_startCmd {c : SqCmd} {lowest : Nat} {s : State} (h : servesCommand c lowest s) (f : State → State) :
    onUnits c.wf (startCmd c lowest f s) = .next (f s) := by
  rw [onUnits, if_pos h.1, startCmd_of_serves h]

theorem commitCmd_alone {c : SqCmd} {opcode : Nat} {body data : Bytes} {f : State → Done} {s : State}
    (h : partnerFollows s = false) : commitCmd c opcode body data f s = finish c (f s) := by
  rw [commitCmd, if_neg (by simp [h])]

theorem partnerFollows_congr {s t : State} (hr : role t = role s) (hp : t.pair = s.pair) : partnerFollows t = partnerFollows s := by
  rw [partnerFollows, partnerFollows, hr, hp]

/-! ### Arrival -/

/-- The state in which a table command in turn starts. -/
def tableStarted (c : SqCmd) (s : State) : State := setLt { s.lt with started := (mclk s + 1, c.sq) } s

theorem arriveTbl_in_turn {c : SqCmd} {code : Nat} {a : TblArgs} {ecc : Ecc} {s : State} (h : tableTurn s c) :
    arriveTbl c code a ecc s = startTbl ⟨mclk s, c, code, a, ecc⟩ (tableStarted c s) := by
  obtain ⟨hempty, hstart⟩ := h
  unfold arriveTbl
  extract_lets out w first
  have hout : out = false := by
    simpa only [out, Bool.and_eq_false_iff, decide_eq_false_iff_not, not_and_or] using hstart
  have hw : w = ⟨mclk s, c, code, a, ecc⟩ := by simp only [w, hout, Bool.false_eq_true, if_false]
  rw [if_neg (by rw [hout, hempty]; decide), hw]
  rfl

/-- A command out of turn takes its place among those that wait. -/
theorem arriveTbl_out_of_turn {c : SqCmd} {code : Nat} {a : TblArgs} {ecc : Ecc} {s : State} (h : ¬ tableTurn s c) :
    ∃ w l, w ∈ l ∧ w.cmd = c ∧ w.code = code ∧ w.args = a ∧ arriveTbl c code a ecc s = setLt { s.lt with arrivals := l } s := by
  have waits : (decide (s.lt.started.1 = mclk s + 1) && decide (c.sq < s.lt.started.2) || !s.lt.arrivals.isEmpty) = true := by
    by_contra hn
    simp only [Bool.not_eq_true, Bool.or_eq_false_iff, Bool.and_eq_false_iff, decide_eq_false_iff_not, Bool.not_eq_false',
      List.isEmpty_iff] at hn
    exact h ⟨hn.2, by tauto⟩
  unfold arriveTbl
  extract_lets out w first
  exact ⟨w, _, List.mem_append_right _ List.mem_cons_self, rfl, rfl, rfl, if_pos waits⟩

/-- The six changing table commands reach the Lookup Tables with their code. -/
theorem exec_tableCommand {c : SqCmd} {a : TblArgs} {s : State} {code : Nat} {i : Instr} (h : servesCommand c 1 s)
    (hi : (code, i) ∈ [(0x21, Instr.tblInsert c a), (0x22, .tblUpdate c a), (0x23, .tblDelete c a), (0x24, .tblLock c a),
      (0x25, .tblUnlock c a), (0x26, .ecmpSet c a)]) :
    exec i s = .next (arriveTbl c code a .clean s) ∧ 0x21 ≤ code ∧ code ≤ 0x26 := by
  simp only [List.mem_cons, Prod.mk.injEq, List.not_mem_nil, or_false] at hi
  obtain ⟨rfl, rfl⟩ | ⟨rfl, rfl⟩ | ⟨rfl, rfl⟩ | ⟨rfl, rfl⟩ | ⟨rfl, rfl⟩ | ⟨rfl, rfl⟩ := hi <;>
    exact ⟨onUnits_startCmd h _, by decide, by decide⟩

/-! ### What a start reads of the tables -/

theorem isLocked_congr {s t : State} (hl : t.lt.locks = s.lt.locks) (hc : t.lt.cmds = s.lt.cmds) (n k : Nat) :
    isLocked t n k = isLocked s n k := by
  rw [isLocked, isLocked, lockOf, lockOf, inProgress, inProgress, hl, hc]

theorem lockedFor_congr {s t : State} (hl : t.lt.locks = s.lt.locks) (hc : t.lt.cmds = s.lt.cmds) (code n k q : Nat) :
    lockedFor t code n k q = lockedFor s code n k q := by
  rw [lockedFor, lockedFor, isLocked_congr hl hc, hl, hc]

section
variable {c : SqCmd} {code : Nat} {a : TblArgs} {u : State}

theorem tblStart_out_of_range (h : tblOk code a = false) :
    tblStart c code a u = complete c 0x0B 0 0 (count (cLookup 0x78) u) := by
  rw [tblStart, if_pos (by rw [h]; rfl)]

/-- A lock whose limit has passed is named once. -/
theorem tblStart_lock_gone (h : tblOk code a = true) (hg : lockGone u a.table (tblKey a) c.sq = true) :
    ∃ t, tblStart c code a u = complete c 0x82 0x28 0 t ∧ lockGone t a.table (tblKey a) c.sq = false := by
  rw [tblStart, if_neg (by rw [h]; decide)]
  refine ⟨_, if_pos hg, ?_⟩
  simp only [lockGone, setLt, List.any_filter, List.any_eq_false]
  intro l _ hl
  rw [Bool.and_eq_true, Bool.not_eq_true'] at hl
  rw [hl.1] at hl
  exact Bool.false_ne_true hl.2

theorem tblStart_locked (h : tblOk code a = true) (hg : lockGone u a.table (tblKey a) c.sq = false)
    (hl : lockedFor u code a.table (tblKey a) c.sq = true) : tblStart c code a u =
      complete c 0x22 0 0 (if code = 0x25 then count (cLookup 0x78) u else count (cLookup 0x80) (count (cLookup 0x78) u)) := by
  rw [tblStart, if_neg (by rw [h]; decide)]
  refine (if_neg (by rw [show lockGone (count (cLookup 0x78) u) a.table (tblKey a) c.sq = _ from hg]; decide)).trans ?_
  refine (if_pos hl).trans ?_
  by_cases hc : code = 0x25
  · rw [if_pos hc, when, if_neg (by simp [hc])]
  · rw [if_neg hc, when, if_pos (by simp [hc])]

theorem tblStart_free (h : tblOk code a = true) (hg : lockGone u a.table (tblKey a) c.sq = false)
    (hl : lockedFor u code a.table (tblKey a) c.sq = false) : tblStart c code a u = tblBegin c code a (count (cLookup 0x78) u) := by
  rw [tblStart, if_neg (by rw [h]; decide)]
  refine (if_neg (by rw [show lockGone (count (cLookup 0x78) u) a.table (tblKey a) c.sq = _ from hg]; decide)).trans ?_
  exact if_neg (by rw [show lockedFor (count (cLookup 0x78) u) code a.table (tblKey a) c.sq = _ from hl]; decide)

theorem tblBegin_present (hc : code = 0x21) (hp : presentCode u a.table (tblKey a) ≠ 0) :
    tblBegin c code a u = complete c (presentCode u a.table (tblKey a)) 0 0 u := by
  subst hc
  simp [tblBegin, hp]

theorem tblBegin_bad_size (hc : code = 0x26) (hs : a.size = 0 ∨ 512 < a.size) : tblBegin c code a u = complete c 0x0B 0 0 u := by
  subst hc
  simp [tblBegin, hs]

/-- A command that needs data is under way. -/
theorem tblBegin_waits (h : (code = 0x21 ∧ presentCode u a.table (tblKey a) = 0) ∨ code = 0x22 ∨
    (code = 0x26 ∧ 1 ≤ a.size ∧ a.size ≤ 512) ∨ (code = 0x25 ∧ c.addr ≠ 0)) : tblBegin c code a u = beginTbl c code a u := by
  obtain ⟨rfl, hp⟩ | rfl | ⟨rfl, h1, h2⟩ | ⟨rfl, ha⟩ := h
  · simp [tblBegin, hp]
  · simp [tblBegin]
  · have bad : ¬ (a.size = 0 ∨ 512 < a.size) := by omega
    simp [tblBegin, bad]
  · simp [tblBegin, ha]

/-- A command under way as it stands among those in progress. -/
def underWayCmd (c : SqCmd) (code : Nat) (a : TblArgs) (u : State) : TblCmd :=
  ⟨c, code, a.table, a.index, a.size, tblKey a, !isLocked u a.table (tblKey a)⟩

/-- Beside the commands in progress and the locks, the start of a command leaves everything. -/
theorem beginTbl_eq (c : SqCmd) (code : Nat) (a : TblArgs) (u : State) : ∃ l, beginTbl c code a u =
    setLt { u.lt with locks := l, cmds := u.lt.cmds ++ [underWayCmd c code a u] } u := by
  simp only [beginTbl]
  split <;> exact ⟨_, rfl⟩

theorem beginTbl_cmds : (beginTbl c code a u).lt.cmds = u.lt.cmds ++ [underWayCmd c code a u] := by
  obtain ⟨l, h⟩ := beginTbl_eq c code a u
  rw [h, setLt]

theorem beginTbl_locked : isLocked (beginTbl c code a u) a.table (tblKey a) = true := by
  rw [isLocked, inProgress, beginTbl_cmds, Bool.or_eq_true]
  exact .inr (by simp [underWayCmd])

/-- The state in which a command in turn has been counted. -/
def tableCounted (c : SqCmd) (s : State) : State := count (cLookup 0x78) (tableStarted c s)

theorem beginTbl_frame (s : State) :
    { (beginTbl c code a (tableCounted c s)).lt with cmds := s.lt.cmds, locks := s.lt.locks, started := s.lt.started } = s.lt ∧
    { beginTbl c code a (tableCounted c s) with lt := s.lt, ctr := s.ctr } = s := by
  obtain ⟨l, h⟩ := beginTbl_eq c code a (tableCounted c s)
  rw [h]
  exact ⟨rfl, rfl⟩

theorem beginTbl_partnerFollows : partnerFollows (beginTbl c code a u) = partnerFollows u := by
  obtain ⟨l, h⟩ := beginTbl_eq c code a u
  rw [h]
  rfl

/-- Without a partner that follows, a command without content is accepted and commits. -/
theorem tblAtOnce_alone (hp : partnerFollows u = false) (hnew : ∀ y ∈ u.lt.cmds, y.cmd ≠ c) :
    tblAtOnce c code a u = finish c (tblDone (underWayCmd c code a u) [] (beginTbl c code a u)) := by
  have found : (beginTbl c code a u).lt.cmds.find? (fun x => x.cmd = c) = some (underWayCmd c code a u) := by
    rw [beginTbl_cmds, List.find?_append, List.find?_eq_none.mpr fun y hy => by simpa using hnew y hy]
    simp [underWayCmd]
  rw [tblAtOnce]
  simp only [found, Option.getD_some]
  exact commitCmd_alone (beginTbl_partnerFollows.trans hp)

end

/-! ### What a command without content comes to -/

theorem lockOf_holdLock (t k q : Nat) (s : State) : lockOf (holdLock t k q s) t k = some ⟨t, k, q, true⟩ := by
  have others (l : List Lock) : (l.filter fun l => !(l.table = t && l.key = k)).find? (fun l => l.table = t && l.key = k) = none := by
    simp only [List.find?_eq_none, List.mem_filter]
    rintro l ⟨-, hl⟩ hm
    rw [hm] at hl
    cases hl
  rw [lockOf, holdLock, unlockEntry, setLt, setLt, List.find?_append, others]
  simp

section
variable {x : TblCmd} {v : State}

theorem tblDone_delete (hx : x.code = 0x23) :
    (tblDone x [] v).verdict = (commitDelete x.table x.key v).verdict ∧
      (tblDone x [] v).state = endTbl x (commitDelete x.table x.key v).state := by
  have apply : applyTbl x [] v = commitDelete x.table x.key v := by simp [applyTbl, hx]
  rw [tblDone, apply]
  simp [hx]

/-- TBL_LOCK of an entry that is there leaves the queue's lock on it. -/
theorem tblDone_lock (hx : x.code = 0x24) (h : 3 ≤ x.table ∨ presentCode v x.table x.key ≠ 0) :
    (tblDone x [] v).verdict = (0, 0) ∧
      lockOf (tblDone x [] v).state x.table x.key = some ⟨x.table, x.key, x.cmd.sq, true⟩ := by
  have absent : ¬ ((decide (x.table < 3) && decide (presentCode v x.table x.key = 0)) = true) := by
    simp only [Bool.and_eq_true, decide_eq_true_eq, not_and]
    omega
  have apply : applyTbl x [] v = succeeded v := by
    simp only [applyTbl, hx, lockCheck, if_neg absent]
    rfl
  have held : (tblDone x [] v).state = holdLock x.table x.key x.cmd.sq (endTbl x v) := by
    rw [tblDone, apply]
    simp [succeeded, hx]
  exact ⟨by rw [tblDone, apply]; rfl, by rw [held, lockOf_holdLock]⟩

/-- TBL_UNLOCK takes away the lock that the queue holds. -/
theorem tblDone_unlock (hx : x.code = 0x25) :
    (tblDone x [] v).verdict = (0, 0) ∧ ∀ l ∈ (tblDone x [] v).state.lt.locks,
      ¬ (l.table = x.table ∧ l.key = x.key ∧ l.hold = true ∧ l.sq = x.cmd.sq) := by
  have apply : applyTbl x [] v = succeeded v := by simp [applyTbl, hx]
  have released : (tblDone x [] v).state = releaseHeld x.table x.key x.cmd.sq (endTbl x v) := by
    rw [tblDone, apply]
    simp [succeeded, hx]
  refine ⟨by rw [tblDone, apply]; rfl, ?_⟩
  rw [released]
  rintro l hl ⟨ht, hk, hh, hq⟩
  have kept := (List.mem_filter.mp hl).2
  simp [ht, hk, hh, hq] at kept

end

theorem presentCode_beginTbl (c : SqCmd) (code : Nat) (a : TblArgs) (u : State) (n k : Nat) :
    presentCode (beginTbl c code a u) n k = presentCode u n k := by
  obtain ⟨l, h⟩ := beginTbl_eq c code a u
  rw [h]
  rfl

/-- Settles O24: a command in turn meets the checks of `tblStart` one after the other; one out of turn waits. -/
theorem tableCommandsStart : Obligations.TableCommandsStart := by
  intro c a s hserves code i hi k u x
  obtain ⟨hexec, hlow, hhigh⟩ := exec_tableCommand hserves hi
  refine ⟨fun hturn => ?_, fun hturn => ?_⟩
  · obtain ⟨w, l, hw, hcmd, hcode, hargs, hl⟩ := arriveTbl_out_of_turn (code := code) (a := a) (ecc := .clean) hturn
    exact ⟨_, w, hexec.trans (congrArg _ hl), hw, hcmd, hcode, hargs, rfl⟩
  have start : exec i s = .next (tblStart c code a (tableStarted c s)) := by
    rw [hexec, arriveTbl_in_turn hturn, startTbl, if_neg (by simp only; omega)]
  refine ⟨fun hok => ?_, fun hok hgone => ?_, fun hok hgone => ⟨fun hlock => ?_, fun hlock => ?_⟩⟩
  · rw [start, tblStart_out_of_range hok]
    rfl
  · obtain ⟨t, ht, hnot⟩ := tblStart_lock_gone (u := tableStarted c s) hok hgone
    exact ⟨t, start.trans (congrArg _ ht), hnot⟩
  · rw [start, tblStart_locked (u := tableStarted c s) hok hgone hlock]
    rfl
  have begins : exec i s = .next (tblBegin c code a u) := by rw [start, tblStart_free (u := tableStarted c s) hok hgone hlock]; rfl
  refine ⟨fun hc hp => begins.trans (congrArg _ (tblBegin_present hc hp)),
    fun hc hs => begins.trans (congrArg _ (tblBegin_bad_size hc hs)), fun hw => ?_, fun halone hnew hc => ?_⟩
  · refine ⟨_, begins.trans (congrArg _ (tblBegin_waits hw)), beginTbl_cmds, beginTbl_locked, ?_⟩
    exact beginTbl_frame s
  · intro v d
    have atOnce : tblBegin c code a u = tblAtOnce c code a u := by
      rw [tblBegin, if_pos (by simpa [or_assoc] using hc)]
    refine ⟨?_, fun h => tblDone_delete h, fun h hp => tblDone_lock h ?_, fun h => tblDone_unlock h⟩
    · exact begins.trans (congrArg _ (atOnce.trans (tblAtOnce_alone (u := u) halone hnew)))
    · rw [show presentCode v a.table k = presentCode u a.table k from presentCode_beginTbl c code a u a.table k]
      exact hp

end Sys2Proof.Machine
end

section
/-! The data of table and rule commands (R221, R222), TBL_READ (R218), and the retirement of next-hops (R74 to R76). -/

namespace Sys2Proof.Machine
open Sys2Proof

/-! ### Entries found uncorrectable -/

theorem role_ltEcc (t loc : Nat) (s : State) : role (ltEcc t loc s) = role s :=
  (rd_raise_of_area _ _ (by decide) (by decide) (by decide)).trans (rd_wr_other (by decide))

theorem pair_ltEcc (t loc : Nat) (s : State) : (ltEcc t loc s).pair = s.pair :=
  (raise_noted _ _ _ (Noted.refl _)).pair.trans wr_pair

/-- An entry found uncorrectable is marked in the Lookup Tables, and the error is reported. -/
theorem corruptAt_eq (t p : Nat) (s : State) : corruptAt t p s = s ∨ ∃ l, corruptAt t p s = ltEcc t p (setLt l s) := by
  simp only [corruptAt]
  split_ifs
  · exact .inr ⟨_, rfl⟩
  · exact .inl rfl
  · exact .inr ⟨_, rfl⟩
  · exact .inl rfl
  · exact .inr ⟨_, rfl⟩
  · exact .inl rfl
  · exact .inr ⟨_, rfl⟩
  · exact .inl rfl
  · exact .inr ⟨_, rfl⟩
  · exact .inl rfl

theorem partnerFollows_corruptAt (t p : Nat) (s : State) : partnerFollows (corruptAt t p s) = partnerFollows s := by
  rcases corruptAt_eq t p s with h | ⟨l, h⟩
  · rw [h]
  · rw [h]
    exact partnerFollows_congr ((role_ltEcc t p _).trans rfl) ((pair_ltEcc t p _).trans rfl)

theorem partnerFollows_corrupted (bad : List (Nat × Nat)) (s : State) :
    partnerFollows (forEach bad (fun t e => corruptAt e.1 e.2 t) s) = partnerFollows s := by
  induction bad generalizing s with
  | nil => rfl
  | cons e bad ih => exact (ih (corruptAt e.1 e.2 s)).trans (partnerFollows_corruptAt e.1 e.2 s)

/-! ### Data of a command in progress -/

theorem exec_tableCommit_table {q tag : Nat} {x : TblCmd} {s : State} (h : s.lt.cmds.find? (awaits s q tag) = some x)
    (d : Dma) (bad : List (Nat × Nat)) : exec (.tableCommit q tag d bad) s =
      .next (tblCommit x d (forEach bad (fun t e => corruptAt e.1 e.2 t) s)) := by
  show execTableCommit q tag d bad s = _
  rw [execTableCommit, h]

theorem exec_tableCommit_rule {q tag : Nat} {x : TblCmd} {s : State} (h : s.lt.cmds.find? (awaits s q tag) = none)
    (hr : s.rb.cmds.find? (ofCommand q tag) = some x) (d : Dma) (bad : List (Nat × Nat)) :
    exec (.tableCommit q tag d bad) s = .next (ruleCommit x d s) := by
  show execTableCommit q tag d bad s = _
  rw [execTableCommit, h, hr]

theorem tblCommit_data {x : TblCmd} {b : Bytes} {u : State} (hb : tblNeeds x ≤ b.length) (hp : partnerFollows u = false) :
    tblCommit x (.data b) u = finish x.cmd (tblDone x b u) := by
  rw [tblCommit, if_neg (by omega), commitCmd_alone hp]

theorem tblCommit_short {x : TblCmd} {b : Bytes} {u : State} (hb : b.length < tblNeeds x) :
    tblCommit x (.data b) u = complete x.cmd 0x82 0x60 0 (endTbl x u) := by
  rw [tblCommit, if_pos hb]

theorem ruleCommit_data {x : TblCmd} {b : Bytes} {s : State} (h16 : 16 ≤ b.length) (hb : 16 + 40 * leAt b 1 1 ≤ b.length)
    (hp : partnerFollows s = false) : ruleCommit x (.data b) s = finish x.cmd (ruleDone x b s) := by
  have enough : ¬ ((decide (b.length < 16) || decide (b.length < 16 + 40 * leAt b 1 1)) = true) := by
    simp only [Bool.or_eq_true, decide_eq_true_eq]
    omega
  exact (if_neg enough).trans (commitCmd_alone hp)

/-! ### TBL_READ -/

theorem exec_tblRead_in_turn {c : SqCmd} {a : TblArgs} {s : State} (h : servesCommand c 0 s) (ht : tableTurn s c) (ecc : Ecc) :
    exec (.tblRead c a ecc) s = .next (tblReadNow c a ecc (tableStarted c s)) := by
  show onUnits c.wf (startCmd c 0 (arriveTbl c 0x20 a ecc) s) = _
  rw [onUnits_startCmd h, arriveTbl_in_turn ht]
  rfl

section
variable {c : SqCmd} {a : TblArgs} {ecc : Ecc} {u : State}

theorem tblReadNow_out_of_range (h : tblOk 0x20 a = false) :
    tblReadNow c a ecc u = complete c 0x0B 0 0 (count (cLookup 0x78) u) := by
  rw [tblReadNow, if_pos (by rw [h]; rfl)]

theorem tblReadNow_absent (h : tblOk 0x20 a = true) (hi : entryImage u a.table (tblKey a) = none) :
    tblReadNow c a ecc u = complete c 0x23 0 0 (count (cLookup 0x78) u) := by
  have image : entryImage (count (cLookup 0x78) u) a.table (tblKey a) = none := hi
  rw [tblReadNow, if_neg (by rw [h]; decide), image]

theorem tblReadNow_corrupt {b : Bytes} (h : tblOk 0x20 a = true) (hi : entryImage u a.table (tblKey a) = some (b, true)) :
    tblReadNow c a ecc u = complete c 0x83 0x28 0 (count (cLookup 0x78) u) := by
  have image : entryImage (count (cLookup 0x78) u) a.table (tblKey a) = some (b, true) := hi
  rw [tblReadNow, if_neg (by rw [h]; decide), image]
  exact if_pos rfl

theorem tblReadNow_good {b : Bytes} (h : tblOk 0x20 a = true) (hi : entryImage u a.table (tblKey a) = some (b, false))
    (hecc : ecc ≠ .uncorrectable) : tblReadNow c a ecc u = finishWrite c b 0 (count (cLookup 0x78) u) := by
  have image : entryImage (count (cLookup 0x78) u) a.table (tblKey a) = some (b, false) := hi
  rw [tblReadNow, if_neg (by rw [h]; decide), image]
  exact (if_neg (by decide)).trans (if_neg hecc)

end

/-! ### Retirement -/

section
variable {k : Nat} {e : NhEntry} {s : State}

theorem commitDelete_nextHop (h : tabFind s.lt.nh k = some e) : commitDelete 3 k s =
    if e.retired.isSome then failed 0x17 0 s else if nhRefs s k ≠ 0 then failed 0x16 0 s
    else succeeded (putNh k { e with retired := some (activeEpoch s), bad := false } s) := by
  simp only [commitDelete, h]
  rfl

theorem indexState_nextHop (h : tabFind s.lt.nh k = some e) : indexState s 3 k = (true, e.retired.isSome) := by
  simp only [indexState, h, if_true]

theorem commitInsert_retired (h : tabFind s.lt.nh k = some e) (hr : e.retired.isSome = true) (b : Bytes) :
    commitInsert 3 k b s = ⟨ltVerdict 0x17, 0, s, false⟩ := by
  have taken : presentCode s 3 k = 0x17 := by
    simp [presentCode, indexState_nextHop h, hr, takenCode]
  simp [commitInsert, attempt, firstCode, taken]

theorem commitUpdate_retired (h : tabFind s.lt.nh k = some e) (hr : e.retired.isSome = true) (b : Bytes) :
    commitUpdate 3 k b s = failed 0x17 0 s := by
  simp [commitUpdate, indexState_nextHop h, hr]

end

/-- Settles O25: the data by its length, TBL_READ by the entry's image, and a next-hop by its references and its retirement. -/
theorem tableCommitsAndRetirement : Obligations.TableCommitsAndRetirement := by
  refine ⟨⟨fun q tag x bad s hp hx => ?_, fun q tag x bad s hp hn hx b h16 hb => ?_, fun c a b s hs ht => ?_⟩, fun k e s he => ?_⟩
  · have data (d : Dma) := exec_tableCommit_table hx d bad
    have alone := (partnerFollows_corrupted bad s).trans hp
    refine ⟨fun b hb => ?_, fun b hb => ?_, data .fault, data .tooLong⟩
    · rw [data, tblCommit_data hb alone]
    · rw [data, tblCommit_short hb]
  · rw [exec_tableCommit_rule hn hx, ruleCommit_data h16 hb hp]
  · have read (ecc : Ecc) := exec_tblRead_in_turn (a := a) hs ht ecc
    refine ⟨fun hok ecc => ?_, fun hok => ⟨fun hi ecc hecc => ?_, fun hi ecc => ?_, fun hi ecc => ?_⟩⟩
    · rw [read, tblReadNow_out_of_range hok]
      rfl
    · rw [read, tblReadNow_good (u := tableStarted c s) hok hi hecc]
      rfl
    · rw [read, tblReadNow_corrupt (u := tableStarted c s) hok hi]
      rfl
    · rw [read, tblReadNow_absent (u := tableStarted c s) hok hi]
      rfl
  · have delete := commitDelete_nextHop he
    refine ⟨fun hr hrefs => ?_, fun hr hrefs hbad => ⟨putNh k { e with retired := some (activeEpoch s) } s, ?_,
      tabFind_insert_self _ _ _, fun j hj => ?_, rfl⟩, fun hr b => ?_⟩
    · rw [delete, if_neg (by rw [hr]; decide), if_pos hrefs]
    · rw [delete, if_neg (by rw [hr]; decide), if_neg (not_not.mpr hrefs), ← hbad]
    · exact (tabFind_insert _ _ _ _).trans (if_neg hj)
    · rw [commitInsert_retired he hr b, commitUpdate_retired he hr b]
      exact ⟨rfl, rfl, rfl, rfl⟩

end Sys2Proof.Machine
end

section
/-! The deferred work of the tables (R205, R209, R220, R226 to R229) and the scheduler (R437 to R446). -/

namespace Sys2Proof.Machine
open Sys2Proof

/-! ### What a ready list dispatches first (R438) -/

theorem opBefore_iff (a b : DwOp) : opBefore a b = true ↔ a.deadline < b.deadline ∨ (a.deadline = b.deadline ∧
    (b.cls < a.cls ∨ (a.cls = b.cls ∧ (a.issued < b.issued ∨ (a.issued = b.issued ∧ a.kind < b.kind))))) := by
  simp [opBefore]

theorem opBefore_irrefl (a : DwOp) : opBefore a a = false := by
  rw [← Bool.not_eq_true, opBefore_iff]
  omega

/-- Operations that do not go before one another in turn. -/
theorem not_opBefore_trans {a b c : DwOp} (h : opBefore a b = false) (g : opBefore b c = false) : opBefore a c = false := by
  rw [← Bool.not_eq_true, opBefore_iff] at *
  omega

theorem not_opBefore_of_opBefore {a b : DwOp} (h : opBefore a b = true) : opBefore b a = false := by
  rw [← Bool.not_eq_true]
  rw [opBefore_iff] at *
  omega

/-- One comparison of `firstOp`. -/
def earlierOp (best : Option DwOp) (o : DwOp) : Option DwOp :=
  match best with
  | none => some o
  | some b => if opBefore o b then some o else some b

theorem firstOp_all (l : List DwOp) : firstOp (fun _ => true) l = l.foldl earlierOp none := rfl

/-- A comparison keeps one of the two, which neither goes before. -/
theorem earlierOp_spec (best : Option DwOp) (a : DwOp) : ∃ c, earlierOp best a = some c ∧ (c = a ∨ best = some c) ∧
    opBefore a c = false ∧ ∀ b, best = some b → opBefore b c = false := by
  cases best with
  | none => exact ⟨a, rfl, .inl rfl, opBefore_irrefl a, fun b hb => by cases hb⟩
  | some b =>
    cases h : opBefore a b with
    | true => exact ⟨a, if_pos h, .inl rfl, opBefore_irrefl a, fun b hb => by cases hb; exact not_opBefore_of_opBefore h⟩
    | false => exact ⟨b, if_neg (by rw [h]; decide), .inr rfl, h, fun b hb => by cases hb; exact opBefore_irrefl _⟩

/-- What a row of comparisons keeps is one of the operations, and none of them goes before it. -/
theorem foldl_earlierOp_spec {o : DwOp} (l : List DwOp) (best : Option DwOp) (h : l.foldl earlierOp best = some o) :
    (o ∈ l ∨ best = some o) ∧ (∀ x ∈ l, opBefore x o = false) ∧ ∀ b, best = some b → opBefore b o = false := by
  induction l generalizing best with
  | nil =>
    obtain rfl : best = some o := h
    exact ⟨.inr rfl, fun x hx => absurd hx List.not_mem_nil, fun b hb => by cases hb; exact opBefore_irrefl o⟩
  | cons a l ih =>
    obtain ⟨c, hc, hfrom, ha, hb⟩ := earlierOp_spec best a
    rw [List.foldl_cons, hc] at h
    obtain ⟨hmem, hl, hbest⟩ := ih _ h
    have hco := hbest c rfl
    refine ⟨?_, fun x hx => ?_, fun b e => not_opBefore_trans (hb b e) hco⟩
    · rcases hmem with hmem | e
      · exact .inl (List.mem_cons_of_mem a hmem)
      · obtain rfl : c = o := Option.some.inj e
        exact hfrom.imp (fun e => List.mem_cons.mpr (.inl e)) id
    · rcases List.mem_cons.mp hx with rfl | hx
      · exact not_opBefore_trans ha hco
      · exact hl x hx

theorem listFirst_spec {l : Nat} {o : DwOp} {s : State} (h : listFirst s l = some o) :
    o ∈ readyOps s l ∧ o.notBefore ≤ s.clk.cclk ∧ inCycle s (listKey l) (fclk s) < listRate l ∧
      ∀ x ∈ readyOps s l, opBefore x o = false := by
  unfold listFirst at h
  split at h
  · next hc =>
    rw [Bool.and_eq_true, decide_eq_true_eq] at hc
    rw [firstOp_all] at h
    obtain ⟨hmem, hl, -⟩ := foldl_earlierOp_spec _ none h
    have ready : o ∈ readyOps s l := hmem.resolve_right fun e => by cases e
    exact ⟨ready, by simpa using (List.mem_filter.mp ready).2, hc.2, hl⟩
  · cases h

/-! ### A halted scheduler (R446) -/

section
variable {s : State} (h : dispatches s = false)
include h

theorem listFirst_of_halted (l : Nat) : listFirst s l = none := by
  rw [listFirst, if_neg (by simp [h])]

theorem nextOp_of_halted (list kind : Nat) (p : DwOp → Bool) : nextOp s list kind p = none := by
  rw [nextOp, listFirst_of_halted h]

theorem nextWay_of_halted (kind r : Nat) : nextWay s kind r = none := by
  unfold nextWay
  split
  · rw [listFirst_of_halted h, if_neg (by simp)]
  · rfl

theorem nextStep_of_halted (c : Nat) : nextStep s c = none := by
  unfold nextStep
  split
  · rw [listFirst_of_halted h, if_neg (by simp)]
  · rfl

theorem exec_macAging_of_halted : exec .macAging s = .next s := by
  show execMacAging s = _
  rw [execMacAging, nextStep_of_halted h]

theorem exec_filterRebuild_of_halted : exec .filterRebuild s = .next s := by
  show execFilterRebuild s = _
  rw [execFilterRebuild, nextOp_of_halted h]

theorem exec_emReturn_of_halted : exec .emReturn s = .next s := by
  show execEmReturn s = _
  rw [execEmReturn, nextOp_of_halted h]

theorem exec_learnNotice_of_halted : exec .learnNotice s = .next s := by
  show execLearnNotice s = _
  rw [execLearnNotice]
  simp only [nextOp_of_halted h]

theorem exec_captureCopy_of_halted : exec .captureCopy s = .next s := by
  show execCaptureCopy s = _
  rw [execCaptureCopy, nextOp_of_halted h]

theorem exec_counterExport_of_halted : exec .counterExport s = .next s := by
  show execCounterExport s = _
  rw [execCounterExport, nextOp_of_halted h]

end

/-! ### Operations that are lost (R444, R445) -/

/-- The counters of the kinds are apart from those of the events, and of the losses that a block counts itself. -/
theorem cKind_ne (k : Nat) : cKind k 0x28 ≠ cEvent 0x00 ∧ cKind k 0x28 ≠ cEvent 0x08 ∧ cKind k 0x28 ≠ cEvent 0x10 ∧
    cKind k 0x28 ≠ cLookup 0x68 ∧ cKind k 0x28 ≠ cService 0x28 := by
  unfold cKind cEvent cLookup cService
  omega

theorem ctr_raise_other {src o : Nat} (detail : Nat) (s : State) (h0 : o ≠ cEvent 0x00) (h8 : o ≠ cEvent 0x08)
    (h10 : o ≠ cEvent 0x10) : ctr (raise src detail s) o = ctr s o := by
  rw [raise_ctr src detail s h8 h10, ctr_count, if_neg h0]

theorem ctr_raiseOnce_other {src o : Nat} (scope detail : Nat) (s : State) (h0 : o ≠ cEvent 0x00) (h8 : o ≠ cEvent 0x08)
    (h10 : o ≠ cEvent 0x10) : ctr (raiseOnce src scope detail s) o = ctr s o := by
  unfold raiseOnce
  split
  · exact (ctr_raise_other detail _ h0 h8 h10).trans (ctr_congr rfl o)
  · rfl

theorem ctr_loseOp (o : DwOp) (s : State) : ctr (loseOp o s) (cKind o.kind 0x28) = (ctr s (cKind o.kind 0x28) + 1) % 2 ^ 64 := by
  obtain ⟨h0, h8, h10, hl, hs⟩ := cKind_ne o.kind
  rw [loseOp, ctr_raiseOnce_other _ _ _ h0 h8 h10, when_ctr _ fun t => by rw [ctr_count, if_neg hs],
    when_ctr _ fun t => by rw [ctr_count, if_neg hl], ctr_count, if_pos rfl]

theorem ctr_loseEntry (o : DwOp) (s : State) :
    ctr (loseEntry o s) (cKind o.kind 0x28) = (ctr s (cKind o.kind 0x28) + 1) % 2 ^ 64 := by
  rw [loseEntry, ctr_loseOp, when_ctr _ fun t => ctr_congr wr_ctr _]

/-- A loss writes event registers alone. -/
theorem rd_loseOp {obj : Nat} (o : DwOp) (s : State) (ho : obj < 2 ^ 32) (ha : objArea obj ≠ 0x7C) :
    rd (loseOp o s) obj = rd s obj := by
  have counted (c : Bool) (k : Nat) (t : State) : (when c (count k) t).dict = t.dict := when_dict t fun _ => count_dict
  rw [loseOp, rd_raiseOnce_of_area _ _ _ (by decide) ho ha]
  exact rd_congr ((counted _ _ _).trans ((counted _ _ _).trans count_dict)) obj 0

theorem rd_loseEntry_release {o : DwOp} (s : State) (h : o.kind = 5) :
    rd (loseEntry o s) oOrphanResources = (rd s oOrphanResources + 1) % 2 ^ 32 := by
  rw [loseEntry, rd_loseOp _ _ (by decide) (by decide), when, if_pos (by simp [h]), rd_wr_self]

/-! ### Far passes (R442) -/

theorem markSpilled_nil (n : Nat) (l : List DwOp) : markSpilled [] n l = l := by
  simp [markSpilled]

/-- A far list without errors moves into the buckets as far as it has come within range. -/
theorem farPass_clean {s : State} (h : ∀ o ∈ s.dw.far, o.bad = false) : farPass [] s =
    readSpill (s.dw.far.filter (inRange s)).length (wroteSpill (s.dw.far.filter (inRange s)).length
      (ctrAdd (cWork 0x10) (s.dw.far.filter (inRange s)).length
        (setDw { s.dw with buckets := s.dw.buckets ++ s.dw.far.filter (inRange s),
                           far := s.dw.far.filter (fun o => !inRange s o) } s))) := by
  have good : s.dw.far.filter (fun o => !o.bad) = s.dw.far := List.filter_eq_self.mpr fun o ho => by simp [h o ho]
  have none_bad : s.dw.far.filter (·.bad) = [] := List.filter_eq_nil_iff.mpr fun o ho => by simp [h o ho]
  simp only [farPass, markSpilled_nil, good, none_bad, forEach, List.foldl_nil]
  rfl

/-! ### The aging sweep (R228) -/

theorem perfCell_ge (row : Nat) : 0x320000 ≤ perfCell row := by
  unfold perfCell
  split
  · unfold cPerf; omega
  · unfold cGlobal; omega

section
variable {k : Nat} (hk : k < 0x320000)
include hk

theorem ctr_perfCount (row n : Nat) (s : State) : ctr (perfCount row n s) k = ctr s k := by
  have cell : k ≠ perfCell row := by have := perfCell_ge row; omega
  have counted (n : Nat) (t : State) : ctr (ctrAdd (perfCell row) n t) k = ctr t k := by rw [ctr_ctrAdd, if_neg cell]
  unfold perfCount
  extract_lets v mode threshold cyc seen p t last q u
  split
  · exact counted n s
  · split
    · split
      · rfl
      · exact counted 1 u
    · rfl

theorem ctr_perfOccur (scope : Nat → Bool) (event n : Nat) (o : Occ) (s : State) : ctr (perfOccur scope event n o s) k = ctr s k := by
  unfold perfOccur
  generalize (perfRows s).filter scope = l
  induction l generalizing s with
  | nil => rfl
  | cons row l ih =>
    refine (ih _).trans ?_
    dsimp only
    split
    · exact ctr_perfCount hk row n s
    · rfl

theorem ctr_occurGlobal (event n : Nat) (s : State) : ctr (occurGlobal event n s) k = ctr s k := by
  unfold occurGlobal
  split
  · rfl
  · exact ctr_perfOccur hk _ _ _ _ s

/-- What a dispatch counts, beside what measurement and events count. -/
theorem ctr_countDispatch {o : DwOp} (s : State) (h8 : k ≠ cKind o.kind 0x08) (h10 : k ≠ cKind o.kind 0x10)
    (h18 : k ≠ cKind o.kind 0x18) : ctr (countDispatch o s) k = ctr s k := by
  have before : ctr (count (cKind o.kind 0x08) (occurGlobal 0x110 1 s)) k = ctr s k := by
    rw [ctr_count, if_neg h8, ctr_occurGlobal hk]
  have late (t : State) : ctr (countLate o t) k = ctr t k := by
    have peak (v : Nat) (t : State) : ctr (ctrMax (cKind o.kind 0x18) v t) k = ctr t k := by
      unfold ctrMax
      split
      · rw [ctr_ctrSet, if_neg h18]
      · rfl
    have noted (v : Nat) : ctr (ctrMax (cKind o.kind 0x18) v (count (cKind o.kind 0x10) t)) k = ctr t k := by
      rw [peak, ctr_count, if_neg h10]
    have events : k ≠ cEvent 0x00 ∧ k ≠ cEvent 0x08 ∧ k ≠ cEvent 0x10 := by
      unfold cEvent
      omega
    unfold countLate
    extract_lets d u
    split
    · rfl
    · split
      · rw [ctr_raiseOnce_other _ _ _ events.1 events.2.1 events.2.2]
        exact (ctr_congr wr_ctr k).trans (noted d)
      · exact noted d
  exact (late _).trans before

end

theorem cursorOf_aging {s : State} (h : msCclk (rd s oAgePeriod) ≠ 0) :
    cursorOf s 17 = some (10, 17, agingSteps, msCclk (rd s oAgePeriod)) := by
  rw [cursorOf, if_neg (by decide), if_neg (by decide)]
  exact if_neg h

theorem cursorOf_aging_off {s : State} (h : msCclk (rd s oAgePeriod) = 0) : cursorOf s 17 = none := by
  rw [cursorOf, if_neg (by decide), if_neg (by decide)]
  exact if_pos h

/-- A step that the aging sweep takes is of kind 10, and the sweep has a period. -/
theorem nextStep_aging {o : DwOp} {s : State} (h : nextStep s 17 = some o) :
    ∃ p, cursorOf s 17 = some (10, 17, agingSteps, p) ∧ o.kind = 10 := by
  by_cases h0 : msCclk (rd s oAgePeriod) = 0
  · rw [nextStep, cursorOp, cursorOf_aging_off h0] at h
    cases h
  · refine ⟨_, cursorOf_aging h0, ?_⟩
    rw [nextStep, cursorOp, cursorOf_aging h0, Option.map_some] at h
    dsimp only at h
    split at h
    · rw [← Option.some.inj h]
    · cases h

/-- A step of a cursor counts what its issue and dispatch count, beside the re-pacing. -/
theorem ctr_stepCursor {c kind list n p k : Nat} (o : DwOp) {s : State} (hp : cursorOf s c = some (kind, list, n, p))
    (hk : k ≠ cWork 0x28) : ctr (stepCursor c o s) k = ctr (countDispatch o (count (cKind kind 0x00) s)) k := by
  have stepped (d : Dw) (t : State) : ctr (setDw d t) k = ctr t k := rfl
  have repaced (t : State) : ctr (count (cWork 0x28) t) k = ctr t k := by rw [ctr_count, if_neg hk]
  unfold stepCursor
  rw [hp]
  dsimp only
  split
  · rw [stepped]
    split
    · rw [repaced, stepped]
    · rfl
  · rw [stepped]
    split
    · rw [repaced, stepped]
    · rfl

/-- A step of the aging sweep counts as issued and leaves the tables to the visit. -/
theorem stepCursor_aging {o : DwOp} {s : State} (h : nextStep s 17 = some o) :
    (stepCursor 17 o s).lt = s.lt ∧ ctr (stepCursor 17 o s) (cKind 10 0x00) = (ctr s (cKind 10 0x00) + 1) % 2 ^ 64 := by
  refine ⟨(stepCursor_issued 17 o s (Issued.refl s)).lt, ?_⟩
  obtain ⟨p, hp, hkind⟩ := nextStep_aging h
  have dispatch (t : State) : ctr (countDispatch o t) (cKind 10 0x00) = ctr t (cKind 10 0x00) :=
    ctr_countDispatch (by unfold cKind; omega) t (by rw [hkind]; unfold cKind; omega) (by rw [hkind]; unfold cKind; omega)
      (by rw [hkind]; unfold cKind; omega)
  have counted : ctr (countDispatch o (count (cKind 10 0x00) s)) (cKind 10 0x00) = (ctr s (cKind 10 0x00) + 1) % 2 ^ 64 := by
    rw [dispatch, ctr_count, if_pos rfl]
  rw [ctr_stepCursor o hp (by unfold cKind cWork; omega), counted]

/-! ### The commands -/

theorem exec_lockExpired_of_held {t : Nat} {b : Bytes} {l : Lock} {s : State} (h : lockOf s t (leNat b) = some l)
    (hh : l.hold = true) : exec (.lockExpired t b) s = .next (raise evLockExpired t (count (cLookup 0x88)
      (setLt { s.lt with locks := s.lt.locks.filter (fun l => !(l.table = t && l.key = leNat b)),
                         expired := s.lt.expired ++ [l] } s))) := by
  show execLockExpired t b s = _
  rw [execLockExpired]
  simp only [h]
  rw [if_pos hh]
  rfl

theorem exec_macAging_of_step {o : DwOp} {s : State} (h : nextStep s 17 = some o) : exec .macAging s =
    .next (forEach (s.lt.em.filter (fun e => if e.1 < overflowBase then e.1 / 4 = cursorStep s 17
      else e.1 - overflowBase + 262144 = cursorStep s 17)) (fun u e => ageEntry e.1 e.2 u) (stepCursor 17 o s)) := by
  show execMacAging s = _
  rw [execMacAging, h]

theorem exec_filterRebuild_of_op {o : DwOp} {s : State} (h : nextOp s 17 12 (fun _ => true) = some o) :
    exec .filterRebuild s = .next (count (cLookup 0x50) (rebuildGroup (nth 0 o.args 0) (dispatched o s))) := by
  show execFilterRebuild s = _
  rw [execFilterRebuild, h]

theorem exec_emReturn_of_op {o : DwOp} {s : State} (h : nextOp s 17 11 (fun _ => true) = some o) :
    exec .emReturn s = .next (returnTo (nth 0 o.args 0) (dispatched o s)) := by
  show execEmReturn s = _
  rw [execEmReturn, h]

/-- The dispatched notice is posted where LEARN_QUEUE is there, and lost where it is not. -/
theorem exec_learnNotice_of_op {o : DwOp} {s : State}
    (h : nextOp s 18 7 (fun _ => (cq s (rd s oLearnQueue)).isNone || cqTakes s (rd s oLearnQueue) 2) = some o) :
    exec .learnNotice s = .next (if (cq (dispatched o s) (rd s oLearnQueue)).isNone then count (cLookup 0x68) (dispatched o s)
      else postSystem (rd s oLearnQueue) (completionHeader 2 0 2 0 0 0xFFFF 0 0 ++ o.body ++ zeros 16) (dispatched o s)) := by
  show execLearnNotice s = _
  rw [execLearnNotice]
  simp only [h]

theorem exec_farPass_due {bad : List Nat} {s : State} (h : farDue s = true) :
    exec (.farPass bad) s = .next (refill (farPass bad s)) := by
  show execFarPass bad s = _
  rw [execFarPass, if_pos h]

theorem exec_farPass_idle {bad : List Nat} {s : State} (h : farDue s = false) : exec (.farPass bad) s = .next s := by
  show execFarPass bad s = _
  rw [execFarPass, if_neg (by rw [h]; decide)]

theorem farPass_moves {s : State} (h : ∀ o ∈ s.dw.far, o.bad = false) : let t := farPass [] s
    t.dw.buckets = s.dw.buckets ++ s.dw.far.filter (inRange s) ∧
    t.dw.far = s.dw.far.filter (fun o => !inRange s o) ∧ t.dw.onDie = s.dw.onDie ∧ t.dw.wayHeld = s.dw.wayHeld ∧
    ctr t (cWork 0x10) = (ctr s (cWork 0x10) + (s.dw.far.filter (inRange s)).length) % 2 ^ 64 ∧
    { t with dw := s.dw, ctr := s.ctr } = s := by
  rw [farPass_clean h]
  generalize s.dw.far.filter (inRange s) = near
  generalize s.dw.far.filter (fun o => !inRange s o) = rest
  refine ⟨rfl, rfl, rfl, rfl, ?_, rfl⟩
  have moved (n : Nat) (t : State) : ctr (readSpill n (wroteSpill n t)) (cWork 0x10) = ctr t (cWork 0x10) := rfl
  rw [moved, ctr_ctrAdd, if_pos rfl]
  rfl

/-- Settles O26: each deferred command by what its list dispatches, a far pass as one move between two lists, and the choice of
a ready list as a least element of R438's order. -/
theorem deferredTableWork : Obligations.DeferredTableWork := by
  refine ⟨fun s => ⟨fun t b l => exec_lockExpired_of_held, fun bd mac => rfl, fun o => exec_filterRebuild_of_op,
      fun o => exec_emReturn_of_op, fun o h => ?_, fun o h => ⟨_, exec_macAging_of_step h, stepCursor_aging h⟩,
      fun h => ⟨exec_macAging_of_halted h, exec_filterRebuild_of_halted h, exec_emReturn_of_halted h,
        exec_learnNotice_of_halted h⟩⟩,
    fun bad s => ⟨exec_farPass_idle, exec_farPass_due⟩, fun s => rfl, fun s => farPass_moves, fun o s => rd_loseEntry_release s,
    ctr_loseEntry, fun l o s => listFirst_spec, fun s h => ⟨nextOp_of_halted h, nextWay_of_halted h, nextStep_of_halted h,
      exec_captureCopy_of_halted h, exec_counterExport_of_halted h, exec_filterRebuild_of_halted h⟩⟩
  have notice := exec_learnNotice_of_op h
  refine ⟨fun hq => ?_, fun hq => ?_⟩
  · rw [notice, if_neg (by rw [Option.isNone_iff_eq_none]; exact Option.isSome_iff_ne_none.mp hq)]
  · rw [notice, if_pos (by rw [hq]; rfl)]

end Sys2Proof.Machine
end

section
/-! Rule searches (R240 to R242, R252, R254) and scans (R255 to R264). -/

namespace Sys2Proof.Machine
open Sys2Proof

/-! ### Results delivered to a frame -/

theorem modFrame_of_frame {fid : Nat} {f : Frame} {s : State} (g : Frame → Frame) (h : frame s fid = some f) :
    modFrame fid g s = putFrame fid (g f) s := by
  rw [modFrame, h]

theorem modFrame_of_none {fid : Nat} {s : State} (g : Frame → Frame) (h : frame s fid = none) : modFrame fid g s = s := by
  rw [modFrame, h]

/-- A change of a frame is a change of the pipelines' state alone. -/
theorem modFrame_eq (fid : Nat) (g : Frame → Frame) (s : State) : ∃ p, modFrame fid g s = { s with pip := p } := by
  cases h : frame s fid with
  | none => exact ⟨s.pip, modFrame_of_none g h⟩
  | some f => exact ⟨_, modFrame_of_frame g h⟩

theorem modFrame_dict (fid : Nat) (g : Frame → Frame) (s : State) : (modFrame fid g s).dict = s.dict := by
  obtain ⟨p, h⟩ := modFrame_eq fid g s
  rw [h]

theorem modFrame_rb (fid : Nat) (g : Frame → Frame) (s : State) : (modFrame fid g s).rb = s.rb := by
  obtain ⟨p, h⟩ := modFrame_eq fid g s
  rw [h]

theorem frame_modFrame (fid : Nat) (g : Frame → Frame) (s : State) (k : Nat) :
    frame (modFrame fid g s) k = if k = fid then (frame s fid).map g else frame s k := by
  cases h : frame s fid with
  | none =>
    rw [modFrame_of_none g h]
    split
    · next hk => rw [hk, h]; rfl
    · rfl
  | some f => rw [modFrame_of_frame g h, frame_putFrame]; rfl

theorem frame_modFrame_self {fid : Nat} {f : Frame} {s : State} (g : Frame → Frame) (h : frame s fid = some f) :
    frame (modFrame fid g s) fid = some (g f) := by
  rw [frame_modFrame, if_pos rfl, h]
  rfl

theorem frame_modFrame_ne {fid k : Nat} (g : Frame → Frame) (s : State) (h : k ≠ fid) :
    frame (modFrame fid g s) k = frame s k := by
  rw [frame_modFrame, if_neg h]

theorem frame_deliverResult_self {fid : Nat} {f : Frame} {s : State} (r : SearchResult) (error : Bool)
    (h : frame s fid = some f) : frame (deliverResult fid r error s) fid =
      some { f with results := f.results ++ [r], fault := if error then some 0x000A else f.fault } :=
  frame_modFrame_self _ h

theorem frame_deliverResult_ne {fid k : Nat} (r : SearchResult) (error : Bool) (s : State) (h : k ≠ fid) :
    frame (deliverResult fid r error s) k = frame s k := frame_modFrame_ne _ s h

theorem deliverResult_dict (fid : Nat) (r : SearchResult) (error : Bool) (s : State) :
    (deliverResult fid r error s).dict = s.dict := modFrame_dict fid _ s

theorem deliverResult_rb (fid : Nat) (r : SearchResult) (error : Bool) (s : State) :
    (deliverResult fid r error s).rb = s.rb := modFrame_rb fid _ s

theorem forEach_range_succ (F : State → Nat → State) (n : Nat) (s : State) :
    forEach (List.range (n + 1)) F s = F (forEach (List.range n) F s) n := by
  rw [forEach, forEach, List.range_succ, List.foldl_append]
  rfl

/-! ### The matching rule (R241) -/

theorem firstMatch_congr {s t : State} (h : t.rb = s.rb) (segs : List (Nat × Nat × Nat)) (keys : List Nat) (row g : Nat) :
    firstMatch t segs keys row g = firstMatch s segs keys row g := by
  unfold firstMatch ruleMatches rbEntry
  rw [h]

/-- In a list that rises, what satisfies a predicate does not lie before the first that does. -/
theorem find_le_of_rising {α : Type} {l : Tab α} {p : Nat × α → Bool} {a : Nat} {e : α} (hr : tabRising l = true)
    (h : l.find? p = some (a, e)) {b : Nat} {d : α} (hb : (b, d) ∈ l) (hp : p (b, d) = true) : a ≤ b := by
  rw [tabRising_iff] at hr
  revert hr
  induction l with
  | nil => cases hb
  | cons x l ih =>
    intro hr
    obtain ⟨hx, hl⟩ := List.pairwise_cons.mp hr
    by_cases hpx : p x = true
    · rw [List.find?_cons_of_pos hpx] at h
      obtain rfl : x = (a, e) := Option.some.inj h
      rcases List.mem_cons.mp hb with hb | hb
      · exact (congrArg Prod.fst hb).ge
      · exact (hx _ hb).le
    · rw [List.find?_cons_of_neg hpx] at h
      rcases List.mem_cons.mp hb with rfl | hb
      · exact absurd hp hpx
      · exact ih h hb hl

theorem firstMatch_lowest {s : State} {segs : List (Nat × Nat × Nat)} {keys : List Nat} {row g a : Nat} {e : RbEntry}
    (hr : tabRising s.rb.entries = true) (h : firstMatch s segs keys row g = some (a, e)) :
    (e.valid = true ∧ (groupMask row g).testBit (a / 2048) = true ∧
      segs.any (fun x => x.1 = a / 2048 && ruleMatches s keys (groupSeg row g) x.2.1 a) = true) ∧
    ∀ b d, (b, d) ∈ s.rb.entries → d.valid = true → (groupMask row g).testBit (b / 2048) = true →
      segs.any (fun x => x.1 = b / 2048 && ruleMatches s keys (groupSeg row g) x.2.1 b) = true → a ≤ b := by
  have hit := List.find?_some h
  simp only [Bool.and_eq_true] at hit
  refine ⟨⟨hit.1.1, hit.1.2, hit.2⟩, fun b d hb hv hm hs => find_le_of_rising hr h hb ?_⟩
  simp only [hv, hm, hs, Bool.and_self]

/-! ### The result of a group while no bank is faulty -/

theorem groupResult_of_none {fid row g : Nat} {segs : List (Nat × Nat × Nat)} {keys actions : List Nat} {t : State}
    (hf : rd t oRbFault = 0) (hm : firstMatch t segs keys row g = none) : groupResult fid segs keys row actions g t =
      deliverResult fid (.rule g (ruleWord false false 0) 0) false t := by
  simp [groupResult, hf, hm, when]

theorem groupResult_of_some {fid row g a : Nat} {e : RbEntry} {segs : List (Nat × Nat × Nat)} {keys actions : List Nat} {t : State}
    (hf : rd t oRbFault = 0) (hm : firstMatch t segs keys row g = some (a, e)) : groupResult fid segs keys row actions g t =
      deliverResult fid (.rule g (ruleWord true (e.badAction || actions.contains a) a) e.action)
        (e.badAction || actions.contains a) (when (e.badAction || actions.contains a) (count (cRule 0x18))
          (when (e.badAction || actions.contains a) (badAction a) (count (cRule 0x10) t))) := by
  simp only [groupResult, hf, hm, Nat.and_zero, ne_eq, not_true, decide_false, Bool.false_or]

/-! ### A search of intact rules -/

/-- The result that a search of intact rules gives a group. -/
def intactResult (s : State) (segs : List (Nat × Nat × Nat)) (keys : List Nat) (row g : Nat) : SearchResult :=
  match firstMatch s segs keys row g with
  | some (a, e) => .rule g (ruleWord true false a) e.action
  | none => .rule g (ruleWord false false 0) 0

/-- What stands between two states of one search of intact rules, and what has come to its frame. -/
def SearchesIntact (fid : Nat) (f : Frame) (rs : List SearchResult) (s t : State) : Prop :=
  frame t fid = some { f with results := f.results ++ rs } ∧ (∀ k, k ≠ fid → frame t k = frame s k) ∧ t.rb = s.rb ∧ t.dict = s.dict

theorem groupResult_intact {fid : Nat} {f : Frame} {rs : List SearchResult} {s t : State} (segs : List (Nat × Nat × Nat))
    (keys : List Nat) (row g : Nat) (hf : rd s oRbFault = 0) (hb : ∀ a e, (a, e) ∈ s.rb.entries → e.badAction = false)
    (h : SearchesIntact fid f rs s t) :
    SearchesIntact fid f (rs ++ [intactResult s segs keys row g]) s (groupResult fid segs keys row [] g t) := by
  obtain ⟨hframe, hother, hrb, hdict⟩ := h
  have delivers {u : State} (r : SearchResult) (hu : u.pip = t.pip) (hur : u.rb = t.rb) (hud : u.dict = t.dict) :
      SearchesIntact fid f (rs ++ [r]) s (deliverResult fid r false u) := by
    refine ⟨?_, fun k hk => ?_, ?_, ?_⟩
    · rw [frame_deliverResult_self r false ((frame_congr hu fid).trans hframe), List.append_assoc]
      rfl
    · rw [frame_deliverResult_ne _ _ _ hk, frame_congr hu, hother k hk]
    · rw [deliverResult_rb, hur, hrb]
    · rw [deliverResult_dict, hud, hdict]
  have hft : rd t oRbFault = 0 := (rd_congr hdict _ _).trans hf
  unfold intactResult
  cases hm : firstMatch s segs keys row g with
  | none =>
    rw [groupResult_of_none hft ((firstMatch_congr hrb _ _ _ _).trans hm)]
    exact delivers _ rfl rfl rfl
  | some x =>
    obtain ⟨a, e⟩ := x
    have good : (e.badAction || ([] : List Nat).contains a) = false := by
      rw [hb a e (List.mem_of_find?_eq_some hm)]
      rfl
    rw [groupResult_of_some hft ((firstMatch_congr hrb _ _ _ _).trans hm), good]
    exact delivers _ rfl rfl rfl

theorem forEach_groups_intact {fid : Nat} {f : Frame} {s t : State} (segs : List (Nat × Nat × Nat)) (keys : List Nat) (row : Nat)
    (hf : rd s oRbFault = 0) (hb : ∀ a e, (a, e) ∈ s.rb.entries → e.badAction = false) (h : SearchesIntact fid f [] s t) (n : Nat) :
    SearchesIntact fid f ((List.range n).map (intactResult s segs keys row)) s
      (forEach (List.range n) (fun t g => groupResult fid segs keys row [] g t) t) := by
  induction n with
  | zero => exact h
  | succ n ih =>
    rw [forEach_range_succ, List.range_succ, List.map_append]
    exact groupResult_intact segs keys row n hf hb ih

/-! ### Faults that a search finds -/

theorem rbEntry_putRb (a k : Nat) (e : RbEntry) (s : State) : rbEntry (putRb a e s) k = if k = a then e else rbEntry s k :=
  tabGet_put _ _ _ _ _

theorem rbEntry_congr {s t : State} (h : t.rb = s.rb) (a : Nat) : rbEntry t a = rbEntry s a := by rw [rbEntry, rbEntry, h]

theorem raise_rb (src detail : Nat) (s : State) : (raise src detail s).rb = s.rb := (raise_noted src detail s (Noted.refl s)).rb

/-- An entry and its bank are marked faulty. -/
def MarkedFaulty (a : Nat) (t : State) : Prop := (rbEntry t a).bad = true ∧ (rd t oRbFault).testBit (a / 2048) = true

theorem MarkedFaulty.congr {a : Nat} {s t : State} (h : MarkedFaulty a s) (hr : t.rb = s.rb)
    (hd : rd t oRbFault = rd s oRbFault) : MarkedFaulty a t := by
  rw [MarkedFaulty, rbEntry_congr hr, hd]
  exact h

theorem testBit_setBit_of_testBit {v n m : Nat} (h : v.testBit m = true) : (setBit v n).testBit m = true := by
  by_cases hm : m = n
  · rw [hm, testBit_setBit_self]
  · rw [testBit_setBit_ne hm, h]

/-- RB_FAULT and the entries behind a parity error. -/
theorem rbParity_marks (b : Nat) (s : State) : (∀ k, rbEntry (rbParity b s) k = if k = b then { rbEntry s b with bad := true } else rbEntry s k) ∧
    rd (rbParity b s) oRbFault = setBit (rd s oRbFault) (b / 2048) := by
  have hrd (v w : Nat) (u : State) : rd (raise evRbParity b (wr oRbFault v (wr oRbFaultLast w u))) oRbFault = v := by
    rw [rd_raise_of_area _ _ (by decide) (by decide) (by decide), rd_wr_self]
  refine ⟨fun k => ?_, ?_⟩
  · rw [rbParity, rbEntry_congr (raise_rb _ _ _), rbEntry_congr wr_rb, rbEntry_congr wr_rb, rbEntry_putRb]
  · rw [rbParity, hrd]
    rfl

theorem markedFaulty_rbParity_self (a : Nat) (s : State) : MarkedFaulty a (rbParity a s) := by
  obtain ⟨he, hd⟩ := rbParity_marks a s
  rw [MarkedFaulty, he, if_pos rfl, hd]
  exact ⟨rfl, testBit_setBit_self _ _⟩

theorem MarkedFaulty.rbParity {a : Nat} {s : State} (h : MarkedFaulty a s) (b : Nat) : MarkedFaulty a (rbParity b s) := by
  obtain ⟨he, hd⟩ := rbParity_marks b s
  rw [MarkedFaulty, he, hd]
  refine ⟨?_, testBit_setBit_of_testBit h.2⟩
  split
  · rfl
  · exact h.1

theorem markedFaulty_parity {parity : List Nat} {a : Nat} (ha : a ∈ parity) (s : State) :
    MarkedFaulty a (forEach parity (fun t a => rbParity a t) s) := by
  have keeps (l : List Nat) (s : State) (h : MarkedFaulty a s) : MarkedFaulty a (forEach l (fun t a => rbParity a t) s) := by
    induction l generalizing s with
    | nil => exact h
    | cons b l ih => exact ih _ (h.rbParity b)
  induction parity generalizing s with
  | nil => cases ha
  | cons b l ih =>
    rcases List.mem_cons.mp ha with rfl | ha
    · exact keeps l _ (markedFaulty_rbParity_self a s)
    · exact ih ha _

theorem rbEntry_badAction (b k : Nat) (s : State) :
    rbEntry (badAction b s) k = if k = b then { rbEntry s b with badAction := true } else rbEntry s k := by
  rw [badAction, rbEntry_congr (raise_rb _ _ _), rbEntry_putRb]

theorem rd_badAction (b : Nat) (s : State) : rd (badAction b s) oRbFault = rd s oRbFault :=
  (rd_raise_of_area _ _ (by decide) (by decide) (by decide)).trans (rd_congr rfl _ _)

theorem MarkedFaulty.badAction {a : Nat} {s : State} (h : MarkedFaulty a s) (b : Nat) : MarkedFaulty a (badAction b s) := by
  rw [MarkedFaulty, rbEntry_badAction, rd_badAction]
  refine ⟨?_, h.2⟩
  split
  · next hb => exact hb ▸ h.1
  · exact h.1

theorem MarkedFaulty.when {a : Nat} {s : State} {c : Bool} {F : State → State} (h : MarkedFaulty a s)
    (hF : ∀ t, MarkedFaulty a t → MarkedFaulty a (F t)) : MarkedFaulty a (when c F s) := by
  cases c
  · exact h
  · exact hF s h

theorem MarkedFaulty.count {a : Nat} {s : State} (h : MarkedFaulty a s) (k : Nat) : MarkedFaulty a (count k s) :=
  h.congr count_rb (rd_congr count_dict _ _)

theorem MarkedFaulty.groupResult {a : Nat} {s : State} (h : MarkedFaulty a s) (fid : Nat) (segs : List (Nat × Nat × Nat))
    (keys : List Nat) (row : Nat) (actions : List Nat) (g : Nat) : MarkedFaulty a (groupResult fid segs keys row actions g s) := by
  have delivered {u : State} (r : SearchResult) (error : Bool) (hu : MarkedFaulty a u) : MarkedFaulty a (deliverResult fid r error u) :=
    hu.congr (deliverResult_rb _ _ _ _) (rd_congr (deliverResult_dict _ _ _ _) _ _)
  unfold Machine.groupResult
  extract_lets faulty
  split
  · exact delivered _ _ (h.when fun t ht => ht.count _)
  · exact delivered _ _ (((h.count _).when fun t ht => ht.badAction _).when fun t ht => ht.count _)

theorem markedFaulty_ruleSearch {a fid : Nat} {f : Frame} {parity actions : List Nat} {s : State} (ha : a ∈ parity) :
    MarkedFaulty a (ruleSearch fid f parity actions s) := by
  have start := markedFaulty_parity ha s
  have groups (segs : List (Nat × Nat × Nat)) (row : Nat) (l : List Nat) (u : State) (h : MarkedFaulty a u) :
      MarkedFaulty a (forEach l (fun t g => groupResult fid segs f.segs row actions g t) u) := by
    induction l generalizing u with
    | nil => exact h
    | cons g l ih => exact ih _ (h.groupResult fid segs f.segs row actions g)
  unfold ruleSearch
  extract_lets row selected u segs v w
  have hv : MarkedFaulty a v := (start.count _).congr ctrAdd_rb (rd_congr ctrAdd_dict _ _)
  exact (groups segs row _ v hv).congr (modFrame_rb _ _ _) (rd_congr (modFrame_dict _ _ _) _ _)

/-! ### Rules whose ACTION cannot be read (R254) -/

/-- Two entries that hold one rule. -/
structure SameRule (e d : RbEntry) : Prop where
  data : d.data = e.data
  care : d.care = e.care
  valid : d.valid = e.valid
  action : d.action = e.action

theorem SameRule.refl (e : RbEntry) : SameRule e e := ⟨rfl, rfl, rfl, rfl⟩

theorem SameRule.trans {e d c : RbEntry} (h : SameRule e d) (g : SameRule d c) : SameRule e c :=
  ⟨g.data.trans h.data, g.care.trans h.care, g.valid.trans h.valid, g.action.trans h.action⟩

/-- Two lists of entries that hold the same rules in the same places. -/
def SameRules (l m : Tab RbEntry) : Prop := List.Forall₂ (fun x y => y.1 = x.1 ∧ SameRule x.2 y.2) l m

theorem SameRules.refl (l : Tab RbEntry) : SameRules l l := by
  induction l with
  | nil => exact .nil
  | cons x l ih => exact .cons ⟨rfl, .refl _⟩ ih

theorem SameRules.trans {l m n : Tab RbEntry} (h : SameRules l m) (g : SameRules m n) : SameRules l n := by
  induction h generalizing n with
  | nil => exact g
  | @cons x y l m hxy _ ih =>
    cases g with
    | @cons _ z _ _ hyz g => exact .cons ⟨hyz.1.trans hxy.1, hxy.2.trans hyz.2⟩ (ih g)

/-- Marking the ACTION of an entry keeps the rules and their places. -/
theorem sameRules_insert {l : Tab RbEntry} {a : Nat} {e : RbEntry} (hr : tabRising l = true) (h : (a, e) ∈ l) :
    SameRules l (tabInsert l a { e with badAction := true }) := by
  rw [tabRising_iff] at hr
  induction l with
  | nil => cases h
  | cons x l ih =>
    obtain ⟨hx, hl⟩ := List.pairwise_cons.mp hr
    rcases List.mem_cons.mp h with rfl | h
    · rw [tabInsert, if_neg (Nat.lt_irrefl a), if_pos rfl]
      exact .cons ⟨rfl, rfl, rfl, rfl, rfl⟩ (SameRules.refl l)
    · have lt := hx _ h
      rw [tabInsert, if_neg (by simp only at lt; omega), if_neg (by simp only at lt; omega)]
      exact .cons ⟨rfl, .refl _⟩ (ih hl h)

theorem tabGet_of_mem {l : Tab RbEntry} {a : Nat} {e : RbEntry} (hr : tabRising l = true) (h : (a, e) ∈ l) : tabGet {} l a = e := by
  rw [tabRising_iff] at hr
  rw [tabGet]
  induction l with
  | nil => cases h
  | cons x l ih =>
    obtain ⟨hx, hl⟩ := List.pairwise_cons.mp hr
    rcases List.mem_cons.mp h with rfl | h
    · rw [tabFind, if_pos rfl]
      rfl
    · rw [tabFind, if_neg (Nat.ne_of_lt (hx _ h))]
      exact ih hl h

theorem SameRules.tabGet {l m : Tab RbEntry} (h : SameRules l m) (a : Nat) : SameRule (tabGet {} l a) (tabGet {} m a) := by
  induction h with
  | nil => exact .refl _
  | @cons x y l m hxy _ ih =>
    rw [Machine.tabGet, Machine.tabGet, tabFind, tabFind, hxy.1]
    split
    · exact hxy.2
    · exact ih

/-- The same rules match, with the same ACTIONs. -/
theorem SameRules.firstMatch {s t : State} (h : SameRules s.rb.entries t.rb.entries) (segs : List (Nat × Nat × Nat))
    (keys : List Nat) (row g : Nat) : (firstMatch t segs keys row g).map (fun x => (x.1, x.2.action)) =
      (firstMatch s segs keys row g).map (fun x => (x.1, x.2.action)) := by
  have parts (a key : Nat) : partMatches (rbEntry t a) key = partMatches (rbEntry s a) key := by
    have e : SameRule (rbEntry s a) (rbEntry t a) := h.tabGet a
    rw [partMatches, partMatches, e.data, e.care]
  have rules (seg w a : Nat) : ruleMatches t keys seg w a = ruleMatches s keys seg w a := by
    unfold ruleMatches
    simp only [parts]
  unfold Machine.firstMatch
  simp only [rules]
  revert h
  generalize s.rb.entries = l
  generalize t.rb.entries = m
  intro h
  induction h with
  | nil => rfl
  | @cons x y l m hxy _ ih =>
    rw [List.find?_cons, List.find?_cons, hxy.1, hxy.2.valid]
    split
    · simp only [Option.map_some, hxy.1, hxy.2.action]
    · exact ih

/-- Where a search stands that began in state `s` with no bank faulty, after the results of the groups below `n`. -/
structure SearchesMarking (fid : Nat) (f : Frame) (segs : List (Nat × Nat × Nat)) (row : Nat) (actions : List Nat) (s : State)
    (n : Nat) (t : State) : Prop where
  faults : rd t oRbFault = 0
  rising : tabRising t.rb.entries = true
  rules : SameRules s.rb.entries t.rb.entries
  results : ∃ h, frame t fid = some h ∧ h.results.length = f.results.length + n ∧
    ∀ g a e, g < n → firstMatch s segs f.segs row g = some (a, e) → actions.contains a = true →
      h.results[f.results.length + g]? = some (.rule g (ruleWord true true a) e.action) ∧ h.fault = some 0x000A ∧
      (rbEntry t a).badAction = true

/-- A delivery adds one result, and keeps the fault that is there. -/
theorem delivered_result {fid : Nat} {h : Frame} {u : State} (r : SearchResult) (error : Bool) (hu : frame u fid = some h) :
    ∃ h', frame (deliverResult fid r error u) fid = some h' ∧ h'.results = h.results ++ [r] ∧
      (error = true ∨ h.fault = some 0x000A → h'.fault = some 0x000A) := by
  refine ⟨_, frame_deliverResult_self r error hu, rfl, ?_⟩
  rintro (rfl | hf)
  · rfl
  · cases error
    · exact hf
    · rfl

theorem rising_badAction {a : Nat} {s : State} (h : tabRising s.rb.entries = true) : tabRising (badAction a s).rb.entries = true := by
  rw [badAction, raise_rb]
  exact tabRising_put {} _ _ _ h

theorem sameRules_badAction {a : Nat} {e : RbEntry} {s : State} (h : tabRising s.rb.entries = true) (ha : (a, e) ∈ s.rb.entries) :
    SameRules s.rb.entries (badAction a s).rb.entries := by
  have entry : rbEntry s a = e := tabGet_of_mem h ha
  rw [badAction, raise_rb, entry]
  show SameRules _ (tabPut {} _ _ _)
  rw [tabPut, if_neg (fun hd => Bool.noConfusion (congrArg RbEntry.badAction hd))]
  exact sameRules_insert h ha

/-- What lies between a group's match and the delivery of its result. -/
structure Marks (t v : State) : Prop where
  pip : v.pip = t.pip
  faults : rd v oRbFault = rd t oRbFault
  rising : tabRising t.rb.entries = true → tabRising v.rb.entries = true
  rules : SameRules t.rb.entries v.rb.entries
  unread : ∀ k, (rbEntry t k).badAction = true → (rbEntry v k).badAction = true

theorem Marks.refl (t : State) : Marks t t := ⟨rfl, rfl, id, .refl _, fun _ => id⟩

theorem Marks.trans {t u v : State} (h : Marks t u) (g : Marks u v) : Marks t v :=
  ⟨g.pip.trans h.pip, g.faults.trans h.faults, fun hr => g.rising (h.rising hr), h.rules.trans g.rules,
    fun k hk => g.unread k (h.unread k hk)⟩

theorem marks_count (k : Nat) (t : State) : Marks t (count k t) := ⟨rfl, rfl, id, .refl _, fun _ => id⟩

theorem marks_badAction {a : Nat} {e : RbEntry} {t : State} (h : tabRising t.rb.entries = true) (ha : (a, e) ∈ t.rb.entries) :
    Marks t (badAction a t) := by
  refine ⟨(raise_noted _ _ _ (Noted.refl _)).pip, rd_badAction a t, rising_badAction, sameRules_badAction h ha, fun k hk => ?_⟩
  rw [rbEntry_badAction]
  split
  · rfl
  · exact hk

section
variable {fid : Nat} {f : Frame} {segs : List (Nat × Nat × Nat)} {row : Nat} {actions : List Nat} {s : State} {n : Nat} {t : State}

theorem SearchesMarking.deliver {v : State} {r : SearchResult} {error : Bool} (h : SearchesMarking fid f segs row actions s n t)
    (hv : Marks t v) (hr : ∀ a e, firstMatch s segs f.segs row n = some (a, e) → actions.contains a = true →
      r = .rule n (ruleWord true true a) e.action ∧ error = true ∧ (rbEntry v a).badAction = true) :
    SearchesMarking fid f segs row actions s (n + 1) (deliverResult fid r error v) := by
  obtain ⟨x, hx, hlen, hres⟩ := h.results
  obtain ⟨y, hy, hyr, hyf⟩ := delivered_result r error ((frame_congr hv.pip fid).trans hx)
  have hrb := deliverResult_rb fid r error v
  refine ⟨(rd_congr (deliverResult_dict _ _ _ _) _ _).trans (hv.faults.trans h.faults), by rw [hrb]; exact hv.rising h.rising,
    by rw [hrb]; exact h.rules.trans hv.rules, y, hy, by rw [hyr, List.length_append, hlen]; rfl, fun g a e hg hm ha => ?_⟩
  rw [rbEntry_congr hrb, hyr]
  by_cases last : g = n
  · subst last
    obtain ⟨hr, he, hb⟩ := hr a e hm ha
    refine ⟨?_, hyf (.inl he), hb⟩
    rw [← hlen, List.getElem?_append_right (Nat.le_refl _), Nat.sub_self, hr]
    rfl
  · obtain ⟨hr, hf, hb⟩ := hres g a e (by omega) hm ha
    refine ⟨?_, hyf (.inr hf), hv.unread a hb⟩
    rw [List.getElem?_append_left (by omega), hr]

theorem SearchesMarking.group (h : SearchesMarking fid f segs row actions s n t) :
    SearchesMarking fid f segs row actions s (n + 1) (groupResult fid segs f.segs row actions n t) := by
  have same := h.rules.firstMatch segs f.segs row n
  cases hm : firstMatch t segs f.segs row n with
  | none =>
    rw [groupResult_of_none h.faults hm]
    refine h.deliver (Marks.refl t) fun a e he => ?_
    rw [hm, he] at same
    cases same
  | some x =>
    obtain ⟨a, e⟩ := x
    rw [groupResult_of_some h.faults hm]
    have place : (a, e) ∈ t.rb.entries := List.mem_of_find?_eq_some hm
    generalize hu : (e.badAction || actions.contains a) = u
    have counted := marks_count (cRule 0x10) t
    have marked : Marks t (when u (count (cRule 0x18)) (when u (badAction a) (count (cRule 0x10) t))) := by
      cases u
      · exact counted
      · have unread : Marks (count (cRule 0x10) t) (badAction a (count (cRule 0x10) t)) :=
          marks_badAction (counted.rising h.rising) (by rw [count_rb]; exact place)
        exact counted.trans (unread.trans (marks_count (cRule 0x18) _))
    refine h.deliver marked fun b d hs hb => ?_
    rw [hm, hs, Option.map_some, Option.map_some, Option.some_inj, Prod.mk.injEq] at same
    obtain ⟨hab, hact⟩ := same
    obtain rfl : a = b := hab
    obtain rfl : u = true := by rw [← hu, hb, Bool.or_true]
    refine ⟨by rw [hact], rfl, ?_⟩
    rw [when, if_pos rfl, when, if_pos rfl, rbEntry_congr count_rb, rbEntry_badAction, if_pos rfl]

theorem SearchesMarking.groups (h : SearchesMarking fid f segs row actions s 0 t) (n : Nat) :
    SearchesMarking fid f segs row actions s n
      (forEach (List.range n) (fun t g => groupResult fid segs f.segs row actions g t) t) := by
  induction n with
  | zero => exact h
  | succ n ih =>
    rw [forEach_range_succ]
    exact ih.group

end

/-! ### RULE_SEARCH -/

section
variable {fid : Nat} {f : Frame} {s : State} (hf : frame s fid = some f)
include hf

theorem exec_ruleSearch_due {parity actions : List Nat} (hp : f.phase = .ingress) (hd : f.due.testBit 4 = true)
    (hs : inService s 33 = true) (hpar : ∀ a ∈ parity, a < 131072) :
    exec (.ruleSearch fid parity actions) s = .next (ruleSearch fid f parity actions s) := by
  show execRuleSearch fid parity actions s = _
  rw [execRuleSearch, onUnits, if_pos (by simpa using hpar), hf]
  exact congrArg _ (if_pos (by simp [hp, hd, hs]))

/-- The state in which the groups of a search without a parity error are judged. -/
def searchCounted (f : Frame) (s : State) : State :=
  let row := rdCfg s f.epoch oSearchProfile (tmProfile f.tmplWord)
  ctrAdd (cRule 0x08) (popCount 64 (groupMask row 0 ||| groupMask row 1 ||| groupMask row 2 ||| groupMask row 3))
    (count (cRule 0x00) s)

omit hf in
theorem searchCounted_kept (f : Frame) (s : State) :
    (searchCounted f s).pip = s.pip ∧ (searchCounted f s).rb = s.rb ∧ (searchCounted f s).dict = s.dict := by
  unfold searchCounted
  exact ⟨ctrAdd_pip.trans count_pip, ctrAdd_rb.trans count_rb, ctrAdd_dict.trans count_dict⟩

omit hf in
theorem ruleSearch_clean (fid : Nat) (f : Frame) (actions : List Nat) (s : State) : ruleSearch fid f [] actions s =
    modFrame fid (fun x => { x with due := clearBit x.due 4 })
      (forEach (List.range 4) (fun t g => groupResult fid (linksOf s (setFor s f.epoch)) f.segs
        (rdCfg s f.epoch oSearchProfile (tmProfile f.tmplWord)) actions g t) (searchCounted f s)) := rfl

theorem ruleSearch_intact (h0 : rd s oRbFault = 0) (hb : ∀ a e, (a, e) ∈ s.rb.entries → e.badAction = false) :
    frame (ruleSearch fid f [] [] s) fid = some { f with
      results := f.results ++ (List.range 4).map (intactResult s (linksOf s (setFor s f.epoch)) f.segs
        (rdCfg s f.epoch oSearchProfile (tmProfile f.tmplWord))),
      due := clearBit f.due 4 } ∧
    (∀ k, k ≠ fid → frame (ruleSearch fid f [] [] s) k = frame s k) ∧ (ruleSearch fid f [] [] s).rb = s.rb ∧
      (ruleSearch fid f [] [] s).dict = s.dict := by
  obtain ⟨hpip, hrb, hdict⟩ := searchCounted_kept f s
  have start : SearchesIntact fid f [] s (searchCounted f s) :=
    ⟨by rw [List.append_nil]; exact (frame_congr hpip fid).trans hf, fun k _ => frame_congr hpip k, hrb, hdict⟩
  obtain ⟨hframe, hother, hrb, hdict⟩ := forEach_groups_intact (linksOf s (setFor s f.epoch)) f.segs
    (rdCfg s f.epoch oSearchProfile (tmProfile f.tmplWord)) h0 hb start 4
  rw [ruleSearch_clean]
  refine ⟨frame_modFrame_self _ hframe, fun k hk => ?_, (modFrame_rb _ _ _).trans hrb, (modFrame_dict _ _ _).trans hdict⟩
  rw [frame_modFrame_ne _ _ hk, hother k hk]

theorem ruleSearch_marks {actions : List Nat} (h0 : rd s oRbFault = 0) (hr : tabRising s.rb.entries = true) :
    ∃ h, frame (ruleSearch fid f [] actions s) fid = some h ∧ ∀ g a e, g < 4 →
      firstMatch s (linksOf s (setFor s f.epoch)) f.segs (rdCfg s f.epoch oSearchProfile (tmProfile f.tmplWord)) g = some (a, e) →
      actions.contains a = true →
        h.results[f.results.length + g]? = some (.rule g (ruleWord true true a) e.action) ∧ h.fault = some 0x000A ∧
        (rbEntry (ruleSearch fid f [] actions s) a).badAction = true := by
  obtain ⟨hpip, hrb, hdict⟩ := searchCounted_kept f s
  have start : SearchesMarking fid f (linksOf s (setFor s f.epoch)) (rdCfg s f.epoch oSearchProfile (tmProfile f.tmplWord))
      actions s 0 (searchCounted f s) :=
    ⟨(rd_congr hdict _ _).trans h0, by rw [hrb]; exact hr, by rw [hrb]; exact .refl _, f, (frame_congr hpip fid).trans hf, rfl,
      fun g a e hg => absurd hg (Nat.not_lt_zero g)⟩
  obtain ⟨x, hx, -, hres⟩ := (start.groups 4).results
  rw [ruleSearch_clean]
  refine ⟨_, frame_modFrame_self _ hx, fun g a e hg hm ha => ?_⟩
  rw [rbEntry_congr (modFrame_rb _ _ _)]
  exact hres g a e hg hm ha

end

/-! ### Scans (R255 to R264) -/

theorem raise_pip (src detail : Nat) (s : State) : (raise src detail s).pip = s.pip := (raise_noted src detail s (Noted.refl s)).pip
theorem raise_pa (src detail : Nat) (s : State) : (raise src detail s).pa = s.pa := (raise_noted src detail s (Noted.refl s)).pa

/-- A word that an uncorrectable error has met is known as bad from then on. -/
theorem readTransition_of_bad {x : Nat × Ecc} {s : State} (h : x.2 = .uncorrectable ∨ s.pa.bad.contains x.1 = true) :
    (readTransition x s).pip = s.pip ∧ (readTransition x s).pa.bad.contains x.1 = true ∧
      ∀ y, s.pa.bad.contains y = true → (readTransition x s).pa.bad.contains y = true := by
  rw [readTransition, if_pos (by simpa using h), raise_pip, raise_pa, wr_pip, wr_pa, count_pip, count_pa]
  cases hb : s.pa.bad.contains x.1
  · refine ⟨rfl, ?_, fun y hy => ?_⟩
    · simp [when, setPa]
    · simp only [when, setPa, Bool.not_false, if_true, List.contains_iff_mem, List.mem_append] at hy ⊢
      exact .inl hy
  · exact ⟨rfl, hb, fun y hy => hy⟩

theorem readTransition_of_good {x : Nat × Ecc} {s : State} (h : x.2 ≠ .uncorrectable) (hb : s.pa.bad.contains x.1 = false) :
    (readTransition x s).pip = s.pip ∧ (readTransition x s).pa = s.pa ∧ (readTransition x s).dict = s.dict := by
  rw [readTransition, if_neg (by simp only [h, hb]; decide)]
  cases decide (x.2 = .corrected) <;> exact ⟨rfl, rfl, rfl⟩

/-- The words of a scan are read in turn. -/
def readTransitions (words : List (Nat × Ecc)) (s : State) : State := forEach words (fun t x => readTransition x t) s

theorem readTransitions_pip (words : List (Nat × Ecc)) (s : State) : (readTransitions words s).pip = s.pip := by
  induction words generalizing s with
  | nil => rfl
  | cons x l ih =>
    refine (ih _).trans ?_
    by_cases h : x.2 = .uncorrectable ∨ s.pa.bad.contains x.1 = true
    · exact (readTransition_of_bad h).1
    · rw [not_or, Bool.not_eq_true] at h
      exact (readTransition_of_good h.1 h.2).1

theorem readTransitions_keep_bad (words : List (Nat × Ecc)) {s : State} {y : Nat} (hy : s.pa.bad.contains y = true) :
    (readTransitions words s).pa.bad.contains y = true := by
  induction words generalizing s with
  | nil => exact hy
  | cons x l ih =>
    refine ih ?_
    by_cases h : x.2 = .uncorrectable ∨ s.pa.bad.contains x.1 = true
    · exact (readTransition_of_bad h).2.2 y hy
    · rw [not_or, Bool.not_eq_true] at h
      rw [(readTransition_of_good h.1 h.2).2.1]
      exact hy

theorem readTransitions_find_bad {words : List (Nat × Ecc)} {x : Nat × Ecc} {s : State} (hx : x ∈ words)
    (h : x.2 = .uncorrectable ∨ s.pa.bad.contains x.1 = true) : (readTransitions words s).pa.bad.contains x.1 = true := by
  induction words generalizing s with
  | nil => cases hx
  | cons w l ih =>
    by_cases now : x = w
    · subst now
      exact readTransitions_keep_bad l (readTransition_of_bad h).2.1
    · refine ih ((List.mem_cons.mp hx).resolve_left now) (h.imp id fun hb => ?_)
      exact readTransitions_keep_bad [w] hb

theorem readTransitions_of_good {words : List (Nat × Ecc)} {s : State}
    (h : ∀ x ∈ words, x.2 ≠ .uncorrectable ∧ s.pa.bad.contains x.1 = false) :
    (readTransitions words s).pa = s.pa ∧ (readTransitions words s).dict = s.dict := by
  induction words generalizing s with
  | nil => exact ⟨rfl, rfl⟩
  | cons x l ih =>
    obtain ⟨hx, hb⟩ := h x List.mem_cons_self
    obtain ⟨-, hpa, hdict⟩ := readTransition_of_good hx hb
    obtain ⟨ihp, ihd⟩ := ih (s := readTransition x s) fun y hy => by
      rw [hpa]
      exact h y (List.mem_cons_of_mem x hy)
    exact ⟨ihp.trans hpa, ihd.trans hdict⟩

theorem scanMatch_congr {s t : State} (hp : t.pa = s.pa) (hd : t.dict = s.dict) (set : Nat) (w : Bytes) :
    scanMatch t set w = scanMatch s set w := by
  unfold scanMatch
  rw [rd_congr hd, hp]

section
variable {f : Frame} {words : List (Nat × Ecc)} {u : State}

theorem scanResult_no_image (h : rd u oPatState ≠ 2) :
    scanResult f words u = (scanWord false 2 0 0, false, count (cRule 0x60) u) := by
  rw [scanResult]
  exact if_pos h

theorem scanResult_no_set (h : rd u oPatState = 2) (hset : rd u oPatSets ≤ rdCfg u f.epoch oScanSetMap f.template) :
    scanResult f words u = (scanWord false 3 0 0, false, count (cRule 0x60) u) := by
  rw [scanResult]
  exact (if_neg (not_not.mpr h)).trans (if_pos hset)

/-- The scan has been counted and its words read. -/
def scanRead (f : Frame) (words : List (Nat × Ecc)) (u : State) : State :=
  readTransitions words (ctrAdd (cRule 0x48) (windowLen f) (count (cRule 0x40) u))

theorem scanRead_pip : (scanRead f words u).pip = u.pip :=
  (readTransitions_pip words _).trans (ctrAdd_pip.trans count_pip)

theorem scanResult_read (h : rd u oPatState = 2) (hset : rdCfg u f.epoch oScanSetMap f.template < rd u oPatSets) :
    scanResult f words u =
      if words.any (fun x => (scanRead f words u).pa.bad.contains x.1) then (scanWord false 1 0 0, true, scanRead f words u)
      else
        match scanMatch (scanRead f words u) (rdCfg u f.epoch oScanSetMap f.template) (scanWindow f) with
        | some (p, e) => (scanWord true 0 p e, false, count (cRule 0x50) (scanRead f words u))
        | none => (scanWord false 0 0 0, false, scanRead f words u) := by
  rw [scanResult]
  exact (if_neg (not_not.mpr h)).trans (if_neg (Nat.not_le.mpr hset))

theorem scanResult_error (h : rd u oPatState = 2) (hset : rdCfg u f.epoch oScanSetMap f.template < rd u oPatSets)
    (hw : ∃ x ∈ words, x.2 = .uncorrectable ∨ u.pa.bad.contains x.1 = true) :
    scanResult f words u = (scanWord false 1 0 0, true, scanRead f words u) := by
  obtain ⟨x, hx, hb⟩ := hw
  rw [scanResult_read h hset, if_pos (List.any_eq_true.mpr ⟨x, hx, ?_⟩)]
  exact readTransitions_find_bad hx hb

/-- The word of a scan that reads no uncorrectable word. -/
def matchWord (o : Option (Nat × Nat)) : Nat :=
  match o with
  | some (p, e) => scanWord true 0 p e
  | none => scanWord false 0 0 0

theorem scanResult_match (h : rd u oPatState = 2) (hset : rdCfg u f.epoch oScanSetMap f.template < rd u oPatSets)
    (hw : ∀ x ∈ words, x.2 ≠ .uncorrectable ∧ u.pa.bad.contains x.1 = false) : ∃ v, v.pip = u.pip ∧ scanResult f words u =
      (matchWord (scanMatch u (rdCfg u f.epoch oScanSetMap f.template) (scanWindow f)), false, v) := by
  obtain ⟨hpa, hdict⟩ := readTransitions_of_good (s := ctrAdd (cRule 0x48) (windowLen f) (count (cRule 0x40) u))
    fun x hx => by rw [ctrAdd_pa, count_pa]; exact hw x hx
  have pa : (scanRead f words u).pa = u.pa := hpa.trans (ctrAdd_pa.trans count_pa)
  have dict : (scanRead f words u).dict = u.dict := hdict.trans (ctrAdd_dict.trans count_dict)
  have good : words.any (fun x => (scanRead f words u).pa.bad.contains x.1) = false := by
    rw [List.any_eq_false, pa]
    exact fun x hx => by rw [(hw x hx).2]; decide
  rw [scanResult_read h hset, good, scanMatch_congr pa dict]
  cases scanMatch u (rdCfg u f.epoch oScanSetMap f.template) (scanWindow f) with
  | none => exact ⟨_, scanRead_pip, rfl⟩
  | some x => exact ⟨_, count_pip.trans scanRead_pip, rfl⟩

end

/-- A scan leaves its pipeline's queue. -/
def dequeued (n fid : Nat) (s : State) : State := setPipe n { pipe s n with scans := (pipe s n).scans.erase fid } s

/-- The result of a scan comes to its frame. -/
def scanned (fid : Nat) (r : Nat × Bool × State) : State :=
  modFrame fid (fun x => { x with due := clearBit x.due 5 }) (deliverResult fid (.scan r.1) r.2.1 r.2.2)

/-- The words of a scan by their place in the image. -/
def scanWords (words : List (Nat × Ecc)) : List (Nat × Ecc) := words.map (fun x => (x.1 % 2 ^ 32, x.2))

theorem exec_patternScan_of_frame {n fid : Nat} {f : Frame} {words : List (Nat × Ecc)} {s : State} (hn : isPipe n = true)
    (hs : inService s 34 = true) (hnext : nextScan s n = some fid) (hf : frame s fid = some f) (hd : f.due.testBit 5 = true) :
    exec (.patternScan n words) s = .next (scanned fid (scanResult f (scanWords words) (dequeued n fid s))) := by
  have hu : frame (dequeued n fid s) fid = some f := hf
  show execPatternScan n words s = _
  rw [execPatternScan, onUnits, if_pos hn, if_neg (by rw [hs]; decide), hnext]
  refine congrArg Host.Outcome.next ?_
  show (match frame (dequeued n fid s) fid with | none => dequeued n fid s | some f => _) = _
  rw [hu]
  exact if_pos hd

theorem exec_patternScan_halted {n : Nat} {words : List (Nat × Ecc)} {s : State} (hn : isPipe n = true)
    (hs : inService s 34 = false) : exec (.patternScan n words) s = .next s := by
  show execPatternScan n words s = _
  rw [execPatternScan, onUnits, if_pos hn, if_pos (by rw [hs]; rfl)]

theorem frame_scanned {fid : Nat} {f : Frame} {r : Nat × Bool × State} (h : frame r.2.2 fid = some f) :
    frame (scanned fid r) fid = some { f with results := f.results ++ [.scan r.1], due := clearBit f.due 5,
                                              fault := if r.2.1 then some 0x000A else f.fault } :=
  frame_modFrame_self _ (frame_deliverResult_self _ _ h)

theorem pipe_modFrame (fid : Nat) (g : Frame → Frame) (s : State) (n : Nat) : pipe (modFrame fid g s) n = pipe s n := by
  cases h : frame s fid with
  | none => rw [modFrame_of_none g h]
  | some f => rw [modFrame_of_frame g h]; rfl

theorem pipe_scanned (fid : Nat) (r : Nat × Bool × State) (n : Nat) : pipe (scanned fid r) n = pipe r.2.2 n :=
  (pipe_modFrame _ _ _ _).trans (pipe_modFrame _ _ _ _)

theorem dequeued_kept (n fid : Nat) (s : State) : (dequeued n fid s).dict = s.dict ∧ (dequeued n fid s).pa = s.pa ∧
    (∀ k, frame (dequeued n fid s) k = frame s k) ∧ (pipe (dequeued n fid s) n).scans = (pipe s n).scans.erase fid := by
  refine ⟨setPipe_dict, setPipe_pa, fun _ => rfl, ?_⟩
  rw [dequeued, pipe_setPipe_self]

theorem setFor_congr {s t : State} (h : t.dict = s.dict) (he : t.ep = s.ep) (epoch : Nat) : setFor t epoch = setFor s epoch := by
  have epochs : activeEpoch t = activeEpoch s := rd_congr h _ _
  have sets : activeSet t = activeSet s := rd_congr h _ _
  unfold setFor shadowSet
  rw [epochs, sets, he]

theorem rdCfg_congr {s t : State} (h : t.dict = s.dict) (he : t.ep = s.ep) (epoch obj row : Nat) :
    rdCfg t epoch obj row = rdCfg s epoch obj row := by
  rw [rdCfg, rdCfg, setFor_congr h he, rdSet_congr h]

theorem rdCfg_dequeued (n fid : Nat) (s : State) (epoch obj row : Nat) :
    rdCfg (dequeued n fid s) epoch obj row = rdCfg s epoch obj row := rdCfg_congr setPipe_dict setPipe_ep epoch obj row

section
variable {n fid : Nat} {f : Frame} {words : List (Nat × Ecc)} {s : State} (hn : isPipe n = true) (hs : inService s 34 = true)
  (hnext : nextScan s n = some fid) (hf : frame s fid = some f) (hd : f.due.testBit 5 = true)
include hn hs hnext hf hd

/-- A scan by its result: the word and the error go to the frame, and the scan has left its queue. -/
theorem patternScan_gives {w : Nat} {error : Bool} {v : State} (hv : v.pip = (dequeued n fid s).pip)
    (hr : scanResult f (scanWords words) (dequeued n fid s) = (w, error, v)) : ∃ t, exec (.patternScan n words) s = .next t ∧
      frame t fid = some { f with results := f.results ++ [.scan w], due := clearBit f.due 5,
                                  fault := if error then some 0x000A else f.fault } ∧
      (pipe t n).scans = (pipe s n).scans.erase fid := by
  obtain ⟨-, -, hframe, hpipe⟩ := dequeued_kept n fid s
  refine ⟨_, exec_patternScan_of_frame hn hs hnext hf hd, ?_, ?_⟩
  · rw [hr]
    exact frame_scanned ((frame_congr hv fid).trans ((hframe fid).trans hf))
  · rw [hr, pipe_scanned, pipe_congr hv]
    exact hpipe

theorem patternScan_no_image (h : rd s oPatState ≠ 2) : ∃ t, exec (.patternScan n words) s = .next t ∧
    frame t fid = some { f with results := f.results ++ [.scan (scanWord false 2 0 0)], due := clearBit f.due 5 } := by
  obtain ⟨hdict, -, -, -⟩ := dequeued_kept n fid s
  obtain ⟨t, ht, hframe, -⟩ := patternScan_gives hn hs hnext hf hd count_pip
    (scanResult_no_image (words := scanWords words) (by rw [rd_congr hdict]; exact h))
  exact ⟨t, ht, hframe⟩

theorem patternScan_no_set (h : rd s oPatState = 2) (hset : rd s oPatSets ≤ rdCfg s f.epoch oScanSetMap f.template) :
    ∃ t, exec (.patternScan n words) s = .next t ∧
      frame t fid = some { f with results := f.results ++ [.scan (scanWord false 3 0 0)], due := clearBit f.due 5 } := by
  obtain ⟨hdict, -, -, -⟩ := dequeued_kept n fid s
  obtain ⟨t, ht, hframe, -⟩ := patternScan_gives hn hs hnext hf hd count_pip
    (scanResult_no_set (words := scanWords words) (by rw [rd_congr hdict]; exact h)
      (by rw [rd_congr hdict, rdCfg_dequeued]; exact hset))
  exact ⟨t, ht, hframe⟩

theorem patternScan_error (h : rd s oPatState = 2) (hset : rdCfg s f.epoch oScanSetMap f.template < rd s oPatSets)
    (hw : ∃ x ∈ words, x.2 = .uncorrectable ∨ s.pa.bad.contains (x.1 % 2 ^ 32) = true) :
    ∃ t, exec (.patternScan n words) s = .next t ∧
      frame t fid = some { f with results := f.results ++ [.scan (scanWord false 1 0 0)], due := clearBit f.due 5,
                                  fault := some 0x000A } := by
  obtain ⟨hdict, hpa, -, -⟩ := dequeued_kept n fid s
  obtain ⟨x, hx, hb⟩ := hw
  obtain ⟨t, ht, hframe, -⟩ := patternScan_gives hn hs hnext hf hd scanRead_pip
    (scanResult_error (by rw [rd_congr hdict]; exact h) (by rw [rd_congr hdict, rdCfg_dequeued]; exact hset)
      ⟨(x.1 % 2 ^ 32, x.2), List.mem_map.mpr ⟨x, hx, rfl⟩, by rw [hpa]; exact hb⟩)
  exact ⟨t, ht, hframe⟩

theorem patternScan_matches (h : rd s oPatState = 2) (hset : rdCfg s f.epoch oScanSetMap f.template < rd s oPatSets)
    (hw : ∀ x ∈ words, x.2 ≠ .uncorrectable ∧ s.pa.bad.contains (x.1 % 2 ^ 32) = false) :
    ∃ t, exec (.patternScan n words) s = .next t ∧
      frame t fid = some { f with
        results := f.results ++ [.scan (matchWord (scanMatch s (rdCfg s f.epoch oScanSetMap f.template) (scanWindow f)))],
        due := clearBit f.due 5 } ∧
      (pipe t n).scans = (pipe s n).scans.erase fid := by
  obtain ⟨hdict, hpa, -, -⟩ := dequeued_kept n fid s
  obtain ⟨v, hv, hr⟩ := scanResult_match (u := dequeued n fid s) (f := f) (words := scanWords words)
    (by rw [rd_congr hdict]; exact h) (by rw [rd_congr hdict, rdCfg_dequeued]; exact hset) fun x hx => by
      obtain ⟨y, hy, rfl⟩ := List.mem_map.mp hx
      rw [hpa]
      exact hw y hy
  rw [scanMatch_congr hpa hdict, rdCfg_dequeued] at hr
  exact patternScan_gives hn hs hnext hf hd hv hr

end

/-- Settles O27: the search group by group, with the marks that faults leave, and the scan by its result word. -/
theorem ruleAndPatternSearch : Obligations.RuleAndPatternSearch := by
  refine ⟨⟨fun s segs keys row g a e hr h => firstMatch_lowest hr h, fun fid f s hf hp hd hs h0 hb => ?_,
      fun fid f parity actions s hf hp hd hs hpar => ?_, fun fid f actions s hf hp hd hs h0 hr => ?_⟩,
    fun n fid f words s hn => ⟨exec_patternScan_halted hn, fun hs hnext hf hd => ⟨patternScan_no_image hn hs hnext hf hd,
      patternScan_no_set hn hs hnext hf hd, patternScan_error hn hs hnext hf hd, patternScan_matches hn hs hnext hf hd⟩⟩⟩
  · exact ⟨_, exec_ruleSearch_due hf hp hd hs (fun a ha => absurd ha List.not_mem_nil), ruleSearch_intact hf h0 hb⟩
  · exact ⟨_, exec_ruleSearch_due hf hp hd hs hpar, fun a ha => markedFaulty_ruleSearch ha⟩
  · obtain ⟨h, hh, hres⟩ := ruleSearch_marks (actions := actions) hf h0 hr
    exact ⟨_, h, exec_ruleSearch_due hf hp hd hs (fun a ha => absurd ha List.not_mem_nil), hh, hres⟩

end Sys2Proof.Machine
end

section
/-! O39 (R370, R371, R373, R378 to R381, R386, R387): what the end of a command and the leaving of a frame do to the Buffer Pool
Manager, the request that a pool grants, starvation and the undertow. -/

namespace Sys2Proof.Machine
open Sys2Proof

/-! ### What the end of a command leaves as it was -/

/-- The end of a command changes no register, and of the Buffer Pool Manager at most the releases that wait. -/
def EndKept (s t : State) : Prop := t.dict = s.dict ∧ t.buf = { s.buf with releases := t.buf.releases }

theorem EndKept.of {s t : State} (hd : t.dict = s.dict) (h : t.buf = s.buf) : EndKept s t := ⟨hd, by rw [h]⟩

theorem EndKept.refl (s : State) : EndKept s s := .of rfl rfl

theorem EndKept.trans {s t u : State} (h : EndKept s t) (g : EndKept t u) : EndKept s u := by
  refine ⟨g.1.trans h.1, ?_⟩
  rw [g.2, h.2]

theorem EndKept.waiters {s t : State} (h : EndKept s t) : t.buf.waiters = s.buf.waiters := by
  rw [h.2]

theorem EndKept.when {s : State} {c : Bool} {f : State → State} (h : EndKept s (f s)) : EndKept s (when c f s) := by
  cases c
  · exact .refl s
  · exact h

theorem EndKept.forEach {α : Type} {l : List α} {f : State → α → State} (h : ∀ t a, EndKept t (f t a)) (s : State) :
    EndKept s (forEach l f s) := by
  induction l generalizing s with
  | nil => exact .refl s
  | cons a l ih => exact (h s a).trans (ih (f s a))

theorem sendRelease_endKept (r : Release) (s : State) : EndKept s (sendRelease r s) := ⟨rfl, rfl⟩

theorem releaseStaging_endKept (h : Option Nat) (s : State) : EndKept s (releaseStaging h s) := by
  cases h with
  | none => exact .refl s
  | some h => exact sendRelease_endKept _ s

theorem sendTlp_endKept (o : Output) (s : State) : EndKept s (sendTlp o s) :=
  .of (sendTlp_dict o s) (sendTlp_noted o s (Noted.refl s)).buf

theorem hostWrite_endKept (a : Nat) (b : Bytes) (s : State) : EndKept s (hostWrite a b s) := by
  unfold hostWrite
  split
  · exact sendTlp_endKept _ s
  · exact .of rfl rfl

theorem pendVector_endKept (v : Nat) (s : State) : EndKept s (pendVector v s) := by
  unfold pendVector
  split <;> exact .of rfl rfl

theorem flushWrites_endKept (s : State) : EndKept s (flushWrites s) := by
  unfold flushWrites
  split
  · exact .refl s
  · exact .trans (.of rfl rfl) (.forEach (fun t w => sendTlp_endKept _ t) _)

theorem setCq_endKept (q : Nat) (x : Cq) (s : State) : EndKept s (setCq q x s) := .of rfl rfl

theorem writeEntry_endKept (q : Nat) (b : Bytes) (s : State) : EndKept s (writeEntry q b s) := by
  unfold writeEntry
  split
  · exact .refl s
  · exact (flushWrites_endKept s).trans
      ((EndKept.when (hostWrite_endKept _ _ _)).trans (.trans (hostWrite_endKept _ _ _) (setCq_endKept _ _ _)))

theorem writeHeld_endKept (q : Nat) (s : State) : EndKept s (writeHeld q s) := by
  unfold writeHeld
  split
  · exact .refl s
  · exact (setCq_endKept _ _ s).trans
      (.forEach (fun t (e : HeldEntry) => (writeEntry_endKept q e.bytes t).trans (releaseStaging_endKept e.handle _)) _)

theorem writeTail_endKept (q : Nat) (s : State) : EndKept s (writeTail q s) := by
  unfold writeTail
  split
  · exact .refl s
  · exact hostWrite_endKept _ _ s

theorem leaveL1_endKept (s : State) : EndKept s (leaveL1 s) := by
  unfold leaveL1
  dsimp only
  split
  · exact .of rfl rfl
  · exact EndKept.trans (t := { s with hst := { s.hst with link := 0 } }) (.of rfl rfl)
      ((EndKept.forEach (fun t q => writeHeld_endKept q t) _).trans (.forEach (fun t q => writeTail_endKept q t) _))

theorem sendSignalVector_endKept (v : Nat) (s : State) : EndKept s (sendSignalVector v s) := by
  unfold sendSignalVector
  split
  · exact pendVector_endKept v s
  · split
    · exact .refl s
    · exact sendTlp_endKept _ { s with hst := { s.hst with sentAt := tabPut 0 s.hst.sentAt v (mclk s + 1) } }

theorem count_endKept (off : Nat) (s : State) : EndKept s (count off s) := .of count_dict count_buf

theorem signalCq_endKept (q : Nat) (ceiling : Bool) (s : State) : EndKept s (signalCq q ceiling s) := by
  unfold signalCq
  split
  · exact .refl s
  · have counted := (count_endKept (cHost 0x40) s).trans
      (EndKept.when (c := ceiling) (count_endKept (cHost 0x48) (count (cHost 0x40) s)))
    dsimp only
    split
    · split
      · exact counted.trans ((setCq_endKept _ _ _).trans (pendVector_endKept _ _))
      · split
        · exact counted.trans (.trans (count_endKept (cHost 0x50) _) (sendTlp_endKept _ _))
        · exact counted.trans (setCq_endKept _ _ _)
    · split
      · exact counted.trans ((setCq_endKept _ _ _).trans (pendVector_endKept _ _))
      · exact counted.trans ((setCq_endKept _ _ _).trans ((writeHeld_endKept _ _).trans
          ((writeTail_endKept _ _).trans (sendSignalVector_endKept _ _))))

theorem signalByCount_endKept (q : Nat) (s : State) : EndKept s (signalByCount q s) := by
  unfold signalByCount
  split
  · split
    · exact signalCq_endKept q false s
    · exact .refl s
  · exact .refl s

theorem postEntry_endKept (q : Nat) (b : Bytes) (counts : Bool) (h : Option Nat) (s : State) :
    EndKept s (postEntry q b counts h s) := by
  unfold postEntry
  split
  · exact releaseStaging_endKept h s
  · dsimp only
    generalize (if counts = true then _ else _) = y
    split
    · exact setCq_endKept _ _ s
    · split
      · exact (setCq_endKept _ _ s).trans (signalByCount_endKept _ _)
      · split
        · split
          · exact (setCq_endKept _ _ s).trans (signalByCount_endKept _ _)
          · exact (setCq_endKept _ _ s).trans ((leaveL1_endKept _).trans (signalByCount_endKept _ _))
        · exact (setCq_endKept _ _ s).trans ((EndKept.when (writeHeld_endKept _ _)).trans
            ((writeEntry_endKept _ _ _).trans ((releaseStaging_endKept _ _).trans (signalByCount_endKept _ _))))

theorem unreserve_endKept (q n : Nat) (s : State) : EndKept s (unreserve q n s) := by
  unfold unreserve
  split
  · exact setCq_endKept _ _ s
  · exact .refl s

theorem removeSq_endKept (q : Nat) (s : State) : EndKept s (removeSq q s) := by
  unfold removeSq
  dsimp only
  split
  · exact (unreserve_endKept _ _ s).trans (.of rfl rfl)
  · exact .of rfl rfl

theorem endCommand_endKept (c : SqCmd) (status area skipped result : Nat) (extra : Bytes) (s : State) :
    EndKept s (endCommand c status area skipped result extra s) := by
  unfold endCommand
  split
  · exact .refl s
  · have counted := fun (b : Bool) (k : Nat) (v : State) => EndKept.when (c := b) (count_endKept k v)
    dsimp only
    cases cmdOf s c.sq c.tag with
    | none =>
      split
      · exact .of rfl rfl
      · exact .trans (t := { s with hst := { s.hst with cmds := dropCmd c.sq c.tag s.hst.cmds } }) (.of rfl rfl)
          ((counted _ _ _).trans ((counted _ _ _).trans (postEntry_endKept _ _ _ _ _)))
    | some st =>
      have hu := fun q => unreserve_endKept q st.units { s with hst := { s.hst with cmds := dropCmd c.sq c.tag s.hst.cmds } }
      split
      · exact (hu _).trans (releaseStaging_endKept _ _)
      · exact (hu _).trans ((counted _ _ _).trans ((counted _ _ _).trans (postEntry_endKept _ _ _ _ _)))

theorem finishDeletion_endKept (q : Nat) (s : State) : EndKept s (finishDeletion q s) := by
  unfold finishDeletion
  split
  · split
    · split
      · exact .refl s
      · exact (removeSq_endKept q s).trans (endCommand_endKept _ _ _ _ _ _ _)
    · exact .refl s
  · exact .refl s

theorem complete_endKept (c : SqCmd) (status area result : Nat) (s : State) :
    EndKept s (complete c status area result s) :=
  (endCommand_endKept c status area 0 result [] s).trans (finishDeletion_endKept _ _)

theorem finishInject_endKept (f : Frame) (s : State) : EndKept s (finishInject f s) := by
  unfold finishInject
  split
  · exact complete_endKept _ _ _ _ s
  · exact .refl s

theorem releaseFrameAt_endKept (position : Nat) (f : Frame) (s : State) : EndKept s (releaseFrameAt position f s) := by
  unfold releaseFrameAt
  split
  · exact sendRelease_endKept _ s
  · exact .refl s

theorem releaseOwed_endKept (f : Frame) (s : State) : EndKept s (releaseOwed f s) :=
  .forEach (fun t j => releaseFrameAt_endKept j f t) s

/-! ### A frame leaves the device -/

theorem frame_of_frames {s t : State} (h : t.pip.frames = s.pip.frames) (k : Nat) : frame t k = frame s k := by
  unfold frame
  rw [h]

theorem leave_of_frame {fid : Nat} {f : Frame} {s : State} (h : frame s fid = some f) :
    leave fid s = finishInject f (releaseOwed f (dropFrame fid (unlink fid (sampleLeave fid f 0 true s)))) := by
  unfold leave
  rw [h]

theorem finishInject_ended (f : Frame) (s : State) : Ended s (finishInject f s) := by
  unfold finishInject
  split
  · exact completeOk_ended _ s (Ended.refl s)
  · exact Ended.refl s

theorem releaseOwed_ended (f : Frame) (s : State) : Ended s (releaseOwed f s) :=
  Ended.forEach (fun t j => releaseFrameAt_ended j f t (Ended.refl t)) (Ended.refl s)

/-- A frame that leaves is no longer in the device, and every other one is. -/
theorem frame_leave (fid k : Nat) (s : State) : frame (leave fid s) k = if k = fid then none else frame s k := by
  cases h : frame s fid with
  | none =>
    rw [show leave fid s = s by unfold leave; rw [h]]
    split
    · rename_i e
      rw [e, h]
    · rfl
  | some f =>
    rw [leave_of_frame h]
    have hpip := ((releaseOwed_ended f (dropFrame fid (unlink fid (sampleLeave fid f 0 true s)))).trans
      (finishInject_ended f _)).pip
    rw [frame_of_frames (congrArg Pip.frames hpip)]
    refine (tabFind_erase _ fid k).trans ?_
    have hs := (sampleLeave_measured fid f 0 true s (Measured.refl s)).pip
    rw [show (unlink fid (sampleLeave fid f 0 true s)).pip.frames = (sampleLeave fid f 0 true s).pip.frames from rfl, hs]
    rfl

/-- A frame that leaves asks for no buffer any more. -/
theorem leave_waiters {fid : Nat} {f : Frame} {s : State} (h : frame s fid = some f) :
    (leave fid s).buf.waiters = s.buf.waiters.filter (· != fid) := by
  rw [leave_of_frame h, ((releaseOwed_endKept f _).trans (finishInject_endKept f _)).waiters]
  exact congrArg (fun b : Buf => b.waiters.filter (· != fid)) (sampleLeave_measured fid f 0 true s (Measured.refl s)).buf

/-! ### The request that goes first -/

theorem orderLt_iff (a b : Nat × Nat × Nat × Nat) : orderLt a b = true ↔ a.1 < b.1 ∨ (a.1 = b.1 ∧ (a.2.1 < b.2.1 ∨
    (a.2.1 = b.2.1 ∧ (a.2.2.1 < b.2.2.1 ∨ (a.2.2.1 = b.2.2.1 ∧ a.2.2.2 < b.2.2.2))))) := by
  simp [orderLt]

theorem orderLt_irrefl (a : Nat × Nat × Nat × Nat) : orderLt a a = false := by
  rw [← Bool.not_eq_true, orderLt_iff]
  omega

theorem not_orderLt_trans {a b c : Nat × Nat × Nat × Nat} (h : orderLt a b = false) (g : orderLt b c = false) :
    orderLt a c = false := by
  rw [← Bool.not_eq_true, orderLt_iff] at *
  omega

theorem not_orderLt_of_orderLt {a b : Nat × Nat × Nat × Nat} (h : orderLt a b = true) : orderLt b a = false := by
  rw [← Bool.not_eq_true]
  rw [orderLt_iff] at *
  omega

/-- One comparison of `winner`. -/
def firstRequest (s : State) (p : Nat) (best : Option Request) (c : Request) : Option Request :=
  match best with
  | none => some c
  | some b => if orderLt (grantOrder s p c) (grantOrder s p b) then some c else some b

theorem winner_eq (s : State) (p : Nat) : winner s p = (candidates s p).foldl (firstRequest s p) none := rfl

/-- Of a request and the best before it, the comparison keeps one that neither goes before. -/
theorem firstRequest_spec (s : State) (p : Nat) (best : Option Request) (a : Request) :
    ∃ c, firstRequest s p best a = some c ∧ (c = a ∨ best = some c) ∧ orderLt (grantOrder s p a) (grantOrder s p c) = false ∧
      ∀ b, best = some b → orderLt (grantOrder s p b) (grantOrder s p c) = false := by
  cases best with
  | none => exact ⟨a, rfl, .inl rfl, orderLt_irrefl _, fun b hb => by cases hb⟩
  | some b =>
    cases h : orderLt (grantOrder s p a) (grantOrder s p b) with
    | true => exact ⟨a, if_pos h, .inl rfl, orderLt_irrefl _, fun b hb => by cases hb; exact not_orderLt_of_orderLt h⟩
    | false => exact ⟨b, if_neg (by rw [h]; decide), .inr rfl, h, fun b hb => by cases hb; exact orderLt_irrefl _⟩

theorem foldl_firstRequest_spec (s : State) (p : Nat) {r : Request} (l : List Request) (best : Option Request)
    (h : l.foldl (firstRequest s p) best = some r) :
    (r ∈ l ∨ best = some r) ∧ (∀ c ∈ l, orderLt (grantOrder s p c) (grantOrder s p r) = false) ∧
      ∀ b, best = some b → orderLt (grantOrder s p b) (grantOrder s p r) = false := by
  induction l generalizing best with
  | nil =>
    obtain rfl : best = some r := h
    exact ⟨.inr rfl, fun x hx => absurd hx List.not_mem_nil, fun b hb => by cases hb; exact orderLt_irrefl _⟩
  | cons a l ih =>
    obtain ⟨c, hc, hfrom, ha, hb⟩ := firstRequest_spec s p best a
    rw [List.foldl_cons, hc] at h
    obtain ⟨hmem, hl, hbest⟩ := ih _ h
    have hcr := hbest c rfl
    refine ⟨?_, fun x hx => ?_, fun b e => not_orderLt_trans (hb b e) hcr⟩
    · rcases hmem with hmem | e
      · exact .inl (List.mem_cons_of_mem a hmem)
      · obtain rfl : c = r := Option.some.inj e
        exact hfrom.imp (fun e => List.mem_cons.mpr (.inl e)) id
    · rcases List.mem_cons.mp hx with rfl | hx
      · exact not_orderLt_trans ha hcr
      · exact hl x hx

/-- R379: the winner asks for a buffer of the pool, can be granted one, and no other that can be goes before it. -/
theorem winner_spec {s : State} {p : Nat} {r : Request} (h : winner s p = some r) :
    r ∈ requests s p ∧ grantable s r.owner p = true ∧
      ∀ c ∈ requests s p, grantable s c.owner p = true → orderLt (grantOrder s p c) (grantOrder s p r) = false := by
  obtain ⟨hmem, hbest, -⟩ := foldl_firstRequest_spec s p _ _ ((winner_eq s p).symm.trans h)
  have hr := List.mem_filter.mp (hmem.resolve_right (by simp))
  exact ⟨hr.1, hr.2, fun c hc hg => hbest c (List.mem_filter.mpr ⟨hc, hg⟩)⟩

/-- A frame's request is a frame's of the device. -/
theorem frame_of_request {s : State} {p fid : Nat} {f : Frame} (h : Request.frame fid f ∈ requests s p) :
    frame s fid = some f := by
  unfold requests at h
  rcases List.mem_append.mp h with h | h
  · obtain ⟨k, -, hk⟩ := List.mem_filterMap.mp h
    cases hf : frame s k with
    | none =>
      rw [hf] at hk
      cases hk
    | some g =>
      rw [hf] at hk
      dsimp only at hk
      split at hk
      · cases hk
        exact hf
      · cases hk
  · obtain ⟨a, -, ha⟩ := List.mem_map.mp h
    cases ha

/-! ### A grant -/

theorem header_of_buf {s t : State} (h : t.buf = s.buf) (k : Nat) : header t k = header s k := by
  unfold header
  rw [h]

theorem heldBy_of_buf {s t : State} (h : t.buf = s.buf) (owner p : Nat) : heldBy t owner p = heldBy s owner p := by
  unfold heldBy
  rw [h]

theorem when_buf {c : Bool} {f : State → State} (s : State) (h : ∀ t, (f t).buf = t.buf) : (when c f s).buf = s.buf := by
  cases c
  · rfl
  · exact h s

theorem when_pip {c : Bool} {f : State → State} (s : State) (h : ∀ t, (f t).pip = t.pip) : (when c f s).pip = s.pip := by
  cases c
  · rfl
  · exact h s

/-- The Buffer Pool Manager once the first buffer of a pool's cache has been taken: header, count of the owner, pool. -/
def takenBuf (p i owner : Nat) (x : PoolSt) (s : State) : Buf :=
  (setHeld owner p (heldBy s owner p + 1) (setHeader (mkHandle p i) (mkHeader owner 1) (setPool p x s))).buf

theorem takeBuffer_none {p owner position : Nat} {s : State} (h : (poolNow s p).cache = []) : takeBuffer p owner position s = none := by
  unfold takeBuffer
  dsimp only
  rw [h]

theorem takeBuffer_some {p owner position i : Nat} {rest : List Nat} {s : State} (h : (poolNow s p).cache = i :: rest) :
    ∃ x t, takeBuffer p owner position s = some (mkHandle p i, t) ∧ t.buf = takenBuf p i owner x s ∧ t.pip = s.pip := by
  unfold takeBuffer
  dsimp only
  rw [h]
  refine ⟨{ poolNow s p with cache := rest, lastWinner := if withinMin s owner p then (poolNow s p).lastWinner else position },
    _, rfl, ?_, ?_⟩
  · exact (when_buf _ (fun _ => count_buf)).trans (count_buf (off := cBuf p 0x00))
  · exact (when_pip _ (fun _ => count_pip)).trans (count_pip (off := cBuf p 0x00))

/-- What a grant does: the header says STATE 1, the owner and REFS 1, the owner holds one more, no other header changes. -/
theorem taken_header {p i owner : Nat} {x : PoolSt} {s t : State} (h : t.buf = takenBuf p i owner x s) :
    header t (mkHandle p i) = mkHeader owner 1 ∧ (∀ k, k ≠ mkHandle p i → header t k = header s k) ∧
      heldBy t owner p = heldBy s owner p + 1 := by
  have hh : ∀ k, header t k = tabGet 0 (tabPut 0 s.buf.headers (mkHandle p i) (mkHeader owner 1)) k := fun k => by
    unfold header
    rw [h]
    rfl
  refine ⟨(hh _).trans (tabGet_put_self ..), fun k hk => ((hh k).trans (tabGet_put ..)).trans (if_neg hk), ?_⟩
  unfold heldBy
  rw [h]
  exact tabGet_put_self 0 s.buf.held (owner * 8 + p) (heldBy s owner p + 1)

theorem deliverGrant_spec {fid h : Nat} {f : Frame} {s : State} (hf : frame s fid = some f) :
    (deliverGrant fid h s).buf = { s.buf with waiters := s.buf.waiters.filter (· != fid) } ∧
      frame (deliverGrant fid h s) fid = some { f with handle := some h, waiting := none } ∧
      ∀ k, k ≠ fid → frame (deliverGrant fid h s) k = frame s k := by
  have hf' : frame { s with buf := { s.buf with waiters := s.buf.waiters.filter (· != fid) } } fid = some f := hf
  unfold deliverGrant
  dsimp only
  rw [hf']
  have m := occur_measured f.pipe 0x40 1 (occOf fid f) _ (Measured.refl
    (putFrame fid { f with handle := some h, waiting := none }
      { s with buf := { s.buf with waiters := s.buf.waiters.filter (· != fid) } }))
  refine ⟨m.buf, ?_, fun k hk => ?_⟩
  · rw [frame_of_frames (congrArg Pip.frames m.pip)]
    exact frame_putFrame_self ..
  · rw [frame_of_frames (congrArg Pip.frames m.pip)]
    exact (frame_putFrame ..).trans (if_neg hk)

theorem deliver_frame {fid h : Nat} {f g : Frame} {s : State} (hf : frame s fid = some f) :
    (deliver (.frame fid g) h s).buf = { s.buf with waiters := s.buf.waiters.filter (· != fid) } ∧
      frame (deliver (.frame fid g) h s) fid = some { f with handle := some h, waiting := none } ∧
      ∀ k, k ≠ fid → frame (deliver (.frame fid g) h s) k = frame s k := deliverGrant_spec hf

theorem grantWinner_none {p : Nat} {s : State} (h : winner s p = none ∨ (poolNow s p).cache = []) : grantWinner p s = s := by
  unfold grantWinner
  rcases h with h | h
  · rw [h]
  · split
    · rfl
    · rw [takeBuffer_none h]

/-- R378 to R380: the winner is granted the first buffer of the cache. -/
theorem grantWinner_some {p i : Nat} {r : Request} {rest : List Nat} {s : State} (hw : winner s p = some r)
    (hc : (poolNow s p).cache = i :: rest) :
    header (grantWinner p s) (mkHandle p i) = mkHeader r.owner 1 ∧
      (∀ k, k ≠ mkHandle p i → header (grantWinner p s) k = header s k) ∧
      heldBy (grantWinner p s) r.owner p = heldBy s r.owner p + 1 ∧
      (∀ fid f, r = .frame fid f → frame s fid = some f ∧
        frame (grantWinner p s) fid = some { f with handle := some (mkHandle p i), waiting := none } ∧
        (grantWinner p s).buf.waiters = s.buf.waiters.filter (· != fid) ∧
        ∀ k, k ≠ fid → frame (grantWinner p s) k = frame s k) ∧
      (∀ a, r = .internal a → (grantWinner p s).buf.granted = s.buf.granted ++ [⟨a.owner, a.pool, mkHandle p i⟩] ∧
        (grantWinner p s).buf.waiters = s.buf.waiters ∧ (grantWinner p s).pip = s.pip) := by
  obtain ⟨x, t, ht, hbuf, hpip⟩ := takeBuffer_some (owner := r.owner) (position := r.position) hc
  have e : grantWinner p s = deliver r (mkHandle p i) t := by
    unfold grantWinner
    rw [hw]
    dsimp only
    rw [ht]
  obtain ⟨hself, hother, hheld⟩ := taken_header hbuf
  rw [e]
  cases r with
  | frame fid f =>
    have hf := frame_of_request (winner_spec hw).1
    obtain ⟨dbuf, dself, dother⟩ := deliver_frame (h := mkHandle p i) (g := f) ((frame_congr hpip fid).trans hf)
    have hh : ∀ k, header (deliver (.frame fid f) (mkHandle p i) t) k = header t k := fun k => by
      unfold header
      rw [dbuf]
    have hd : heldBy (deliver (.frame fid f) (mkHandle p i) t) f.owner p = heldBy t f.owner p := by
      unfold heldBy
      rw [dbuf]
    refine ⟨(hh _).trans hself, fun k hk => (hh k).trans (hother k hk), hd.trans hheld, ?_, by rintro a ⟨⟩⟩
    rintro _ _ ⟨rfl, rfl⟩
    refine ⟨hf, dself, ?_, fun k hk => (dother k hk).trans (frame_congr hpip k)⟩
    rw [dbuf, hbuf]
    rfl
  | internal a =>
    refine ⟨hself, hother, hheld, ?_, ?_⟩
    · rintro fid f ⟨⟩
    · rintro _ ⟨rfl⟩
      refine ⟨?_, ?_, hpip⟩
      · exact congrArg (fun b : Buf => b.granted ++ [⟨a.owner, a.pool, mkHandle p i⟩]) hbuf
      · show t.buf.waiters = s.buf.waiters
        rw [hbuf]
        rfl

theorem grantable_eq (s : State) (owner p : Nat) :
    grantable s owner p = decide (0 < (if withinMin s owner p then freeIn s p else sharedIn s p)) := by
  unfold grantable
  split <;> rfl

/-! ### The commands -/

theorem exec_bufferGrant {p : Nat} {hdr link : Ecc} {word : Option Nat} {stray : Option (Nat × Nat)} {s : State}
    (hp : isPool p = true) : exec (.bufferGrant p hdr link word stray) s = .next (grantOne p hdr link word (strayRequest stray s)) :=
  if_pos hp

section
variable {p : Nat} {hdr link : Ecc} {word : Option Nat} {s : State}

theorem grantOne_not_now (h : grantsNow s p = false) : grantOne p hdr link word s = s := by
  unfold grantOne
  rw [h]
  rfl

theorem grantOne_broken_word (h : grantsNow s p = true) :
    grantOne p hdr .uncorrectable word s = raise evPktEcc p (breakList p s) := by
  unfold grantOne
  rw [h]
  rfl

/-- The state in which the link word of the pool's list is looked at. -/
def linkRead (p : Nat) (link : Ecc) (s : State) : State := if link = .corrected then correctedWord p s else s

/-- The state once that link has been followed, none where it is broken. -/
def linkFollowed (p : Nat) (word : Option Nat) (s : State) : Option State :=
  match word with
  | none => some s
  | some w => (followLink s p w (poolNow s p)).map (fun y => setPool p y s)

theorem grantOne_readable (h : grantsNow s p = true) (hl : link ≠ .uncorrectable) :
    grantOne p hdr link word s = match linkFollowed p word (linkRead p link s) with
      | none => breakList p (linkRead p link s)
      | some y => grantRead p hdr y := by
  have hw : when (link = .corrected) (correctedWord p) s = linkRead p link s := by
    cases link <;> rfl
  unfold grantOne linkFollowed
  rw [h, if_neg (by decide), if_neg hl]
  dsimp only
  rw [hw]
  cases word with
  | none => rfl
  | some w =>
    dsimp only
    cases followLink (linkRead p link s) p w (poolNow (linkRead p link s) p) <;> rfl

end

theorem grantRead_readable {p : Nat} {hdr : Ecc} {s : State} (h : hdr ≠ .uncorrectable) :
    grantRead p hdr s = grantWinner p (if hdr = .corrected then correctedWord p s else s) := by
  cases hdr with
  | clean => rfl
  | corrected => rfl
  | uncorrectable => exact absurd rfl h

/-! ### Starvation -/

theorem wasteSlot_measured (fid : Nat) (f : Frame) (s : State) : Measured s (wasteSlot fid f s) := by
  unfold wasteSlot
  split
  · exact slotCategory_measured _ _ _ s (Measured.refl s)
  · exact Measured.refl s

theorem discardFrame_of_frame {fid : Nat} {f : Frame} {s : State} (h : frame s fid = some f) :
    discardFrame fid s = leave fid (wasteSlot fid f s) := by
  unfold discardFrame
  rw [h]

/-- A frame that its pipeline discards is no longer in the device, and every other one is. -/
theorem frame_discardFrame {fid : Nat} (k : Nat) {f : Frame} {s : State} (h : frame s fid = some f) :
    frame (discardFrame fid s) k = if k = fid then none else frame s k := by
  rw [discardFrame_of_frame h, frame_leave, frame_congr (wasteSlot_measured fid f s).pip]

theorem discardFrame_waiters {fid : Nat} {f : Frame} {s : State} (h : frame s fid = some f) :
    (discardFrame fid s).buf.waiters = s.buf.waiters.filter (· != fid) := by
  have m := wasteSlot_measured fid f s
  rw [discardFrame_of_frame h, leave_waiters ((frame_congr m.pip fid).trans h), m.buf]

theorem starve_none {fid : Nat} {s : State} (h : frame s fid = none) : starve fid s = s := by
  unfold starve
  rw [h]

theorem starve_not_waiting {fid : Nat} {f : Frame} {s : State} (h : frame s fid = some f)
    (hf : f.waiting = none ∨ f.handle ≠ none) : starve fid s = s := by
  unfold starve
  rw [h]
  refine if_neg ?_
  rcases hf with hf | hf
  · rw [hf, Option.isSome_none, Bool.false_and]
    decide
  · rw [decide_eq_false hf, Bool.and_false]
    decide

theorem starve_waiting {fid : Nat} {f : Frame} {s : State} (h : frame s fid = some f) (hw : f.waiting.isSome = true)
    (hh : f.handle = none) : starve fid s = discardFrame fid (raiseOnce evPoolStarved (framePool f) (framePool f)
      (count (cBuf (framePool f) 0x18) (count (cPortBuf f.port 0x38) s))) := by
  unfold starve
  rw [h]
  exact if_pos (by rw [hw, decide_eq_true hh]; rfl)

/-! ### The undertow -/

theorem raiseOnce_buf (src scope detail : Nat) (s : State) : (raiseOnce src scope detail s).buf = s.buf :=
  (raiseOnce_noted src scope detail s (Noted.refl s)).buf

theorem handleOk_congr {s t : State} (h : ∀ p, p < 8 → poolBuffers t p = poolBuffers s p) (k : Nat) :
    handleOk t k = handleOk s k := by
  unfold handleOk
  rw [h (hPool k) (Nat.mod_lt _ (by decide))]

theorem poolBuffers_of_dict {s t : State} (h : t.dict = s.dict) (p : Nat) : poolBuffers t p = poolBuffers s p := rd_congr h _ p

/-- Neither an event nor a register of its own changes how many buffers a pool has. -/
theorem poolBuffers_raiseOnce {src : Nat} (scope detail : Nat) (s : State) {p : Nat} (hs : src < 512) (hp : p < 8) :
    poolBuffers (raiseOnce src scope detail s) p = poolBuffers s p := by
  unfold raiseOnce
  split
  · exact (rd_raise_ne (dictKey_obj (by decide) (by decide) (by omega) (by decide) (by omega))
      (dictKey_obj (by decide) (by decide) (by omega) (by decide) (by omega))).trans (rd_congr useLimit_dict _ _)
  · rfl

theorem poolBuffers_wr {obj v p : Nat} {s : State} (h : obj ≠ oPoolBuffers) (ho : obj < 2 ^ 32) (hp : p < 8) :
    poolBuffers (wr obj v s) p = poolBuffers s p :=
  rd_wr_ne (dictKey_obj (Ne.symm h) (by decide) (by omega) ho (by decide))

/-- What a release that a header refuses leaves: it writes FREE_FAULT_LAST, counts and raises an event. -/
theorem freeFault_kept {src : Nat} (h v off : Nat) (s : State) (hs : src < 512) :
    (raiseOnce src 0 h (wr oFreeFaultLast v (count off s))).buf = s.buf ∧
      ∀ p, p < 8 → poolBuffers (raiseOnce src 0 h (wr oFreeFaultLast v (count off s))) p = poolBuffers s p :=
  ⟨(raiseOnce_buf ..).trans (wr_buf.trans count_buf), fun p hp => (poolBuffers_raiseOnce _ _ _ hs hp).trans
    ((poolBuffers_wr (by decide) (by decide) hp).trans (poolBuffers_of_dict count_dict p))⟩

theorem header_setHeader (h w k : Nat) (s : State) : header (setHeader h w s) k = if k = h then w else header s k :=
  tabGet_put ..

/-- A release touches the header of its own handle alone. -/
theorem giveUp_spec (h owner : Nat) (s : State) : (∀ k, k ≠ h → header (giveUp h owner s) k = header s k) ∧
    ∀ p, p < 8 → poolBuffers (giveUp h owner s) p = poolBuffers s p := by
  have faulted : ∀ {t : State}, t.buf = s.buf ∧ (∀ p, p < 8 → poolBuffers t p = poolBuffers s p) →
      (∀ k, k ≠ h → header t k = header s k) ∧ ∀ p, p < 8 → poolBuffers t p = poolBuffers s p :=
    fun ht => ⟨fun k _ => header_of_buf ht.1 k, ht.2⟩
  unfold giveUp
  split
  · exact faulted (freeFault_kept _ _ _ s (by decide))
  · dsimp only
    split
    · exact faulted (freeFault_kept _ _ _ s (by decide))
    · split
      · exact faulted (freeFault_kept _ _ _ s (by decide))
      · split
        · exact ⟨fun k hk => (header_setHeader h _ k s).trans (if_neg hk), fun _ _ => rfl⟩
        · exact ⟨fun k hk => (header_setHeader h 0 k s).trans (if_neg hk), fun _ _ => rfl⟩

/-- The last reference of a held buffer frees it. -/
theorem giveUp_last {h owner : Nat} {s : State} (hok : handleOk s h = true) (hw : header s h = mkHeader owner 1)
    (ho : owner < 2 ^ 13) : header (giveUp h owner s) h = 0 := by
  have hheld : hdrHeld (mkHeader owner 1) = true := by
    unfold hdrHeld mkHeader
    rw [Nat.testBit_eq_decide_div_mod_eq, decide_eq_true_eq]
    omega
  have howner : hdrOwner (mkHeader owner 1) = owner := by
    unfold hdrOwner fld mkHeader
    omega
  have hrefs : hdrRefs (mkHeader owner 1) = 1 := by
    unfold hdrRefs fld mkHeader
    omega
  unfold giveUp
  rw [hok, if_neg (by decide)]
  dsimp only
  rw [hw, hheld, howner, hrefs, if_neg (by decide), if_neg (by simp), if_neg (by decide)]
  exact (header_setHeader h 0 h s).trans (if_pos rfl)

/-- R386: a reclaimed buffer is free; no other header changes, and no pool's size. -/
theorem reclaim_spec (h : Nat) (s : State) : (∀ k, k ≠ h → header (reclaim h s) k = header s k) ∧
    (∀ p, p < 8 → poolBuffers (reclaim h s) p = poolBuffers s p) ∧ (handleOk s h = true → header (reclaim h s) h = 0) := by
  unfold reclaim
  dsimp only
  generalize hu : wr oLeakLast h (raiseOnce evBufferLeak 0 h (count (cBuf (hPool h) 0x40) s)) = u
  have hbuf : u.buf = s.buf := by
    rw [← hu]
    exact wr_buf.trans ((raiseOnce_buf ..).trans count_buf)
  have hpools : ∀ p, p < 8 → poolBuffers u p = poolBuffers s p := fun p hp => by
    rw [← hu, poolBuffers_wr (by decide) (by decide) hp, poolBuffers_raiseOnce _ _ _ (by decide) hp]
    exact poolBuffers_of_dict count_dict p
  have hself : header (setHeader h (mkHeader (hdrOwner (header u h)) 1) u) h = mkHeader (hdrOwner (header u h)) 1 :=
    (header_setHeader ..).trans (if_pos rfl)
  obtain ⟨gheader, gpools⟩ := giveUp_spec h (hdrOwner (header u h)) (setHeader h (mkHeader (hdrOwner (header u h)) 1) u)
  refine ⟨fun k hk => ?_, fun p hp => (gpools p hp).trans (hpools p hp), fun hok => ?_⟩
  · exact (gheader k hk).trans (((header_setHeader ..).trans (if_neg hk)).trans (header_of_buf hbuf k))
  · refine giveUp_last ((handleOk_congr (fun p hp => hpools p hp) h).trans hok) ?_ (Nat.mod_lt _ (by decide))
    exact hself

/-- Once a list of handles has been reclaimed, those that name a buffer are free and the others stay. -/
theorem header_reclaimed (l : List Nat) (s : State) {k : Nat} (hk : handleOk s k = true) :
    header (forEach l (fun t h => reclaim h t) s) k = if k ∈ l then 0 else header s k := by
  induction l generalizing s with
  | nil => rfl
  | cons a l ih =>
    obtain ⟨hother, hpools, hself⟩ := reclaim_spec a s
    rw [show forEach (a :: l) (fun t h => reclaim h t) s = forEach l (fun t h => reclaim h t) (reclaim a s) from rfl,
      ih _ ((handleOk_congr hpools k).trans hk)]
    by_cases e : k = a
    · subst e
      rw [hself hk, if_pos List.mem_cons_self]
      exact ite_self 0
    · rw [hother k e]
      simp [e]

theorem header_breakList (p k : Nat) (s : State) : header (breakList p s) k = header s k := by
  unfold breakList
  exact header_of_buf ((raise_noted _ _ _ (Noted.refl _)).buf.trans count_buf) k |>.trans rfl

theorem header_forEach {l : List Nat} {f : State → Nat → State} (h : ∀ t p k, header (f t p) k = header t k) (s : State) (k : Nat) :
    header (forEach l f s) k = header s k := by
  induction l generalizing s with
  | nil => rfl
  | cons a l ih => exact (ih (f s a)).trans (h s a k)

theorem mem_keys_of_tabGet {α : Type} {d : α} {l : Tab α} {k : Nat} (h : tabGet d l k ≠ d) : k ∈ l.map (·.1) := by
  induction l with
  | nil => exact absurd rfl h
  | cons e l ih =>
    by_cases hk : e.1 = k
    · exact List.mem_map.mpr ⟨e, List.mem_cons_self, hk⟩
    · refine List.mem_cons_of_mem _ (ih fun g => h ?_)
      exact (congrArg (fun o : Option α => o.getD d) (if_neg hk)).trans g

/-- R386: after a pass of the undertow every held buffer is one that something names. -/
theorem undertow_named {s : State} {h : Nat} (hok : handleOk s h = true) (hh : header (undertow s) h ≠ 0) :
    (namedHandles s).contains h = true := by
  by_contra hn
  have hlists : ∀ t : State, header (undertow s) h = header (forEach ((s.buf.headers.map (·.1)).filter
      (fun k => !(namedHandles s).contains k)) (fun t k => reclaim k t) s) h := fun _ => by
    unfold undertow
    refine header_forEach (fun t p k => ?_) _ h
    split
    · rfl
    · exact header_breakList p k t
  rw [hlists s, header_reclaimed _ s hok] at hh
  split at hh
  · exact hh rfl
  · rename_i hmem
    exact hmem (List.mem_filter.mpr ⟨mem_keys_of_tabGet hh, by simpa using hn⟩)

/-- Settles O39: the grant of a pool by what it reads, the frame that has waited its window, and the undertow. -/
theorem bufferGrants : Obligations.BufferGrants := by
  unfold Obligations.BufferGrants
  refine ⟨fun p hdr link word stray s hp => ?_, fun fid s => ?_, fun s => ?_⟩
  · intro u v x
    have hx : x = linkFollowed p word v := by cases word <;> rfl
    have hv : v = linkRead p link u := rfl
    clear_value x v
    rw [exec_bufferGrant hp]
    refine ⟨?_, ?_, fun owner => grantable_eq s owner p, fun hg => ?_, fun hg => ⟨fun hl => ?_, fun hl hn => ?_, fun y hl hy => ?_⟩⟩
    · rintro rfl
      rfl
    · rintro h owner rfl
      show (if !handleOk s h || (hPool h = 7 && owner < 4128) then badHandle h owner s else s) = _
      refine if_congr ?_ rfl rfl
      simp
    · exact congrArg _ (grantOne_not_now hg)
    · subst hl
      exact congrArg _ (grantOne_broken_word hg)
    · rw [hx, hv] at hn
      show Host.Outcome.next (grantOne p hdr link word u) = _
      rw [grantOne_readable hg hl, hn, hv]
    · rw [hx, hv] at hy
      have e : grantOne p hdr link word u = grantRead p hdr y := by rw [grantOne_readable hg hl, hy]
      refine ⟨fun hh => ?_, fun hh => ?_⟩
      · subst hh
        exact congrArg _ e
      · intro z
        have ez : grantOne p hdr link word u = grantWinner p z := e.trans (grantRead_readable hh)
        refine ⟨fun hn => congrArg _ (ez.trans (grantWinner_none hn)), fun r i rest hw hc => ?_⟩
        obtain ⟨hmem, hgr, hfirst⟩ := winner_spec hw
        exact ⟨hmem, hgr, hfirst, grantWinner p z, congrArg _ ez, grantWinner_some hw hc⟩
  · refine ⟨fun hf => congrArg _ (starve_none hf), fun f hf => ⟨fun h => congrArg _ (starve_not_waiting hf h), fun hw hh => ?_⟩⟩
    intro p
    have hraised : ∀ k, frame (raiseOnce evPoolStarved p p (count (cBuf p 0x18) (count (cPortBuf f.port 0x38) s))) k = frame s k :=
      fun k => frame_congr ((raiseOnce_noted _ _ _ _ (Noted.refl _)).pip.trans (count_pip.trans count_pip)) k
    have hf' := (hraised fid).trans hf
    refine ⟨_, rfl, congrArg _ (starve_waiting hf hw hh), ?_, fun k hk => ?_, ?_⟩
    · exact (frame_discardFrame fid hf').trans (if_pos rfl)
    · exact ((frame_discardFrame k hf').trans (if_neg hk)).trans (hraised k)
    · rw [discardFrame_waiters hf']
      simp
  · refine ⟨fun h0 => congrArg Host.Outcome.next (if_pos h0), fun h0 => ⟨undertow s, rfl, ?_, fun h hok hh => undertow_named hok hh⟩⟩
    exact congrArg Host.Outcome.next (if_neg h0)

end Sys2Proof.Machine
end

section
/-! O40 (R185, R188, R191, R192): the resolution of a frame without copies, and the egress routine of a frame for RECIRC. -/

namespace Sys2Proof.Machine
open Sys2Proof

/-! ### Resolution -/

section
variable {fid : Nat} {g : Frame} {s : State}

/-- The state of a frame without copies as it goes where its resolved action says. -/
def uncopied (g : Frame) (s : State) : State := raiseRefs (g.handle.getD 0) 0 s

theorem uncopied_ended (g : Frame) (s : State) : Ended s (uncopied g s) := raiseRefs_ended _ 0 s (Ended.refl s)

theorem copiesOf_none (hm : g.ra.mirror = 0) (hs : g.ra.sample ≠ 1) : copiesOf s fid g false = [] := by
  unfold copiesOf mirrorCopy
  dsimp only
  rw [if_pos hm, if_neg hs, if_neg (by decide)]
  rfl

theorem sendResolved_recirc (hk : mainKind g = 3) (hp : g.ra.puntCopy = 0) (hm : g.ra.mirror = 0) (hs : g.ra.sample ≠ 1) :
    sendResolved fid g s = putFrame fid { g with phase := .recirc } (uncopied g s) := by
  have h1 : ¬ (decide (mainKind g = 1) && decide (g.ra.dest = 512)) = true := by simp [hk]
  have h2 : ¬ g.ra.puntCopy = 1 := by omega
  unfold sendResolved
  dsimp only
  rw [if_neg h1]
  dsimp only
  rw [if_neg h2]
  dsimp only
  rw [copiesOf_none hm hs, if_pos hk]
  rfl

theorem sendResolved_fabric (hk : mainKind g = 1 ∨ mainKind g = 2) (hd : g.ra.dest ≠ 512) (hp : g.ra.puntCopy = 0)
    (hm : g.ra.mirror = 0) (hs : g.ra.sample ≠ 1) :
    sendResolved fid g s = pushStage1 fid (retireSlot fid g (putFrame fid g (uncopied g s))) := by
  have h1 : ¬ (decide (mainKind g = 1) && decide (g.ra.dest = 512)) = true := by simp [hd]
  have h2 : ¬ g.ra.puntCopy = 1 := by omega
  unfold sendResolved
  dsimp only
  rw [if_neg h1]
  dsimp only
  rw [if_neg h2]
  dsimp only
  rw [copiesOf_none hm hs, if_neg (by omega), if_neg (by omega)]
  rfl

/-- A descriptor in its stage-one queue. -/
theorem pushStage1_spec {f : Frame} (h : frame s fid = some f) :
    frame (pushStage1 fid s) fid = some { f with phase := .fabric } ∧ (∀ k, k ≠ fid → frame (pushStage1 fid s) k = frame s k) ∧
      ∀ k, tabGet [] (pushStage1 fid s).fab.stage1 k = if k = s1Key f.pipe (middleOf f) (rankOf f) then
        tabGet [] s.fab.stage1 (s1Key f.pipe (middleOf f) (rankOf f)) ++ [fid] else tabGet [] s.fab.stage1 k := by
  unfold pushStage1
  rw [h]
  exact ⟨frame_putFrame_self .., fun k hk => (frame_putFrame ..).trans (if_neg hk), fun k => tabGet_put ..⟩

theorem resolveAs_nowhere (hk : mainKind g = 0) (hp : g.ra.puntCopy = 0) :
    resolveAs fid g s = discardFrame fid (count (cPipe g.pipe 0x58) s) := by
  unfold resolveAs
  exact if_pos (by simp [hk, hp])

theorem resolveAs_limit (hk : mainKind g = 3) (hl : rdCfg s g.epoch oRecircLimit ≤ g.ra.recircCount) :
    resolveAs fid g s = discardFrame fid (count (cPipe g.pipe 0x10) s) := by
  unfold resolveAs
  rw [if_neg (by simp [hk]), if_pos (by simp [hk, hl])]

theorem resolveAs_sent (h0 : mainKind g ≠ 0) (hl : mainKind g = 3 → g.ra.recircCount < rdCfg s g.epoch oRecircLimit) :
    resolveAs fid g s = sendResolved fid g s := by
  unfold resolveAs
  rw [if_neg (by simp [h0]), if_neg]
  intro h
  simp only [Bool.and_eq_true, decide_eq_true_eq] at h
  exact absurd (hl h.1) (Nat.not_lt.mpr h.2)

end

theorem carried_forced (f : Frame) : (carried f).forced = f.forced := by
  unfold carried
  generalize raOf (raWord f.ra) = a
  rfl

theorem carried_pipe (f : Frame) : (carried f).pipe = f.pipe := by
  unfold carried
  generalize raOf (raWord f.ra) = a
  rfl

theorem carried_epoch (f : Frame) : (carried f).epoch = f.epoch := by
  unfold carried
  generalize raOf (raWord f.ra) = a
  rfl

theorem middleOf_carried (f : Frame) : middleOf (carried f) = middleOf f := by
  unfold middleOf carried
  generalize raOf (raWord f.ra) = a
  rfl

theorem resolve_forced {fid n reason : Nat} {f : Frame} {s : State} (h : f.forced = some (n, reason)) :
    resolve fid f s = if n = 1 then
      resolveAs fid { carried f with ra := { (carried f).ra with destKind := 1, dest := 512, reason := reason } } s
      else discardFrame fid s := by
  have hc := (carried_forced f).trans h
  unfold resolve
  generalize carried f = g at hc ⊢
  dsimp only
  rw [hc]
  split
  · rename_i heq
    cases heq
    exact (if_pos rfl).symm
  · rename_i hne heq
    cases heq
    exact (if_neg fun e => hne reason (by rw [e])).symm
  · rename_i heq
    cases heq

theorem resolve_routine {fid : Nat} {f : Frame} {s : State} (h : f.forced = none) :
    resolve fid f s = resolveAs fid (carried f) s := by
  have hc := (carried_forced f).trans h
  unfold resolve
  generalize carried f = g at hc ⊢
  dsimp only
  rw [hc]

theorem exec_ingressResolution {fid : Nat} {f : Frame} {s : State} (h : frame s fid = some f) :
    exec (.ingressResolution fid) s = .next (if resolveReady s fid f then resolve fid f s else s) := by
  show execIngressResolution fid s = _
  unfold execIngressResolution
  rw [h]

/-! ### Recirculation -/

/-- What reading words of the egress store leaves as it was: frames, pipelines, and the counters of the ports. -/
def StoreRead (s t : State) : Prop := t.pip = s.pip ∧ ∀ k, k < 0x40000 → ctr t k = ctr s k

theorem StoreRead.trans {s t u : State} (h : StoreRead s t) (g : StoreRead t u) : StoreRead s u :=
  ⟨g.1.trans h.1, fun k hk => (g.2 k hk).trans (h.2 k hk)⟩

theorem ctr_count_pipe {n o k : Nat} (s : State) (hk : k < 0x40000) : ctr (count (cPipe n o) s) k = ctr s k := by
  rw [ctr_count, if_neg (by unfold cPipe; omega)]

theorem ctr_raise_port {k : Nat} (src detail : Nat) (s : State) (hk : k < 0x40000) : ctr (raise src detail s) k = ctr s k :=
  ctr_raise_other detail s (by unfold cEvent; omega) (by unfold cEvent; omega) (by unfold cEvent; omega)

theorem storeRead_csUncorrectable (n st w : Nat) (s : State) : StoreRead s (csUncorrectable n st w s) := by
  unfold csUncorrectable
  dsimp only
  refine ⟨(raise_pip ..).trans (count_pip.trans ?_), fun k hk => ((ctr_raise_port _ _ _ hk).trans (ctr_count_pipe _ hk)).trans ?_⟩
  · split <;> rfl
  · split <;> rfl

theorem storeRead_readStore (n epoch st w : Nat) (e : Ecc) (s : State) : StoreRead s (readStore n epoch st w e s) := by
  unfold readStore
  split
  · exact ⟨rfl, fun _ _ => rfl⟩
  · cases e with
    | clean => exact ⟨rfl, fun _ _ => rfl⟩
    | corrected => exact ⟨count_pip, fun k hk => ctr_count_pipe s hk⟩
    | uncorrectable => exact storeRead_csUncorrectable n st w s

theorem storeRead_runEgress (n epoch k : Nat) (l : List (Nat × Ecc)) (s : State) : StoreRead s (runEgress n epoch k l s).2 := by
  induction l generalizing k s with
  | nil => cases k <;> exact ⟨rfl, fun _ _ => rfl⟩
  | cons r l ih =>
    cases k with
    | zero => exact ⟨rfl, fun _ _ => rfl⟩
    | succ k =>
      have h := storeRead_readStore n epoch 3 (r.1 % 2048) r.2 s
      unfold runEgress
      dsimp only
      split
      · exact h
      · exact h.trans (ih k _)

/-- Clean words without a fault are read without a trace; the instruction after the last allowed one is a fault. -/
theorem runEgress_clean (n epoch k : Nat) (l : List (Nat × Ecc)) (s : State)
    (h : ∀ w ∈ l, w.2 = .clean ∧ storeFault s n epoch 3 (w.1 % 2048) = false) :
    runEgress n epoch k l s = (if k < l.length then some 6 else none, s) := by
  induction l generalizing k with
  | nil => cases k <;> rfl
  | cons r l ih =>
    cases k with
    | zero => rfl
    | succ k =>
      obtain ⟨hclean, hfault⟩ := h r List.mem_cons_self
      have hread : readStore n epoch 3 (r.1 % 2048) r.2 s = s := by
        unfold readStore
        rw [hclean]
        exact ite_self s
      unfold runEgress
      dsimp only
      rw [hread, hfault, if_neg (by decide), ih k fun w hw => h w (List.mem_cons_of_mem r hw)]
      simp

theorem exec_recircEnqueue {fid : Nat} {f : Frame} {e : EgressRun} {s : State} (h : frame s fid = some f) (hp : f.phase = .recirc)
    (hq : (pipe s f.pipe).recirc.contains fid = false) : exec (.recircEnqueue fid e) s = .next (recircRun fid f e s) := by
  show execRecircEnqueue fid e s = _
  unfold execRecircEnqueue
  rw [h]
  exact congrArg _ (if_pos (by rw [hp, hq]; rfl))

section
variable {fid : Nat} {f : Frame} {e : EgressRun} {s : State}

theorem recircRun_fault {reason : Nat} (h : (egressReads f.pipe f.epoch e s).1 = some reason) :
    recircRun fid f e s = discardFrame fid (egressFault f.pipe reason (egressReads f.pipe f.epoch e s).2) := by
  unfold recircRun
  dsimp only
  rw [h]

theorem recircRun_ok (h : (egressReads f.pipe f.epoch e s).1 = none) :
    recircRun fid f e s = recircFrame fid f e (egressReads f.pipe f.epoch e s).2 := by
  unfold recircRun
  dsimp only
  rw [h]

theorem recircFrame_dropped (h : e.frame = none) : recircFrame fid f e s = discardFrame fid s := by
  unfold recircFrame
  rw [h]

theorem recircFrame_full {b : Bytes} (h : e.frame = some b) (hl : 1024 ≤ (pipe s f.pipe).recirc.length) :
    recircFrame fid f e s = discardFrame fid (count (cPipe f.pipe 0x18) s) := by
  unfold recircFrame
  rw [h]
  exact if_pos hl

/-- A rewritten frame joins its pipeline's recirculation queue, sent by port 513. -/
theorem recircFrame_queued {b : Bytes} (h : e.frame = some b) (hl : (pipe s f.pipe).recirc.length < 1024) :
    (pipe (recircFrame fid f e s) f.pipe).recirc = (pipe s f.pipe).recirc ++ [fid] ∧
      frame (recircFrame fid f e s) fid = some { f with bytes := b ++ fcsBytes b } ∧
      (∀ k, k ≠ fid → frame (recircFrame fid f e s) k = frame s k) ∧
      ctr (recircFrame fid f e s) (cPort 513 0x40) = (ctr s (cPort 513 0x40) + 1) % 2 ^ 64 ∧
      ctr (recircFrame fid f e s) (cPort 513 0x48) = (ctr s (cPort 513 0x48) + (b ++ fcsBytes b).length) % 2 ^ 64 := by
  generalize hu : count (cPort 513 0x40) (ctrAdd (cPort 513 0x48) (b ++ fcsBytes b).length s) = u
  have hpip : u.pip = s.pip := by
    rw [← hu]
    exact count_pip.trans ctrAdd_pip
  have e1 : recircFrame fid f e s = setPipe f.pipe { pipe s f.pipe with recirc := (pipe s f.pipe).recirc ++ [fid] }
      (putFrame fid { f with bytes := b ++ fcsBytes b } u) := by
    unfold recircFrame
    rw [h, ← hu]
    exact if_neg (Nat.not_le.mpr hl)
  have hctr : ∀ k, ctr (recircFrame fid f e s) k = ctr u k := fun k => by rw [e1]; exact ctr_congr rfl k
  refine ⟨?_, ?_, fun k hk => ?_, ?_, ?_⟩
  · rw [e1, pipe_setPipe_self]
  · rw [e1, frame_setPipe, frame_putFrame_self]
  · rw [e1, frame_setPipe, frame_putFrame, if_neg hk, frame_congr hpip]
  · rw [hctr, ← hu, ctr_count, if_pos rfl, ctr_ctrAdd, if_neg (by unfold cPort; omega)]
  · rw [hctr, ← hu, ctr_count, if_neg (by unfold cPort; omega), ctr_ctrAdd, if_pos rfl]

end

/-- Settles O40: where a resolved frame goes, and a frame for RECIRC by what its egress routine reads. -/
theorem ingressResolution : Obligations.IngressResolution := by
  unfold Obligations.IngressResolution
  refine ⟨fun fid f s hf => ?_, fun fid f s hf hph hq e => ?_⟩
  · rw [exec_ingressResolution hf]
    refine ⟨fun hr => ?_, fun hr n reason hn => ?_, fun hr hn g hg => ?_⟩
    · exact congrArg _ (if_neg (by rw [hr]; decide))
    · rw [if_pos hr, resolve_forced hn]
      exact ⟨fun h1 => congrArg _ (if_neg h1), fun h1 => congrArg _ (if_pos h1)⟩
    · have hpipe : g.pipe = f.pipe := hg ▸ carried_pipe f
      have hepoch : g.epoch = f.epoch := hg ▸ carried_epoch f
      have hmid : middleOf g = middleOf f := hg ▸ middleOf_carried f
      rw [if_pos hr, resolve_routine hn, ← hg, ← hpipe, ← hepoch, ← hmid]
      refine ⟨fun hk hp => congrArg _ (resolveAs_nowhere hk hp), fun hk hl => congrArg _ (resolveAs_limit hk hl), ?_, ?_⟩
      · intro hk hd hp hm hs
        have m := slotCategory_measured g.pipe 0 (occOf fid g) _ (Measured.refl (putFrame fid g (uncopied g s)))
        have u := uncopied_ended g s
        obtain ⟨hself, hother, hqueue⟩ := pushStage1_spec (s := retireSlot fid g (putFrame fid g (uncopied g s)))
          ((frame_congr m.pip fid).trans (frame_putFrame_self ..))
        have hfab : (retireSlot fid g (putFrame fid g (uncopied g s))).fab = s.fab := m.fab.trans u.fab
        rw [hfab] at hqueue
        refine ⟨_, congrArg _ ((resolveAs_sent (by omega) (by omega)).trans (sendResolved_fabric hk hd hp hm hs)), hself,
          fun k hk => ?_, (hqueue _).trans (if_pos rfl), fun k hk => (hqueue k).trans (if_neg hk)⟩
        exact (hother k hk).trans ((frame_congr m.pip k).trans
          ((frame_putFrame ..).trans ((if_neg hk).trans (frame_congr u.pip k))))
      · intro hk hl hp hm hs
        have u := uncopied_ended g s
        refine ⟨_, congrArg _ ((resolveAs_sent (by omega) (fun _ => hl)).trans (sendResolved_recirc hk hp hm hs)),
          frame_putFrame_self .., fun k hk => ?_, u.fab⟩
        rw [frame_putFrame, if_neg hk, frame_congr u.pip]
  · refine ⟨_, rfl, ?_⟩
    rw [exec_recircEnqueue hf hph hq]
    obtain ⟨hpip, hctr⟩ := storeRead_runEgress f.pipe f.epoch 24 e.words s
    have hpipe : pipe (egressReads f.pipe f.epoch e s).2 f.pipe = pipe s f.pipe := pipe_congr hpip _
    refine ⟨fun reason hr => congrArg _ (recircRun_fault hr), fun hr he => ?_, fun b hr he hl => ?_, fun b hr he hl => ?_,
      fun hw => runEgress_clean _ _ 24 _ s hw⟩
    · exact congrArg _ ((recircRun_ok hr).trans (recircFrame_dropped he))
    · exact congrArg _ ((recircRun_ok hr).trans (recircFrame_full he (by rw [hpipe]; exact hl)))
    · obtain ⟨hq, hself, hother, h40, h48⟩ := recircFrame_queued (fid := fid) (f := f) (s := (egressReads f.pipe f.epoch e s).2)
        he (by rw [hpipe]; exact hl)
      refine ⟨_, congrArg _ (recircRun_ok hr), ?_, hself, fun k hk => ?_, ?_, ?_⟩
      · rw [hq, hpipe]
      · rw [hother k hk]
        exact frame_congr hpip k
      · rw [h40]
        exact congrArg (fun n => (n + 1) % 2 ^ 64) (hctr _ (by decide))
      · rw [h48]
        exact congrArg (fun n => (n + (b ++ fcsBytes b).length) % 2 ^ 64) (hctr _ (by decide))

end Sys2Proof.Machine
end

section
/-! O41 (R389 to R396, R421, R422): a cycle of stage one, the heads of the multicast FIFOs, what stage two takes, and replication. -/

namespace Sys2Proof.Machine
open Sys2Proof

/-! ### Stage one -/

/-- What a unicast head and a multicast head become in their middle buffer. -/
def movedPhase (f : Frame) : Phase := if isMulticast f then .mcFifo else .middle

/-- The frame is in a middle buffer, and its destination is that of `f`. -/
def MovedFrom (f : Frame) (fid : Nat) (s : State) : Prop :=
  ∃ g, frame s fid = some g ∧ g.phase = movedPhase f ∧ isMulticast g = isMulticast f

/-- A frame as a move into its middle buffer leaves it. -/
def movedFrame (f : Frame) (seq : Nat) : Frame :=
  { f with phase := movedPhase f, midSeq := seq, outPort := if isMulticast f then f.outPort else (destOf f).2 }

theorem isMulticast_movedFrame (f : Frame) (seq : Nat) : isMulticast (movedFrame f seq) = isMulticast f := rfl

/-- A move of a head changes that frame alone. -/
theorem frame_moveHead (n m c fid k : Nat) (f : Frame) (s : State) :
    frame (moveHead n m c fid f s) k = if k = fid then some (movedFrame f s.fab.nextSeq) else frame s k := by
  have frames : (moveHead n m c fid f s).pip = (putFrame fid (movedFrame f s.fab.nextSeq) s).pip := by
    unfold moveHead movedFrame movedPhase
    refine count_pip.trans ((when_pip _ fun _ => count_pip).trans ?_)
    cases isMulticast f <;> rfl
  rw [frame_congr frames, frame_putFrame]

theorem movedFrom_moveHead {f : Frame} {fid : Nat} (n m c k : Nat) {g : Frame} {s : State} (h : MovedFrom f fid s)
    (hg : frame s k = some g) : MovedFrom f fid (moveHead n m c k g s) := by
  obtain ⟨a, ha, hp, hm⟩ := h
  by_cases e : fid = k
  · subst e
    obtain rfl : g = a := Option.some.inj (hg.symm.trans ha)
    refine ⟨_, (frame_moveHead ..).trans (if_pos rfl), ?_, (isMulticast_movedFrame ..).trans hm⟩
    show movedPhase g = movedPhase f
    unfold movedPhase
    rw [hm]
  · exact ⟨a, ((frame_moveHead ..).trans (if_neg e)).trans ha, hp, hm⟩

/-- A frame in a middle buffer stays in one through every later try of the cycle. -/
theorem movedFrom_matchOne {f : Frame} {fid : Nat} (m c i : Nat) {x : Matching × State} (h : MovedFrom f fid x.2) :
    MovedFrom f fid (matchOne m c i x).2 := by
  unfold matchOne
  split
  · split
    · exact h
    · split
      · exact h
      · rename_i hg
        split
        · exact movedFrom_moveHead i m c _ h hg
        · exact h
  · exact h

theorem movedFrom_foldl {f : Frame} {fid : Nat} (l : List (Nat × Nat × Nat)) {x : Matching × State} (h : MovedFrom f fid x.2) :
    MovedFrom f fid (l.foldl (fun x e => matchOne e.1 e.2.1 e.2.2 (matchOne e.1 e.2.1 e.2.2 x)) x).2 := by
  induction l generalizing x with
  | nil => exact h
  | cons e l ih => exact ih (movedFrom_matchOne _ _ _ (movedFrom_matchOne _ _ _ h))

/-- The first try of a cycle moves its head where the FIFO has room. -/
theorem movedFrom_matchOne_first {m c i fid : Nat} {f : Frame} {s : State} (hm : m < 32) (hi : i < 16) (hh : s1Head s i m c = some fid)
    (hf : frame s fid = some f) (hr : fifoRoom s m c f = true) : MovedFrom f fid (matchOne m c i ({}, s)).2 := by
  have hroom : (decide (nth 0 (List.replicate 32 0) m < 2) && decide (nth 0 (List.replicate 16 0) i < 2)) = true := by
    unfold nth
    rw [List.getD_replicate (x := 0) (y := 0) hm, List.getD_replicate (x := 0) (y := 0) hi]
    rfl
  unfold matchOne
  dsimp only
  rw [if_pos hroom, hh]
  dsimp only
  rw [hf]
  dsimp only
  rw [if_pos hr]
  exact ⟨_, (frame_moveHead ..).trans (if_pos rfl), rfl, rfl⟩

theorem matchOrder_head (t : Nat) : ∃ l, matchOrder t = (t % 32, 1, (t % 32 + t) % 16) :: l := ⟨_, rfl⟩

theorem stageOne_empty {s : State} (h : s.fab.stage1 = []) : stageOne s = s := if_pos h

/-- R389: the class 7 head that the cycle looks at first is in its middle buffer at the end of the cycle. -/
theorem stageOne_first {fid : Nat} {f : Frame} {s : State}
    (hh : s1Head s ((s.clk.cclk % 32 + s.clk.cclk) % 16) (s.clk.cclk % 32) 1 = some fid) (hf : frame s fid = some f)
    (hr : fifoRoom s (s.clk.cclk % 32) 1 f = true) : MovedFrom f fid (stageOne s) := by
  have hne : s.fab.stage1 ≠ [] := fun e => by
    unfold s1Head at hh
    rw [e] at hh
    cases hh
  obtain ⟨l, hl⟩ := matchOrder_head s.clk.cclk
  unfold stageOne
  rw [if_neg hne, hl, List.foldl_cons]
  exact movedFrom_foldl l (movedFrom_matchOne _ _ _
    (movedFrom_matchOne_first (Nat.mod_lt _ (by decide)) (Nat.mod_lt _ (by decide)) hh hf hr))

theorem exec_fabricDiscard {n m fid : Nat} {c7 : Bool} {f : Frame} {s : State} (hn : isPipe n = true) (hm : isMiddle m = true)
    (hh : s1Head s n m (b2n c7) = some fid) (hf : frame s fid = some f) : exec (.fabricDiscard n m c7) s =
    .next (if fifoRoom s m (b2n c7) f then s else fabricDrop m (b2n c7) fid f s) := by
  show execFabricDiscard n m c7 s = _
  rw [execFabricDiscard, onUnits, if_pos (by rw [hn, hm]; rfl), hh]
  dsimp only
  rw [hf]

/-! ### Multicast FIFOs -/

section
variable {m fid : Nat} {c7 : Bool} {f : Frame} {s : State}

theorem exec_mcFifoHead (hm : isMiddle m = true) (hh : mcHead s m (b2n c7) = some fid) (hf : frame s fid = some f) :
    exec (.mcFifoHead m c7) s = .next (if f.phase = .mcFifo then mcReach fid f s else s) := by
  show execMcFifoHead m c7 s = _
  rw [execMcFifoHead, onUnits, if_pos hm, hh]
  dsimp only
  rw [hf]

theorem exec_mcPipelineStruck {j : Nat} (hm : isMiddle m = true) (hj : isPipe j = true) (hh : mcHead s m (b2n c7) = some fid)
    (hf : frame s fid = some f) : exec (.mcPipelineStruck m c7 j) s = .next (if f.phase = .middle && f.todo.contains j then
      mcTaken m fid j f (releaseFrameAt j f (count (cMiddle m 0x18) s)) else s) := by
  show execMcPipelineStruck m c7 j s = _
  rw [execMcPipelineStruck, onUnits, if_pos (by rw [hm, hj]; rfl), hh]
  dsimp only
  rw [hf]

theorem mcReach_no_group (h : mcRowOf s f.ra.dest = 0) : mcReach fid f s = leave fid (count (cTm 0x00) s) := if_pos h

/-- A head whose group has members, and that no policer judges, waits for the pipelines of its group. -/
theorem mcReach_group (hf : frame s fid = some f) (hr : mcRowOf s f.ra.dest ≠ 0) (hp : f.ra.policerValid = 0) :
    frame (mcReach fid f s) fid = some { f with
      phase := .middle, mcRow := mcRowOf s f.ra.dest,
      todo := (List.range 16).filter (fun n => mcWord (mcRowOf s f.ra.dest) n ≠ 0) } ∧
    ∀ k, k ≠ fid → frame (mcReach fid f s) k = frame s k := by
  have hpass : framePolice fid s = (true, s) := by
    unfold framePolice
    rw [hf]
    exact if_pos hp
  unfold mcReach
  dsimp only
  rw [if_neg hr, hpass]
  dsimp only
  rw [if_neg (by decide)]
  generalize hu : raiseRefs _ _ s = u
  have hpip : u.pip = s.pip := by
    rw [← hu]
    exact (raiseRefs_ended _ _ s (Ended.refl s)).pip
  exact ⟨frame_modFrame_self _ ((frame_congr hpip fid).trans hf), fun k hk => (frame_modFrame_ne _ _ hk).trans (frame_congr hpip k)⟩

end

/-! ### Stage two -/

theorem acceptOne_none {j : Nat} {s : State} (h : pickMiddle s j = none) : acceptOne j s = s := by
  unfold acceptOne
  rw [h]

theorem olderOf_unicast {s : State} {m j c fid : Nat} (h : olderOf s m j c = some (fid, false)) :
    uniCandidate s m j c = some fid := by
  unfold olderOf at h
  split at h
  · cases h
  · rename_i hu _
    cases h
    exact hu
  · cases h
  · rename_i hu _
    split at h
    · cases h
      exact hu
    · cases h

/-- The unicast descriptor that stage two takes next is the head of its FIFO. -/
theorem pickMiddle_unicast {s : State} {m j c fid : Nat} (h : pickMiddle s j = some (m, c, fid, false)) :
    (tabGet [] s.fab.fifo (fifoKey m j c)).head? = some fid := by
  have older : olderOf s m j c = some (fid, false) := by
    have look : ∀ {l : List Nat} {d : Nat},
        l.findSome? (fun m => (olderOf s m j d).map (fun x => (m, d, x.1, x.2))) = some (m, c, fid, false) →
        olderOf s m j c = some (fid, false) := fun hl => by
      obtain ⟨a, -, ha⟩ := List.exists_of_findSome?_eq_some hl
      obtain ⟨⟨u, mc⟩, hx, e⟩ := Option.map_eq_some_iff.mp ha
      cases e
      exact hx
    unfold pickMiddle at h
    dsimp only at h
    split at h
    · rename_i heq
      cases h
      exact look heq
    · exact look h
  have hu := olderOf_unicast older
  unfold uniCandidate at hu
  split at hu
  · exact hu
  · cases hu

/-- The state in which stage two delivers a unicast descriptor: its middle buffer has sent it. -/
def sentUnicast (m j c : Nat) (s : State) : State :=
  let u := addSend m none s
  let k := fifoKey m j c
  count (cMiddle m 0x08) (setFab { u.fab with fifo := tabPut [] u.fab.fifo k ((tabGet [] u.fab.fifo k).drop 1) } u)

theorem acceptOne_unicast {j m c fid : Nat} {s : State} (h : pickMiddle s j = some (m, c, fid, false)) :
    acceptOne j s = deliverUnicast j fid (sentUnicast m j c s) := by
  unfold acceptOne
  rw [h]
  rfl

/-- What the Fabric holds once a middle buffer has sent the head of a FIFO. -/
theorem sentUnicast_spec (m j c : Nat) (s : State) :
    (sentUnicast m j c s).pip = s.pip ∧ (sentUnicast m j c s).clk = s.clk ∧ (sentUnicast m j c s).tm = s.tm ∧
      (sentUnicast m j c s).buf = s.buf ∧ (sentUnicast m j c s).fab.stage1 = s.fab.stage1 ∧
      (sentUnicast m j c s).fab.internal = s.fab.internal ∧
      ∀ k, tabGet [] (sentUnicast m j c s).fab.fifo k = if k = fifoKey m j c then
        (tabGet [] s.fab.fifo (fifoKey m j c)).drop 1 else tabGet [] s.fab.fifo k :=
  ⟨count_pip, count_clk, count_tm, count_buf, (congrArg Fab.stage1 count_fab).trans rfl, (congrArg Fab.internal count_fab).trans rfl,
    fun k => (congrArg (fun x : Fab => tabGet [] x.fifo k) count_fab).trans (tabGet_put ..)⟩

/-- A descriptor for an internal port joins the internal deliveries of its pipeline. -/
theorem deliverUnicast_internal {j fid : Nat} {f : Frame} {s : State} (hf : frame s fid = some f) (hd : 512 ≤ (destOf f).2) :
    deliverUnicast j fid s = count (cEgress j 0x00)
      (setFab { s.fab with internal := tabPut [] s.fab.internal j (tabGet [] s.fab.internal j ++ [fid]) }
        (putFrame fid { f with tFabric := s.clk.cclk, phase := .internal } (putFrame fid { f with tFabric := s.clk.cclk } s))) := by
  unfold deliverUnicast
  rw [hf]
  exact if_pos hd

/-! ### Replication -/

theorem mem_mcPorts {f : Frame} {j p : Nat} : p ∈ mcPorts f j ↔
    p / 32 = j ∧ (mcWord f.mcRow j).testBit (p % 32) = true ∧ (p ≠ f.port ∨ f.ra.hairpin = 1) := by
  unfold mcPorts
  simp only [List.mem_filter, List.mem_map, List.mem_range, Bool.or_eq_true, decide_eq_true_eq]
  constructor
  · rintro ⟨⟨k, ⟨hk, hbit⟩, rfl⟩, hport⟩
    have hdiv : (32 * j + k) / 32 = j := by omega
    have hmod : (32 * j + k) % 32 = k := by omega
    exact ⟨hdiv, hmod.symm ▸ hbit, hport⟩
  · rintro ⟨hdiv, hbit, hport⟩
    exact ⟨⟨p % 32, ⟨Nat.mod_lt _ (by decide), hbit⟩, by omega⟩, hport⟩

theorem exec_mcReplication {j : Nat} {s : State} (hj : isPipe j = true) : exec (.mcReplication j) s =
    .next (match tabGet [] s.fab.repl j with
      | [] => s
      | fid :: _ =>
        match frame s fid with
        | none => s
        | some f =>
          match grantInternal 4128 7 s with
          | (some h, t) => replicate j fid f h t
          | (none, t) => t) := if_pos hj

/-- Settles O41: the Fabric's cycles by the head that each looks at, and a replicator by what its pool grants. -/
theorem fabricDelivery : Obligations.FabricDelivery := by
  unfold Obligations.FabricDelivery
  refine ⟨⟨fun s => ⟨fun h => ?_, fun h => ?_, fun fid f hin => ?_⟩, fun n m c7 fid f s hn hm hh hf => ?_,
    fun m c7 fid f s hm hh hf => ?_, fun j s hj => ?_⟩, fun j m c fid f s hj hp hf hd => ?_, fun j s hj => ?_,
    fun f j p _ => mem_mcPorts⟩
  · refine congrArg Host.Outcome.next ?_
    rcases h with h | h
    · exact if_neg (by rw [h]; decide)
    · rw [stageOne_empty h]
      exact ite_self s
  · exact congrArg Host.Outcome.next (if_pos h)
  · intro m hh hf hr
    obtain ⟨g, hg, hphase, -⟩ := stageOne_first hh hf hr
    exact ⟨_, g, congrArg Host.Outcome.next (if_pos hin), hg, hphase⟩
  · rw [exec_fabricDiscard hn hm hh hf]
    refine ⟨fun hr => congrArg Host.Outcome.next (if_pos hr), fun hr => ?_⟩
    have hdrop : (if fifoRoom s m (b2n c7) f = true then s else fabricDrop m (b2n c7) fid f s) =
        fabricDrop m (b2n c7) fid f s := if_neg (by rw [hr]; decide)
    rw [hdrop, fabricDrop]
    refine ⟨fun hm => ?_, fun hm => ?_⟩
    · rw [if_pos hm]
    · rw [if_neg (by rw [hm]; decide)]
      cases c7 <;> rfl
  · rw [exec_mcFifoHead hm hh hf]
    refine ⟨fun hp => congrArg Host.Outcome.next (if_neg hp), fun hp hr => ?_, fun hp hr hv => ?_, fun j hj hp ht => ?_, fun j hj h => ?_⟩
    · rw [if_pos hp, mcReach_no_group hr]
    · exact ⟨_, congrArg Host.Outcome.next (if_pos hp), mcReach_group hf hr hv⟩
    · rw [exec_mcPipelineStruck hm hj hh hf]
      exact congrArg Host.Outcome.next (if_pos (by rw [decide_eq_true hp, ht]; rfl))
    · rw [exec_mcPipelineStruck hm hj hh hf]
      refine congrArg Host.Outcome.next (if_neg ?_)
      rw [Bool.and_eq_true, decide_eq_true_eq]
      rintro ⟨hp, ht⟩
      rcases h with h | h
      · exact h hp
      · rw [h] at ht
        cases ht
  · have hexec : exec (.fabricStageTwo j) s = .next (if inService s 37 then acceptOne j (acceptOne j s) else s) := if_pos hj
    rw [hexec]
    refine ⟨fun h => congrArg Host.Outcome.next (if_pos h), fun h => congrArg Host.Outcome.next ?_⟩
    rcases h with h | h
    · exact if_neg (by rw [h]; decide)
    · rw [acceptOne_none h, acceptOne_none h]
      exact ite_self s
  · intro t
    obtain ⟨hpip, hclk, htm, hbuf, hstage, hint, hfifo⟩ := sentUnicast_spec m j c s
    have ht : t = _ := (acceptOne_unicast hp).trans (deliverUnicast_internal ((frame_congr hpip fid).trans hf) hd)
    rw [hclk] at ht
    clear_value t
    subst ht
    refine ⟨pickMiddle_unicast hp, ?_, fun k hk => ?_, ?_, ?_, fun k hk => ?_, ?_, ?_, ?_⟩
    · exact (congrArg (fun x : Fab => tabGet [] x.fifo (fifoKey m j c)) count_fab).trans ((hfifo _).trans (if_pos rfl))
    · exact (congrArg (fun x : Fab => tabGet [] x.fifo k) count_fab).trans ((hfifo k).trans (if_neg hk))
    · refine (congrArg (fun x : Fab => tabGet [] x.internal j) count_fab).trans ((tabGet_put_self ..).trans ?_)
      rw [← hint]
    · exact (frame_congr count_pip fid).trans (frame_putFrame_self ..)
    · refine (frame_congr count_pip k).trans ((frame_putFrame ..).trans ((if_neg hk).trans ((frame_putFrame ..).trans
        ((if_neg hk).trans (frame_congr hpip k)))))
    · exact (congrArg Fab.stage1 count_fab).trans hstage
    · exact count_tm.trans htm
    · exact count_buf.trans hbuf
  · rw [exec_mcReplication hj]
    refine ⟨fun h => by rw [h], fun fid rest f h hf => ?_⟩
    rw [h]
    dsimp only
    rw [hf]
    dsimp only
    exact ⟨fun t ht => by rw [ht], fun a t ht => by rw [ht]⟩

end Sys2Proof.Machine
end

section
/-! O42 (R153, R376, R401, R402, R408, R412): a meter's judgement, and what becomes of a unicast descriptor at its queue. -/

namespace Sys2Proof.Machine
open Sys2Proof

/-! ### Meters -/

section
variable {r : Rates} {m : Meter} {colour b : Nat}

theorem judgement_red (h : colour = 2 ∨ m.tp < (b * 2 ^ 20 : Nat)) : judgement r m colour b = (2, m) :=
  if_pos (by simpa using h)

theorem judgement_yellow (hc : colour ≠ 2) (hp : ((b * 2 ^ 20 : Nat) : Int) ≤ m.tp) (h : colour = 1 ∨ m.tc < (b * 2 ^ 20 : Nat)) :
    judgement r m colour b = (1, { m with tp := debit r.pir b m.tp }) := by
  unfold judgement
  dsimp only
  rw [if_neg, if_pos]
  · simpa using h
  · rw [Bool.or_eq_true, decide_eq_true_eq, decide_eq_true_eq]
    exact not_or.mpr ⟨hc, Int.not_lt.mpr hp⟩

theorem judgement_green (hc : colour ≠ 2) (hp : ((b * 2 ^ 20 : Nat) : Int) ≤ m.tp) (hy : colour ≠ 1)
    (ht : ((b * 2 ^ 20 : Nat) : Int) ≤ m.tc) :
    judgement r m colour b = (0, { m with tp := debit r.pir b m.tp, tc := debit r.cir b m.tc }) := by
  unfold judgement
  dsimp only
  rw [if_neg, if_neg]
  · rw [Bool.or_eq_true, decide_eq_true_eq, decide_eq_true_eq]
    exact not_or.mpr ⟨hy, Int.not_lt.mpr ht⟩
  · rw [Bool.or_eq_true, decide_eq_true_eq, decide_eq_true_eq]
    exact not_or.mpr ⟨hc, Int.not_lt.mpr hp⟩

end

/-- A bucket never holds more than its burst. -/
theorem bucketNow_le (rate burst cycles : Nat) (b : Int) : bucketNow rate burst cycles b ≤ ((burst * 2 ^ 20 : Nat) : Int) := by
  unfold bucketNow
  dsimp only
  split
  · exact Int.le_refl _
  · exact Int.min_le_left _ _

/-! ### Admission -/

section
variable {fid p : Nat} {f : Frame} {s : State}

/-- The state in which the link and the queue of port `p` are looked at: the descriptor names its port. -/
def atPort (fid p : Nat) (f : Frame) (s : State) : State := putFrame fid { f with outPort := p } s

theorem admitQueue_down (hf : frame s fid = some f) (hl : linkCarries s p = false) :
    admitQueue fid p s = discardCopy fid 0 (count (cPort p 0x50) (atPort fid p f s)) := by
  have hl' : linkCarries (putFrame fid { f with outPort := p } s) p = false := hl
  unfold admitQueue
  rw [hf]
  dsimp only
  rw [hl', if_pos (by decide)]
  rfl

theorem chooseQueue_unicast (hk : f.kind = .own) : chooseQueue s p f =
    if (rdCfg s f.epoch (oQueueMap p)).testBit (24 + fld (rdCfg s f.epoch (oQueueMap p)) (3 * f.ra.cls) 3) then
      some (8 * p + fld (rdCfg s f.epoch (oQueueMap p)) (3 * f.ra.cls) 3) else none := by
  unfold chooseQueue
  rw [hk]
  rfl

theorem egressPolice_none (h : (rdCfg s f.epoch oTmPort p).testBit 31 = false) : egressPolice fid p f s = (true, s) := by
  unfold egressPolice
  dsimp only
  rw [h]
  rfl

/-- A descriptor on a link that carries, without a port policer, meets the queue of its class. -/
theorem admitQueue_carries (hf : frame s fid = some f) (hk : f.kind = .own) (hl : linkCarries s p = true) :
    admitQueue fid p s = match chooseQueue s p f with
      | none => discardCopy fid 1 (count (cTmPort p 0x10) (atPort fid p f s))
      | some q => match egressPolice fid p { f with outPort := p } (atPort fid p f s) with
        | (passes, t) => if !passes then discardCopy fid 2 t
          else match frame t fid with
            | none => t
            | some g => if admitTest t q g = 0 then enqueue fid q t
              else discardCopy fid 1 (when (g.kind ≠ .multicast) (count (cQueue q 0x10))
                (when (admitTest t q g = 2) (fun t => { t with gov := { t.gov with refused := t.gov.refused + 1 } }) t)) := by
  have hl' : linkCarries (putFrame fid { f with outPort := p } s) p = true := hl
  have hq : chooseQueue (putFrame fid { f with outPort := p } s) p { f with outPort := p } = chooseQueue s p f := by
    rw [chooseQueue_unicast hk, chooseQueue_unicast (f := { f with outPort := p }) hk]
    rfl
  unfold admitQueue
  rw [hf]
  dsimp only
  rw [hl', if_neg (by decide), hq]
  cases chooseQueue s p f <;> rfl

/-- R401, R402: a descriptor whose class has no queue in use. -/
theorem admitQueue_no_queue (hf : frame s fid = some f) (hk : f.kind = .own) (hl : linkCarries s p = true)
    (hq : chooseQueue s p f = none) :
    admitQueue fid p s = discardCopy fid 1 (count (cTmPort p 0x10) (atPort fid p f s)) := by
  rw [admitQueue_carries hf hk hl, hq]

/-- R412: a descriptor by what the tests of its queue say. -/
theorem admitQueue_tested {q : Nat} (hf : frame s fid = some f) (hk : f.kind = .own) (hl : linkCarries s p = true)
    (hq : chooseQueue s p f = some q) (hp : (rdCfg s f.epoch oTmPort p).testBit 31 = false) :
    admitQueue fid p s = if admitTest (atPort fid p f s) q { f with outPort := p } = 0 then enqueue fid q (atPort fid p f s)
      else discardCopy fid 1 (count (cQueue q 0x10) (when (admitTest (atPort fid p f s) q { f with outPort := p } = 2)
        (fun t => { t with gov := { t.gov with refused := t.gov.refused + 1 } }) (atPort fid p f s))) := by
  have hpol : egressPolice fid p { f with outPort := p } (atPort fid p f s) = (true, atPort fid p f s) := egressPolice_none hp
  have hfr : frame (atPort fid p f s) fid = some { f with outPort := p } := frame_putFrame_self ..
  rw [admitQueue_carries hf hk hl, hq]
  dsimp only
  rw [hpol]
  dsimp only
  rw [if_neg (by decide), hfr]
  dsimp only
  rw [hk]
  rfl

end

theorem tmQueue_congr {s t : State} (h : t.tm.queues = s.tm.queues) (q : Nat) : tmQueue t q = tmQueue s q := by
  unfold tmQueue
  rw [h]

theorem when_tm {c : Bool} {f : State → State} (s : State) (h : ∀ t, (f t).tm = t.tm) : (when c f s).tm = s.tm := by
  cases c
  · rfl
  · exact h s

theorem when_moveCharge_ended (c : Bool) (h owner : Nat) (s : State) : Ended s (when c (fun t => moveCharge h owner t) s) :=
  Ended.when (fun t => moveCharge_ended h owner t (Ended.refl t)) (Ended.refl s)

/-- The first descriptor of a queue starts without a deficit. -/
theorem when_deficit_kept (c : Bool) (q : Nat) (s : State) :
    (when c (fun t => setTm { t.tm with deficit := tabErase t.tm.deficit q } t) s).tm.queues = s.tm.queues ∧
      (when c (fun t => setTm { t.tm with deficit := tabErase t.tm.deficit q } t) s).pip = s.pip := by
  cases c <;> exact ⟨rfl, rfl⟩

/-- A descriptor that enters a queue is its last; every other queue and every other frame stays. -/
theorem enqueue_spec {fid q : Nat} {f : Frame} {s : State} (hf : frame s fid = some f) :
    (∃ g, frame (enqueue fid q s) fid = some g ∧ g.queue = q ∧ g.phase = .queued ∧ g.bytes = f.bytes ∧ g.outPort = f.outPort) ∧
      tmQueue (enqueue fid q s) q = tmQueue s q ++ [fid] ∧ (∀ k, k ≠ q → tmQueue (enqueue fid q s) k = tmQueue s k) ∧
      ∀ k, k ≠ fid → frame (enqueue fid q s) k = frame s k := by
  unfold enqueue
  rw [hf]
  dsimp only
  generalize hu : when (chargeMoves s f) _ s = u
  have hm : Ended s u := hu ▸ when_moveCharge_ended ..
  generalize hv : when (tmQueue u q = []) _ u = v
  obtain ⟨hqueues, hpip⟩ := hv ▸ when_deficit_kept (tmQueue u q = []) q u
  have counted := fun (a b : Bool) (j k : Nat) (w : State) =>
    And.intro ((when_pip (c := b) (when a (count j) w) fun _ => count_pip (off := k)).trans (when_pip w fun _ => count_pip))
      ((when_tm (c := b) (when a (count j) w) fun _ => count_tm (off := k)).trans (when_tm w fun _ => count_tm))
  have queues : ∀ k, tmQueue v k = tmQueue s k := fun k =>
    (tmQueue_congr hqueues k).trans (tmQueue_congr (congrArg Tm.queues hm.tm) k)
  have hl : tmQueue u q = tmQueue s q := tmQueue_congr (congrArg Tm.queues hm.tm) q
  refine ⟨⟨_, (frame_congr (counted ..).1 fid).trans (frame_putFrame_self ..), rfl, rfl, rfl, rfl⟩, ?_, fun k hk => ?_, fun k hk => ?_⟩
  · refine (tmQueue_congr (congrArg Tm.queues (counted ..).2) q).trans ((tabGet_put_self ..).trans ?_)
    rw [hl]
  · exact (tmQueue_congr (congrArg Tm.queues (counted ..).2) k).trans ((tabGet_put ..).trans ((if_neg hk).trans (queues k)))
  · exact (frame_congr (counted ..).1 k).trans ((frame_putFrame ..).trans ((if_neg hk).trans
      ((frame_congr hpip k).trans (frame_congr hm.pip k))))

/-- Settles O42: the three colours of a judgement, and a unicast descriptor by its link, its queue and the tests. -/
theorem policingAndAdmission : Obligations.PolicingAndAdmission := by
  unfold Obligations.PolicingAndAdmission
  refine ⟨fun r m colour b => ?_, fun fid p f s hf _ hk hp => ?_⟩
  · intro need x
    refine ⟨fun h => judgement_red h, fun hc hn h => ?_, fun hc hn hy ht => ?_, fun now => ⟨bucketNow_le .., bucketNow_le ..⟩⟩
    · have e : x = _ := judgement_yellow hc hn h
      rw [e]
      exact ⟨rfl, rfl, rfl⟩
    · have e : x = _ := judgement_green hc hn hy ht
      rw [e]
      exact ⟨rfl, rfl, rfl⟩
  · intro u map q
    have hq : chooseQueue s p f = if map.testBit (24 + fld map (3 * f.ra.cls) 3) then some q else none := chooseQueue_unicast hk
    refine ⟨fun hl => admitQueue_down hf hl, fun hl hb => ?_, fun hl hb => ?_⟩
    · rw [hb, if_neg (by decide)] at hq
      exact admitQueue_no_queue hf hk hl hq
    · rw [if_pos hb] at hq
      have hadmit := admitQueue_tested hf hk hl hq hp
      refine ⟨fun h1 => ?_, fun h2 => ?_, fun h0 => ?_⟩
      · have h1' : admitTest (atPort fid p f s) q { f with outPort := p } = 1 := h1
        rw [hadmit, h1']
        rfl
      · have h2' : admitTest (atPort fid p f s) q { f with outPort := p } = 2 := h2
        rw [hadmit, h2']
        rfl
      · have h0' : admitTest (atPort fid p f s) q { f with outPort := p } = 0 := h0
        rw [hadmit, if_pos h0']
        obtain ⟨⟨g, hg, hqueue, hphase, hbytes, hport⟩, hself, hother, hframes⟩ :=
          enqueue_spec (q := q) (s := atPort fid p f s) (frame_putFrame_self fid { f with outPort := p } s)
        exact ⟨g, hg, hqueue, hphase, hbytes, hport, hself, hother, fun k hk =>
          (hframes k hk).trans ((frame_putFrame ..).trans (if_neg hk))⟩

end Sys2Proof.Machine
end

section
/-! O43 (R140, R153, R181, R387, R397, R414 to R420): the heads that gates judge, a selection, and a port's transmission. -/

namespace Sys2Proof.Machine
open Sys2Proof

/-! ### Gates judge heads -/

/-- Judging heads changes counters and the list of the heads that have waited, which grows. -/
def Judged (s t : State) : Prop :=
  { t with ctr := s.ctr, tm := { t.tm with waited := s.tm.waited } } = s ∧ ∀ x ∈ s.tm.waited, x ∈ t.tm.waited

theorem Judged.refl (s : State) : Judged s s := ⟨rfl, fun _ h => h⟩

theorem Judged.eq {s t : State} (h : Judged s t) : t = { s with ctr := t.ctr, tm := { s.tm with waited := t.tm.waited } } := by
  rw [← h.1]

theorem Judged.trans {s t u : State} (h : Judged s t) (g : Judged t u) : Judged s u := by
  refine ⟨?_, fun x hx => g.2 x (h.2 x hx)⟩
  rw [g.eq]
  exact h.1

theorem Judged.tmQueue {s t : State} (h : Judged s t) (q : Nat) : tmQueue t q = tmQueue s q := by
  rw [h.eq]
  rfl

theorem Judged.gateOpens {s t : State} (h : Judged s t) (q : Nat) (f : Frame) : gateOpens t q f = gateOpens s q f := by
  rw [h.eq]
  rfl

theorem Judged.pip {s t : State} (h : Judged s t) : t.pip = s.pip := by rw [h.eq]

theorem Judged.kept {s t : State} (h : Judged s t) : t.tm.queues = s.tm.queues ∧ t.tm.selected = s.tm.selected ∧ t.dict = s.dict ∧
    t.pip = s.pip := by
  rw [h.eq]
  exact ⟨rfl, rfl, rfl, rfl⟩

theorem Judged.forEach {α : Type} {l : List α} {f : State → α → State} (h : ∀ t a, Judged t (f t a)) (s : State) :
    Judged s (forEach l f s) := by
  induction l generalizing s with
  | nil => exact .refl s
  | cons a l ih => exact (h s a).trans (ih (f s a))

theorem gateJudge_judged (q : Nat) (s : State) : Judged s (gateJudge q s) := by
  unfold gateJudge
  split
  · exact .refl s
  · split
    · exact .refl s
    · split
      · exact .refl s
      · exact ⟨rfl, fun x hx => List.mem_append_left _ hx⟩

/-- R420: a head that may not start waits. -/
theorem gateJudge_waits {q fid : Nat} {f : Frame} {s : State} (hq : (tmQueue s q).head? = some fid) (hf : frame s fid = some f)
    (hg : gateOpens s q f = false) : fid ∈ (gateJudge q s).tm.waited := by
  obtain ⟨rest, hl⟩ := List.head?_eq_some_iff.mp hq
  unfold gateJudge
  rw [hl]
  dsimp only
  rw [hf]
  dsimp only
  rw [hg, Bool.false_or]
  split
  · rename_i hw
    exact List.contains_iff_mem.mp hw
  · exact List.mem_append_right _ List.mem_cons_self

/-- Of the queues that are judged, each head that may not start waits. -/
theorem judged_waits {p b fid : Nat} {f : Frame} (l : List Nat) {s : State} (hb : b ∈ l)
    (hq : (tmQueue s (queueOf p b)).head? = some fid) (hf : frame s fid = some f) (hg : gateOpens s (queueOf p b) f = false) :
    fid ∈ (forEach l (fun t b => gateJudge (queueOf p b) t) s).tm.waited := by
  induction l generalizing s with
  | nil => exact absurd hb List.not_mem_nil
  | cons a l ih =>
    have step := gateJudge_judged (queueOf p a) s
    have rest : Judged (gateJudge (queueOf p a) s) (forEach (a :: l) (fun t b => gateJudge (queueOf p b) t) s) :=
      Judged.forEach (fun t b => gateJudge_judged (queueOf p b) t) _
    rcases List.mem_cons.mp hb with rfl | hb
    · exact rest.2 fid (gateJudge_waits hq hf hg)
    · exact ih hb (by rw [step.tmQueue, hq]) ((frame_congr step.pip fid).trans hf) ((step.gateOpens _ f).trans hg)

theorem forEach_same {α : Type} {l : List α} {f : State → α → State} {s : State} (h : ∀ a ∈ l, f s a = s) : forEach l f s = s := by
  induction l with
  | nil => rfl
  | cons a l ih =>
    show forEach l f (f s a) = s
    rw [h a List.mem_cons_self]
    exact ih fun b hb => h b (List.mem_cons_of_mem a hb)

/-- The judgement of the heads of a pipeline's ports that hold no selection. -/
def judgePorts (j : Nat) (s : State) : State :=
  forEach ((List.range 32).map (32 * j + ·)) (fun t p =>
    if (tabFind t.tm.selected p).isSome then t else forEach (List.range 10) (fun t b => gateJudge (queueOf p b) t) t) s

theorem judgePorts_judged (j : Nat) (s : State) : Judged s (judgePorts j s) :=
  .forEach (fun t p => by
    split
    · exact .refl t
    · exact .forEach (fun t b => gateJudge_judged _ t) t) s

/-- While every port of the pipeline carries, no queue is dead: heads are judged, and two selections are handed on. -/
theorem exec_transmitSelection {j : Nat} {s : State} (hj : isPipe j = true) (h : ∀ p, p / 32 = j → linkCarries s p = true) :
    exec (.transmitSelection j) s = .next (selectOne j (selectOne j (judgePorts j s))) := by
  have hdead : forEach ((List.range 32).map (32 * j + ·)) (fun t p => discardDead p t) s = s :=
    forEach_same fun p hp => by
      obtain ⟨k, hk, rfl⟩ := List.mem_map.mp hp
      have hk := List.mem_range.mp hk
      exact if_pos (h _ (by omega))
  show execTransmitSelection j s = _
  rw [execTransmitSelection, onUnits, if_pos hj]
  dsimp only
  rw [hdead]
  rfl

/-! ### A selection -/

/-- Only deficits and counters differ. -/
def DeficitsMoved (s t : State) : Prop := { t with tm := { t.tm with deficit := s.tm.deficit } } = s

theorem DeficitsMoved.refl (s : State) : DeficitsMoved s s := rfl

theorem DeficitsMoved.eq {s t : State} (h : DeficitsMoved s t) : t = { s with tm := { s.tm with deficit := t.tm.deficit } } := by
  rw [← h]

theorem DeficitsMoved.trans {s t u : State} (h : DeficitsMoved s t) (g : DeficitsMoved t u) : DeficitsMoved s u := by
  rw [DeficitsMoved, g.eq]
  exact h

theorem DeficitsMoved.forEach {α : Type} {l : List α} {f : State → α → State} (h : ∀ t a, DeficitsMoved t (f t a)) (s : State) :
    DeficitsMoved s (forEach l f s) := by
  induction l generalizing s with
  | nil => exact .refl s
  | cons a l ih => exact (h s a).trans (ih (f s a))

theorem setDeficit_moved (q d : Nat) (s : State) : DeficitsMoved s (setDeficit q d s) := rfl

theorem drrPay_moved (p w : Nat) (cands : List Nat) (s : State) : DeficitsMoved s (drrPay p w cands s) := by
  unfold drrPay
  dsimp only
  split
  · exact setDeficit_moved _ _ s
  · exact (DeficitsMoved.forEach (fun t q => setDeficit_moved _ _ t) s).trans (setDeficit_moved _ _ _)

/-- The head leaves its queue and is its port's selection; no other queue and no other frame changes. -/
theorem takeSelection_spec {j p q rank fid : Nat} {cands : List Nat} {f : Frame} {s : State} (h : queueHead s q = some (fid, f)) :
    tmQueue (takeSelection j p q cands rank s) q = (tmQueue s q).drop 1 ∧
      (∀ k, k ≠ q → tmQueue (takeSelection j p q cands rank s) k = tmQueue s k) ∧
      tabFind (takeSelection j p q cands rank s).tm.selected p = some fid ∧
      frame (takeSelection j p q cands rank s) fid = some { f with tSelected := s.clk.cclk } ∧
      ∀ k, k ≠ fid → frame (takeSelection j p q cands rank s) k = frame s k := by
  unfold takeSelection
  rw [h]
  dsimp only
  generalize hu : (if rank = 0 then s else drrPay p q cands s) = u
  have hsu : DeficitsMoved s u := by
    rw [← hu]
    split
    · exact .refl s
    · exact drrPay_moved p q cands s
  have queues : ∀ k, tmQueue u k = tmQueue s k := fun k => by
    rw [hsu.eq]
    rfl
  have hpip : u.pip = s.pip := by rw [hsu.eq]
  have hclk : u.clk = s.clk := by rw [hsu.eq]
  generalize hv : when (decide (tmQueue (setQueue q ((tmQueue u q).drop 1) u) q = [])) (setDeficit q 0) _ = v
  have huv : DeficitsMoved (setQueue q ((tmQueue u q).drop 1) u) v := by
    rw [← hv]
    cases decide (tmQueue (setQueue q ((tmQueue u q).drop 1) u) q = [])
    · exact .refl _
    · exact setDeficit_moved _ _ _
  have vqueues : ∀ k, tmQueue v k = if k = q then (tmQueue s q).drop 1 else tmQueue s k := fun k => by
    rw [huv.eq, ← queues, ← queues]
    exact tabGet_put ..
  have vpip : v.pip = s.pip := by
    rw [huv.eq]
    exact hpip
  have vclk : v.clk = s.clk := by
    rw [huv.eq]
    exact hclk
  refine ⟨(vqueues q).trans (if_pos rfl), fun k hk => (vqueues k).trans (if_neg hk), tabFind_insert_self .., ?_, fun k hk => ?_⟩
  · rw [← vclk]
    exact frame_putFrame_self fid _ v
  · exact (frame_putFrame fid k _ v).trans ((if_neg hk).trans (frame_congr vpip k))

/-! ### The start of a transmission -/

section
variable {p fid : Nat} {f : Frame} {e : EgressRun} {ecc : Ecc} {s : State}

theorem exec_transmissionStart (hp : isPort p = true) : exec (.transmissionStart p e ecc) s =
    .next (if (port s p).sending.isSome then s
      else match tabFind s.tm.selected p with
        | some fid => match frame s fid with
          | some f => startSelected p fid f e ecc s
          | none => s
        | none => s) := if_pos hp

theorem exec_transmissionStart_sending (hp : isPort p = true) (h : (port s p).sending.isSome = true) :
    exec (.transmissionStart p e ecc) s = .next s := by
  rw [exec_transmissionStart hp, if_pos h]

theorem exec_transmissionStart_unselected (hp : isPort p = true) (h : tabFind s.tm.selected p = none) :
    exec (.transmissionStart p e ecc) s = .next s := by
  rw [exec_transmissionStart hp, h]
  exact congrArg _ (ite_self s)

theorem exec_transmissionStart_selected (hp : isPort p = true) (hs : (port s p).sending = none)
    (h : tabFind s.tm.selected p = some fid) (hf : frame s fid = some f) :
    exec (.transmissionStart p e ecc) s = .next (startSelected p fid f e ecc s) := by
  rw [exec_transmissionStart hp, hs, h]
  dsimp only
  rw [hf]
  rfl

/-- The state of a port that has taken its selection. -/
def selectionTaken (p : Nat) (s : State) : State := setTm { s.tm with selected := tabErase s.tm.selected p } s

theorem startSelected_down (h : linkCarries s p = false) :
    startSelected p fid f e ecc s = discardCopy fid 0 (count (cPort p 0x50) (selectionTaken p s)) := by
  have h' : linkCarries (setTm { s.tm with selected := tabErase s.tm.selected p } s) p = false := h
  unfold startSelected
  dsimp only
  rw [h', if_pos (by decide)]
  rfl

theorem startSelected_carries (h : linkCarries s p = true) :
    startSelected p fid f e ecc s = match (egressReads (pipeOf p) f.epoch e (selectionTaken p s)).1, e.frame with
      | some reason, _ => discardCopy fid 4 (egressFault (pipeOf p) reason (egressReads (pipeOf p) f.epoch e (selectionTaken p s)).2)
      | none, some b => startFrame p fid f b ecc (egressReads (pipeOf p) f.epoch e (selectionTaken p s)).2
      | none, none => discardCopy fid 6 (egressReads (pipeOf p) f.epoch e (selectionTaken p s)).2 := by
  have h' : linkCarries (setTm { s.tm with selected := tabErase s.tm.selected p } s) p = true := h
  unfold startSelected
  dsimp only
  rw [h', if_neg (by decide)]
  rfl

theorem startSelected_fault {reason : Nat} (h : linkCarries s p = true)
    (hr : (egressReads (pipeOf p) f.epoch e (selectionTaken p s)).1 = some reason) : startSelected p fid f e ecc s =
      discardCopy fid 4 (egressFault (pipeOf p) reason (egressReads (pipeOf p) f.epoch e (selectionTaken p s)).2) := by
  rw [startSelected_carries h, hr]

end

theorem emit_open {s : State} (o : Output) (h : tapTakes s = false) : emit o s = { s with out := s.out ++ [o] } :=
  if_neg (by rw [h]; decide)

/-- The registers that the lanes of a port see as it starts a frame of its own, without a stamp and without an error. -/
theorem startFrame_own {p fid : Nat} {f : Frame} {b : Bytes} {s : State} (hk : f.kind = .own) (ht : f.ra.tsAction = 0)
    (htap : tapTakes s = false) :
    (startFrame p fid f b .clean s).out = s.out ++ [.lane p (preamble ++ (b ++ fcsBytes b))] ∧
      (port (startFrame p fid f b .clean s) p).sending = some fid ∧
      frame (startFrame p fid f b .clean s) fid = some { f with
        phase := .sending, txStamp := nowStamp s, txCclk := s.clk.cclk, txBytes := b ++ fcsBytes b } ∧
      ctr (startFrame p fid f b .clean s) (cQueue f.queue 0x00) = (ctr s (cQueue f.queue 0x00) + 1) % 2 ^ 64 ∧
      (∀ k, k ≠ fid → frame (startFrame p fid f b .clean s) k = frame s k) ∧ (startFrame p fid f b .clean s).dict = s.dict := by
  have hcut : ∀ t, cutCopy t f b = b := fun t => if_neg (by rw [hk]; decide)
  have hstamp : ∀ t, ptpEgress f p b t = (b, t) := fun t => if_pos (by rw [ht]; decide)
  generalize hu : setPort p { port s p with lpi := false } s = u
  generalize hg : ({ f with phase := .sending, txStamp := nowStamp u, txCclk := u.clk.cclk, txBytes := b ++ fcsBytes b } : Frame) = g
  generalize hv : count (cQueue f.queue 0x00) (ctrAdd (cQueue f.queue 0x08) (b ++ fcsBytes b).length (putFrame fid g u)) = v
  have ukept : u.pins = s.pins ∧ u.out = s.out ∧ u.dict = s.dict := by
    rw [← hu]
    exact ⟨rfl, rfl, rfl⟩
  have vkept : v.pins = u.pins ∧ v.out = u.out ∧ v.dict = u.dict := by
    rw [← hv]
    exact ⟨count_pins.trans ctrAdd_pins, count_out.trans ctrAdd_out, count_dict.trans ctrAdd_dict⟩
  generalize hw : setPort p { port v p with sending := some fid } v = w
  have hpins : w.pins = s.pins := by
    rw [← hw]
    exact vkept.1.trans ukept.1
  have htap' : tapTakes w = false := by
    unfold tapTakes at htap ⊢
    rw [hpins]
    exact htap
  have e : startFrame p fid f b .clean s = emit (.lane p (preamble ++ (b ++ fcsBytes b))) w := by
    rw [← hw, ← hv, ← hg, ← hu]
    unfold startFrame
    dsimp only
    rw [show when (decide (Ecc.clean = .corrected)) _ (setPort p { port s p with lpi := false } s) =
      setPort p { port s p with lpi := false } s from rfl, hcut, hstamp]
    rfl
  have hpip : v.pip = (putFrame fid g u).pip := by
    rw [← hv]
    exact count_pip.trans ctrAdd_pip
  have upip : u.pip = s.pip := by rw [← hu]; rfl
  have hctr : ctr v (cQueue f.queue 0x00) = (ctr s (cQueue f.queue 0x00) + 1) % 2 ^ 64 := by
    rw [← hv, ctr_count, if_pos rfl, ctr_ctrAdd, if_neg (by unfold cQueue; omega), ← hu]
    rfl
  rw [e, emit_open _ htap', ← hw]
  refine ⟨congrArg (· ++ _) ?_, ?_, ?_, hctr, fun k hk => ?_, ?_⟩
  · exact vkept.2.1.trans ukept.2.1
  · exact congrArg PortSt.sending (tabGet_put_self ..)
  · refine (frame_congr hpip fid).trans ((frame_putFrame_self ..).trans ?_)
    rw [← hg, ← hu]
    rfl
  · exact (frame_congr hpip k).trans ((frame_putFrame ..).trans ((if_neg hk).trans (frame_congr upip k)))
  · exact vkept.2.2.trans ukept.2.2

/-! ### The end of a transmission -/

theorem when_prt {c : Bool} {f : State → State} (s : State) (h : ∀ t, (f t).prt = t.prt) : (when c f s).prt = s.prt := by
  cases c
  · rfl
  · exact h s

theorem postStamp_noted (p tsId : Nat) (x : Stamp) (s : State) : Noted s (postStamp p tsId x s) := by
  unfold postStamp
  dsimp only
  split
  · exact raiseOnce_noted _ _ _ _ (count_noted _ _ (Noted.refl s))
  · have queued (w row v : Nat) : Noted s (count (cStamp (pipeOf p) 0x00)
        (wrRow oTxsQueues row v (wrRow oTxsWriteIndex (pipeOf p) w s))) :=
      count_noted _ _ (wrRow_noted _ _ _ _ (wrRow_noted _ _ _ s (Noted.refl s)))
    split
    · exact raise_noted _ _ _ (queued _ _ _)
    · exact queued _ _ _

theorem contribute_prt (p : Nat) (f : Frame) (s : State) : (contribute p f s).prt = s.prt := by
  unfold contribute
  split
  · rfl
  · exact count_prt

theorem counted_prt (j k l m n a e : Nat) (o : Occ) (s : State) :
    (ctrAdd l a (occur m e 1 o (count j (ctrAdd k n s)))).prt = s.prt :=
  ctrAdd_prt.trans ((occur_measured _ _ _ _ _ (Measured.refl _)).prt.trans (count_prt.trans ctrAdd_prt))

theorem stamped_prt (c : Bool) (p i : Nat) (x : Stamp) (s : State) : (when c (postStamp p i x) s).prt = s.prt :=
  when_prt _ fun t => (postStamp_noted p i x t).prt

theorem left_prt (fid p : Nat) (f : Frame) (s : State) : (sampleLeave fid f f.txCclk false (contribute p f s)).prt = s.prt :=
  (sampleLeave_measured _ _ _ _ _ (Measured.refl _)).prt.trans (contribute_prt p f s)

/-- A transmission that ends frees the port; then its frame leaves. -/
theorem endFrame_eq (p fid : Nat) (f : Frame) (s : State) :
    ∃ v, endFrame p fid f s = leave fid v ∧ v.prt = (setPort p { port s p with sending := none } s).prt := by
  unfold endFrame
  refine ⟨_, rfl, ?_⟩
  rw [left_prt, stamped_prt, counted_prt]

/-- At the end of a transmission the port is free, and the frame is no longer in the device. -/
theorem endFrame_spec (p fid : Nat) (f : Frame) (s : State) :
    (port (endFrame p fid f s) p).sending = none ∧ frame (endFrame p fid f s) fid = none := by
  obtain ⟨v, e, hprt⟩ := endFrame_eq p fid f s
  rw [e]
  refine ⟨?_, (frame_leave ..).trans (if_pos rfl)⟩
  unfold port
  rw [(leave_left fid v (Left.refl v)).prt, hprt]
  exact congrArg PortSt.sending (tabGet_put_self ..)

theorem exec_transmissionEnd {p : Nat} {s : State} (hp : isPort p = true) : exec (.transmissionEnd p) s =
    .next (match (port s p).sending with
     | some fid =>
       match frame s fid with
       | some f => loopNear p f.txBytes (endFrame p fid f s)
       | none => s
     | none => s) := if_pos hp

/-- Settles O43: the heads that gates judge, a selection, and the start and the end of a port's transmission. -/
theorem transmitOrderAndTransmission : Obligations.TransmitOrderAndTransmission := by
  unfold Obligations.TransmitOrderAndTransmission
  refine ⟨⟨fun p s hp => ?_, fun j s hj h => ?_, fun j p q cands rank fid f s h => takeSelection_spec h⟩, fun p fid f s hp hf => ?_⟩
  · have hjudged : Judged s (forEach (List.range 10) (fun t b => gateJudge (queueOf p b) t) s) :=
      .forEach (fun t b => gateJudge_judged _ t) s
    obtain ⟨hqueues, hselected, hdict, hpip⟩ := hjudged.kept
    exact ⟨_, if_pos hp, hqueues, hselected, hdict, hpip, fun b fid f hb hq hf hg =>
      judged_waits _ (List.mem_range.mpr hb) hq hf hg⟩
  · obtain ⟨hqueues, hselected, hdict, hpip⟩ := (judgePorts_judged j s).kept
    exact ⟨judgePorts j s, exec_transmitSelection hj h, hqueues, hselected, hpip, hdict⟩
  · refine ⟨fun h e ecc => exec_transmissionStart_sending hp h, fun _ h e ecc => exec_transmissionStart_unselected hp h,
      fun hs hsel => ?_, fun h => ?_, fun h => ⟨?_, endFrame_spec p fid f s⟩⟩
    · intro u
      refine ⟨fun hl e ecc => ?_, fun hl => ⟨fun e ecc reason hr => ?_, fun words hw => ?_⟩⟩
      · rw [exec_transmissionStart_selected hp hs hsel hf, startSelected_down hl]
        rfl
      · rw [exec_transmissionStart_selected hp hs hsel hf, startSelected_fault hl hr]
        rfl
      · have hread : ∀ b, egressReads (pipeOf p) f.epoch ⟨words, b⟩ u = (if 24 < words.length then some 6 else none, u) :=
          fun b => runEgress_clean _ _ 24 words u hw
        have hstart : ∀ b ecc, exec (.transmissionStart p ⟨words, b⟩ ecc) s = .next (startSelected p fid f ⟨words, b⟩ ecc s) :=
          fun b ecc => exec_transmissionStart_selected hp hs hsel hf
        refine ⟨fun hlen b ecc => ?_, fun hlen ecc => ?_, fun hlen b hk ht htap => ?_⟩
        · have hr := hread b
          rw [if_pos hlen] at hr
          rw [hstart, startSelected_fault hl (congrArg Prod.fst hr)]
          exact congrArg (fun x : Option Nat × State => Host.Outcome.next (discardCopy fid 4 (egressFault (pipeOf p) 6 x.2))) hr
        · have hr := hread none
          rw [if_neg (Nat.not_lt.mpr hlen)] at hr
          rw [hstart, startSelected_carries hl, show egressReads (pipeOf p) f.epoch ⟨words, none⟩ (selectionTaken p s) = (none, u) from hr]
        · have hr := hread (some b)
          rw [if_neg (Nat.not_lt.mpr hlen)] at hr
          have e : exec (.transmissionStart p ⟨words, some b⟩ .clean) s = .next (startFrame p fid f b .clean u) := by
            rw [hstart, startSelected_carries hl,
              show egressReads (pipeOf p) f.epoch ⟨words, some b⟩ (selectionTaken p s) = (none, u) from hr]
          exact ⟨_, e, startFrame_own hk ht htap⟩
    · rw [exec_transmissionEnd hp, h]
    · rw [exec_transmissionEnd hp, h]
      dsimp only
      rw [hf]

end Sys2Proof.Machine
end

section
/-! O44 (R383, R403, R424 to R426, R608): what the block behind an internal port does with a descriptor, and the capture ring. -/

namespace Sys2Proof.Machine
open Sys2Proof

/-! ### Hand-over -/

section
variable {n fid : Nat} {rest : List Nat} {f : Frame} {s : State}

/-- The owning block takes the oldest descriptor of pipeline `n`, of which `rest` stays. -/
def handOverOldest (n fid : Nat) (rest : List Nat) (f : Frame) (t : State) : State :=
  handOver fid f (setFab { t.fab with internal := tabPut [] t.fab.internal n rest } t)

theorem exec_internalDelivery_empty (hn : isPipe n = true) (h : tabGet [] s.fab.internal n = []) :
    exec (.internalDelivery n) s = .next s := by
  show execInternalDelivery n s = _
  rw [execInternalDelivery, onUnits, if_pos hn, h]

/-- An internal delivery by the room of the replay buffer and the buffer that its owner needs. -/
theorem exec_internalDelivery (hn : isPipe n = true) (h : tabGet [] s.fab.internal n = fid :: rest) (hf : frame s fid = some f) :
    exec (.internalDelivery n) s = .next (if !pairTakes s (destOf f).2 f then s
      else match handOverOwner s (destOf f).2 with
        | none => handOverOldest n fid rest f s
        | some o => match grantInternal o 6 s with
          | (none, t) => t
          | (some h, t) => releaseBuffer h o (handOverOldest n fid rest f t)) := by
  show execInternalDelivery n s = _
  rw [execInternalDelivery, onUnits, if_pos hn, h]
  dsimp only
  rw [hf]
  rfl

theorem pairTakes_of_ne {p : Nat} (h : p ≠ 514) : pairTakes s p f = true := by
  unfold pairTakes
  rw [decide_eq_true h]
  rfl

theorem exec_internalDelivery_unowned (hn : isPipe n = true) (h : tabGet [] s.fab.internal n = fid :: rest)
    (hf : frame s fid = some f) (ht : pairTakes s (destOf f).2 f = true) (ho : handOverOwner s (destOf f).2 = none) :
    exec (.internalDelivery n) s = .next (handOverOldest n fid rest f s) := by
  rw [exec_internalDelivery hn h hf, ht, ho]
  rfl

theorem handOver_capture (h : (destOf f).2 = 515) : handOver fid f s = captureIn fid (countInternal 515 f s) := by
  unfold handOver
  dsimp only
  rw [h]
  rfl

theorem handOver_punt (h : (destOf f).2 = 512) :
    handOver fid f s = leave fid (sampleLeave fid f 0 false (punt f (countInternal 512 f s))) := by
  unfold handOver
  dsimp only
  rw [h]
  rfl

theorem countInternal_dict (p : Nat) (f : Frame) (s : State) : (countInternal p f s).dict = s.dict :=
  count_dict.trans (count_dict.trans ctrAdd_dict)

theorem countInternal_cap (p : Nat) (f : Frame) (s : State) : (countInternal p f s).cap = s.cap :=
  count_cap.trans (count_cap.trans ctrAdd_cap)

theorem captureIn_room (hl : lowLedger s = false) (hr : s.cap.input.length < 4096) :
    captureIn fid s = { s with cap := { s.cap with input := s.cap.input ++ [fid] } } := by
  refine if_neg ?_
  rw [hl, Bool.false_or, decide_eq_true_eq]
  exact Nat.not_le.mpr hr

theorem captureIn_dropped (h : lowLedger s = true ∨ 4096 ≤ s.cap.input.length) :
    captureIn fid s = leave fid (count (cTm 0x10) s) := by
  refine if_pos ?_
  rw [Bool.or_eq_true, decide_eq_true_eq]
  exact h

end

/-! ### The ring -/

section
variable {f : Frame} {s : State}

theorem ringWrite_full_stops (h : ringHeld s = ringSize) (hm : rd s oCaptureMode = 0) : ringWrite f s = count (cTm 0x18) s := by
  unfold ringWrite
  dsimp only
  rw [h, hm]
  rfl

/-- An entry in its slot: the write index has moved on. -/
def entryWritten (f : Frame) (w : Nat) (t : State) : State :=
  let t := { t with cap := { t.cap with ring := tabInsert t.cap.ring (w % ringSize) (captureEntry t f w) } }
  count (cTm 0x08) (wr oCapWriteIndex ((w + 1) % 2 ^ 32) t)

theorem ringWrite_room (h : ringHeld s ≠ ringSize) : ringWrite f s = entryWritten f (rd s oCapWriteIndex) s := by
  unfold ringWrite
  dsimp only
  rw [decide_eq_false h]
  rfl

theorem ringWrite_full_goes_on (h : ringHeld s = ringSize) (hm : rd s oCaptureMode ≠ 0) : ringWrite f s =
    entryWritten f (rd s oCapWriteIndex) (count (cTm 0x20) (wr oCapReadIndex ((rd s oCapReadIndex + 1) % 2 ^ 32) s)) := by
  unfold ringWrite
  dsimp only
  rw [decide_eq_true h, decide_eq_false hm]
  rfl

theorem rd_entryWritten_write (w : Nat) (t : State) : rd (entryWritten f w t) oCapWriteIndex = (w + 1) % 2 ^ 32 :=
  (rd_congr count_dict _ _).trans (rd_wr_self ..)

theorem rd_entryWritten_read (w : Nat) (t : State) : rd (entryWritten f w t) oCapReadIndex = rd t oCapReadIndex :=
  (rd_congr count_dict _ _).trans (rd_wr_other (by decide))

theorem tabFind_entryWritten (w k : Nat) (t : State) : tabFind (entryWritten f w t).cap.ring k =
    if k = w % ringSize then some (captureEntry t f w) else tabFind t.cap.ring k :=
  (congrArg (fun x : Cap => tabFind x.ring k) (count_cap.trans wr_cap)).trans (tabFind_insert ..)

theorem exec_captureCompose {fid : Nat} {rest : List Nat} (h : s.cap.input = fid :: rest) (hf : frame s fid = some f) :
    exec .captureCompose s = .next (compose fid f s) := by
  show execCaptureCompose s = _
  unfold execCaptureCompose
  rw [h]
  dsimp only
  rw [hf]

theorem compose_late {fid : Nat} (h : 32 * s.clk.cclk < s.cap.next) : compose fid f s = leave fid (count (cTm 0x10) s) := by
  unfold compose mayWriteRing
  rw [decide_eq_false (Nat.not_le.mpr h)]
  rfl

theorem compose_in_time {fid : Nat} (h : s.cap.next ≤ 32 * s.clk.cclk) : compose fid f s = match grantInternal 4132 1 s with
    | (none, t) => t
    | (some h, t) => releaseBuffer h 4132 (leave fid (sampleLeave fid f 0 false (wroteRing (ringWrite f t)))) := by
  unfold compose mayWriteRing
  rw [decide_eq_true h]
  rfl

end

/-! ### Reads of the ring -/

section
variable {c : SqCmd} {n : Nat} {s : State}

theorem exec_capRead (h : servesCommand c 1 s) (hp : partnerFollows s = false) :
    exec (.capRead c n) s = .next (finish c (capReadDone c n s)) := by
  show execCapRead c n s = _
  rw [execCapRead, onUnits_startCmd h, commitCmd_alone hp]

theorem finish_capReadDone_range (h : n = 0 ∨ 4096 < n) : finish c (capReadDone c n s) = complete c 0x0B 0 0 s := by
  unfold capReadDone
  rw [if_pos (by simpa using h)]
  rfl

theorem finish_capReadDone (h0 : n ≠ 0) (h : n ≤ 4096) :
    finish c (capReadDone c n s) = issue 9 18 (capArgs c n) (linksBody c) s := by
  unfold capReadDone
  rw [if_neg]
  · rfl
  · rw [Bool.or_eq_true, decide_eq_true_eq, decide_eq_true_eq]
    exact not_or.mpr ⟨h0, Nat.not_lt.mpr h⟩

end

theorem rd_complete (c : SqCmd) (status area result : Nat) (s : State) (obj : Nat) :
    rd (complete c status area result s) obj = rd s obj := rd_congr (complete_endKept c status area result s).1 _ _

/-- R426: a copy of a command without a chain moves CAP_READ_INDEX on by what it copies. -/
theorem captureCopy_index {o : DwOp} (s : State) (h : o.body = []) :
    rd (captureCopy o s) oCapReadIndex = (rd s oCapReadIndex + copyCount s (nth 0 o.args 5)) % 2 ^ 32 := by
  unfold captureCopy
  dsimp only
  split
  · exact rd_wr_self ..
  · split
    · rename_i hlinks
      rw [h] at hlinks
      cases hlinks
    · exact (rd_complete ..).trans (rd_wr_self ..)

/-- Settles O44: what the block behind an internal port takes, and the capture ring by its two indices. -/
theorem internalDeliveryAndCapture : Obligations.InternalDeliveryAndCapture := by
  unfold Obligations.InternalDeliveryAndCapture
  refine ⟨fun n s hn => ⟨fun h => exec_internalDelivery_empty hn h, fun fid rest f h hf => ?_⟩, fun f s => ?_, fun s h => ?_,
    fun fid rest f s h hf => ?_, fun s => rfl, fun c n s h hp => ?_, fun s => ?_, fun o s h => captureCopy_index s h⟩
  · intro go
    refine ⟨fun ht => ?_, fun ht => ⟨fun ho => exec_internalDelivery_unowned hn h hf ht ho, fun o t ho hg => ?_,
      fun o a t ho hg => ?_⟩, fun hd => ?_, fun hd hr => ?_⟩
    · rw [exec_internalDelivery hn h hf, ht]
      rfl
    · rw [exec_internalDelivery hn h hf, ht, ho]
      dsimp only
      rw [hg]
      rfl
    · rw [exec_internalDelivery hn h hf, ht, ho]
      dsimp only
      rw [hg]
      rfl
    · have ht : pairTakes s (destOf f).2 f = true := pairTakes_of_ne (by rw [hd]; decide)
      have ho : handOverOwner s (destOf f).2 = none := by rw [hd]; rfl
      intro u
      have e : exec (.internalDelivery n) s = .next (captureIn fid u) :=
        (exec_internalDelivery_unowned hn h hf ht ho).trans (congrArg _ (handOver_capture hd))
      have hlow : lowLedger u = lowLedger s := congrArg (Nat.testBit · 0) (rd_congr (countInternal_dict ..) _ _)
      have hcap : u.cap = s.cap := countInternal_cap ..
      rw [e]
      refine ⟨fun hl hi => ?_, fun hl => ?_⟩
      · rw [captureIn_room (hlow.trans hl) (by rw [hcap]; exact hi), hcap]
      · rw [captureIn_dropped (by rw [hlow, hcap]; exact hl)]
    · have ht : pairTakes s (destOf f).2 f = true := pairTakes_of_ne (by rw [hd]; decide)
      have ho : handOverOwner s (destOf f).2 = none := by
        unfold handOverOwner
        rw [hd, hr]
        rfl
      exact (exec_internalDelivery_unowned hn h hf ht ho).trans (congrArg _ (handOver_punt hd))
  · refine ⟨fun h hm => ringWrite_full_stops h hm, fun h => ?_, fun h hm => ?_⟩
    · rw [ringWrite_room h]
      exact ⟨(tabFind_entryWritten ..).trans (if_pos rfl), rd_entryWritten_write .., rd_entryWritten_read ..,
        fun k hk => (tabFind_entryWritten ..).trans (if_neg hk)⟩
    · rw [ringWrite_full_goes_on h hm]
      exact ⟨rd_entryWritten_write .., (rd_entryWritten_read ..).trans ((rd_congr count_dict _ _).trans (rd_wr_self ..))⟩
  · show execCaptureCompose s = _
    unfold execCaptureCompose
    rw [h]
  · rw [exec_captureCompose h hf]
    refine ⟨fun hl => by rw [compose_late hl], fun hl => ?_⟩
    rw [compose_in_time hl]
    exact ⟨fun t ht => by rw [ht], fun a t ht => by rw [ht]⟩
  · rw [exec_capRead h hp]
    exact ⟨fun hr => congrArg _ (finish_capReadDone_range hr), fun h0 hr => congrArg _ (finish_capReadDone h0 hr)⟩
  · have e : exec .captureCopy s = .next (match nextOp s 18 9 (fun _ => true) with
      | some o => captureCopy o (dispatched o s)
      | none => s) := rfl
    rw [e]
    exact ⟨fun h => by rw [h], fun o h => by rw [h]⟩

end Sys2Proof.Machine
end

section
/-! O46 (R461 to R467, R476, R480): the admin commands of SQ 0, and the commands that a queue does not serve. -/

namespace Sys2Proof.Machine
open Sys2Proof

/-! ### Admin commands on SQ 0 and elsewhere -/

section
variable {c : SqCmd} {z : Sq} {s : State} (hwf : c.wf = true)
include hwf

theorem adminCmd_on_zero (h0 : c.sq = 0) (hz : sq s 0 = some z) (f : State → State) :
    onUnits c.wf (adminCmd c f s) = .next (f s) := by
  rw [onUnits, if_pos hwf, adminCmd, h0, hz]
  rfl

theorem adminCmd_elsewhere (h0 : c.sq ≠ 0) (hz : sq s c.sq = some z) (f : State → State) :
    onUnits c.wf (adminCmd c f s) = .next (complete c 0x89 0x60 0 s) := by
  rw [onUnits, if_pos hwf, adminCmd, hz]
  exact congrArg _ (if_pos h0)

end

theorem out_emit_congr {s t : State} (o : Output) (hp : t.pins = s.pins) (ho : t.out = s.out) : (emit o t).out = (emit o s).out := by
  have htap : tapTakes t = tapTakes s := by
    unfold tapTakes
    rw [hp]
  unfold emit
  rw [htap]
  split
  · exact ho
  · exact congrArg (· ++ [o]) ho

theorem hostWrite_awake {a : Nat} {b : Bytes} {s : State} (h : busAwake s = true) :
    (hostWrite a b s).out = (emit (.hostWrite a b) s).out := by
  unfold hostWrite
  rw [if_pos h]
  rfl

theorem hostWrite_asleep {a : Nat} {b : Bytes} {s : State} (h : busAwake s = false) :
    hostWrite a b s = { s with hst := { s.hst with heldWrites := s.hst.heldWrites ++ [(a, b)] } } :=
  if_neg (by rw [h]; decide)

/-! ### Creation -/

/-- A queue is created where no check fails; every check has a code of its own. -/
theorem createSqCode_ok {s : State} {a : SqArgs} (h : (createSqCode s a).1 = 0) :
    sq s a.qid = none ∧ (cq s a.cqid).isSome = true ∧ a.level ≤ s.fuse.pcieCeiling := by
  unfold createSqCode at h
  split at h
  · exact absurd h (by decide)
  · rename_i hq
    split at h
    · exact absurd h (by decide)
    · rename_i hc
      iterate 3 (split at h; exact absurd h (by decide))
      split at h
      · exact absurd h (by decide)
      · rename_i hl
        refine ⟨?_, ?_, ?_⟩
        · rw [Bool.or_eq_true] at hq
          exact Option.not_isSome_iff_eq_none.mp fun e => hq (.inr e)
        · cases hcq : cq s a.cqid with
          | none => exact absurd (by rw [hcq]; rfl) hc
          | some y => rfl
        · refine Nat.not_lt.mp fun e => hl ?_
          rw [decide_eq_true e]
          rfl

theorem createCqCode_ok {s : State} {a : CqArgs} (h : (createCqCode s a).1 = 0) : cq s a.qid = none := by
  unfold createCqCode at h
  split at h
  · exact absurd h (by decide)
  · rename_i hq
    rw [Bool.or_eq_true] at hq
    exact Option.not_isSome_iff_eq_none.mp fun e => hq (.inr e)

section
variable (a : SqArgs) (s : State)

/-- The SQ of CREATE_SQ. -/
def sqOf : Sq := { level := a.level, kind := a.kind, cq := a.cqid, push := a.push, ring := a.ring, units := a.ringSize / 32,
                   index := a.indexAddr, poll := a.poll }

theorem newSq_eq : newSq a s = hostWrite (a.indexAddr + 8) (leBytes 4 0) (setSq a.qid (sqOf a) s) := rfl

theorem sq_newSq (k : Nat) : sq (newSq a s) k = if k = a.qid then some (sqOf a) else sq s k := by
  rw [newSq_eq, (hostWrite_queues ..).sq]
  exact tabFind_insert ..

theorem newSq_awake (h : busAwake s = true) : (newSq a s).out = (emit (.hostWrite (a.indexAddr + 8) (leBytes 4 0)) s).out := by
  rw [newSq_eq, hostWrite_awake (s := setSq a.qid (sqOf a) s) h]
  exact out_emit_congr _ rfl rfl

theorem newSq_asleep (h : busAwake s = false) : (newSq a s).out = s.out ∧
    (newSq a s).hst.heldWrites = s.hst.heldWrites ++ [(a.indexAddr + 8, leBytes 4 0)] := by
  rw [newSq_eq, hostWrite_asleep (s := setSq a.qid (sqOf a) s) h]
  exact ⟨rfl, rfl⟩

end

section
variable (a : CqArgs) (s : State)

/-- The CQ of CREATE_CQ. -/
def cqOf : Cq := { vector := a.vector, modCount := a.modCount, hold := a.flags % 2 = 1, ring := a.ring, units := a.ringSize / 32,
                   modTimer := a.modTimer, index := a.indexAddr, wakeCeiling := a.wakeCeiling }

theorem newCq_eq : newCq a s = hostWrite (a.indexAddr + 8) (leBytes 4 0) (setCq a.qid (cqOf a) s) := rfl

theorem cq_newCq (k : Nat) : cq (newCq a s) k = if k = a.qid then some (cqOf a) else cq s k := by
  rw [newCq_eq, (hostWrite_queues ..).cq]
  exact tabFind_insert ..

theorem newCq_awake (h : busAwake s = true) : (newCq a s).out = (emit (.hostWrite (a.indexAddr + 8) (leBytes 4 0)) s).out := by
  rw [newCq_eq, hostWrite_awake (s := setCq a.qid (cqOf a) s) h]
  exact out_emit_congr _ rfl rfl

end

/-! ### Deletion -/

section
variable {c : SqCmd} {q : Nat} {s : State}

theorem deleteSq_absent (h0 : q ≠ 0) (h : sq s q = none) : deleteSq c q s = complete c 0x84 0x60 0 s := by
  unfold deleteSq
  rw [if_neg h0, h]

/-- R465: a queue whose last command has ended is gone at once. -/
theorem deleteSq_idle {x : Sq} (h0 : q ≠ 0) (h : sq s q = some x) (hd : x.deleting = none) (hc : commandsLeft s q = false) :
    deleteSq c q s = endCommand c 0 0 0 0 [] (removeSq q (setSq q { x with state := 3, deleting := some c } s)) := by
  have hc' : commandsLeft (setSq q { x with state := 3, deleting := some c } s) q = false := hc
  unfold deleteSq
  rw [if_neg h0, h]
  dsimp only
  rw [hd]
  unfold finishDeletion
  rw [sq_setSq_self]
  dsimp only
  rw [hc']
  rfl

theorem deleteCq_absent (h : cq s q = none) : deleteCq c q s = complete c 0x84 0x60 0 s := by
  unfold deleteCq
  rw [h]
  rfl

theorem deleteCq_used {x : Cq} (h : cq s q = some x) (hu : s.hst.sqs.any (fun e => e.2.cq = q) = true) :
    deleteCq c q s = complete c 0x16 0 0 s := by
  unfold deleteCq
  rw [h, hu]
  rfl

theorem deleteCq_unused {x : Cq} (h : cq s q = some x) (hu : s.hst.sqs.any (fun e => e.2.cq = q) = false) :
    deleteCq c q s = completeOk c (removeCq q s) := by
  unfold deleteCq
  rw [h, hu]
  rfl

theorem releaseStaging_hst (h : Option Nat) (s : State) : (releaseStaging h s).hst = s.hst := by
  cases h <;> rfl

theorem cq_removeCq_self {x : Cq} (h : cq s q = some x) : cq (removeCq q s) q = none := by
  have released : ∀ (l : List HeldEntry) (t : State), (forEach l (fun t e => releaseStaging e.handle t) t).hst = t.hst := fun l => by
    induction l with
    | nil => exact fun t => rfl
    | cons e l ih => exact fun t => (ih _).trans (releaseStaging_hst e.handle t)
  unfold removeCq
  rw [h]
  exact (cq_congr (released _ _) q).trans (tabFind_erase_self s.hst.cqs q)

end

theorem modifyCq_ok {c : SqCmd} {a : CqArgs} {x : Cq} {s : State} (h : cq s a.qid = some x) (hr : a.ringSize = 0)
    (hi : a.indexAddr = 0) (hf : cqFieldsBad a = false) : modifyCq c a s = completeOk c (setCq a.qid { x with
      vector := a.vector, modCount := a.modCount, hold := a.flags % 2 = 1, modTimer := a.modTimer,
      wakeCeiling := a.wakeCeiling } s) := by
  unfold modifyCq
  rw [h]
  dsimp only
  rw [hr, hi, hf]
  rfl

/-! ### Restart -/

section
variable {c : SqCmd} {q : Nat} {b : Bytes} {s : State}

theorem restartSq_unread {x : Sq} (h : sq s q = some x) (hs : x.state = 2) :
    restartSq c q .fault s = complete c 0x81 0x60 0 s := by
  unfold restartSq
  rw [h]
  dsimp only
  rw [if_neg (by rw [hs]; decide)]

theorem restartSq_valid {x : Sq} (h : sq s q = some x) (hs : x.state ≠ 3) (hv : indexValid x.head (leAt b 0 4) x.units = true) :
    restartSq c q (.data b) s =
      completeOk c (setSq q { x with state := 1, tail := leAt b 0 4, pushed := [], needs := 1, fenced := false } s) := by
  unfold restartSq
  rw [h]
  dsimp only
  rw [if_neg hs, if_pos hv]

theorem restartCq_valid {x : Cq} (h : cq s q = some x) (hv : indexValid (leAt b 0 4) x.tail x.units = true) :
    restartCq c q (.data b) s = completeOk c (resumeCq q (setCq q { x with state := 1, head := leAt b 0 4 } s)) := by
  unfold restartCq
  rw [h]
  dsimp only
  rw [if_pos hv]

end

section
variable {c : SqCmd} {z : Sq} {q : Nat} {d : Dma} {s : State} (hwf : c.wf = true) (h0 : c.sq = 0) (hz : sq s 0 = some z)
include hwf h0 hz

/-- A function that sleeps reads no index block. -/
theorem exec_restart_asleep (hb : busAwake s = false) : exec (.restart c q false d) s = .next (restartSq c q .fault s) := by
  have hcount : when ((sq s q).isSome && busAwake s) (count (cHost 0x08)) s = s := by
    rw [hb, Bool.and_false]
    rfl
  refine (adminCmd_on_zero hwf h0 hz _).trans (congrArg _ ?_)
  show restartSq c q (if busAwake (when ((sq s q).isSome && busAwake s) (count (cHost 0x08)) s) then d else .fault)
    (when ((sq s q).isSome && busAwake s) (count (cHost 0x08)) s) = _
  rw [hcount, hb]
  rfl

theorem exec_restart_sq {x : Sq} (hb : busAwake s = true) (hx : sq s q = some x) :
    exec (.restart c q false d) s = .next (restartSq c q d (count (cHost 0x08) s)) := by
  have hcount : when ((sq s q).isSome && busAwake s) (count (cHost 0x08)) s = count (cHost 0x08) s := by
    rw [hb, hx]
    rfl
  refine (adminCmd_on_zero hwf h0 hz _).trans (congrArg _ ?_)
  show restartSq c q (if busAwake (when ((sq s q).isSome && busAwake s) (count (cHost 0x08)) s) then d else .fault)
    (when ((sq s q).isSome && busAwake s) (count (cHost 0x08)) s) = _
  rw [hcount, busAwake_count, if_pos hb]

theorem exec_restart_cq {x : Cq} (hb : busAwake s = true) (hx : cq s q = some x) :
    exec (.restart c q true d) s = .next (restartCq c q d (count (cHost 0x08) s)) := by
  have hcount : when ((cq s q).isSome && busAwake s) (count (cHost 0x08)) s = count (cHost 0x08) s := by
    rw [hb, hx]
    rfl
  refine (adminCmd_on_zero hwf h0 hz _).trans (congrArg _ ?_)
  show restartCq c q (if busAwake (when ((cq s q).isSome && busAwake s) (count (cHost 0x08)) s) then d else .fault)
    (when ((cq s q).isSome && busAwake s) (count (cHost 0x08)) s) = _
  rw [hcount, busAwake_count, if_pos hb]

end

/-! ### Commands that a queue does not serve -/

section
variable {c : SqCmd} {x : Sq} {lowest : Nat} {f : State → State} {s : State} (hx : sq s c.sq = some x)
include hx

theorem startCmd_wrong_queue (h : c.sq = 0 ∨ x.kind = 1) : startCmd c lowest f s = complete c 0x89 0x60 0 s := by
  rw [startCmd, atLevel, hx]
  exact if_pos (by simpa using h)

/-- A command of a queue that serves it by its kind goes by the queue's level. -/
theorem startCmd_by_level (h0 : c.sq ≠ 0) (hk : x.kind ≠ 1) : startCmd c lowest f s = if x.level < lowest then complete c 0x07 0 0 s
    else if follows s then complete c 0x07 0 0 s else withLinks c f s := by
  rw [startCmd, atLevel, hx]
  refine if_neg ?_
  rw [Bool.or_eq_true, decide_eq_true_eq, decide_eq_true_eq]
  exact not_or.mpr ⟨h0, hk⟩

theorem startCmd_denied (h0 : c.sq ≠ 0) (hk : x.kind ≠ 1) (hl : x.level < lowest) : startCmd c lowest f s = complete c 0x07 0 0 s := by
  rw [startCmd_by_level hx h0 hk, if_pos hl]

theorem startCmd_follows (h0 : c.sq ≠ 0) (hk : x.kind ≠ 1) (hl : lowest ≤ x.level) (hf : follows s = true) :
    startCmd c lowest f s = complete c 0x07 0 0 s := by
  rw [startCmd_by_level hx h0 hk, if_neg (Nat.not_lt.mpr hl), if_pos hf]

theorem startCmd_links (h0 : c.sq ≠ 0) (hk : x.kind ≠ 1) (hl : lowest ≤ x.level) (hf : follows s = false) :
    startCmd c lowest f s = withLinks c f s := by
  rw [startCmd_by_level hx h0 hk, if_neg (Nat.not_lt.mpr hl), hf]
  rfl

end

theorem withLinks_fault {c : SqCmd} (h : c.links = .fault) (f : State → State) (s : State) :
    withLinks c f s = complete c 0x81 0x60 0 s := by
  rw [withLinks, h]

theorem withLinks_tooLong {c : SqCmd} (h : c.links = .tooLong) (f : State → State) (s : State) :
    withLinks c f s = complete c 0x80 0x60 0 s := by
  rw [withLinks, h]

/-- The instructions that start as commands of a queue, each with its lowest level. -/
def levelledCommands (c : SqCmd) (ta : TblArgs) (fa : FlowArgs) (d e : Dma) (ecc : Ecc) (cold : List (Nat × Ecc)) (n m : Nat) :
    List (Nat × Instr) :=
  [(0, Instr.tblRead c ta ecc), (1, .tblInsert c ta), (1, .tblDelete c ta), (0, .flowRead c fa ecc),
   (0, .flowWalk c fa cold), (1, .flowInsert c fa d e), (1, .flowUpdate c fa d), (1, .flowDelete c fa), (1, .flowPin c fa),
   (1, .flowUnpin c fa), (1, .capRead c n), (1, .inject c n m d)]

theorem exec_levelledCommand {c : SqCmd} {ta : TblArgs} {fa : FlowArgs} {d e : Dma} {ecc : Ecc} {cold : List (Nat × Ecc)}
    {n m lowest : Nat} {i : Instr} (hwf : c.wf = true) (h : (lowest, i) ∈ levelledCommands c ta fa d e ecc cold n m) (s : State) :
    ∃ f, exec i s = .next (startCmd c lowest f s) := by
  unfold levelledCommands at h
  simp only [List.mem_cons, List.not_mem_nil, or_false, Prod.mk.injEq] at h
  rcases h with ⟨rfl, rfl⟩ | ⟨rfl, rfl⟩ | ⟨rfl, rfl⟩ | ⟨rfl, rfl⟩ | ⟨rfl, rfl⟩ | ⟨rfl, rfl⟩ | ⟨rfl, rfl⟩ | ⟨rfl, rfl⟩ | ⟨rfl, rfl⟩ |
    ⟨rfl, rfl⟩ | ⟨rfl, rfl⟩ | ⟨rfl, rfl⟩ <;> exact ⟨_, if_pos hwf⟩

/-- The instructions of the admin commands. -/
def adminCommands (c : SqCmd) (a : SqArgs) (b : CqArgs) (q : Nat) (isCq : Bool) (d : Dma) : List Instr :=
  [Instr.createSq c a, .deleteSq c q, .createCq c b, .deleteCq c q, .modifyCq c b, .restart c q isCq d]

theorem exec_adminCommand {c : SqCmd} {a : SqArgs} {b : CqArgs} {q : Nat} {isCq : Bool} {d : Dma} {i : Instr}
    (h : i ∈ adminCommands c a b q isCq d) (s : State) : ∃ f, exec i s = onUnits c.wf (adminCmd c f s) := by
  unfold adminCommands at h
  simp only [List.mem_cons, List.not_mem_nil, or_false] at h
  rcases h with rfl | rfl | rfl | rfl | rfl | rfl <;> exact ⟨_, rfl⟩

/-- Settles O46: the admin commands of SQ 0 one by one, and the commands that a queue does not serve. -/
theorem queueCommands : Obligations.QueueCommands := by
  unfold Obligations.QueueCommands
  refine ⟨fun c z s hwf h0 hz => ?_, fun c x s hwf hx ta fa d e ecc cold n m lowest i hi => ?_,
    fun c x s hwf h0 hx a b q isCq d i hi => ?_, fun c x s hwf hx => ?_⟩
  · have onZero := adminCmd_on_zero hwf h0 hz
    refine ⟨fun a => ?_, fun a => ?_, onZero _, fun q hq hs => ?_, fun q x hq hs hd hc => ?_, fun q hs => ?_, fun q x hs => ?_,
      fun a x hs hr hi hf => ?_, fun hb q x b hs hst => ?_, fun q x b hb hs hst hv => ?_, fun q x b hb hs hv => ?_⟩
    · intro v
      refine ⟨fun h => (onZero _).trans (congrArg _ (if_pos h)), fun h => ?_⟩
      obtain ⟨hfree, hcq, hlevel⟩ := createSqCode_ok h
      exact ⟨(onZero _).trans (congrArg _ (if_neg (not_not.mpr h))), (sq_newSq ..).trans (if_pos rfl),
        fun k hk => (sq_newSq ..).trans (if_neg hk), newSq_awake a s, newSq_asleep a s, hfree, hcq, hlevel⟩
    · intro v
      refine ⟨fun h => (onZero _).trans (congrArg _ (if_pos h)), fun h => ?_⟩
      exact ⟨(onZero _).trans (congrArg _ (if_neg (not_not.mpr h))), (cq_newCq ..).trans (if_pos rfl), newCq_awake a s,
        fun k hk => (cq_newCq ..).trans (if_neg hk), createCqCode_ok h⟩
    · exact (onZero _).trans (congrArg _ (deleteSq_absent hq hs))
    · exact (onZero _).trans (congrArg _ (deleteSq_idle hq hs hd hc))
    · exact (onZero _).trans (congrArg _ (deleteCq_absent hs))
    · exact ⟨fun hu => (onZero _).trans (congrArg _ (deleteCq_used hs hu)), fun hu =>
        ⟨(onZero _).trans (congrArg _ (deleteCq_unused hs hu)), cq_removeCq_self hs⟩⟩
    · exact (onZero _).trans (congrArg _ (modifyCq_ok hs hr hi hf))
    · rw [exec_restart_asleep hwf h0 hz hb, restartSq_unread hs hst]
    · rw [exec_restart_sq hwf h0 hz hb hs, restartSq_valid ((sq_count ..).trans hs) hst hv]
    · rw [exec_restart_cq hwf h0 hz hb hs, restartCq_valid ((cq_count ..).trans hs) hv]
  · obtain ⟨f, hexec⟩ := exec_levelledCommand hwf hi s
    rw [hexec]
    refine ⟨fun h => congrArg _ (startCmd_wrong_queue hx h), fun h0 hk hl => congrArg _ (startCmd_denied hx h0 hk hl),
      fun h0 hk hl => ⟨fun hf => congrArg _ (startCmd_follows hx h0 hk hl hf), fun hf hc => ?_, fun hf hc => ?_⟩⟩
    · rw [startCmd_links hx h0 hk hl hf, withLinks_fault hc]
    · rw [startCmd_links hx h0 hk hl hf, withLinks_tooLong hc]
  · obtain ⟨f, hexec⟩ := exec_adminCommand hi s
    rw [hexec]
    exact adminCmd_elsewhere hwf h0 hx f
  · show onUnits c.wf _ = _
    rw [onUnits, if_pos hwf, hx]

end Sys2Proof.Machine
end

section
/-! O48 (R480, R482, R486 to R493): injection, receive buffers, signals, and the sleep of link and function. -/

namespace Sys2Proof.Machine
open Sys2Proof

/-! ### Injection -/

section
variable {c : SqCmd} {n cls : Nat} {b : Bytes} {s : State}

theorem exec_inject (d : Dma) (h : servesCommand c 1 s) : exec (.inject c n cls d) s = .next (injectFrame c n cls d s) := by
  show execInject c n cls d s = _
  rw [execInject, onUnits_startCmd h]

theorem injectFrame_range (h : 16 ≤ n ∨ 8 ≤ cls ∨ b.length < 60 ∨ 9724 < b.length) :
    injectFrame c n cls (.data b) s = complete c 0x0B 0 0 s := if_pos (by simpa [or_assoc] using h)

theorem partnerFollows_count (off : Nat) (s : State) : partnerFollows (count off s) = partnerFollows s :=
  partnerFollows_congr (rd_congr count_dict oPairRole 0) count_pair

theorem injectFrame_enters (hn : n < 16) (hc : cls < 8) (hl : 60 ≤ b.length) (hu : b.length ≤ 9724) (hp : partnerFollows s = false) :
    injectFrame c n cls (.data b) s = enterFrame 512 n cls b (some c) (count (cHost 0x70) s) := by
  have hf : forwardInject n cls b (count (cHost 0x70) s) = count (cHost 0x70) s := by
    unfold forwardInject
    rw [partnerFollows_count, hp]
    rfl
  refine (if_neg ?_).trans (by rw [hf])
  simp only [Bool.or_eq_true, decide_eq_true_eq]
  omega

/-- A frame that enters a pipeline from an internal port is the last of those injected, under a new number. -/
theorem enterFrame_spec (p : Nat) (i : Option SqCmd) :
    frame (enterFrame p n cls b i s) s.pip.nextFid = some
      { port := p, pipe := n, bytes := b ++ fcsBytes b, stamp := nowStamp s, rxCclk := s.clk.cclk, cls := cls,
        owner := 8 * p + cls, inject := i } ∧
    (pipe (enterFrame p n cls b i s) n).inject = (pipe s n).inject ++ [s.pip.nextFid] ∧
    (∀ k, k ≠ s.pip.nextFid → frame (enterFrame p n cls b i s) k = frame s k) ∧
    { enterFrame p n cls b i s with pip := s.pip } = s :=
  ⟨tabFind_insert_self .., congrArg PipeSt.inject (tabGet_put_self ..), fun _ hk => (tabFind_insert ..).trans (if_neg hk), rfl⟩

theorem nowStamp_count (off : Nat) (s : State) : nowStamp (count off s) = nowStamp s := rfl

theorem inject_spec (hn : n < 16) (hc : cls < 8) (hl : 60 ≤ b.length) (hu : b.length ≤ 9724) (hp : partnerFollows s = false) :
    ∃ t, injectFrame c n cls (.data b) s = t ∧ frame t s.pip.nextFid = some
         { port := 512, pipe := n, bytes := b ++ fcsBytes b, stamp := nowStamp s, rxCclk := s.clk.cclk, cls := cls,
           owner := 4096 + cls, inject := some c } ∧
       (pipe t n).inject = (pipe s n).inject ++ [s.pip.nextFid] ∧ (∀ k, k ≠ s.pip.nextFid → frame t k = frame s k) ∧
       ctr t (cHost 0x70) = (ctr s (cHost 0x70) + 1) % 2 ^ 64 ∧ { t with pip := s.pip, ctr := s.ctr } = s := by
  obtain ⟨hself, hinject, hother, hrest⟩ := enterFrame_spec (n := n) (cls := cls) (b := b) (s := count (cHost 0x70) s) 512 (some c)
  refine ⟨_, injectFrame_enters hn hc hl hu hp, hself, hinject, hother, ?_, ?_⟩
  · exact (ctr_congr (congrArg State.ctr hrest) _).trans ((ctr_count ..).trans (if_pos rfl))
  · exact (congrArg (fun t : State => { t with pip := s.pip, ctr := s.ctr }) hrest).trans rfl

end

/-! ### Receive buffers -/

section
variable {c : SqCmd} {x : Sq} {n : Nat} {s : State}

theorem exec_rxPost (hwf : c.wf = true) (hx : sq s c.sq = some x) : exec (.rxPost c n) s = .next (
    if x.kind ≠ 1 then complete c 0x89 0x60 0 s
    else if x.level < 1 then complete c 0x07 0 0 s
    else if n < 256 || 16384 < n then complete c 0x0B 0 0 s
    else if x.units ≤ x.posted.length then complete c 0x21 0 0 s
    else postBuffer c x n s) := by
  show execRxPost c n s = _
  rw [execRxPost, onUnits, if_pos hwf, hx]

theorem finishDeletion_running {q : Nat} (hx : sq s q = some x) (hd : x.deleting = none) : finishDeletion q s = s := by
  unfold finishDeletion
  rw [hx]
  dsimp only
  rw [hd]

/-- A buffer posted on a queue whose command no entry announced: it is the last, and reserves nothing. -/
theorem postBuffer_spec (hd : x.deleting = none) (hc : cmdOf s c.sq c.tag = none) :
    sq (postBuffer c x n s) c.sq = some { x with posted := x.posted ++ [⟨c.tag, c.addr, n, 0⟩] } ∧
      ∀ k, k ≠ c.sq → sq (postBuffer c x n s) k = sq s k := by
  have e : postBuffer c x n s = finishDeletion c.sq (setSq c.sq { x with posted := x.posted ++ [⟨c.tag, c.addr, n, 0⟩] }
      (setHst { s.hst with cmds := dropCmd c.sq c.tag s.hst.cmds } s)) := by
    unfold postBuffer
    rw [hc]
    rfl
  rw [e, finishDeletion_running (x := { x with posted := x.posted ++ [⟨c.tag, c.addr, n, 0⟩] }) (sq_setSq_self ..) hd]
  exact ⟨sq_setSq_self .., fun k hk => sq_setSq_ne _ _ hk⟩

end

/-! ### What writing to host memory leaves -/

/-- What masks and stops the function stays, and a link in L0 stays there. -/
structure FlagsKept (s t : State) : Prop where
  d3hot : t.hst.d3hot = s.hst.d3hot
  busMaster : t.hst.busMaster = s.hst.busMaster
  absent : t.hst.absent = s.hst.absent
  perst : t.hst.perst = s.hst.perst
  functionMask : t.hst.functionMask = s.hst.functionMask
  unmasked : t.hst.unmasked = s.hst.unmasked
  link : s.hst.link = 0 → t.hst.link = 0

theorem FlagsKept.refl (s : State) : FlagsKept s s := ⟨rfl, rfl, rfl, rfl, rfl, rfl, id⟩

theorem FlagsKept.trans {s t u : State} (h : FlagsKept s t) (g : FlagsKept t u) : FlagsKept s u :=
  ⟨g.d3hot.trans h.d3hot, g.busMaster.trans h.busMaster, g.absent.trans h.absent, g.perst.trans h.perst,
    g.functionMask.trans h.functionMask, g.unmasked.trans h.unmasked, fun e => g.link (h.link e)⟩

theorem FlagsKept.of_hst {s t : State} (h : t.hst = s.hst) : FlagsKept s t := by
  refine ⟨?_, ?_, ?_, ?_, ?_, ?_, fun e => ?_⟩ <;> rw [h]
  exact e

theorem FlagsKept.busAwake {s t : State} (h : FlagsKept s t) : busAwake t = busAwake s := by
  unfold Machine.busAwake
  rw [h.d3hot, h.busMaster, h.absent, h.perst]

theorem FlagsKept.vectorMasked {s t : State} (h : FlagsKept s t) (v : Nat) : vectorMasked t v = vectorMasked s v := by
  unfold Machine.vectorMasked
  rw [h.functionMask, h.unmasked]

theorem FlagsKept.when {s : State} {c : Bool} {f : State → State} (h : FlagsKept s (f s)) : FlagsKept s (when c f s) := by
  cases c
  · exact .refl s
  · exact h

theorem FlagsKept.forEach {α : Type} {l : List α} {f : State → α → State} (h : ∀ t a, FlagsKept t (f t a)) (s : State) :
    FlagsKept s (forEach l f s) := by
  induction l generalizing s with
  | nil => exact .refl s
  | cons a l ih => exact (h s a).trans (ih (f s a))

/-- A completion queue but for its TAIL. -/
def untailed (s : State) (q : Nat) : Option Cq := (cq s q).map (fun x => { x with tail := 0 })

/-- What the host has been written: the flags stay, and of the completion queues only a TAIL may change. -/
structure Written (s t : State) : Prop where
  flags : FlagsKept s t
  queues : ∀ q, untailed t q = untailed s q

theorem Written.refl (s : State) : Written s s := ⟨.refl s, fun _ => rfl⟩

theorem Written.trans {s t u : State} (h : Written s t) (g : Written t u) : Written s u :=
  ⟨h.flags.trans g.flags, fun q => (g.queues q).trans (h.queues q)⟩

theorem Written.of_hst {s t : State} (h : t.hst = s.hst) : Written s t :=
  ⟨.of_hst h, fun q => congrArg (Option.map _) (cq_congr h q)⟩

theorem Written.when {s : State} {c : Bool} {f : State → State} (h : Written s (f s)) : Written s (when c f s) := by
  cases c
  · exact .refl s
  · exact h

theorem Written.forEach {α : Type} {l : List α} {f : State → α → State} (h : ∀ t a, Written t (f t a)) (s : State) :
    Written s (forEach l f s) := by
  induction l generalizing s with
  | nil => exact .refl s
  | cons a l ih => exact (h s a).trans (ih (f s a))

theorem sendTlp_written (o : Output) (s : State) : Written s (sendTlp o s) :=
  (Written.of_hst (emit_hst o s)).trans ⟨⟨rfl, rfl, rfl, rfl, rfl, rfl, fun _ => rfl⟩, fun _ => rfl⟩

theorem hostWrite_written (a : Nat) (b : Bytes) (s : State) : Written s (hostWrite a b s) := by
  unfold hostWrite
  split
  · exact sendTlp_written _ s
  · exact ⟨⟨rfl, rfl, rfl, rfl, rfl, rfl, id⟩, fun _ => rfl⟩

theorem flushWrites_written (s : State) : Written s (flushWrites s) := by
  unfold flushWrites
  split
  · exact .refl s
  · exact Written.trans (t := { s with hst := { s.hst with heldWrites := [] } })
      ⟨⟨rfl, rfl, rfl, rfl, rfl, rfl, id⟩, fun _ => rfl⟩ (.forEach (fun t w => sendTlp_written _ t) _)

theorem pendVector_written (v : Nat) (s : State) : Written s (pendVector v s) := by
  unfold pendVector
  split <;> exact ⟨⟨rfl, rfl, rfl, rfl, rfl, rfl, id⟩, fun _ => rfl⟩

theorem setCq_flags (q : Nat) (x : Cq) (s : State) : FlagsKept s (setCq q x s) := ⟨rfl, rfl, rfl, rfl, rfl, rfl, id⟩

theorem untailed_setCq (q k : Nat) (x : Cq) (s : State) :
    untailed (setCq q x s) k = if k = q then some { x with tail := 0 } else untailed s k := by
  unfold untailed
  by_cases h : k = q
  · rw [if_pos h, h, cq_setCq_self]
    rfl
  · rw [if_neg h, cq_setCq_ne _ _ h]

theorem writeEntry_written (q : Nat) (b : Bytes) (s : State) : Written s (writeEntry q b s) := by
  unfold writeEntry
  split
  · exact .refl s
  · rename_i x hx
    dsimp only
    generalize hv : hostWrite _ b _ = v
    have h : Written s v := by
      rw [← hv]
      exact (flushWrites_written s).trans (Written.trans (.when (hostWrite_written _ _ _)) (hostWrite_written _ _ _))
    refine ⟨h.flags.trans (setCq_flags _ _ v), fun k => ?_⟩
    rw [untailed_setCq]
    split
    · rename_i e
      rw [e, untailed, hx]
      rfl
    · exact h.queues k

theorem releaseStaging_written (h : Option Nat) (s : State) : Written s (releaseStaging h s) := .of_hst (releaseStaging_hst h s)

theorem writeTail_written (q : Nat) (s : State) : Written s (writeTail q s) := by
  unfold writeTail
  split
  · exact .refl s
  · exact hostWrite_written _ _ s

/-- The entries that a queue holds are written: it holds none, and nothing else of a queue changes but its TAIL. -/
theorem writeHeld_written {q : Nat} {x : Cq} {s : State} (hx : cq s q = some x) :
    Written (setCq q { x with held := [] } s) (writeHeld q s) := by
  unfold writeHeld
  rw [hx]
  exact .forEach (fun t (e : HeldEntry) => (writeEntry_written q e.bytes t).trans (releaseStaging_written e.handle _)) _

theorem writeHeld_flags (q : Nat) (s : State) : FlagsKept s (writeHeld q s) := by
  cases hx : cq s q with
  | none =>
    unfold writeHeld
    rw [hx]
    exact .refl s
  | some x => exact (setCq_flags q { x with held := [] } s).trans (writeHeld_written hx).flags

/-! ### A step made for every queue of a list -/

/-- `f` changes the queue that it names by `g`, and its TAIL; every other queue stays. -/
def ChangesQueue (f : State → Nat → State) (g : Cq → Cq) : Prop :=
  ∀ t q k, untailed (f t q) k = if k = q then (untailed t q).map g else untailed t k

theorem untailed_forEach {f : State → Nat → State} {g : Cq → Cq} (h : ChangesQueue f g) (hg : ∀ x, g (g x) = g x) (l : List Nat)
    (s : State) (k : Nat) : untailed (forEach l f s) k = if k ∈ l then (untailed s k).map g else untailed s k := by
  induction l generalizing s with
  | nil => rfl
  | cons a l ih =>
    rw [show forEach (a :: l) f s = forEach l f (f s a) from rfl, ih]
    have hstep := h s a k
    by_cases e : k = a
    · subst e
      rw [if_pos rfl] at hstep
      rw [hstep, if_pos List.mem_cons_self, Option.map_map]
      split
      · exact congrArg (Option.map · _) (funext hg)
      · rfl
    · rw [if_neg e] at hstep
      rw [hstep]
      simp [e]

theorem changesQueue_of_written {f : State → Nat → State} {g : Cq → Cq} (hg : ∀ x : Cq, { g x with tail := 0 } = g { x with tail := 0 })
    (hnone : ∀ t q, cq t q = none → f t q = t) (h : ∀ t q x, cq t q = some x → Written (setCq q (g x) t) (f t q)) : ChangesQueue f g := by
  intro t q k
  cases hx : cq t q with
  | none =>
    rw [hnone t q hx]
    split
    · rename_i e
      rw [e, untailed, hx]
      rfl
    · rfl
  | some x =>
    rw [(h t q x hx).queues k, untailed_setCq]
    split
    · rw [untailed, hx, hg]
      rfl
    · rfl

/-- A queue that holds nothing. -/
def emptied (x : Cq) : Cq := { x with held := [] }

theorem writeHeld_changes : ChangesQueue (fun t q => writeHeld q t) emptied :=
  changesQueue_of_written (fun _ => rfl) (fun t q h => by unfold writeHeld; rw [h]) fun t q x h => writeHeld_written h

theorem Written.changes {f : State → Nat → State} (h : ∀ t q, Written t (f t q)) : ChangesQueue f id := by
  intro t q k
  rw [(h t q).queues k]
  split
  · rename_i e
    rw [e, Option.map_id_fun]
    rfl
  · rfl

/-! ### Signals -/

theorem sendSignalVector_written (v : Nat) (s : State) : Written s (sendSignalVector v s) := by
  unfold sendSignalVector
  split
  · exact pendVector_written v s
  · split
    · exact .refl s
    · exact Written.trans (t := { s with hst := { s.hst with sentAt := tabPut 0 s.hst.sentAt v (mclk s + 1) } })
        ⟨⟨rfl, rfl, rfl, rfl, rfl, rfl, id⟩, fun _ => rfl⟩ (sendTlp_written _ _)

theorem mem_pendVector (v : Nat) (s : State) : v ∈ (pendVector v s).hst.msixPending := by
  unfold pendVector
  split
  · rename_i h
    exact List.contains_iff_mem.mp h
  · exact List.mem_append_right _ List.mem_cons_self

theorem cq_of_untailed {s : State} {q : Nat} {y : Cq} (h : untailed s q = some y) :
    ∃ x, cq s q = some x ∧ ({ x with tail := 0 } : Cq) = y := Option.map_eq_some_iff.mp h

/-- A queue that has been signalled has no completion pending; a masked vector has its pending bit. -/
structure Signalled (q v : Nat) (masked : Bool) (t : State) : Prop where
  pending : ∃ y, cq t q = some y ∧ y.pending = 0
  vector : masked = true → v ∈ t.hst.msixPending

theorem pending_of_written {q : Nat} {x : Cq} {s t : State} (h : Written (setCq q x s) t) (hx : x.pending = 0) :
    ∃ y, cq t q = some y ∧ y.pending = 0 := by
  have hq : untailed t q = some { x with tail := 0 } := (h.queues q).trans ((untailed_setCq ..).trans (if_pos rfl))
  obtain ⟨y, hy, e⟩ := cq_of_untailed hq
  exact ⟨y, hy, (congrArg Cq.pending e).trans hx⟩

/-- R486, R487, R491, R492: what a signal of a queue does. -/
theorem signalCq_signalled {q : Nat} {x : Cq} {s : State} (c : Bool) (hx : cq s q = some x) :
    Signalled q x.vector (vectorMasked s x.vector) (signalCq q c s) := by
  unfold signalCq
  rw [hx]
  dsimp only
  generalize hu : when c (count (cHost 0x48)) (count (cHost 0x40) s) = u
  have hst : u.hst = s.hst := by
    rw [← hu]
    exact (when_hst _ fun _ => count_hst).trans count_hst
  have hmask : vectorMasked u x.vector = vectorMasked s x.vector := (FlagsKept.of_hst hst).vectorMasked _
  rw [hmask]
  split
  · split
    · exact ⟨pending_of_written (pendVector_written _ _) rfl, fun _ => mem_pendVector ..⟩
    · rename_i hm
      split
      · refine ⟨?_, fun h => absurd h hm⟩
        generalize hw : setCq q { x with pending := 0, due := true } u = w
        have hq : cq (sendTlp .pme (count (cHost 0x50) { w with hst := { w.hst with pmeStatus := true } })) q = cq w q :=
          ((sendTlp_queues ..).cq q).trans (cq_count ..)
        rw [hq, ← hw]
        exact ⟨_, cq_setCq_self .., rfl⟩
      · exact ⟨⟨_, cq_setCq_self .., rfl⟩, fun h => absurd h hm⟩
  · split
    · exact ⟨pending_of_written (pendVector_written _ _) rfl, fun _ => mem_pendVector ..⟩
    · generalize hw : setCq q { x with pending := 0 } u = w
      have hwq : cq w q = some { x with pending := 0 } := by
        rw [← hw]
        exact cq_setCq_self ..
      have written := (writeHeld_written hwq).trans ((writeTail_written q _).trans (sendSignalVector_written x.vector _))
      refine ⟨pending_of_written written rfl, fun hm => ?_⟩
      have hmask' : vectorMasked (writeTail q (writeHeld q w)) x.vector = true := by
        rw [((writeHeld_flags q w).trans (writeTail_written q _).flags).vectorMasked, ← hw]
        exact hmask.trans hm
      unfold sendSignalVector
      rw [if_pos hmask']
      exact mem_pendVector ..

theorem exec_interruptSignal {q : Nat} {c : Bool} {s : State} (h : isQueue q = true) : exec (.interruptSignal q c) s = .next (
    match cq s q with
     | some x => if x.state = 1 && x.pending ≠ 0 && (c || x.modTimer ≠ 0) then signalCq q c s else s
     | none => s) := if_pos h

/-! ### A vector is unmasked -/

section
variable {v : Nat} {s : State}

/-- The function with the vector unmasked. -/
def unmaskedAt (v : Nat) (s : State) : State :=
  if s.hst.unmasked.contains v then s else setHst { s.hst with unmasked := s.hst.unmasked ++ [v] } s

theorem unmaskedAt_spec (v : Nat) (s : State) : v ∈ (unmaskedAt v s).hst.unmasked ∧ (unmaskedAt v s).out = s.out ∧
    (unmaskedAt v s).hst.msixPending = s.hst.msixPending ∧ (unmaskedAt v s).hst.functionMask = s.hst.functionMask ∧
    busAwake (unmaskedAt v s) = busAwake s ∧ (unmaskedAt v s).pins = s.pins := by
  unfold unmaskedAt
  split
  · rename_i h
    exact ⟨List.contains_iff_mem.mp h, rfl, rfl, rfl, rfl, rfl⟩
  · exact ⟨List.mem_append_right _ List.mem_cons_self, rfl, rfl, rfl, rfl, rfl⟩

theorem exec_msixUnmask (h : v < 2048) : exec (.msixUnmask v) s = .next (
    if (unmaskedAt v s).hst.msixPending.contains v && !(unmaskedAt v s).hst.functionMask && busAwake (unmaskedAt v s) then
      sendTlp (.msix v) (setHst { (writeVectorHeld v (unmaskedAt v s)).hst with
        msixPending := (writeVectorHeld v (unmaskedAt v s)).hst.msixPending.filter (· != v) } (writeVectorHeld v (unmaskedAt v s)))
    else unmaskedAt v s) := if_pos (decide_eq_true h)

theorem writeVectorHeld_pins (v : Nat) (s : State) : (writeVectorHeld v s).pins = s.pins :=
  (Ended.forEach (fun t q => writeTail_ended q _ (writeHeld_ended q t (Ended.refl t))) (Ended.refl s)).pins

end

/-! ### L1 and D0 -/

theorem leaveL1_asleep {s : State} (h : busAwake s = false) : leaveL1 s = { s with hst := { s.hst with link := 0 } } := by
  unfold leaveL1
  exact if_pos (by rw [show busAwake { s with hst := { s.hst with link := 0 } } = busAwake s from rfl, h]; rfl)

theorem leaveL1_awake {s : State} (h : busAwake s = true) : leaveL1 s = forEach (holders s) (fun t q => writeTail q t)
    (forEach (holders s) (fun t q => writeHeld q t) { s with hst := { s.hst with link := 0 } }) := by
  unfold leaveL1
  exact if_neg (by rw [show busAwake { s with hst := { s.hst with link := 0 } } = busAwake s from rfl, h]; decide)

theorem mem_of_tabFind {α : Type} {l : Tab α} {k : Nat} {x : α} (h : tabFind l k = some x) : (k, x) ∈ l := by
  induction l with
  | nil => cases h
  | cons e l ih =>
    unfold tabFind at h
    split at h
    · rename_i hk
      cases h
      rw [← hk]
      exact List.mem_cons_self
    · exact List.mem_cons_of_mem _ (ih h)

/-- The queues of a list hold nothing once what they hold, and their TAILs, have been written. -/
theorem untailed_writeHeld_writeTail (l m : List Nat) (s : State) (k : Nat) :
    untailed (forEach m (fun t q => writeTail q t) (forEach l (fun t q => writeHeld q t) s)) k =
      if k ∈ l then (untailed s k).map emptied else untailed s k :=
  ((Written.forEach (fun t q => writeTail_written q t) _).queues k).trans (untailed_forEach writeHeld_changes (fun _ => rfl) l s k)

theorem leaveL1_link (s : State) : (leaveL1 s).hst.link = 0 := by
  cases h : busAwake s with
  | false =>
    rw [leaveL1_asleep h]
  | true =>
    rw [leaveL1_awake h]
    exact ((FlagsKept.forEach (fun t q => writeHeld_flags q t) _).trans
      (Written.forEach (fun t q => writeTail_written q t) _).flags).link rfl

/-- R491: a running queue holds nothing once the link has left L1. -/
theorem leaveL1_held {s : State} (h : busAwake s = true) {q : Nat} {y : Cq} (hy : cq (leaveL1 s) q = some y) (hr : y.state = 1) :
    y.held = [] := by
  have hq := untailed_writeHeld_writeTail (holders s) (holders s) { s with hst := { s.hst with link := 0 } } q
  rw [← leaveL1_awake h, untailed, hy] at hq
  split at hq
  · obtain ⟨x, -, e⟩ := Option.map_eq_some_iff.mp hq.symm
    exact (congrArg Cq.held e).symm
  · rename_i hn
    obtain ⟨x, hx, e⟩ := cq_of_untailed hq.symm
    by_contra hne
    refine hn (List.mem_map.mpr ⟨(q, x), List.mem_filter.mpr ⟨mem_of_tabFind hx, ?_⟩, rfl⟩)
    have hheld := congrArg Cq.held e
    have hstate := congrArg Cq.state e
    dsimp only at hheld hstate
    rw [hheld, hstate, hr, decide_eq_true hne]
    rfl

/-- A queue whose signal has been sent. -/
def announced (x : Cq) : Cq := { x with due := false }

theorem sendDue_changes : ChangesQueue (fun t q => sendDue q t) announced := by
  refine changesQueue_of_written (fun _ => rfl) (fun t q h => by unfold sendDue; rw [h]) fun t q x h => ?_
  unfold sendDue
  rw [h]
  dsimp only
  split
  · exact sendSignalVector_written x.vector _
  · rename_i hd
    have e : announced x = x := by
      unfold announced
      rw [← Bool.eq_false_iff.mpr hd]
    refine ⟨⟨rfl, rfl, rfl, rfl, rfl, rfl, id⟩, fun k => ?_⟩
    rw [e, untailed_setCq]
    split
    · rename_i ek
      rw [ek, untailed, h]
      rfl
    · rfl

theorem sendDue_flags (q : Nat) (s : State) : FlagsKept s (sendDue q s) := by
  unfold sendDue
  split
  · split
    · exact (setCq_flags q _ s).trans (sendSignalVector_written _ _).flags
    · exact .refl s
  · exact .refl s

/-- The function in D0, the bus master. -/
def returned (s : State) : State := setHst { s.hst with d3hot := false, busMaster := true } s

/-- The running queues. -/
def runningCqs (s : State) : List Nat := (s.hst.cqs.filter (fun e => e.2.state = 1)).map (·.1)

/-- What the host has been written when D0 has returned, but for the vectors that waited beside the signals. -/
def caughtUp (s : State) : State :=
  forEach (runningCqs s) (fun t q => sendDue q t)
    (forEach (runningCqs s) (fun t q => writeTail q t) (forEach (runningCqs s) (fun t q => writeHeld q t) (returned s)))

/-- The vectors that are pending and not masked are sent. -/
def sendPending (s : State) : State :=
  forEach (s.hst.msixPending.filter (fun v => !vectorMasked s v)) (fun t v =>
    sendTlp (.msix v) (setHst { t.hst with msixPending := t.hst.msixPending.filter (· != v) } t)) s

theorem sendPending_written (s : State) : Written s (sendPending s) :=
  .forEach (fun t v => Written.trans (t := setHst { t.hst with msixPending := t.hst.msixPending.filter (· != v) } t)
    ⟨⟨rfl, rfl, rfl, rfl, rfl, rfl, id⟩, fun _ => rfl⟩ (sendTlp_written _ _)) s

theorem exec_d0Return (s : State) :
    exec .d0Return s = .next (if !busAwake (returned s) then returned s else sendPending (caughtUp s)) := rfl

theorem caughtUp_flags (s : State) : FlagsKept (returned s) (caughtUp s) :=
  (FlagsKept.forEach (fun t q => writeHeld_flags q t) _).trans
    ((Written.forEach (fun t q => writeTail_written q t) _).flags.trans (.forEach (fun t q => sendDue_flags q t) _))

/-- R493: every running queue has written what it held, and its signal. -/
theorem untailed_caughtUp (s : State) (k : Nat) : untailed (caughtUp s) k =
    if k ∈ runningCqs s then ((untailed s k).map emptied).map announced else untailed s k := by
  unfold caughtUp
  rw [untailed_forEach sendDue_changes (fun _ => rfl), untailed_writeHeld_writeTail]
  split <;> rfl

theorem caughtUp_held {s t : State} (h : Written (caughtUp s) t) {q : Nat} {y : Cq} (hy : cq t q = some y) (hr : y.state = 1) :
    y.held = [] ∧ y.due = false := by
  have hq := (h.queues q).trans (untailed_caughtUp s q)
  rw [untailed, hy] at hq
  split at hq
  · rw [Option.map_map] at hq
    obtain ⟨x, -, e⟩ := Option.map_eq_some_iff.mp hq.symm
    exact ⟨(congrArg Cq.held e).symm, (congrArg Cq.due e).symm⟩
  · rename_i hn
    obtain ⟨x, hx, e⟩ := cq_of_untailed hq.symm
    have hstate := congrArg Cq.state e
    dsimp only at hstate
    exact absurd (List.mem_map.mpr ⟨(q, x), List.mem_filter.mpr ⟨mem_of_tabFind hx, by rw [hstate, hr]; rfl⟩, rfl⟩) hn

/-- D3hot, or Bus Master Enable 0: the function does not reach host memory. -/
theorem exec_d3hotEntry (d3 b : Bool) (s : State) : ∃ t, exec (.d3hotEntry d3 b) s = .next t ∧ busAwake t = false ∧
    t.hst.cqs = s.hst.cqs ∧ t.hst.pmeEn = b := by
  cases d3 with
  | false => exact ⟨_, rfl, by unfold busAwake; simp [setHst], rfl, rfl⟩
  | true =>
    generalize hu : setHst { s.hst with d3hot := true, pmeEn := b } s = u
    generalize hw : count (cHost 0x50) (setHst { u.hst with pmeStatus := true } u) = w
    have e : exec (.d3hotEntry true b) s = .next (if b && signalWaits u then sendTlp .pme w else u) := by
      rw [← hw, ← hu]
      rfl
    have asleep : busAwake u = false := by
      rw [← hu]
      rfl
    have whst : w.hst = { u.hst with pmeStatus := true } := by
      rw [← hw]
      exact count_hst
    have wasleep : busAwake w = false := by
      unfold busAwake at asleep ⊢
      rw [whst]
      exact asleep
    have kept : u.hst.cqs = s.hst.cqs ∧ u.hst.pmeEn = b := by
      rw [← hu]
      exact ⟨rfl, rfl⟩
    rw [e]
    split
    · refine ⟨_, rfl, (sendTlp_written .pme w).flags.busAwake.trans wasleep, ?_, ?_⟩
      · rw [(sendTlp_queues .pme w).cqs, whst]
        exact kept.1
      · show (emit .pme w).hst.pmeEn = b
        rw [emit_hst, whst]
        exact kept.2
    · exact ⟨u, rfl, asleep, kept⟩

theorem exec_l1Entry {k : Nat} (h1 : 1 ≤ k) (h3 : k ≤ 3) (s : State) :
    exec (.l1Entry k) s = .next (if linkQuiet s then setHst { s.hst with link := k } s else s) := by
  have hwf : (Instr.l1Entry k).wf = true := by
    unfold Instr.wf
    simp [h1, h3]
  exact if_pos hwf

/-- Settles O48: injection and receive buffers by the commands, signals by what they leave of a queue, and sleep. -/
theorem injectionAndSignals : Obligations.InjectionAndSignals := by
  unfold Obligations.InjectionAndSignals
  refine ⟨⟨fun c n cls d s h => ⟨?_, ?_, fun b hb hr => ?_, fun b hb hn hc hl hu hp => ?_⟩, fun c x n s hwf hx => ?_⟩,
    fun q c s hq => ⟨fun x hx hs hp hc => ?_, fun hx => ?_, fun x hx hs => ?_⟩, fun v s hv => ⟨fun hp => ?_, fun hp hm hb => ?_⟩,
    fun s => ⟨fun k h1 h3 => ⟨fun hl ha hp ht => ?_, fun hl => ?_⟩, fun i hi => ?_, (exec_d3hotEntry false · s),
      (exec_d3hotEntry true · s), ?_⟩⟩
  · rintro rfl
    exact exec_inject _ h
  · rintro rfl
    exact exec_inject _ h
  · rw [hb, exec_inject _ h, injectFrame_range hr]
  · obtain ⟨t, e, ht⟩ := inject_spec (c := c) hn hc hl hu hp
    exact ⟨t, by rw [hb, exec_inject _ h, e], ht⟩
  · rw [exec_rxPost hwf hx]
    refine ⟨fun hk => congrArg _ (if_pos hk), fun hk hl => ?_, fun hk hl hn => ?_, fun hk hl hn hu hp hd hc => ?_⟩
    · rw [if_neg (not_not.mpr hk), if_pos hl]
    · rw [if_neg (not_not.mpr hk), if_neg (Nat.not_lt.mpr hl), if_pos (by simpa using hn)]
    · rw [if_neg (not_not.mpr hk), if_neg (Nat.not_lt.mpr hl), if_neg (by simp; omega), if_neg (Nat.not_le.mpr hp)]
      exact ⟨_, rfl, postBuffer_spec hd hc⟩
  · obtain ⟨hpending, hvector⟩ := signalCq_signalled c hx
    refine ⟨?_, hpending, hvector⟩
    rw [exec_interruptSignal hq, hx]
    refine congrArg Host.Outcome.next (if_pos ?_)
    simpa using ⟨⟨hs, hp⟩, hc⟩
  · rw [exec_interruptSignal hq, hx]
  · rw [exec_interruptSignal hq, hx]
    refine congrArg Host.Outcome.next (if_neg ?_)
    simp only [Bool.and_eq_true, decide_eq_true_eq]
    rintro ⟨⟨hs', hp'⟩, -⟩
    exact hs.elim (· hs') hp'
  · obtain ⟨hunmasked, hout, hpending, -⟩ := unmaskedAt_spec v s
    refine ⟨unmaskedAt v s, ?_, hunmasked, hout, hpending⟩
    rw [exec_msixUnmask hv, hpending, hp]
    rfl
  · obtain ⟨-, hout, hpending, hmask, hbus, hpins⟩ := unmaskedAt_spec v s
    refine ⟨_, (exec_msixUnmask hv).trans (congrArg _ (if_pos (by rw [hpending, hp, hmask, hm, hbus, hb]; rfl))), ?_, fun htap => ?_⟩
    · show v ∉ (emit _ _).hst.msixPending
      rw [emit_hst]
      simp [setHst]
    · generalize hw : writeVectorHeld v (unmaskedAt v s) = w
      have hwtap : tapTakes (setHst { w.hst with msixPending := w.hst.msixPending.filter (· != v) } w) = false := by
        have e : w.pins = s.pins := by
          rw [← hw, writeVectorHeld_pins, hpins]
        unfold tapTakes at htap ⊢
        rw [show (setHst { w.hst with msixPending := w.hst.msixPending.filter (· != v) } w).pins = w.pins from rfl, e]
        exact htap
      have hpre : s.out <+: w.out := by
        rw [← hw, ← hout]
        exact (writeVectorHeld_kept v _ (Kept.refl (unmaskedAt v s))).out
      have hsent : (sendTlp (.msix v) (setHst { w.hst with msixPending := w.hst.msixPending.filter (· != v) } w)).out =
          w.out ++ [.msix v] := by
        show (emit _ _).out = _
        rw [emit_open _ hwtap]
        rfl
      rw [hsent, List.drop_append_of_le_length hpre.length_le]
      exact List.mem_append_right _ List.mem_cons_self
  · rw [exec_l1Entry h1 h3]
    refine congrArg Host.Outcome.next (if_pos ?_)
    unfold linkQuiet
    rw [ha, hp, decide_eq_true hl, decide_eq_true ht]
    rfl
  · rw [exec_l1Entry h1 h3]
    refine congrArg Host.Outcome.next (if_neg ?_)
    unfold linkQuiet
    simp only [Bool.and_eq_true, decide_eq_true_eq]
    rintro ⟨⟨⟨hl', -⟩, -⟩, ht'⟩
    exact hl.elim (· hl') (Nat.not_lt.mpr ht')
  · have e : exec i s = .next (leaveL1 s) := by
      rcases List.mem_cons.mp hi with rfl | hi
      · rfl
      · rcases List.mem_cons.mp hi with rfl | hi
        · rfl
        · exact absurd hi List.not_mem_nil
    exact ⟨_, e, leaveL1_link s, fun hb q x hx hs => leaveL1_held hb hx hs⟩
  · rw [exec_d0Return]
    split
    · rename_i hb
      refine ⟨_, rfl, rfl, rfl, fun ha hp => ?_⟩
      have hb' : busAwake (returned s) = true := by
        unfold busAwake returned
        simp [setHst, ha, hp]
      rw [hb'] at hb
      cases hb
    · have written := sendPending_written (caughtUp s)
      have flags := (caughtUp_flags s).trans written.flags
      exact ⟨_, rfl, flags.d3hot, flags.busMaster, fun _ _ q x hx hs => caughtUp_held written hx hs⟩

end Sys2Proof.Machine
end

section
/-! O52 (R535, R539 to R541, R549, R559): the pair link. What it sends, and the acknowledgement of what it sent, change of the Pair
Unit the numbers and the buffers of messages alone. -/

namespace Sys2Proof.Machine
open Sys2Proof

/-! ### Messages sent and acknowledged -/

/-- What sending messages to the partner changes: what left the device, the number of the next message, and the messages kept. -/
def Sent (s t : State) : Prop := ∃ out seq kept waits,
  t = { s with out := out, pair := { s.pair with txSeq := seq, replay := kept, waiting := waits } }

theorem Sent.refl (s : State) : Sent s s := ⟨s.out, s.pair.txSeq, s.pair.replay, s.pair.waiting, rfl⟩

theorem Sent.trans {s t u : State} (h : Sent s t) (g : Sent t u) : Sent s u := by
  obtain ⟨o, n, k, w, rfl⟩ := h
  obtain ⟨o', n', k', w', rfl⟩ := g
  exact ⟨o', n', k', w', rfl⟩

theorem Sent.role {s t : State} (h : Sent s t) : role t = role s := by
  obtain ⟨o, n, k, w, rfl⟩ := h
  rfl

theorem emit_out (o : Output) (s : State) : ∃ out, emit o s = { s with out := out } := by
  unfold emit
  split
  · exact ⟨s.out, rfl⟩
  · exact ⟨_, rfl⟩

theorem transmitPair_sent (kind : Nat) (body : Bytes) (s : State) : Sent s (transmitPair kind body s) := by
  obtain ⟨out, he⟩ := emit_out (.pair (pairFront s kind 0 s.pair.txSeq body.length) body) s
  unfold transmitPair
  dsimp only
  rw [he]
  exact ⟨_, _, _, _, rfl⟩

theorem sendWaiting_sent (fuel : Nat) (s : State) : Sent s (sendWaiting fuel s) := by
  induction fuel generalizing s with
  | zero => exact Sent.refl s
  | succ fuel ih =>
    unfold sendWaiting
    split
    · exact Sent.refl s
    · split
      · refine Sent.trans ?_ (ih _)
        exact Sent.trans ⟨s.out, s.pair.txSeq, s.pair.replay, _, rfl⟩ (transmitPair_sent _ _ _)
      · exact Sent.refl s

/-- A message that has arrived: the partner answers, the next number is awaited, and of the rest only what is sent changes. -/
theorem heard_sent (s : State) :
    Sent { s with pair := { s.pair with partnerUp := true, rxSeq := (s.pair.rxSeq + 1) % 2 ^ 32 } } (heard s) :=
  Sent.trans ⟨s.out, s.pair.txSeq, [], s.pair.waiting, rfl⟩ (sendWaiting_sent _ _)

/-- What a message that has arrived leaves as it was: the registers, the counters, the clock, the pipelines, and of the Pair Unit the
partner's role, the join, what is due, and the digests. -/
structure HeardKept (s t : State) : Prop where
  dict : t.dict = s.dict
  ctr : t.ctr = s.ctr
  clk : t.clk = s.clk
  pip : t.pip = s.pip
  tun : t.tun = s.tun
  up : t.pair.partnerUp = true
  due : t.pair.due = s.pair.due
  join : t.pair.join = s.pair.join
  mirrored : t.pair.mirrored = s.pair.mirrored
  closed : t.pair.closed = s.pair.closed
  compareFrom : t.pair.compareFrom = s.pair.compareFrom
  mismatches : t.pair.mismatches = s.pair.mismatches
  checking : t.pair.checking = s.pair.checking

theorem heard_kept_fields (s : State) : HeardKept s (heard s) := by
  obtain ⟨o, n, k, w, he⟩ := heard_sent s
  rw [he]
  exact ⟨rfl, rfl, rfl, rfl, rfl, rfl, rfl, rfl, rfl, rfl, rfl, rfl, rfl⟩

theorem role_heard (s : State) : role (heard s) = role s := rd_congr (heard_kept_fields s).dict oPairRole 0

/-! ### The partner's health, and its loss -/

theorem exec_health {report : Bytes} {claim : Nat} {s : State} (hc : isByte claim = true) :
    exec (.health report claim) s = .next (if role s = 0 then s else healthReceived report claim s) := if_pos hc

theorem healthReceived_spec (report : Bytes) (claim : Nat) (s : State) :
    (healthReceived report claim s).pair.partnerRole = leAt report 0 1 ∧ (healthReceived report claim s).pair.partnerClaim = claim ∧
    (healthReceived report claim s).pair.partnerUp = true ∧
    rd (healthReceived report claim s) oPartnerHealth = leNat (report.take 32) ∧ role (healthReceived report claim s) = role s := by
  unfold healthReceived
  refine ⟨rfl, rfl, (heard_kept_fields s).up, rd_wr_self .., ?_⟩
  exact (rd_wr_other (by decide)).trans (role_heard s)

/-- The unit as its partner is lost: counted and raised, and nothing is kept for the partner. -/
def partnerGone (s : State) : State :=
  let t := raise evPairLost 0 (count (cPair 0x40) s)
  setPair { t.pair with partnerUp := false, partnerRole := 0, replay := [], waiting := [] } t

theorem pairLost_eq (s : State) : pairLost s =
    if role (partnerGone s) = 4 then setPair { (partnerGone s).pair with forwardOff := true } (partnerGone s)
    else if role (partnerGone s) = 2 then refuseJoin 6 (partnerGone s)
    else if role (partnerGone s) = 3 then setRole 1 (partnerGone s)
    else partnerGone s := rfl

theorem role_raise {src : Nat} (detail : Nat) (s : State) (hs : src < 512) : role (raise src detail s) = role s :=
  rd_raise_of_area detail s hs (by decide) (by decide)

theorem role_count (off : Nat) (s : State) : role (count off s) = role s := rd_congr count_dict oPairRole 0

theorem role_partnerGone (s : State) : role (partnerGone s) = role s :=
  (role_raise 0 _ (by decide)).trans (role_count _ s)

theorem partnerGone_pending (s : State) :
    (rd (partnerGone s) oEventPending (evPairLost / 32)).testBit (evPairLost % 32) = true := raise_pending ..

theorem raise_pair (src detail : Nat) (s : State) : (raise src detail s).pair = s.pair :=
  (raise_noted src detail s (Noted.refl s)).pair

theorem partnerGone_pair (s : State) : (partnerGone s).pair =
    { s.pair with partnerUp := false, partnerRole := 0, replay := [], waiting := [] } := by
  have h : (raise evPairLost 0 (count (cPair 0x40) s)).pair = s.pair := raise_pair evPairLost 0 _
  unfold partnerGone
  dsimp only
  rw [h]
  rfl

/-- A refused join: role 1, and its code in JOIN_RESULT. -/
theorem refuseJoin_spec (code : Nat) (s : State) :
    role (refuseJoin code s) = 1 ∧ rd (refuseJoin code s) oJoinResult = code := by
  refine ⟨role_setRole 1 _, (rd_setRole_ne _ (by decide)).trans ?_⟩
  exact (rd_raise_of_area code _ (by decide) (by decide) (by decide)).trans (rd_wr_self ..)

theorem exec_pairLost (s : State) : exec .pairLost s = .next (if role s = 0 then s else pairLost s) := rfl

theorem pairLost_of_active {s : State} (h : role s = 4) :
    pairLost s = setPair { (partnerGone s).pair with forwardOff := true } (partnerGone s) := by
  rw [pairLost_eq, role_partnerGone, if_pos h]

theorem pairLost_of_joining {s : State} (h : role s = 2) : pairLost s = refuseJoin 6 (partnerGone s) := by
  rw [pairLost_eq, role_partnerGone, if_neg (by omega), if_pos h]

theorem pairLost_of_standby {s : State} (h : role s = 3) : pairLost s = setRole 1 (partnerGone s) := by
  rw [pairLost_eq, role_partnerGone, if_neg (by omega), if_neg (by omega), if_pos h]

/-! ### Frames of the partner -/

theorem exec_pairFrame {n cls : Nat} {b : Bytes} {s : State} (hn : isPipe n = true) : exec (.pairFrame n cls b) s =
    .next (if role s = 0 then s else enterFrame 514 n (cls % 8) b none (heard s)) := if_pos hn

/-- A frame of the partner is the last of its pipeline's injected frames, as from port 514. -/
theorem pairFrame_enters (n cls : Nat) (b : Bytes) (s : State) :
    frame (enterFrame 514 n (cls % 8) b none (heard s)) s.pip.nextFid = some
        { port := 514, pipe := n, bytes := b ++ fcsBytes b, stamp := nowStamp s, rxCclk := s.clk.cclk, cls := cls % 8,
          owner := 8 * 514 + cls % 8 } ∧
      (pipe (enterFrame 514 n (cls % 8) b none (heard s)) n).inject = (pipe s n).inject ++ [s.pip.nextFid] ∧
      (∀ k, k ≠ s.pip.nextFid → frame (enterFrame 514 n (cls % 8) b none (heard s)) k = frame s k) := by
  obtain ⟨o, q, k, w, he⟩ := heard_sent s
  rw [he]
  obtain ⟨hself, hinject, hother, -⟩ := enterFrame_spec (n := n) (cls := cls % 8) (b := b)
    (s := { s with out := o, pair := { s.pair with partnerUp := true, rxSeq := (s.pair.rxSeq + 1) % 2 ^ 32,
                                                   txSeq := q, replay := k, waiting := w } }) 514 none
  exact ⟨hself, hinject, hother⟩

/-! ### Ledger changes to the partner -/

theorem exec_pairMirror (s : State) : exec .pairMirror s = .next (
    match nextOp s 19 14 (fun _ => true) with
    | none => s
    | some o =>
      match mirrorOf s o.args with
      | none => dispatched o s
      | some m =>
        if !partnerFollows s then dispatched o s
        else if pairRoom s 6 (mirrorBytes m).length then sendPair 6 (mirrorBytes m) (count (cPair 0x28) (dispatched o s))
        else s) := rfl

section
variable {o : DwOp} {s : State} (ho : nextOp s 19 14 (fun _ => true) = some o)
include ho

theorem pairMirror_dropped (hf : partnerFollows s = false) : exec .pairMirror s = .next (dispatched o s) := by
  rw [exec_pairMirror, ho, hf]
  dsimp only
  split
  · rfl
  · rfl

variable {m : MirrorMsg} (hm : mirrorOf s o.args = some m) (hf : partnerFollows s = true)
include hm hf

theorem pairMirror_sent (hroom : pairRoom s 6 (mirrorBytes m).length = true) :
    exec .pairMirror s = .next (sendPair 6 (mirrorBytes m) (count (cPair 0x28) (dispatched o s))) := by
  rw [exec_pairMirror, ho]
  dsimp only
  rw [hm, hf]
  dsimp only
  rw [hroom]
  rfl

theorem pairMirror_waits (hroom : pairRoom s 6 (mirrorBytes m).length = false) : exec .pairMirror s = .next s := by
  rw [exec_pairMirror, ho]
  dsimp only
  rw [hm, hf]
  dsimp only
  rw [hroom]
  rfl

end

theorem exec_retransmitTimeout (seq : Nat) (s : State) : exec (.retransmitTimeout seq) s = .next (
    match s.pair.replay.find? (fun e => e.1 = seq) with
    | some e => count (cPair 0x38) (emit (.pair (pairFront s e.2.1 1 seq e.2.2.length) e.2.2) s)
    | none => s) := rfl

theorem exec_healthTimer (s : State) : exec .healthTimer s = .next (if role s = 0 then s
    else sendPair 1 (leBytes 32 (healthReport s) ++ leBytes 1 s.pair.claimOut ++ beBytes 8 s.clk.cclk) s) := rfl

/-- Settles O52: a message that has arrived changes nothing but what is kept for the partner (`heard_kept_fields`), and a partner lost
takes the unit's role along (`pairLost_eq`). -/
theorem pairLink : Obligations.PairLink := by
  refine ⟨fun report claim s hc hr => by rw [exec_health hc, if_pos hr], fun report claim s hc hr =>
      ⟨_, by rw [exec_health hc, if_neg hr], healthReceived_spec report claim s⟩,
    fun s => ⟨fun hr => by rw [exec_healthTimer, if_pos hr], fun hr => by rw [exec_healthTimer, if_neg hr]⟩,
    fun seq s => ⟨fun hf => by rw [exec_retransmitTimeout, hf], fun e hf => by rw [exec_retransmitTimeout, hf]⟩,
    fun s => ⟨fun hr => by rw [exec_pairLost, if_pos hr], fun hr => ?_, fun hr => ?_, fun hr => ?_⟩,
    fun n cls b s hn => ⟨fun hr => by rw [exec_pairFrame hn, if_pos hr], fun hr =>
      ⟨_, by rw [exec_pairFrame hn, if_neg hr], pairFrame_enters n cls b s⟩⟩,
    fun s => ⟨fun ho => by rw [exec_pairMirror, ho], fun o ho hf => pairMirror_dropped ho hf,
      fun o m ho hm hf => ⟨pairMirror_sent ho hm hf, pairMirror_waits ho hm hf⟩⟩⟩
  · refine ⟨pairLost s, by rw [exec_pairLost, if_neg (by omega)], ?_⟩
    rw [pairLost_of_active hr]
    exact ⟨(role_partnerGone s).trans hr, rfl, rfl, partnerGone_pending s⟩
  · refine ⟨pairLost s, by rw [exec_pairLost, if_neg (by omega)], ?_⟩
    rw [pairLost_of_standby hr, setRole_pair]
    exact ⟨role_setRole 1 _, rfl⟩
  · refine ⟨pairLost s, by rw [exec_pairLost, if_neg (by omega)], ?_⟩
    rw [pairLost_of_joining hr]
    exact refuseJoin_spec 6 _

end Sys2Proof.Machine
end

section
/-! O53 (R552, R554 to R556): digests. A window is sent as it closes, compared once both digests of it are there, and a self-check
ends in role 5 or in a report. -/

namespace Sys2Proof.Machine
open Sys2Proof

/-! ### A window that closes -/

theorem exec_digestWindowClose (w : Nat) (s : State) : exec (.digestWindowClose w) s = .next (
    if role s = 3 || role s = 4 then closeWindow w s
    else setPair { s.pair with windows := tabErase s.pair.windows w } s) := rfl

/-- What sending to the partner keeps in an active: the role, and from when windows are compared. -/
theorem sendPair_of_active {kind : Nat} {body : Bytes} {s : State} (hr : role s = 4) :
    role (sendPair kind body s) = 4 ∧ (sendPair kind body s).pair.compareFrom = s.pair.compareFrom ∧
      (sendPair kind body s).pair.checking = s.pair.checking := by
  obtain ⟨o, n, k, w, he⟩ := transmitPair_sent kind body s
  unfold sendPair
  split
  · exact ⟨hr, rfl, rfl⟩
  · dsimp only
    rw [he]
    split
    · have hr' : role { s with out := o, pair := { s.pair with txSeq := n, replay := k, waiting := w } } = 4 := hr
      rw [pairLost_of_active hr']
      rw [partnerGone_pair]
      exact ⟨(role_partnerGone _).trans hr', rfl, rfl⟩
    · exact ⟨hr, rfl, rfl⟩

/-- A standby that sends a message is no active: losing its partner, it is unsynced. -/
theorem sendPair_of_standby {kind : Nat} {body : Bytes} {s : State} (hr : role s = 3) : role (sendPair kind body s) ≠ 4 := by
  obtain ⟨o, n, k, w, he⟩ := transmitPair_sent kind body s
  unfold sendPair
  split
  · exact hr.trans_ne (by decide)
  · dsimp only
    rw [he]
    have hr' : role { s with out := o, pair := { s.pair with txSeq := n, replay := k, waiting := w } } = 3 := hr
    split
    · rw [pairLost_of_standby hr', role_setRole]
      decide
    · exact hr'.trans_ne (by decide)

/-- The unit without the window that closes. -/
def windowGone (w : Nat) (s : State) : State := setPair { s.pair with windows := tabErase s.pair.windows w } s

/-- The unit once it has sent the digest of the window that closes. -/
def windowSent (w : Nat) (s : State) : State :=
  sendPair 2 (windowBytes w (tabGet emptyWindow s.pair.windows w)) (windowGone w s)

/-- The active keeps a digest that it has sent for comparison. -/
def keepClosed (w : Nat) (d : DigestWin) (s : State) : State :=
  setPair { s.pair with closed := tabInsert s.pair.closed w d } s

section
variable {w : Nat} {s : State}

theorem closeWindow_eq (hup : s.pair.partnerUp = true) (hp : s.pair.partnerRole = 7 - role s) : closeWindow w s =
    if role (windowSent w s) = 4 && (windowSent w s).pair.compareFrom ≤ w then
      compareWindow w (keepClosed w (tabGet emptyWindow s.pair.windows w) (windowSent w s))
    else windowSent w s := by
  refine if_neg ?_
  have hrole : role (windowGone w s) = role s := rfl
  change ¬ (!s.pair.partnerUp || decide (s.pair.partnerRole ≠ 7 - role (windowGone w s))) = true
  rw [hup, hrole, hp]
  simp

theorem digestWindowClose_idle (h3 : role s ≠ 3) (h4 : role s ≠ 4) : exec (.digestWindowClose w) s =
    .next (setPair { s.pair with windows := tabErase s.pair.windows w } s) := by
  rw [exec_digestWindowClose, if_neg (by simp [h3, h4])]

theorem digestWindowClose_sends (hr : role s = 3 ∨ role s = 4) (hup : s.pair.partnerUp = true)
    (hp : s.pair.partnerRole = 7 - role s) (h : role s = 3 ∨ w < s.pair.compareFrom) :
    exec (.digestWindowClose w) s = .next (windowSent w s) := by
  rw [exec_digestWindowClose, if_pos (by simpa using hr), closeWindow_eq hup hp, if_neg]
  simp only [Bool.and_eq_true, decide_eq_true_eq, not_and]
  intro h4
  rcases hr with hr | hr
  · exact absurd h4 (sendPair_of_standby hr)
  · have hfrom : (windowSent w s).pair.compareFrom = s.pair.compareFrom := (sendPair_of_active (s := windowGone w s) hr).2.1
    omega

theorem digestWindowClose_compares (hr : role s = 4) (hup : s.pair.partnerUp = true) (hp : s.pair.partnerRole = 3)
    (h : s.pair.compareFrom ≤ w) : exec (.digestWindowClose w) s =
      .next (compareWindow w (keepClosed w (tabGet emptyWindow s.pair.windows w) (windowSent w s))) := by
  obtain ⟨hrole, hfrom, -⟩ := sendPair_of_active (s := windowGone w s) (kind := 2)
    (body := windowBytes w (tabGet emptyWindow s.pair.windows w)) hr
  change role (windowSent w s) = 4 at hrole
  change (windowSent w s).pair.compareFrom = s.pair.compareFrom at hfrom
  rw [exec_digestWindowClose, if_pos (by simp [hr]), closeWindow_eq hup (by omega), if_pos]
  simp only [Bool.and_eq_true, decide_eq_true_eq]
  omega

end

/-! ### A digest of the partner -/

theorem exec_digest (w : Nat) (subs counts : List Nat) (s : State) : exec (.digest w subs counts) s = .next (
    if role s = 0 then s
    else if role (heard s) = 4 && (heard s).pair.compareFrom ≤ w then
      compareWindow w (setPair { (heard s).pair with received := tabInsert (heard s).pair.received w ⟨subs, counts⟩ } (heard s))
    else heard s) := rfl

/-- A window of which both digests are there leaves both tables and is counted. -/
def compared (w : Nat) (s : State) : State :=
  count (cPair 0x00) (setPair { s.pair with closed := tabErase s.pair.closed w, received := tabErase s.pair.received w } s)

theorem compareWindow_of_both {w : Nat} {s : State} {a b : DigestWin} (ha : tabFind s.pair.closed w = some a)
    (hb : tabFind s.pair.received w = some b) : compareWindow w s =
      if a = b then setPair { (compared w s).pair with mismatches := 0 } (compared w s) else noteMismatch (compared w s) := by
  unfold compareWindow
  rw [ha, hb]
  rfl

/-- A mismatch is counted, alone and with those before it in a row. -/
def mismatched (s : State) : State := setPair { s.pair with mismatches := s.pair.mismatches + 1 } (count (cPair 0x08) s)

theorem noteMismatch_eq (s : State) : noteMismatch s =
    if 3 ≤ s.pair.mismatches + 1 && !s.pair.checking then
      sendControl (.selfCheck (setsHash (mismatched s))) (startCheck (mismatched s))
    else mismatched s := rfl

theorem role_mismatched (s : State) : role (mismatched s) = role s := role_count (cPair 0x08) s

theorem role_startCheck (s : State) : role (startCheck s) = role s := role_count _ _

theorem startCheck_checking (s : State) : (startCheck s).pair.checking = true := rfl

section
variable {w : Nat} {subs counts : List Nat} {s : State} {a : DigestWin} (hr : role s = 4) (hfrom : s.pair.compareFrom ≤ w)
  (ha : tabFind s.pair.closed w = some a)
include hr hfrom ha

/-- The active compares the digest that arrives with the one that it has of the window. -/
theorem digest_compared : ∃ u, exec (.digest w subs counts) s = .next
      (if a = ⟨subs, counts⟩ then setPair { u.pair with mismatches := 0 } u else noteMismatch u) ∧
    role u = 4 ∧ u.pair.mismatches = s.pair.mismatches ∧ u.pair.checking = s.pair.checking ∧
    u.pair.closed = tabErase s.pair.closed w ∧ ∀ k, ctr u k = ctr (count (cPair 0x00) s) k := by
  have hk := heard_kept_fields s
  generalize hu : setPair { (heard s).pair with received := tabInsert (heard s).pair.received w ⟨subs, counts⟩ } (heard s) = t
  have hclosed : t.pair.closed = s.pair.closed := by rw [← hu]; exact hk.closed
  have hmis : t.pair.mismatches = s.pair.mismatches := by rw [← hu]; exact hk.mismatches
  have hcheck : t.pair.checking = s.pair.checking := by rw [← hu]; exact hk.checking
  have hrec : tabFind t.pair.received w = some ⟨subs, counts⟩ := by rw [← hu]; exact tabFind_insert_self ..
  have hdict : t.dict = s.dict := by rw [← hu]; exact hk.dict
  have hctr : t.ctr = s.ctr := by rw [← hu]; exact hk.ctr
  have hcond : (role (heard s) = 4 && (heard s).pair.compareFrom ≤ w) = true := by
    rw [role_heard, hk.compareFrom]
    simpa using ⟨hr, hfrom⟩
  refine ⟨compared w t, ?_, ?_, hmis, hcheck, congrArg (tabErase · w) hclosed, fun k => ?_⟩
  · rw [exec_digest, if_neg (by omega), if_pos hcond, hu, compareWindow_of_both (hclosed ▸ ha) hrec]
  · exact (role_count _ _).trans ((rd_congr (s := s) (t := t) hdict oPairRole 0).trans hr)
  · have he : ∀ j, ctr t j = ctr s j := ctr_congr hctr
    rw [compared, ctr_count, ctr_count]
    exact congrArg₂ (fun x y => if k = cPair 0x00 then (x + 1) % 2 ^ 64 else y) (he _) (he k)

theorem digest_matches (heq : a = ⟨subs, counts⟩) : ∃ t, exec (.digest w subs counts) s = .next t ∧ t.pair.mismatches = 0 ∧
    ctr t (cPair 0x00) = (ctr s (cPair 0x00) + 1) % 2 ^ 64 ∧ tabFind t.pair.closed w = none ∧ role t = 4 := by
  obtain ⟨u, he, hrole, -, -, hclosed, hctr⟩ := digest_compared (subs := subs) (counts := counts) hr hfrom ha
  rw [if_pos heq] at he
  refine ⟨_, he, rfl, ?_, ?_, hrole⟩
  · exact (hctr (cPair 0x00)).trans ((ctr_count ..).trans (if_pos rfl))
  · exact (congrArg (tabFind · w) hclosed).trans (tabFind_erase_self ..)

theorem digest_differs (hne : a ≠ ⟨subs, counts⟩) (hfew : s.pair.mismatches + 1 < 3) : ∃ t,
    exec (.digest w subs counts) s = .next t ∧ t.pair.mismatches = s.pair.mismatches + 1 ∧
      ctr t (cPair 0x08) = (ctr s (cPair 0x08) + 1) % 2 ^ 64 ∧ t.pair.checking = s.pair.checking := by
  obtain ⟨u, he, -, hmis, hcheck, -, hctr⟩ := digest_compared (subs := subs) (counts := counts) hr hfrom ha
  have hfew' : ¬ (3 ≤ u.pair.mismatches + 1 && !u.pair.checking) = true := by
    rw [hmis]
    simp only [Bool.and_eq_true, decide_eq_true_eq]
    omega
  rw [if_neg hne, noteMismatch_eq, if_neg hfew'] at he
  refine ⟨_, he, congrArg (· + 1) hmis, ?_, hcheck⟩
  have h8 : ctr u (cPair 0x08) = ctr s (cPair 0x08) := (hctr _).trans ((ctr_count ..).trans (if_neg (by decide)))
  exact (ctr_count u (cPair 0x08) (cPair 0x08)).trans ((if_pos rfl).trans (congrArg (fun x => (x + 1) % 2 ^ 64) h8))

theorem digest_differs_thrice (hne : a ≠ ⟨subs, counts⟩) (hmany : 3 ≤ s.pair.mismatches + 1)
    (hc : s.pair.checking = false) : ∃ t, exec (.digest w subs counts) s = .next t ∧ t.pair.checking = true := by
  obtain ⟨u, he, hrole, hmis, hcheck, -, -⟩ := digest_compared (subs := subs) (counts := counts) hr hfrom ha
  have hmany' : (3 ≤ u.pair.mismatches + 1 && !u.pair.checking) = true := by
    rw [hmis, hcheck, hc]
    simpa using hmany
  rw [if_neg hne, noteMismatch_eq, if_pos hmany'] at he
  obtain ⟨-, -, hkept⟩ := sendPair_of_active (kind := 3) (body := controlBytes (.selfCheck (setsHash (mismatched u))))
    ((role_startCheck (mismatched u)).trans ((role_mismatched u).trans hrole))
  exact ⟨_, he, hkept.trans (startCheck_checking _)⟩

end

/-! ### The end of a self-check -/

/-- The unit as its self-check has ended. -/
def checked (s : State) : State := setPair { s.pair with checking := false, setsDiffer := false, mismatches := 0 } s

theorem exec_selfCheckComplete (a b : Bool) (s : State) : exec (.selfCheckComplete a b) s = .next (
    if !s.pair.checking then s
    else if a || (role s = 3 && s.pair.setsDiffer) then raise evSelfcheckFail 0 (failUnit 0x10 (checked s))
    else if !b && role (checked s) = 4 then raise evDigestUnresolved 0 (checked s)
    else checked s) := rfl

theorem failUnit_checking (code : Nat) (s : State) : (failUnit code s).pair.checking = s.pair.checking := by
  rw [failUnit, setRole_pair]
  rfl

section
variable {a b : Bool} {s : State} (hc : s.pair.checking = true)
include hc

theorem selfCheck_fails (h : a = true ∨ (role s = 3 ∧ s.pair.setsDiffer = true)) : ∃ t,
    exec (.selfCheckComplete a b) s = .next t ∧ role t = 5 ∧ t.pair.claimOut = 0 ∧ t.pair.lastFail = 0x10 ∧
      t.pair.checking = false ∧ (rd t oEventPending (evSelfcheckFail / 32)).testBit (evSelfcheckFail % 32) = true := by
  obtain ⟨hrole, hout, -, hfail⟩ := failUnit_drives_zero 0x10 (checked s)
  refine ⟨raise evSelfcheckFail 0 (failUnit 0x10 (checked s)), ?_, (role_raise 0 _ (by decide)).trans hrole, ?_⟩
  · rw [exec_selfCheckComplete, if_neg (by simp [hc]), if_pos (by simpa using h)]
  · rw [raise_pair]
    exact ⟨hout, hfail, failUnit_checking 0x10 _, raise_pending ..⟩

theorem selfCheck_unresolved (ha : a = false) (hb : b = false) (hr : role s = 4) : ∃ t,
    exec (.selfCheckComplete a b) s = .next t ∧ role t = 4 ∧ t.pair.checking = false ∧ t.pair.mismatches = 0 ∧
      (rd t oEventPending (evDigestUnresolved / 32)).testBit (evDigestUnresolved % 32) = true := by
  have hr' : role (checked s) = 4 := hr
  refine ⟨raise evDigestUnresolved 0 (checked s), ?_, (role_raise 0 _ (by decide)).trans hr', ?_⟩
  · rw [exec_selfCheckComplete, if_neg (by simp [hc]), if_neg (by simp [ha, hr]), if_pos (by simp [hb, hr'])]
  · rw [raise_pair]
    exact ⟨rfl, rfl, raise_pending ..⟩

end

/-- Settles O53: a digest that arrives meets the one kept of its window (`digest_compared`). -/
theorem digests : Obligations.Digests := by
  refine ⟨fun w s => ⟨digestWindowClose_idle, digestWindowClose_sends, digestWindowClose_compares⟩,
    fun w subs counts s => ⟨fun hr => ?_, fun hr h4 => ?_, fun a hr hfrom ha =>
      ⟨digest_matches hr hfrom ha, digest_differs hr hfrom ha, digest_differs_thrice hr hfrom ha⟩⟩,
    fun a b s => ⟨fun hc => ?_, fun hc _ => ⟨selfCheck_fails hc, selfCheck_unresolved hc⟩⟩⟩
  · rw [exec_digest, if_pos hr]
  · rw [exec_digest, if_neg hr, if_neg (by simp [role_heard, h4])]
  · rw [exec_selfCheckComplete, if_pos (by simp [hc])]

end Sys2Proof.Machine
end

section
/-! O54 (R542 to R548, R555, R560, R561): what the active sends to its standby and to a joiner, and how a join begins, goes on and
ends. -/

namespace Sys2Proof.Machine
open Sys2Proof

/-! ### MIRROR and BULK -/

theorem exec_mirror (m : MirrorMsg) (s : State) : exec (.mirror m) s = .next (
    if role s = 0 then s
    else if !takesMirror (heard s) then heard s
    else applyMirror m (count (cPair 0x30) (if role (heard s) = 2 then
      setPair { (heard s).pair with mirrored := (heard s).pair.mirrored ++ [mirrorKey m] } (heard s) else heard s))) := rfl

theorem exec_bulk (m : BulkMsg) (s : State) : exec (.bulk m) s = .next (
    if role s = 0 then s
    else if role (heard s) ≠ 2 || (heard s).pair.join ≠ 5 || (heard s).pair.mirrored.contains (mirrorKey m) then heard s
    else bulkPin m (applyMirror m (heard s))) := rfl

theorem takesMirror_heard (s : State) : takesMirror (heard s) = takesMirror s := by
  rw [takesMirror, role_heard, (heard_kept_fields s).join, takesMirror]

section
variable {m : MirrorMsg} {s : State}

theorem mirror_taken (hr : role s = 3 ∨ role s = 4) :
    exec (.mirror m) s = .next (applyMirror m (count (cPair 0x30) (heard s))) := by
  have ht : takesMirror s = true := by rcases hr with hr | hr <;> simp [takesMirror, hr]
  rw [exec_mirror, if_neg (by omega), takesMirror_heard, ht, if_neg (by decide), role_heard, if_neg (by omega)]

theorem mirror_not_taken (hr : role s = 1 ∨ role s = 5) : exec (.mirror m) s = .next (heard s) := by
  have ht : takesMirror s = false := by rcases hr with hr | hr <;> simp [takesMirror, hr]
  rw [exec_mirror, if_neg (by omega), takesMirror_heard, ht]
  rfl

theorem mirror_remembered (hr : role s = 2) (hj : s.pair.join = 5) : ∃ t u, exec (.mirror m) s = .next (applyMirror m t) ∧
    t = count (cPair 0x30) u ∧ u.pair.mirrored = s.pair.mirrored ++ [mirrorKey m] := by
  have ht : takesMirror s = true := by simp [takesMirror, hr, hj]
  refine ⟨_, setPair { (heard s).pair with mirrored := (heard s).pair.mirrored ++ [mirrorKey m] } (heard s), ?_, rfl,
    congrArg (· ++ [mirrorKey m]) (heard_kept_fields s).mirrored⟩
  rw [exec_mirror, if_neg (by omega), takesMirror_heard, ht, if_neg (by decide), role_heard, if_pos hr]

theorem bulk_of_standby (hr : role s = 3) : exec (.bulk m) s = .next (heard s) := by
  rw [exec_bulk, if_neg (by omega), role_heard, hr]
  rfl

theorem bulk_of_joiner (hr : role s = 2) (hj : s.pair.join = 5) : exec (.bulk m) s = .next
    (if s.pair.mirrored.contains (mirrorKey m) then heard s else bulkPin m (applyMirror m (heard s))) := by
  have hk := heard_kept_fields s
  rw [exec_bulk, if_neg (by omega), role_heard, hr, hk.join, hj, hk.mirrored]
  rfl

end

/-! ### WRITE and COMMAND -/

theorem rd_setRole_row {r obj row : Nat} (s : State) (h : dictKey 0 obj row ≠ dictKey 0 oPairRole 0) :
    rd (setRole r s) obj row = rd s obj row :=
  (rd_congr (driveClaim_dict (inRole r s)) obj row).trans (rd_wr_ne (s := s) (v := r) h)

/-- A unit that has diverged from the active is unsynced, and says so. -/
theorem pairDiverged_spec (s : State) : role (pairDiverged s) = 1 ∧
    (rd (pairDiverged s) oEventPending (evPairDiverged / 32)).testBit (evPairDiverged % 32) = true := by
  refine ⟨role_setRole 1 _, ?_⟩
  have hrow : rd (pairDiverged s) oEventPending (evPairDiverged / 32) =
      rd (raise evPairDiverged 0 s) oEventPending (evPairDiverged / 32) :=
    rd_setRole_row (leaveJoin (raise evPairDiverged 0 s)) (by decide)
  rw [hrow]
  exact raise_pending ..

theorem exec_pairWrite {m : Msg} (live : Nat) (s : State) (h : m.wf = true) : exec (.pairWrite m live) s = .next (
    if !follows s then when (role s ≠ 0) heard s
    else if role s = 2 && s.pair.join < 5 then joinItems m (heard s)
    else takeDue { at_ := live, req := some ⟨pairOrigin, m⟩ } (heard s)) := if_pos h

theorem exec_pairCommand (opcode : Nat) (body data : Bytes) (commit : Nat) (s : State) :
    exec (.pairCommand opcode body data commit) s = .next (
      if !follows s then when (role s ≠ 0) heard s
      else if role s = 2 && s.pair.join < 5 then partnerCommand opcode body data (heard s)
      else takeDue { at_ := commit, opcode := opcode, body := body, data := data } (heard s)) := rfl

theorem takeDue_in_time {d : PairDue} {s : State} (h : s.clk.cclk ≤ d.at_) :
    takeDue d (heard s) = setPair { (heard s).pair with due := s.pair.due ++ [d] } (heard s) := by
  have hk := heard_kept_fields s
  rw [takeDue, hk.clk, if_neg (by omega), hk.due]

theorem takeDue_late {d : PairDue} {s : State} (h : d.at_ < s.clk.cclk) : takeDue d (heard s) = pairDiverged (heard s) := by
  rw [takeDue, (heard_kept_fields s).clk, if_pos h]

section
variable {s : State} (hr : role s = 3)
include hr

theorem pairWrite_of_standby {m : Msg} (live : Nat) (h : m.wf = true) :
    exec (.pairWrite m live) s = .next (takeDue { at_ := live, req := some ⟨pairOrigin, m⟩ } (heard s)) := by
  rw [exec_pairWrite live s h, if_neg (by simp [follows, hr]), if_neg (by simp [hr])]

theorem pairCommand_of_standby (opcode : Nat) (body data : Bytes) (commit : Nat) : exec (.pairCommand opcode body data commit) s =
    .next (takeDue { at_ := commit, opcode := opcode, body := body, data := data } (heard s)) := by
  rw [exec_pairCommand, if_neg (by simp [follows, hr]), if_neg (by simp [hr])]

end

theorem follows_of_alone {s : State} (hr : role s = 0) : follows s = false := by simp [follows, hr]

/-! ### A join begins -/

theorem exec_joinStart {claim i v n : Nat} {offset : Bool} {s : State} (hc : isByte claim = true) :
    exec (.joinStart claim i v n offset) s = .next (
      if role s ≠ 1 || !s.pair.partnerUp || s.pair.partnerRole ≠ 4 || s.pair.join ≠ 0 then s
      else if joinCode s claim i v n ≠ 0 then refuseJoin (joinCode s claim i v n) s
      else if offset then refuseJoin 5 s else beginJoin s) := if_pos hc

theorem joinStart_idle {claim i v n : Nat} {offset : Bool} {s : State} (hc : isByte claim = true)
    (h : role s ≠ 1 ∨ s.pair.partnerUp = false ∨ s.pair.partnerRole ≠ 4 ∨ s.pair.join ≠ 0) :
    exec (.joinStart claim i v n offset) s = .next s := by
  rw [exec_joinStart hc, if_pos]
  simpa [or_assoc] using h

theorem joinStart_ready {claim i v n : Nat} {offset : Bool} {s : State} (hc : isByte claim = true) (hr : role s = 1)
    (hup : s.pair.partnerUp = true) (hp : s.pair.partnerRole = 4) (hj : s.pair.join = 0) :
    exec (.joinStart claim i v n offset) s = .next (
      if joinCode s claim i v n ≠ 0 then refuseJoin (joinCode s claim i v n) s
      else if offset then refuseJoin 5 s else beginJoin s) := by
  rw [exec_joinStart hc, if_neg]
  simp [hr, hup, hp, hj]

/-! ### A join ends -/

/-- A joiner that leaves the halt, its JOIN_RESULT written and the join counted. -/
def halted0 (s : State) : State := writeHaltRequest 0 (count (cPair 0x48) (wr oJoinResult 1 s))

/-- The Pair Unit of a joiner that becomes a standby, in the digest window of the present. -/
def joined (p : Pair) (now : Nat) : Pair :=
  { p with join := 0, bulkDone := false, mirrored := [], windows := [], closed := [], received := [], mismatches := 0,
           checking := false, compareFrom := now + 1 }

theorem exec_joinFinish (s : State) : exec .joinFinish s = .next (
    if role s = 2 && s.pair.join = 5 && s.pair.bulkDone then
      setRole 3 (setPair (joined (halted0 s).pair (windowNow (halted0 s))) (halted0 s))
    else s) := rfl

theorem setRole_kept_blocks (r : Nat) (s : State) : (setRole r s).led = s.led ∧ (setRole r s).cs = s.cs := by
  unfold setRole driveClaim
  dsimp only
  split
  · exact ⟨rfl, rfl⟩
  · exact ⟨(emit_noted _ _ (Noted.refl _)).led, (emit_noted _ _ (Noted.refl _)).cs⟩

theorem claimOf_standby_valid {s : State} (hr : role s = 3) : (claimOf s).1 = true := by
  cases hy : s.pair.yielding
  · rw [claimOf_of_standby hy hr]
  · rw [claimOf_of_yielding hy]

theorem joinFinish_spec {s : State} (hr : role s = 2) (hj : s.pair.join = 5) (hb : s.pair.bulkDone = true) :
    ∃ t, exec .joinFinish s = .next t ∧ role t = 3 ∧ t.pair.join = 0 ∧ t.pair.bulkDone = false ∧
      rd t oJoinResult = rd (halted0 s) oJoinResult ∧ t.pair.compareFrom = windowNow (halted0 s) + 1 ∧ t.pair.claimVld = true ∧
      t.led = (halted0 s).led ∧ t.cs = (halted0 s).cs := by
  have hex : exec .joinFinish s =
      .next (setRole 3 (setPair (joined (halted0 s).pair (windowNow (halted0 s))) (halted0 s))) := by
    rw [exec_joinFinish, if_pos (by simp [hr, hj, hb])]
  generalize halted0 s = u at hex
  obtain ⟨hled, hcs⟩ := setRole_kept_blocks 3 (setPair (joined u.pair (windowNow u)) u)
  refine ⟨_, hex, role_setRole 3 _, ?_⟩
  rw [setRole_pair]
  exact ⟨rfl, rfl, rd_setRole_ne _ (by decide), rfl, claimOf_standby_valid (role_inRole 3 _), hled, hcs⟩

/-! ### CONTROL -/

theorem exec_pairControl (m : ControlMsg) (s : State) :
    exec (.pairControl m) s = .next (if role s = 0 then s else control m (heard s)) := rfl

theorem joinStep_of_joiner {s : State} (n : Nat) (hr : role s = 2) : joinStep n s = setPair { s.pair with join := n } s := if_pos hr

/-- Settles O54: a message that has arrived changes nothing but what is kept for the partner (`heard_kept_fields`), and what comes of
it depends on the unit's role. -/
theorem mirrorsAndJoins : Obligations.MirrorsAndJoins := by
  refine ⟨⟨fun m s => ⟨fun hr => ⟨?_, ?_⟩, fun hr => ⟨mirror_taken (.inl hr), bulk_of_standby hr⟩, fun hr => mirror_taken (.inr hr),
      mirror_not_taken, fun hr hj => ⟨fun hc => ?_, fun hc => ?_, mirror_remembered hr hj⟩⟩,
    fun m live opcode commit body data s hwf => ⟨fun hr => ⟨?_, ?_⟩, fun hr => ⟨fun h => ?_, fun h => ?_, fun h => ?_, fun h => ?_⟩⟩⟩,
    fun claim i v n offset s hc => ⟨joinStart_idle hc, fun hr hup hp hj => ?_⟩,
    fun s => ⟨fun h => ?_, joinFinish_spec⟩,
    fun m s => ⟨fun hr => ?_, fun hr => ?_⟩,
    fun s => ⟨fun hr => ⟨joinStep_of_joiner 4 hr, joinStep_of_joiner 5 hr, if_pos hr, fun c => ?_, fun c sec ns => ?_⟩,
      fun hr h => ?_, fun hr c i v n hc => ?_⟩⟩
  · rw [exec_mirror, if_pos hr]
  · rw [exec_bulk, if_pos hr]
  · rw [bulk_of_joiner hr hj, if_pos hc]
  · rw [bulk_of_joiner hr hj, hc, if_neg (by decide)]
  · rw [exec_pairWrite live s hwf, follows_of_alone hr]
    simp [Machine.when, hr]
  · rw [exec_pairCommand, follows_of_alone hr]
    simp [Machine.when, hr]
  · rw [pairWrite_of_standby hr live hwf, takeDue_in_time h]
  · exact ⟨_, by rw [pairWrite_of_standby hr live hwf, takeDue_late h], pairDiverged_spec _⟩
  · rw [pairCommand_of_standby hr, takeDue_in_time h]
  · exact ⟨_, by rw [pairCommand_of_standby hr, takeDue_late h], (pairDiverged_spec _).1⟩
  · rw [joinStart_ready hc hr hup hp hj]
    refine ⟨fun h => ⟨_, by rw [if_pos h], refuseJoin_spec _ s⟩, fun h ho => ⟨_, ?_, refuseJoin_spec 5 s⟩, fun h ho => ?_⟩
    · rw [if_neg (not_not.mpr h), if_pos ho]
    · rw [if_neg (not_not.mpr h), ho, if_neg (by decide)]
  · rw [exec_joinFinish, if_neg]
    simp only [Bool.and_eq_true, decide_eq_true_eq]
    rintro ⟨⟨hr, hj⟩, hb⟩
    simp [hr, hj, hb] at h
  · rw [exec_pairControl, if_pos hr]
  · rw [exec_pairControl, if_neg hr]
  · exact ⟨_, if_pos hr, refuseJoin_spec c s⟩
  · exact congrArg (fun t : State => t.clk.cclk) (if_pos hr)
  · rw [control, if_pos hr]
    exact ⟨rfl, rfl⟩
  · rw [control, if_pos hr, joinRequested, if_pos hc]

end Sys2Proof.Machine
end

section
/-! O55 (R564, R566 to R571, R639): a period of the voltage loop, an energy sample, and the regulator that differs, does not answer or
alerts. -/

namespace Sys2Proof.Machine
open Sys2Proof

/-! ### A step towards a target (R567, R568) -/

theorem stepTo_within (step now target : Int) (h : 0 ≤ step) : stepTo step now target - now ≤ step ∧ now - stepTo step now target ≤ step := by
  unfold stepTo
  split
  · omega
  · split <;> omega

/-- A step from within bounds towards a target within bounds stays within them. -/
theorem stepTo_bounded {step now target lo hi : Int} (hs : 0 ≤ step) (hl : lo ≤ now) (hh : now ≤ hi) (htl : lo ≤ target)
    (hth : target ≤ hi) : lo ≤ stepTo step now target ∧ stepTo step now target ≤ hi := by
  unfold stepTo
  split
  · omega
  · split <;> omega

theorem knobTarget_bounded {k : Nat} {r : Knob} (d : Int) (he : r.enable = 1) (hp : r.pin ≠ 1) (h : r.floor ≤ r.ceiling) :
    r.floor ≤ knobTarget k r d ∧ knobTarget k r d ≤ r.ceiling := by
  rw [knobTarget, if_neg (not_not.mpr he), if_neg hp, clamp]
  omega

/-! ### A period of the voltage loop (R569) -/

theorem readStatus_governs (s : State) : (readStatus s).gov = { s.gov with statusDue := false } ∧ (readStatus s).dict = s.dict := by
  unfold readStatus
  split
  · exact ⟨(emit_noted _ _ (Noted.refl _)).gov, by rw [emit_dict, setGov_dict]⟩
  case isFalse h =>
    rw [← Bool.eq_false_iff.mpr h]
    exact ⟨rfl, rfl⟩

theorem readRegulator_noted (s : State) : Noted s (readRegulator s) := by
  unfold readRegulator
  split
  · exact Noted.refl s
  · exact emit_noted _ _ (emit_noted _ _ (Noted.refl s))

theorem govBit_noted (i : Nat) (on : Bool) (s : State) : Noted s (govBit i on s) := wr_noted _ _ _ (Noted.refl s)

/-- The count of steady periods, and the last step, are all that a noted step moves in the governor. -/
theorem noteStep_noted (step : Int) (s : State) :
    ∃ n, Noted (setGov { s.gov with steady := n, lastStep := step } s) (noteStep step s) := by
  unfold noteStep
  dsimp only
  refine ⟨if step = 0 then s.gov.steady + 1 else 0, ?_⟩
  split
  · exact Noted.when (fun _ => govBit_noted _ _ _) (Noted.refl _)
  · exact Noted.when (fun _ => govBit_noted _ _ _) (Noted.refl _)

/-- A period of a regulator that answers, is not held, overridden or pinned at the boot: the demand, and one step towards it. -/
theorem voltagePeriod_spec (slack : Int) {s : State} (hn : s.gov.noRegulator = false) (hh : s.gov.holding = false)
    (ho : s.gov.voltOver = false) (hb : s.gov.bootPin = false) :
    (voltagePeriod slack s).gov.vcore = stepTo 5 s.gov.vcore (knobTarget 0 (knob s 0) (voltageDemand s (knob s 0) slack)) ∧
      (voltagePeriod slack s).gov.vDemand = voltageDemand s (knob s 0) slack := by
  unfold voltagePeriod
  extract_lets r d _ u target next step
  obtain ⟨b, m, hu⟩ : ∃ b m, Noted (setGov { s.gov with vDemand := d, beyond := b, pressed := m } s) u :=
    notePressure_noted _ _ _ _
  have hgov : u.gov = { s.gov with vDemand := d, beyond := b, pressed := m } := hu.gov
  have hnext : next = stepTo 5 s.gov.vcore (knobTarget 0 r d) := by
    show (if u.gov.noRegulator || u.gov.holding || u.gov.voltOver then u.gov.vcore else
      stepTo 5 u.gov.vcore (if u.gov.bootPin then r.ceiling else knobTarget 0 r d)) = _
    rw [hgov, hn, hh, ho, hb]
    rfl
  obtain ⟨n, hv⟩ := noteStep_noted step (readRegulator (commandVcore next u))
  have hcmd : (readRegulator (commandVcore next u)).gov = { u.gov with vcore := next } :=
    (readRegulator_noted _).gov.trans (commandVcore_gov next (by rw [hgov]; exact hn))
  have hend : (noteStep step (readRegulator (commandVcore next u))).gov =
      { u.gov with vcore := next, steady := n, lastStep := step } := hv.gov.trans (by rw [setGov_gov, hcmd])
  rw [hend, hgov]
  exact ⟨hnext, rfl⟩

theorem exec_voltageLoop (slack : Int) (s : State) :
    exec (.voltageLoop slack true) s = .next (voltagePeriod slack (readStatus s)) := rfl

theorem knob_congr {s t : State} (h : t.dict = s.dict) (k : Nat) : knob t k = knob s k := by
  rw [knob, knob, rd_congr h]

theorem voltageDemand_congr {s t : State} (hd : t.dict = s.dict) (hg : t.gov.vcore = s.gov.vcore) (r : Knob) (slack : Int) :
    voltageDemand t r slack = voltageDemand s r slack := by
  unfold voltageDemand
  rw [rd_congr hd, hg]

theorem voltageLoop_spec (slack : Int) {s : State} (hn : s.gov.noRegulator = false) (hh : s.gov.holding = false)
    (ho : s.gov.voltOver = false) (hb : s.gov.bootPin = false) : ∃ t, exec (.voltageLoop slack true) s = .next t ∧
    t.gov.vcore = stepTo 5 s.gov.vcore (knobTarget 0 (knob s 0) (voltageDemand s (knob s 0) slack)) ∧
    t.gov.vDemand = voltageDemand s (knob s 0) slack := by
  obtain ⟨hg, hd⟩ := readStatus_governs s
  have hg' : (readStatus s).gov.vcore = s.gov.vcore := by rw [hg]
  have h := voltagePeriod_spec slack (s := readStatus s) (by rw [hg]; exact hn) (by rw [hg]; exact hh) (by rw [hg]; exact ho)
    (by rw [hg]; exact hb)
  rw [knob_congr hd, voltageDemand_congr hd hg', hg'] at h
  exact ⟨_, exec_voltageLoop slack s, h⟩

/-! ### What the regulator answers (R564, R570, R639) -/

theorem exec_energySample (mv ma : Nat) (s : State) : exec (.energySample mv ma) s =
    .next (ctrSet (cGlobal 0x100) ((s.gov.energy + mv * ma) / 1000)
      (wr oVcoreMeasured (mv % 2 ^ 16) (setGov { s.gov with energy := s.gov.energy + mv * ma } s))) := rfl

theorem exec_vregCheck (mv : Nat) (lasting : Bool) (s : State) : exec (.vregCheck mv lasting) s =
    .next (let u := wr oVcoreMeasured (mv % 2 ^ 16) s
      if s.gov.holding then
        if voutDiff s mv < 15 then regulatorBit (setGov { s.gov with holding := false } u) else u
      else if 15 < voutDiff s mv && lasting then
        raise evVregFault (voutDiff s mv) (count (cGlobal 0x138) (regulatorBit (setGov { s.gov with holding := true } u)))
      else u) := rfl

/-- GOV_STATE[1] tells of a regulator that does not answer or is held. -/
theorem regulatorBit_spec (s : State) :
    (rd (regulatorBit s) oGovState).testBit 1 = (s.gov.noRegulator || s.gov.holding) ∧ (regulatorBit s).gov = s.gov := by
  refine ⟨?_, (govBit_noted _ _ _).gov⟩
  rw [regulatorBit, govBit, rd_wr_self]
  cases s.gov.noRegulator || s.gov.holding
  · simp [testBit_clearBit]
  · exact testBit_setBit_self _ _

theorem vregCheck_holds (mv : Nat) {s : State} (hh : s.gov.holding = false) (hd : 15 < voutDiff s mv) : ∃ t,
    exec (.vregCheck mv true) s = .next t ∧ t.gov.holding = true ∧ (rd t oGovState).testBit 1 = true ∧
      t.gov.vcore = s.gov.vcore ∧ (rd t oEventPending (evVregFault / 32)).testBit (evVregFault % 32) = true := by
  have hex := exec_vregCheck mv true s
  dsimp only at hex
  rw [hh, if_neg (by decide), if_pos (by simpa using hd)] at hex
  obtain ⟨hbit, hgov⟩ := regulatorBit_spec (setGov { s.gov with holding := true } (wr oVcoreMeasured (mv % 2 ^ 16) s))
  generalize regulatorBit (setGov { s.gov with holding := true } (wr oVcoreMeasured (mv % 2 ^ 16) s)) = u at hex hbit hgov
  have hkept : (raise evVregFault (voutDiff s mv) (count (cGlobal 0x138) u)).gov = u.gov :=
    (raise_noted _ _ _ (count_noted _ _ (Noted.refl u))).gov
  refine ⟨_, hex, ?_, ?_, ?_, raise_pending ..⟩
  · rw [hkept, hgov]
    rfl
  · rw [rd_raise_of_area _ _ (by decide) (by decide) (by decide), rd_congr (s := u) count_dict, hbit]
    exact Bool.or_true _
  · rw [hkept, hgov]
    rfl

theorem vregCheck_notes {mv : Nat} {lasting : Bool} {s : State} (hh : s.gov.holding = false)
    (h : voutDiff s mv ≤ 15 ∨ lasting = false) :
    exec (.vregCheck mv lasting) s = .next (wr oVcoreMeasured (mv % 2 ^ 16) s) := by
  have hex := exec_vregCheck mv lasting s
  dsimp only at hex
  rw [hh, if_neg (by decide), if_neg] at hex
  · exact hex
  · simp only [Bool.and_eq_true, decide_eq_true_eq]
    rintro ⟨hd, rfl⟩
    simp at h
    omega

theorem vregCheck_ends_hold {mv : Nat} {lasting : Bool} {s : State} (hh : s.gov.holding = true) (hd : voutDiff s mv < 15) :
    ∃ t, exec (.vregCheck mv lasting) s = .next t ∧ t.gov.holding = false ∧ (rd t oGovState).testBit 1 = s.gov.noRegulator := by
  have hex := exec_vregCheck mv lasting s
  dsimp only at hex
  rw [hh, if_pos rfl, if_pos hd] at hex
  obtain ⟨hbit, hgov⟩ := regulatorBit_spec (setGov { s.gov with holding := false } (wr oVcoreMeasured (mv % 2 ^ 16) s))
  exact ⟨_, hex, by rw [hgov]; rfl, hbit.trans (Bool.or_false _)⟩

theorem exec_regulatorRetry (ack : Bool) (s : State) : exec (.regulatorRetry ack) s =
    .next (if s.gov.noRegulator && ack then regulatorBit (setGov { s.gov with noRegulator := false } s) else s) := rfl

/-- Settles O55: a period of the loop takes one bounded step towards the knob's target (`voltagePeriod_spec`), and GOV_STATE[1] follows
the regulator (`regulatorBit_spec`). -/
theorem voltageAndRegulator : Obligations.VoltageAndRegulator := by
  refine ⟨fun slack s hn hh ho hb => ?_, fun mv ma s => ?_, fun mv lasting s => ⟨fun hh hd hl => ?_, vregCheck_notes, vregCheck_ends_hold⟩,
    fun ack s => ⟨fun h => ?_, fun hn ha => ?_⟩, fun s => rfl⟩
  · obtain ⟨t, hex, hv, hd⟩ := voltageLoop_spec slack hn hh ho hb
    obtain ⟨hup, hdown⟩ := stepTo_within 5 s.gov.vcore (knobTarget 0 (knob s 0) (voltageDemand s (knob s 0) slack)) (by decide)
    refine ⟨t, hex, hv, hd, hv ▸ hup, hv ▸ hdown, fun he hp hfc hf hc => ?_⟩
    obtain ⟨hlo, hhi⟩ := knobTarget_bounded (k := 0) (voltageDemand s (knob s 0) slack) he hp hfc
    exact hv ▸ stepTo_bounded (by decide) hf hc hlo hhi
  · refine ⟨_, exec_energySample mv ma s, rfl, (ctr_ctrSet ..).trans (if_pos rfl), ?_⟩
    rw [rd_congr ctrSet_dict, rd_wr_self]
  · subst hl
    exact vregCheck_holds mv hh hd
  · rw [exec_regulatorRetry, if_neg]
    simp only [Bool.and_eq_true]
    rintro ⟨h1, h2⟩
    simp [h1, h2] at h
  · refine ⟨_, by rw [exec_regulatorRetry, if_pos (by rw [hn, ha]; rfl)], ?_⟩
    rw [(regulatorBit_spec _).2]
    rfl

end Sys2Proof.Machine
end

section
/-! O58 (R596 to R598, R627, R642 to R644, R653): what resets the device, and a restart of the Control Core. -/

namespace Sys2Proof.Machine
open Sys2Proof

/-! ### Resets -/

theorem exec_powerOn (tm : Bool) (s : State) :
    exec (.powerOn tm) s = .next (deviceReset 1 { s with pins := { s.pins with testMode := tm } }) := rfl

theorem resetUnlessTripped_free {s : State} (cause : Nat) (h : s.boot.held ≠ 3) :
    resetUnlessTripped cause s = deviceReset cause s := if_neg h

theorem resetUnlessTripped_held {s : State} (cause : Nat) (h : s.boot.held = 3) : resetUnlessTripped cause s = s := if_pos h

theorem exec_resetN_short {ns : Nat} (s : State) (h : ns < 1000) : exec (.resetN ns) s = .next s :=
  congrArg Host.Outcome.next (if_pos h)

theorem exec_resetN_long {ns : Nat} (s : State) (h : 10000 ≤ ns) :
    exec (.resetN ns) s = .next (resetUnlessTripped 2 s) :=
  congrArg Host.Outcome.next ((if_neg (by omega)).trans (if_pos h))

theorem exec_railUndervoltage (s : State) : exec .railUndervoltage s = .next (resetUnlessTripped 1 s) := rfl

theorem exec_thermalTripCleared {s : State} (h : s.boot.held = 3) :
    exec .thermalTripCleared s = .next (deviceReset 4 s) := congrArg Host.Outcome.next (if_pos h)

theorem exec_clockTreeFault {c : Nat} (s : State) (hc : c < 5) : exec (.clockTreeFault c) s =
    .next (if pairEnabled s || c = 4 then s else resetUnlessTripped 5 (raise evClockFault c s)) := if_pos (decide_eq_true hc)

/-- The device held in reset by a thermal trip. -/
def tripped (s : State) : State := setBoot { (clearDevice 4 s).boot with held := 3 } (clearDevice 4 s)

theorem exec_thermalTrip (s : State) : exec .thermalTrip s = .next (tripped s) := rfl

theorem tripped_spec (s : State) : (tripped s).boot.held = 3 ∧ rd (tripped s) oResetCause = 4 ∧ stepRunning (tripped s) = none ∧
    (tripped s).fuse = s.fuse ∧ (tripped s).cal = s.cal ∧ (tripped s).pip = {} ∧ (tripped s).led = {} := by
  refine ⟨rfl, ?_, ?_, rfl, rfl, rfl, rfl⟩
  · rw [tripped, rd_congr setBoot_dict, clearDevice, rd_wr_self]
  have hheld : (tripped s).boot.held = 3 := rfl
  rw [stepRunning, hheld]
  exact if_pos (by simp)

/-! ### A restart of the Control Core (R598) -/

theorem exec_coreRestart {reason : Nat} (s : State) (h : reason = 1 ∨ reason = 2) : exec (.coreRestart reason) s = .next (
    if s.boot.restartAt ≠ 0 && s.clk.cclk + 1 < s.boot.restartAt + 15625000000 then resetUnlessTripped 6 s
    else restartCore reason s) := if_pos (by simpa using h)

/-- A turn or step in VALIDATING fails as the core restarts: OPEN, TURN_RESULT 2, FAILED_GROUP 0. -/
def turnDropped (s : State) : State :=
  if setState s = 1 then
    wr oSetState 0 (wr oTurnResult 2 (wr oFailedGroup 0 { s with ep := { s.ep with passed := false, stepping := false } }))
  else s

/-- The unit once its requests have been answered: none waits, nor a verdict on a turn. -/
def requestsGone (s : State) : State :=
  { setPair { s.pair with due := s.pair.due.map forgetOrigin, ownVerdict := none, partnerVerdict := none } s with
    eng := { s.eng with queue := [] }, ep := { s.ep with request := none, oldType := none } }

/-- The Control Core as it restarts, before CORE_RESTART is raised. -/
def restarted (s : State) : State :=
  count (cEvent 0x18) (setBoot { (turnDropped (requestsGone s)).boot with restartAt := (turnDropped (requestsGone s)).clk.cclk + 1 }
    (freshNonce (turnDropped (requestsGone s))))

theorem restartCore_without_requests (reason : Nat) {s : State} (hq : s.eng.queue = []) (hr : s.ep.request = none)
    (hd : s.pair.due = []) : restartCore reason s = raise evCoreRestart reason (restarted s) := by
  have hnone : s.eng.queue.map (·.req) ++ s.ep.request.toList ++ s.pair.due.filterMap (·.req) = [] := by
    rw [hq, hr, hd]
    rfl
  unfold restartCore
  rw [hnone]
  rfl

theorem turnDropped_open {s : State} (h : setState s = 1) :
    rd (turnDropped s) oSetState = 0 ∧ rd (turnDropped s) oTurnResult = 2 ∧ rd (turnDropped s) oFailedGroup = 0 := by
  rw [turnDropped, if_pos h]
  refine ⟨rd_wr_self .., ?_, ?_⟩
  · rw [rd_wr_other (by decide), rd_wr_self]
  · rw [rd_wr_other (by decide), rd_wr_other (by decide), rd_wr_self]

theorem turnDropped_registers (s : State) : ∃ d e, turnDropped s = { s with dict := d, ep := e } := by
  unfold turnDropped
  split
  · exact ⟨_, _, rfl⟩
  · exact ⟨s.dict, s.ep, rfl⟩

theorem restarted_spec (s : State) :
    (restarted s).eng = { s.eng with queue := [], nonce := Config.random s.free % 2 ^ 64, windows := [], mbWindows := [] } ∧
    (if setState s = 1 then rd (restarted s) oSetState = 0 ∧ rd (restarted s) oTurnResult = 2 ∧ rd (restarted s) oFailedGroup = 0
      else (restarted s).dict = s.dict) ∧
    ctr (restarted s) (cEvent 0x18) = (ctr s (cEvent 0x18) + 1) % 2 ^ 64 ∧ (restarted s).led = s.led ∧ (restarted s).pip = s.pip ∧
    (restarted s).lt = s.lt ∧ (restarted s).hst = s.hst ∧ (restarted s).dw = s.dw ∧ (restarted s).gov = s.gov ∧
    (restarted s).tun = s.tun := by
  have hdict : (restarted s).dict = (turnDropped (requestsGone s)).dict := rfl
  have hset : (if setState s = 1 then rd (restarted s) oSetState = 0 ∧ rd (restarted s) oTurnResult = 2 ∧
      rd (restarted s) oFailedGroup = 0 else (restarted s).dict = s.dict) := by
    split
    case isTrue h =>
      have h' : setState (requestsGone s) = 1 := h
      rw [rd_congr hdict, rd_congr hdict, rd_congr hdict]
      exact turnDropped_open h'
    case isFalse h =>
      have h' : ¬ setState (requestsGone s) = 1 := h
      rw [hdict, turnDropped, if_neg h']
      rfl
  refine ⟨?_, hset, ?_⟩
  · obtain ⟨d, e, he⟩ := turnDropped_registers (requestsGone s)
    rw [restarted, he]
    rfl
  · obtain ⟨d, e, he⟩ := turnDropped_registers (requestsGone s)
    rw [restarted, he]
    exact ⟨(ctr_count ..).trans (if_pos rfl), rfl, rfl, rfl, rfl, rfl, rfl, rfl⟩

theorem raise_boot (src detail : Nat) (s : State) : (raise src detail s).boot = s.boot :=
  (raise_noted src detail s (Noted.refl s)).boot

/-- Settles O58: every reset but that of power-on waits for the end of a thermal trip, and a restart of the Control Core leaves no
request (`restarted_spec`). -/
theorem resetsAndRestarts : Obligations.ResetsAndRestarts := by
  refine ⟨fun s => ⟨fun tm => exec_powerOn tm s, fun ns => exec_resetN_short s, fun ns h hh => ?_, fun hh => ?_,
      ⟨_, exec_thermalTrip s, tripped_spec s⟩, fun hh => ⟨exec_thermalTripCleared hh, ?_⟩, fun c hc hp hh => ?_, fun hp => ?_,
      fun o level hwf h => execResetRequest_taken hwf h⟩,
    fun reason s hreason => ⟨fun h0 hq hr hd => ⟨restarted s, ?_, restarted_spec s⟩, fun h0 hsoon hh => ?_⟩⟩
  · rw [exec_resetN_long s h, resetUnlessTripped_free 2 hh]
  · rw [exec_railUndervoltage, resetUnlessTripped_free 1 hh]
  · rw [exec_railUndervoltage, resetUnlessTripped_held 1 hh]
  · rw [exec_clockTreeFault s (by omega), hp, if_neg (by simp; omega), resetUnlessTripped_free]
    rw [raise_boot]
    exact hh
  · rw [exec_clockTreeFault s (by decide), if_pos (by simp)]
  · rw [exec_coreRestart s hreason, if_neg (by simp [h0]), restartCore_without_requests reason hq hr hd]
  · rw [exec_coreRestart s hreason, if_pos (by simpa [h0] using hsoon), resetUnlessTripped_free 6 hh]

end Sys2Proof.Machine
end

section
/-! The slices of the Flow Ledger (chapter 8) where nothing is under way: one operation that arrives, is ready, and leaves; and the
fields of rows as bits. -/

namespace Sys2Proof.Machine
open Sys2Proof

/-! ### Fields of a row -/

theorem testBit_fld (v off w i : Nat) : (fld v off w).testBit i = (decide (i < w) && v.testBit (off + i)) := by
  rw [fld, Nat.testBit_mod_two_pow, Nat.testBit_shiftRight]

theorem setFld_eq (v off w x : Nat) :
    setFld v off w x = 2 ^ off * (2 ^ w * (v / 2 ^ off / 2 ^ w) + x % 2 ^ w) + v % 2 ^ off := by
  have hv : 2 ^ off * (2 ^ w * (v / 2 ^ off / 2 ^ w)) + v / 2 ^ off % 2 ^ w * 2 ^ off + v % 2 ^ off = v := by
    rw [Nat.mul_comm (v / 2 ^ off % 2 ^ w), ← Nat.mul_add, Nat.div_add_mod, Nat.div_add_mod]
  have hf : fld v off w = v / 2 ^ off % 2 ^ w := by rw [fld, Nat.shiftRight_eq_div_pow]
  have hsub : v - v / 2 ^ off % 2 ^ w * 2 ^ off = 2 ^ off * (2 ^ w * (v / 2 ^ off / 2 ^ w)) + v % 2 ^ off := by omega
  rw [setFld, hf, hsub, Nat.mul_add]
  ring

/-- Setting a field changes its own bits alone. -/
theorem testBit_setFld (v off w x i : Nat) : (setFld v off w x).testBit i =
    if off ≤ i ∧ i < off + w then x.testBit (i - off) else v.testBit i := by
  have hlow : v % 2 ^ off < 2 ^ off := Nat.mod_lt _ (by positivity)
  have hmid : x % 2 ^ w < 2 ^ w := Nat.mod_lt _ (by positivity)
  rw [setFld_eq, Nat.testBit_two_pow_mul_add _ hlow, Nat.testBit_two_pow_mul_add _ hmid, Nat.testBit_mod_two_pow,
    Nat.testBit_mod_two_pow, Nat.testBit_div_two_pow, Nat.testBit_div_two_pow]
  by_cases h1 : i < off
  · simp [h1, Nat.not_le.mpr h1]
  · by_cases h2 : i - off < w
    · have h3 : i < off + w := by omega
      simp [h1, h2, h3, Nat.not_lt.mp h1]
    · have h3 : ¬ i < off + w := by omega
      have h4 : i - off - w + w + off = i := by omega
      simp [h1, h2, h3, h4]

theorem fld_setFld_self (v off w x : Nat) : fld (setFld v off w x) off w = x % 2 ^ w := by
  refine Nat.eq_of_testBit_eq fun i => ?_
  rw [testBit_fld, testBit_setFld, Nat.testBit_mod_two_pow]
  by_cases h : i < w
  · simp [h]
  · simp [h]

/-- Setting a field leaves every field that it does not overlap. -/
theorem fld_setFld_ne {v off w x off' w' : Nat} (h : off + w ≤ off' ∨ off' + w' ≤ off) :
    fld (setFld v off w x) off' w' = fld v off' w' := by
  refine Nat.eq_of_testBit_eq fun i => ?_
  rw [testBit_fld, testBit_fld, testBit_setFld]
  by_cases hi : i < w'
  · rw [if_neg (by omega)]
  · simp [hi]

/-- A field within one that is set to 0 is 0. -/
theorem fld_setFld_zero {v off w off' w' : Nat} (h : off ≤ off' ∧ off' + w' ≤ off + w) : fld (setFld v off w 0) off' w' = 0 := by
  refine Nat.eq_of_testBit_eq fun i => ?_
  rw [testBit_fld, testBit_setFld]
  by_cases hi : i < w'
  · rw [if_pos (by omega)]
    simp
  · simp [hi]

theorem byteFld_setByteFld_self (v o n x : Nat) : byteFld (setByteFld v o n x) o n = x % 2 ^ (8 * n) := fld_setFld_self ..

theorem byteFld_setByteFld_ne {v o n x o' n' : Nat} (h : o + n ≤ o' ∨ o' + n' ≤ o) :
    byteFld (setByteFld v o n x) o' n' = byteFld v o' n' := fld_setFld_ne (by omega)

theorem testBit_setByteFld_ne {v o n x i : Nat} (h : i < 8 * o ∨ 8 * (o + n) ≤ i) :
    (setByteFld v o n x).testBit i = v.testBit i := by
  rw [setByteFld, testBit_setFld, if_neg (by omega)]

end Sys2Proof.Machine
end

section
/-! The slices of the Flow Ledger (R286, R298) where nothing is under way: an operation that arrives and is ready is applied at once,
and the slices rest again. -/

namespace Sys2Proof.Machine
open Sys2Proof

/-! ### Slices -/

theorem slc_congr {s t : State} (h : t.led.slices = s.led.slices) (f : Nat) : slc t f = slc s f := by
  rw [slc, slc, h]

theorem slc_setSlc (f k : Nat) (x : SliceSt) (s : State) : slc (setSlc f x s) k = if k = f then x else slc s k :=
  tabGet_put ..

theorem slc_setSlc_self (f : Nat) (x : SliceSt) (s : State) : slc (setSlc f x s) f = x := (slc_setSlc ..).trans (if_pos rfl)

theorem slc_setSlc_ne {f k : Nat} (x : SliceSt) (s : State) (h : k ≠ f) : slc (setSlc f x s) k = slc s k :=
  (slc_setSlc ..).trans (if_neg h)

/-- No operation is in a slice between `s` and `t` that was not there, none has left, and no repair has begun or ended. -/
def OpsKept (s t : State) : Prop := ∀ f, (slc t f).ops = (slc s f).ops ∧ (slc t f).repairs = (slc s f).repairs

theorem OpsKept.of_slices {s t : State} (h : t.led.slices = s.led.slices) : OpsKept s t := fun f => by
  rw [slc_congr h]
  exact ⟨rfl, rfl⟩

theorem OpsKept.refl (s : State) : OpsKept s s := fun _ => ⟨rfl, rfl⟩

theorem OpsKept.trans {s t u : State} (h : OpsKept s t) (g : OpsKept t u) : OpsKept s u := fun f =>
  ⟨(g f).1.trans (h f).1, (g f).2.trans (h f).2⟩

/-- No operation is in any slice. -/
def Resting (s : State) : Prop := ∀ f, (slc s f).ops = []

theorem ledgerQuiet.resting {s : State} (h : ledgerQuiet s) : Resting s := fun f => (h f).1

theorem ledgerQuiet.of_kept {s t : State} (h : ledgerQuiet s) (k : OpsKept s t) : ledgerQuiet t := fun f =>
  ⟨(k f).1.trans (h f).1, (k f).2.trans (h f).2⟩

/-! ### A pass over slices at rest -/

theorem passAll_resting {s : State} (h : Resting s) : passAll s = s :=
  forEach_same fun f _ => by
    rw [h f]
    rfl

theorem settle_resting {s : State} (h : Resting s) (n : Nat) : settle n s = s := by
  cases n with
  | zero => rfl
  | succ n =>
    rw [settle, passAll_resting h]
    exact if_pos rfl

theorem runLedger_resting {s : State} (h : Resting s) : runLedger s = endSweep s := congrArg endSweep (settle_resting h _)

/-- A pass that brings the slices to rest is the last that moves anything. -/
theorem runLedger_of_pass {s t : State} (hp : passAll s = t) (h : Resting t) : runLedger s = endSweep t := by
  refine congrArg endSweep ?_
  rw [settle, hp]
  exact (congrArg (ite _ t) (settle_resting h _)).trans (ite_self t)

/-- A pass over slices of which one alone moves. -/
theorem forEach_one {l : List Nat} {g : State → Nat → State} {s t : State} {f : Nat} (hf : f ∈ l) (hs : ∀ k, k ≠ f → g s k = s)
    (hg : g s f = t) (ht : ∀ k, g t k = t) : forEach l g s = t := by
  induction l with
  | nil => exact absurd hf List.not_mem_nil
  | cons k l ih =>
    show forEach l g (g s k) = t
    by_cases hk : k = f
    · rw [hk, hg]
      exact forEach_same fun a _ => ht a
    · rw [hs k hk]
      exact ih ((List.mem_cons.mp hf).resolve_left (Ne.symm hk))

/-! ### The one operation -/

theorem useWay_slices (r : Nat) (v : State) : (useWay r v).led.slices = v.led.slices := by
  unfold useWay
  split <;> rfl

section
variable {o : LedOp} {s u : State} (hq : Resting s)
include hq

theorem ops_joinOp (k : Nat) : (slc (joinOp o s) k).ops = if k = o.slice then [o] else [] := by
  rw [joinOp, slc_setSlc]
  split
  · exact congrArg (· ++ [o]) (hq o.slice)
  · exact hq k

theorem ledOp_joinOp : ledOp (joinOp o s) o.slice o.id = some o := by
  rw [ledOp, ops_joinOp hq, if_pos rfl]
  exact (List.find?_cons_of_pos (decide_eq_true rfl))

/-- The slice of an operation that joins one at rest is in the table. -/
theorem slice_mem_joinOp : o.slice ∈ (joinOp o s).led.slices.map (fun e => e.1) := by
  refine mem_keys_of_tabGet (d := {}) fun h => ?_
  have hops := ops_joinOp (o := o) hq o.slice
  rw [if_pos rfl] at hops
  have hnone : (slc (joinOp o s) o.slice).ops = [] := congrArg SliceSt.ops h
  exact absurd (hnone.symm.trans hops) (List.cons_ne_nil _ _).symm

variable (hst : o.stage ≠ .held) (hrun : runOp [] o (joinOp o s) = .done u) (hu : OpsKept (joinOp o s) u)

include hst hrun in
theorem passSlice_joinOp :
    passSlice o.slice [o.id] (joinOp o s) = dropOp o.slice o.id (useWay o.home u) := by
  have hfresh : refreshed (joinOp o s) o = o := by
    unfold refreshed
    split
    · exact absurd ‹_› hst
    · rfl
  have hbefore : (slc (joinOp o s) o.slice).ops.takeWhile (fun x => x.id ≠ o.id) = [] := by
    rw [ops_joinOp hq, if_pos rfl]
    exact List.takeWhile_cons_of_neg (by simp)
  rw [passSlice, ledOp_joinOp hq]
  dsimp only
  rw [if_neg (by simp [hst]), hfresh, hbefore, hrun]
  rfl

include hu in
/-- The operation has left its slice, and the slices rest. -/
theorem dropOp_joinOp_resting : Resting (dropOp o.slice o.id (useWay o.home u)) := by
  intro k
  have hops : (slc (useWay o.home u) k).ops = if k = o.slice then [o] else [] := by
    rw [slc_congr (useWay_slices o.home u), (hu k).1, ops_joinOp hq]
  rw [dropOp, slc_setSlc]
  split
  case isTrue hk =>
    rw [hk, if_pos rfl] at hops
    show List.filter _ (slc (useWay o.home u) o.slice).ops = []
    rw [hops]
    simp
  case isFalse hk =>
    rw [hops, if_neg hk]

include hst hrun hu in
/-- R286: an operation that joins a slice at rest, and reaches its apply point at its first attempt, leaves it. -/
theorem runLedger_joinOp : runLedger (joinOp o s) = endSweep (dropOp o.slice o.id (useWay o.home u)) := by
  refine runLedger_of_pass (forEach_one (slice_mem_joinOp hq) (fun k hk => ?_) ?_ fun k => ?_) (dropOp_joinOp_resting hq hu)
  · rw [ops_joinOp hq, if_neg hk]
    rfl
  · rw [ops_joinOp hq, if_pos rfl]
    exact passSlice_joinOp hq hst hrun
  · rw [dropOp_joinOp_resting hq hu k]
    rfl

end

end Sys2Proof.Machine
end

section
/-! Slots and ways of the Flow Ledger (R278, R293, R294): what a change of a hot part, a use of a way and a visit to a slot change. -/

namespace Sys2Proof.Machine
open Sys2Proof

/-! ### What the cache of hot parts changes -/

/-- Between `s` and `t` nothing has changed beyond what the cache of hot parts may change: ways, the scheduler, counters and
measurement. -/
def Cached (s t : State) : Prop :=
  { t with ctr := s.ctr, perf := s.perf, free := s.free, dw := s.dw, led := { t.led with ways := s.led.ways } } = s

theorem Cached.refl (s : State) : Cached s s := rfl

theorem Cached.trans {s t u : State} (h : Cached s t) (g : Cached t u) : Cached s u := by
  have e := congrArg (fun x : State => { x with ctr := s.ctr, perf := s.perf, free := s.free, dw := s.dw,
                                                led := { x.led with ways := s.led.ways } }) g
  exact e.trans h

theorem Cached.of_measured {s t : State} (h : Measured s t) : Cached s t := by
  have e := congrArg (fun x : State => { x with dw := s.dw, led := { x.led with ways := s.led.ways } }) h.eq
  exact e

theorem Cached.slots {s t : State} (h : Cached s t) : t.led.slots = s.led.slots := by
  have e := congrArg (fun x : State => x.led.slots) h
  exact e

theorem Cached.slices {s t : State} (h : Cached s t) : t.led.slices = s.led.slices := by
  have e := congrArg (fun x : State => x.led.slices) h
  exact e

theorem Cached.nextOp {s t : State} (h : Cached s t) : t.led.nextOp = s.led.nextOp := by
  have e := congrArg (fun x : State => x.led.nextOp) h
  exact e

theorem Cached.pip {s t : State} (h : Cached s t) : t.pip = s.pip := by
  have e := congrArg State.pip h
  exact e

theorem Cached.dict {s t : State} (h : Cached s t) : t.dict = s.dict := by
  have e := congrArg State.dict h
  exact e

theorem Cached.clk {s t : State} (h : Cached s t) : t.clk = s.clk := by
  have e := congrArg State.clk h
  exact e

theorem Cached.svc {s t : State} (h : Cached s t) : t.svc = s.svc := by
  have e := congrArg State.svc h
  exact e

theorem Cached.pair {s t : State} (h : Cached s t) : t.pair = s.pair := by
  have e := congrArg State.pair h
  exact e

theorem putWay_cached (r : Nat) (w : Way) (s : State) : Cached s (putWay r w s) := rfl

theorem issueWay_cached (kind rec cls notBefore deadline : Nat) (s : State) :
    Cached s (issueWay kind rec cls notBefore deadline s) := rfl

theorem endWay_cached (kind rec : Nat) (s : State) : Cached s (endWay kind rec s) := rfl

theorem useWay_cached (r : Nat) (s : State) : Cached s (useWay r s) := by
  unfold useWay
  split
  · exact putWay_cached _ _ _
  · exact Cached.refl s

/-- R294: a hot part that changes is the slot's; beside it the cache alone changes. -/
theorem setHot_cached (r h : Nat) (s : State) : Cached (putSlot r { slotAt s r with hot := h } s) (setHot r h s) := by
  unfold setHot
  dsimp only
  split
  · exact Cached.refl _
  · split
    · exact Cached.of_measured (occurGlobal_measured _ _ _ (Measured.refl _))
    · split
      · exact putWay_cached _ _ _
      · split
        · exact putWay_cached _ _ _
        · exact (putWay_cached _ _ _).trans (issueWay_cached _ _ _ _ _ _)

/-! ### Slots -/

theorem slotAt_congr {s t : State} (h : t.led.slots = s.led.slots) (k : Nat) : slotAt t k = slotAt s k := by
  rw [slotAt, slotAt, h]

theorem hotAt_congr {s t : State} (h : t.led.slots = s.led.slots) (k : Nat) : hotAt t k = hotAt s k := by
  rw [hotAt, hotAt, slotAt_congr h]

theorem coldAt_congr {s t : State} (h : t.led.slots = s.led.slots) (k : Nat) : coldAt t k = coldAt s k := by
  rw [coldAt, coldAt, slotAt_congr h]

theorem slotAt_putSlot (r k : Nat) (x : Slot) (s : State) : slotAt (putSlot r x s) k = if k = r then x else slotAt s k :=
  tabGet_put ..

theorem slotAt_setHot (r h k : Nat) (s : State) :
    slotAt (setHot r h s) k = if k = r then { slotAt s r with hot := h } else slotAt s k :=
  (slotAt_congr (setHot_cached r h s).slots k).trans (slotAt_putSlot ..)

theorem slotAt_setHot_self (r h : Nat) (s : State) : slotAt (setHot r h s) r = { slotAt s r with hot := h } :=
  (slotAt_setHot ..).trans (if_pos rfl)

theorem hotAt_setHot_self (r h : Nat) (s : State) : hotAt (setHot r h s) r = h := congrArg Slot.hot (slotAt_setHot_self r h s)

theorem coldAt_setHot (r h k : Nat) (s : State) : coldAt (setHot r h s) k = coldAt s k := by
  rw [coldAt, slotAt_setHot]
  split
  case isTrue hk =>
    rw [hk]
    rfl
  case isFalse => rfl

theorem slotAt_setHot_ne {r k : Nat} (h : Nat) (s : State) (hk : k ≠ r) : slotAt (setHot r h s) k = slotAt s k :=
  (slotAt_setHot ..).trans (if_neg hk)

theorem setHot_slices (r h : Nat) (s : State) : (setHot r h s).led.slices = s.led.slices := (setHot_cached r h s).slices

theorem setHot_pip (r h : Nat) (s : State) : (setHot r h s).pip = s.pip := (setHot_cached r h s).pip

theorem setHot_dict (r h : Nat) (s : State) : (setHot r h s).dict = s.dict := (setHot_cached r h s).dict

/-! ### The ledger at low water, and the slots on die -/

theorem lowLedger_congr {s t : State} (h : t.dict = s.dict) : lowLedger t = lowLedger s := by
  unfold lowLedger
  rw [rd_congr h]

theorem onDie_congr {s t : State} (hd : t.dict = s.dict) (hw : t.led.ways = s.led.ways) (r : Nat) : onDie t r = onDie s r := by
  unfold onDie
  rw [lowLedger_congr hd, hw]

/-! ### A slot that is ready -/

theorem blocked_nil {s : State} {r : Nat} (h : ∀ f, (slc s f).repairs = []) : blocked s [] r = false := by
  rw [blocked, underRepair, h]
  rfl

/-- R286: a slot on die that nothing holds is reached at once. -/
theorem aimSlot_ready {o : LedOp} {s : State} {r : Nat} (h : ∀ f, (slc s f).repairs = []) (hr : onDie s r = true) :
    aimSlot [] o r s = .at_ r := by
  unfold aimSlot
  dsimp only
  rw [blocked_nil h, blocked_nil h, hr, if_neg (by decide), if_neg (by decide), if_neg (by simp)]

/-! ### The end of a sweep -/

/-- The end of a sweep changes the services and the counters. -/
theorem endSweep_services (s : State) : { endSweep s with svc := s.svc, ctr := s.ctr } = s := by
  have hset (u : State) (r : Nat) (x : BackendSt) : { setBe r x u with svc := s.svc, ctr := s.ctr } = { u with svc := s.svc, ctr := s.ctr } := rfl
  have hall (l : List Nat) (u : State) : { forEach l (fun t r => setBe r { be t r with records := (be t r).count, count := 0 } t) u with
      svc := s.svc, ctr := s.ctr } = { u with svc := s.svc, ctr := s.ctr } := by
    induction l generalizing u with
    | nil => rfl
    | cons a l ih => exact (ih _).trans (hset _ _ _)
  unfold endSweep
  split
  · rfl
  · exact hall _ _

theorem endSweep_led (s : State) : (endSweep s).led = s.led := by
  have e := congrArg State.led (endSweep_services s)
  exact e

theorem endSweep_pip (s : State) : (endSweep s).pip = s.pip := by
  have e := congrArg State.pip (endSweep_services s)
  exact e

theorem endSweep_dw (s : State) : (endSweep s).dw = s.dw := by
  have e := congrArg State.dw (endSweep_services s)
  exact e

theorem dropOp_repairs (f id k : Nat) (s : State) : (slc (dropOp f id s) k).repairs = (slc s k).repairs := by
  rw [dropOp, slc_setSlc]
  split
  case isTrue hk => rw [hk]
  case isFalse => rfl

theorem joinOp_repairs (o : LedOp) (k : Nat) (s : State) : (slc (joinOp o s) k).repairs = (slc s k).repairs := by
  rw [joinOp, slc_setSlc]
  split
  case isTrue hk =>
    rw [hk]
  case isFalse => rfl

/-- R286: an operation that reaches its apply point as it arrives, in a ledger where nothing is under way: what it leaves. -/
theorem runLedger_joinOp_quiet {o : LedOp} {s u : State} (hq : ledgerQuiet s) (hst : o.stage ≠ .held)
    (hrun : runOp [] o (joinOp o s) = .done u) (hu : OpsKept (joinOp o s) u) : ∃ t, runLedger (joinOp o s) = t ∧
      ledgerQuiet t ∧ t.led.slots = u.led.slots ∧ t.led.ways = (useWay o.home u).led.ways ∧ t.pip = u.pip ∧ t.dw = u.dw ∧
      t.dict = u.dict := by
  refine ⟨_, runLedger_joinOp hq.resting hst hrun hu, fun f => ⟨?_, ?_⟩, ?_, ?_, ?_, ?_, ?_⟩
  · rw [slc_congr (congrArg Led.slices (endSweep_led _))]
    exact dropOp_joinOp_resting hq.resting hu f
  · rw [slc_congr (congrArg Led.slices (endSweep_led _)), dropOp_repairs, slc_congr (useWay_slices _ _), (hu f).2, joinOp_repairs]
    exact (hq f).2
  · rw [endSweep_led]
    exact (useWay_cached o.home u).slots
  · rw [endSweep_led]
    rfl
  · rw [endSweep_pip]
    exact (useWay_cached o.home u).pip
  · rw [endSweep_dw]
    unfold dropOp setSlc setLed useWay
    split <;> rfl
  · have e := congrArg State.dict (endSweep_services (dropOp o.slice o.id (useWay o.home u)))
    exact e.trans (useWay_cached o.home u).dict

end Sys2Proof.Machine
end

section
/-! O32, O33 (R279, R294, R295, R297, R298, R319, R320, R324, R434, R437, R439): folds, write-backs and aging steps that a list
dispatches, and what HBM answers. -/

namespace Sys2Proof.Machine
open Sys2Proof

theorem recSlice_recNo {f n : Nat} (hn : isSlot n = true) : recSlice (recNo f n) = f := by
  have hn' : n < 4194304 := of_decide_eq_true hn
  rw [recSlice, recNo]
  omega

/-! ### A dispatched operation of a way (R437, R439) -/

theorem countLate_dw (o : DwOp) (s : State) : (countLate o s).dw = s.dw := by
  unfold countLate
  dsimp only
  have hpeak (v : Nat) : Noted s (ctrMax (cKind o.kind 0x18) v (count (cKind o.kind 0x10) s)) :=
    ctrMax_noted _ _ _ (count_noted _ _ (Noted.refl s))
  split
  · rfl
  · split
    · exact (raiseOnce_noted _ _ _ _ (wr_noted _ _ _ (hpeak _))).dw
    · exact (hpeak _).dw

theorem countLate_clk (o : DwOp) (s : State) : (countLate o s).clk = s.clk := by
  unfold countLate
  dsimp only
  have hpeak (v : Nat) : Noted s (ctrMax (cKind o.kind 0x18) v (count (cKind o.kind 0x10) s)) :=
    ctrMax_noted _ _ _ (count_noted _ _ (Noted.refl s))
  split
  · rfl
  · split
    · exact (raiseOnce_noted _ _ _ _ (wr_noted _ _ _ (hpeak _))).clk
    · exact (hpeak _).clk

/-- What a dispatch counts is no register but LATE_LAST and those of events. -/
theorem rd_countLate {obj : Nat} (o : DwOp) (s : State) (ho : obj < 2 ^ 32) (ha : objArea obj ≠ 0x7C) (hl : obj ≠ oLateLast) :
    rd (countLate o s) obj = rd s obj := by
  unfold countLate
  dsimp only
  have hpeak (v : Nat) : (ctrMax (cKind o.kind 0x18) v (count (cKind o.kind 0x10) s)).dict = s.dict := by
    unfold ctrMax
    split <;> rfl
  split
  · rfl
  · split
    · rw [rd_raiseOnce_of_area _ _ _ (by decide) ho ha, rd_wr_other hl, rd_congr (hpeak _)]
    · exact rd_congr (hpeak _) obj 0

theorem countDispatch_dw (o : DwOp) (s : State) : (countDispatch o s).dw = s.dw :=
  (countLate_dw o _).trans (occurGlobal_measured 0x110 1 s (Measured.refl s)).dw

theorem countDispatch_cclk (o : DwOp) (s : State) : (countDispatch o s).clk.cclk = s.clk.cclk :=
  (congrArg Clk.cclk (countLate_clk o _)).trans (congrArg Clk.cclk (occurGlobal_measured 0x110 1 s (Measured.refl s)).clk)

theorem lowLedger_countDispatch (o : DwOp) (s : State) : lowLedger (countDispatch o s) = lowLedger s := by
  have hrd : rd (countDispatch o s) oLowWaterFlags = rd s oLowWaterFlags :=
    (rd_countLate o (count (cKind o.kind 0x08) (occurGlobal 0x110 1 s)) (by decide) (by decide) (by decide)).trans
      (rd_congr (s := s) (t := count (cKind o.kind 0x08) (occurGlobal 0x110 1 s))
        (count_dict.trans (occurGlobal_measured 0x110 1 s (Measured.refl s)).dict) _ _)
  rw [lowLedger, hrd, lowLedger]

/-- The operation with which a dispatched write-back or fold enters its slice. -/
def wayLedOp (kind r : Nat) (ecc : Ecc) (s : State) : LedOp :=
  { id := s.led.nextOp, slice := recSlice r, who := .way kind, home := r, slot := some r, ecc := [(r, ecc)] }

/-- The state in which it enters: its way holds the operation no more, and the dispatch is counted. -/
def wayTaken (kind r : Nat) (w : DwOp) (s : State) : State :=
  let t := useCycle (deferredKey (recSlice r)) s.clk.cclk (countDispatch w (endWay kind r s))
  setLed { t.led with nextOp := s.led.nextOp + 1 } t

/-- What a dispatch leaves as it was: slots, ways and slices, frames, the time, low water; and its way holds no such operation. -/
structure DispatchKept (kind r : Nat) (s t : State) : Prop where
  slots : t.led.slots = s.led.slots
  ways : t.led.ways = s.led.ways
  slices : t.led.slices = s.led.slices
  pip : t.pip = s.pip
  cclk : t.clk.cclk = s.clk.cclk
  low : lowLedger t = lowLedger s
  held : t.dw.wayHeld = s.dw.wayHeld.filter (fun o => !(o.kind = kind && o.args = [r]))

theorem wayTaken_kept (kind r : Nat) (w : DwOp) (s : State) : DispatchKept kind r s (wayTaken kind r w s) := by
  have hi : Issued s (countDispatch w (endWay kind r s)) := countDispatch_issued _ _ (endWay_issued _ _ _ (Issued.refl s))
  have hslots := congrArg Led.slots hi.led
  have hways := congrArg Led.ways hi.led
  have hslices := congrArg Led.slices hi.led
  refine ⟨hslots, hways, hslices, hi.pip, countDispatch_cclk _ _, ?_, ?_⟩
  · exact (lowLedger_countDispatch w (endWay kind r s)).trans rfl
  · exact congrArg Dw.wayHeld (countDispatch_dw w (endWay kind r s))

theorem onDie_of_kept {kind r : Nat} {s t : State} (h : DispatchKept kind r s t) (k : Nat) : onDie t k = onDie s k := by
  unfold onDie
  rw [h.low, h.ways]

theorem dispatchWay_taken {kind f n : Nat} {ecc : Ecc} {s : State} (hn : isSlot n = true)
    (hnext : (nextWay s kind (recNo f n)).isSome = true) (ht : takesDeferred s f = true) :
    ∃ w, dispatchWay kind (recNo f n) ecc s =
      runLedger (joinOp (wayLedOp kind (recNo f n) ecc s) (wayTaken kind (recNo f n) w s)) := by
  obtain ⟨w, hw⟩ := Option.isSome_iff_exists.mp hnext
  have hi : Issued s (countDispatch w (endWay kind (recNo f n) s)) :=
    countDispatch_issued _ _ (endWay_issued _ _ _ (Issued.refl s))
  have hcclk : (countDispatch w (endWay kind (recNo f n) s)).clk.cclk = s.clk.cclk := countDispatch_cclk _ _
  refine ⟨w, ?_⟩
  unfold dispatchWay
  rw [hw]
  dsimp only
  rw [recSlice_recNo hn, ht, if_neg (by decide)]
  have hid : (useCycle (deferredKey f) (countDispatch w (endWay kind (recNo f n) s)).clk.cclk
      (countDispatch w (endWay kind (recNo f n) s))).led.nextOp = s.led.nextOp := congrArg Led.nextOp hi.led
  unfold enterDeferred newOp enterOp wayLedOp wayTaken
  dsimp only
  rw [hid, hcclk, recSlice_recNo hn]

theorem wayOp_of_held {kind r : Nat} {s t : State} (h : DispatchKept kind r s t) : wayOp t kind r = none := by
  rw [wayOp, h.held, List.find?_filter]
  refine List.find?_eq_none.mpr fun o _ ho => ?_
  simp only [Bool.and_eq_true, Bool.not_eq_true', Bool.and_eq_false_iff, decide_eq_true_eq, decide_eq_false_iff_not] at ho
  tauto

theorem DispatchKept.quiet_of {kind r : Nat} {s t : State} (h : DispatchKept kind r s t) (hq : ledgerQuiet s) : ledgerQuiet t :=
  hq.of_kept (OpsKept.of_slices h.slices)

/-! ### Folds (R279) -/

theorem wayOp_issueWay_ne {kind kind' rec k cls nb dl : Nat} (s : State) (h : kind' ≠ kind) :
    wayOp (issueWay kind rec cls nb dl s) kind' k = wayOp s kind' k := by
  have hne : decide (kind = kind') = false := decide_eq_false (Ne.symm h)
  refine (List.find?_append ..).trans ?_
  simp only [List.find?_cons, hne, Bool.false_and, List.find?_nil, Option.or_none]
  rfl

/-- A change of a hot part issues no operation of a way but a write-back. -/
theorem wayOp_setHot_ne {kind r h k : Nat} (s : State) (hk : kind ≠ 1) : wayOp (setHot r h s) kind k = wayOp s kind k := by
  have hdw {t u : State} (e : t.dw = u.dw) : wayOp t kind k = wayOp u kind k := by rw [wayOp, wayOp, e]
  unfold setHot
  dsimp only
  split
  · rfl
  · split
    · exact hdw (occurGlobal_measured 0x102 1 _ (Measured.refl _)).dw
    · split
      · rfl
      · split
        · rfl
        · exact wayOp_issueWay_ne _ hk

theorem setCold_measured (r c : Nat) {s : State} (h : lowLedger s = false) :
    Measured (putSlot r { slotAt s r with cold := c, coldBad := false } s) (setCold r c s) := by
  rw [setCold, if_neg (by simp [h])]
  exact occurGlobal_measured _ _ _ (Measured.refl _)

theorem coldRead_readable {r : Nat} {ecc : Ecc} (s : State) (h : ecc ≠ .uncorrectable) : ∃ n, coldRead r ecc s = { s with ctr := n } := by
  cases ecc with
  | clean => exact ⟨s.ctr, rfl⟩
  | corrected => exact ⟨_, rfl⟩
  | uncorrectable => exact absurd rfl h

/-- The bytes of a number are those of its low part. -/
theorem leBytes_congr {n v w : Nat} (h : v % 256 ^ n = w % 256 ^ n) : leBytes n v = leBytes n w := by
  induction n generalizing v w with
  | zero => rfl
  | succ n ih =>
    rw [Nat.pow_succ', Nat.mod_mul, Nat.mod_mul] at h
    have hlow : v % 256 = w % 256 := by
      have := congrArg (· % 256) h
      simpa [Nat.add_mul_mod_self_left] using this
    have hhigh : v / 256 % 256 ^ n = w / 256 % 256 ^ n := by omega
    have hbyte : BitVec.ofNat 8 v = BitVec.ofNat 8 w := BitVec.eq_of_toNat_eq hlow
    rw [leBytes, leBytes, hbyte, ih hhigh]

/-- What stands behind KEY leaves it. -/
theorem cKey_setByteFld (c o n x : Nat) (h : 48 ≤ o) : cKey (setByteFld c o n x) = cKey c := by
  have hfld : byteFld (setByteFld c o n x) 0 48 = byteFld c 0 48 := byteFld_setByteFld_ne (.inr (by omega))
  have hmod (v : Nat) : byteFld v 0 48 = v % 256 ^ 48 := by
    rw [byteFld, fld, Nat.mul_zero, Nat.shiftRight_zero, Nat.pow_mul]
  exact leBytes_congr (by rw [← hmod, ← hmod, hfld])

/-- The cold totals of a record after a fold: its hot counts are in them. -/
def foldedCold (x : Slot) : Nat :=
  setByteFld (setByteFld x.cold 0x30 8 (byteFld x.cold 0x30 8 + hPackets x.hot)) 0x38 8 (byteFld x.cold 0x38 8 + hOctets x.hot)

/-- A record as a fold leaves it: no count in its hot part, both in its cold part. -/
def foldedSlot (x : Slot) : Slot := { hot := setByteFld x.hot 0x14 7 0, cold := foldedCold x, coldBad := false }

theorem foldedSlot_spec (x : Slot) : hPackets (foldedSlot x).hot = 0 ∧ hOctets (foldedSlot x).hot = 0 ∧
    byteFld (foldedSlot x).cold 0x30 8 = (byteFld x.cold 0x30 8 + hPackets x.hot) % 2 ^ 64 ∧
    byteFld (foldedSlot x).cold 0x38 8 = (byteFld x.cold 0x38 8 + hOctets x.hot) % 2 ^ 64 ∧
    hSig (foldedSlot x).hot = hSig x.hot ∧ hConn (foldedSlot x).hot = hConn x.hot ∧ cKey (foldedSlot x).cold = cKey x.cold := by
  refine ⟨fld_setFld_zero (by decide), fld_setFld_zero (by decide), ?_, byteFld_setByteFld_self .., byteFld_setByteFld_ne (by decide),
    byteFld_setByteFld_ne (by decide), ?_⟩
  · exact (byteFld_setByteFld_ne (by decide)).trans (byteFld_setByteFld_self ..)
  · exact (cKey_setByteFld _ _ _ _ (by decide)).trans (cKey_setByteFld _ _ _ _ (by decide))

section
variable {o : LedOp} {r : Nat} {ecc : Ecc} {s : State} (he : eccAt o.ecc r = ecc) (hu : ecc ≠ .uncorrectable)
  (hlow : lowLedger s = false) (hv : hValid (hotAt s r) = true) (ha : hAlias (hotAt s r) = false)
  (hp : hPending (hotAt s r) = false) (hb : (slotAt s r).coldBad = false)
include he hu hlow hv ha hp hb

omit hlow in
/-- A fold writes the hot part, and then the cold part. -/
theorem foldNow_eq : ∃ n, foldNow o r s = count (cSlice (recSlice r) 0x50) (setCold r (foldedCold (slotAt s r))
    (setHot r (setByteFld (hotAt s r) 0x14 7 0) { s with ctr := n })) := by
  obtain ⟨n, hread⟩ := coldRead_readable (r := r) s hu
  have hfirst : (if hValid (hotAt s r) && !hAlias (hotAt s r) && !hPending (hotAt s r) then coldRead r (eccAt o.ecc r) s else s) =
      { s with ctr := n } := by
    rw [hv, ha, hp, he, hread]
    rfl
  have hfold : ¬ (!hValid (slotAt s r).hot || hAlias (slotAt s r).hot || hPending (slotAt s r).hot || (slotAt s r).coldBad) = true := by
    have hv' : hValid (slotAt s r).hot = true := hv
    have ha' : hAlias (slotAt s r).hot = false := ha
    have hp' : hPending (slotAt s r).hot = false := hp
    rw [hv', ha', hp', hb]
    decide
  refine ⟨n, ?_⟩
  unfold foldNow
  rw [hfirst]
  exact if_neg hfold

theorem foldNow_spec : (∀ k, slotAt (foldNow o r s) k = if k = r then foldedSlot (slotAt s r) else slotAt s k) ∧
    (foldNow o r s).led.slices = s.led.slices ∧ (foldNow o r s).pip = s.pip ∧
    ∀ kind k, kind ≠ 1 → wayOp (foldNow o r s) kind k = wayOp s kind k := by
  obtain ⟨n, heq⟩ := foldNow_eq he hu hv ha hp hb
  generalize hh : setHot r (setByteFld (hotAt s r) 0x14 7 0) { s with ctr := n } = v at heq
  have hlow' : lowLedger v = false := by
    rw [← hh]
    exact (lowLedger_congr (s := { s with ctr := n }) (setHot_dict _ _ _)).trans hlow
  have hm := setCold_measured r (foldedCold (slotAt s r)) hlow'
  have hself : slotAt v r = { slotAt s r with hot := setByteFld (hotAt s r) 0x14 7 0 } := by
    rw [← hh]
    exact slotAt_setHot_self _ _ _
  have hother (k : Nat) (hk : k ≠ r) : slotAt v k = slotAt s k := by
    rw [← hh]
    exact slotAt_setHot_ne _ _ hk
  rw [heq]
  refine ⟨fun k => ?_, ?_, ?_, fun kind k hk => ?_⟩
  · refine (slotAt_congr (congrArg Led.slots hm.led) k).trans ((slotAt_putSlot ..).trans ?_)
    split
    · rw [hself]
      rfl
    · exact hother k ‹_›
  · refine (congrArg Led.slices hm.led).trans ?_
    rw [← hh]
    exact setHot_slices _ _ _
  · refine hm.pip.trans ?_
    rw [← hh]
    exact setHot_pip _ _ _
  · have hdw : (setCold r (foldedCold (slotAt s r)) v).dw = v.dw := hm.dw
    have hheld : wayOp (setCold r (foldedCold (slotAt s r)) v) kind k = wayOp v kind k := by rw [wayOp, hdw, wayOp]
    refine hheld.trans ?_
    rw [← hh]
    exact wayOp_setHot_ne _ hk

end

/-! ### Settling O32 -/

theorem exec_fold {f n : Nat} (cold : Ecc) (s : State) (hf : isSlice f = true) (hn : isSlot n = true) :
    exec (.fold f n cold) s = .next (dispatchWay 2 (recNo f n) cold s) := if_pos (by rw [hf, hn]; rfl)

section
variable {r : Nat} {ecc : Ecc} {s v : State} (h : ∀ f, (slc v f).repairs = []) (hr : onDie v r = true)
include h hr

/-- One attempt at a fold on a slot that is ready. -/
theorem runOp_fold : runOp [] (wayLedOp 2 r ecc s) v = .done (foldNow (wayLedOp 2 r ecc s) r v) := by
  have haim : aimSlot [] (wayLedOp 2 r ecc s) r v = .at_ r := aimSlot_ready h hr
  unfold runOp
  dsimp only [wayLedOp, Option.getD_some] at haim ⊢
  rw [if_neg (by simp), haim]
  rfl

/-- One attempt at a write-back on a slot that is ready. -/
theorem runOp_writeback {w : Way} (hw : tabFind v.led.ways r = some w) :
    runOp [] (wayLedOp 1 r ecc s) v = .done (writeNow (wayLedOp 1 r ecc s) r v) := by
  have haim : aimSlot [] (wayLedOp 1 r ecc s) r v = .at_ r := aimSlot_ready h hr
  unfold runOp
  dsimp only [wayLedOp, Option.getD_some] at haim ⊢
  rw [hw, if_neg (by simp), haim]
  rfl

end

theorem wayLedOp_entered (kind r : Nat) (ecc : Ecc) (s : State) : (wayLedOp kind r ecc s).stage ≠ .held := by
  show LedStage.reading ≠ .held
  decide

theorem eccAt_wayLedOp (kind r : Nat) (ecc : Ecc) (s : State) : eccAt (wayLedOp kind r ecc s).ecc r = ecc := by
  unfold eccAt wayLedOp
  simp

/-- An operation that joins its slice leaves slots, ways, frames, the scheduler and the registers. -/
theorem joinOp_leaves (o : LedOp) (s : State) : (joinOp o s).led.slots = s.led.slots ∧ (joinOp o s).led.ways = s.led.ways ∧
    (joinOp o s).pip = s.pip ∧ (joinOp o s).dw = s.dw ∧ (joinOp o s).dict = s.dict ∧ (joinOp o s).clk = s.clk :=
  ⟨rfl, rfl, rfl, rfl, rfl, rfl⟩

/-- Settles O32: the fold reaches its record as it is dispatched, and moves the hot counts (`foldedSlot_spec`). -/
theorem foldKeepsTheSums : Obligations.FoldKeepsTheSums := by
  intro f n cold s hf hn r hq ht hnext hcold hlow hdie hv ha hp hb
  obtain ⟨w, hex⟩ := dispatchWay_taken (ecc := cold) hn hnext ht
  have hk := wayTaken_kept 2 r w s
  have hqt : ledgerQuiet (wayTaken 2 r w s) := hk.quiet_of hq
  obtain ⟨hjslots, hjways, hjpip, hjdw, hjdict, -⟩ := joinOp_leaves (wayLedOp 2 r cold s) (wayTaken 2 r w s)
  generalize hj : joinOp (wayLedOp 2 r cold s) (wayTaken 2 r w s) = v at hjslots hjways hjpip hjdw hjdict
  have hrep : ∀ k, (slc v k).repairs = [] := fun k => by
    rw [← hj, joinOp_repairs]
    exact (hqt k).2
  have hvdie : onDie v r = true := by rw [onDie_congr hjdict hjways, onDie_of_kept hk, hdie]
  have hvslot (k : Nat) : slotAt v k = slotAt s k := slotAt_congr (hjslots.trans hk.slots) k
  have hvhot : hotAt v r = hotAt s r := hotAt_congr (hjslots.trans hk.slots) r
  have hvlow : lowLedger v = false := by rw [lowLedger_congr hjdict, hk.low, hlow]
  obtain ⟨hslots, hslices, hpip, hway⟩ := foldNow_spec (eccAt_wayLedOp 2 r cold s) hcold hvlow (hvhot ▸ hv) (hvhot ▸ ha)
    (hvhot ▸ hp) ((congrArg Slot.coldBad (hvslot r)).trans hb)
  obtain ⟨t, hrun, htq, htslots, -, htpip, htdw, -⟩ := runLedger_joinOp_quiet (o := wayLedOp 2 r cold s)
    (u := foldNow (wayLedOp 2 r cold s) r v) hqt (wayLedOp_entered 2 r cold s) (by rw [hj]; exact runOp_fold hrep hvdie)
    (by rw [hj]; exact OpsKept.of_slices hslices)
  have hself : slotAt t r = foldedSlot (slotAt s r) := by
    rw [slotAt_congr htslots, hslots, if_pos rfl, hvslot]
  obtain ⟨hpk, hoc, hpsum, hosum, hsig, hconn, hkey⟩ := foldedSlot_spec (slotAt s r)
  refine ⟨t, (exec_fold cold s hf hn).trans (congrArg Host.Outcome.next (hex.trans hrun)), ?_⟩
  rw [hotAt, coldAt, hself]
  refine ⟨hpk, hoc, hpsum, hosum, hsig, hconn, hkey, fun k hne => ?_, ?_, ?_, htq⟩
  · rw [slotAt_congr htslots, hslots, if_neg hne, hvslot]
  · have hdw : wayOp t 2 r = wayOp (foldNow (wayLedOp 2 r cold s) r v) 2 r := by rw [wayOp, htdw, wayOp]
    have hdw' : wayOp v 2 r = wayOp (wayTaken 2 r w s) 2 r := by rw [wayOp, hjdw, wayOp]
    rw [hdw, hway 2 r (by decide), hdw', wayOp_of_held hk]
  · rw [htpip, hpip, hjpip, hk.pip]

end Sys2Proof.Machine
end

section
/-! O33 (R294, R295, R297, R298, R319, R320, R324, R434, R439): write-backs and aging steps that a list dispatches, and what HBM
answers. -/

namespace Sys2Proof.Machine
open Sys2Proof

/-! ### Write-backs (R294) -/

theorem exec_writeback {f n : Nat} (way : Ecc) (s : State) (hf : isSlice f = true) (hn : isSlot n = true) :
    exec (.writeback f n way) s = .next (dispatchWay 1 (recNo f n) way s) := if_pos (by rw [hf, hn]; rfl)

theorem wayRead_clean (r : Nat) (s : State) : wayRead r .clean s = s := by
  unfold wayRead
  split
  · rfl
  · rfl

/-- A use of a way notes the time in it, and leaves every other way. -/
theorem ways_useWay (r k : Nat) (s : State) : tabFind (useWay r s).led.ways k =
    if k = r then (tabFind s.led.ways r).map (fun w => { w with used := s.clk.cclk }) else tabFind s.led.ways k := by
  unfold useWay
  cases hw : tabFind s.led.ways r with
  | none =>
    dsimp only
    split
    case isTrue hk => rw [hk, hw]; rfl
    case isFalse => rfl
  | some w => exact tabFind_insert ..

/-- A write-back makes its way clean with the content written. -/
theorem writeNow_spec {o : LedOp} {r : Nat} {w : Way} {s : State} (he : eccAt o.ecc r = .clean) (hw : tabFind s.led.ways r = some w)
    (hb : w.bad = false) (h : ∀ f, (slc s f).repairs = []) :
    Cached s (writeNow o r s) ∧ (writeNow o r s).dw = s.dw ∧ ∀ k, tabFind (writeNow o r s).led.ways k =
      if k = r then some { w with dirty := false, clean := hotAt s r } else tabFind s.led.ways k := by
  have hrepair : underRepair s r = false := by
    rw [underRepair, h]
    rfl
  have heq : writeNow o r s = occurGlobal 0x102 1 (count (cSlice (recSlice r) 0x40)
      (putWay r { w with dirty := false, clean := hotAt s r } s)) := by
    unfold writeNow
    rw [he, wayRead_clean]
    dsimp only
    rw [hw]
    dsimp only
    rw [hb, hrepair]
    rfl
  have hm : Measured (count (cSlice (recSlice r) 0x40) (putWay r { w with dirty := false, clean := hotAt s r } s))
    (writeNow o r s) := heq ▸ occurGlobal_measured _ _ _ (Measured.refl _)
  refine ⟨Cached.trans ?_ (Cached.of_measured hm), hm.dw, fun k => ?_⟩
  · exact (putWay_cached r { w with dirty := false, clean := hotAt s r } s)
  · exact (congrArg (fun l : Led => tabFind l.ways k) hm.led).trans (tabFind_insert ..)

theorem writeback_spec {f n : Nat} {w : Way} {s : State} (hf : isSlice f = true) (hn : isSlot n = true) (hq : ledgerQuiet s)
    (ht : takesDeferred s f = true) (hnext : (nextWay s 1 (recNo f n)).isSome = true)
    (hw : tabFind s.led.ways (recNo f n) = some w) (hb : w.bad = false) : ∃ t, exec (.writeback f n .clean) s = .next t ∧
      tabFind t.led.ways (recNo f n) = some { w with dirty := false, clean := hotAt s (recNo f n), used := s.clk.cclk } ∧
      (∀ k, k ≠ recNo f n → tabFind t.led.ways k = tabFind s.led.ways k) ∧ t.led.slots = s.led.slots ∧
      wayOp t 1 (recNo f n) = none ∧ ledgerQuiet t := by
  obtain ⟨d, hex⟩ := dispatchWay_taken (ecc := .clean) hn hnext ht
  have hexec := (exec_writeback .clean s hf hn).trans (congrArg Host.Outcome.next hex)
  generalize recNo f n = r at hexec hw hnext
  have hk := wayTaken_kept 1 r d s
  have hqt : ledgerQuiet (wayTaken 1 r d s) := hk.quiet_of hq
  obtain ⟨hjslots, hjways, -, hjdw, hjdict, hjclk⟩ := joinOp_leaves (wayLedOp 1 r .clean s) (wayTaken 1 r d s)
  generalize hj : joinOp (wayLedOp 1 r .clean s) (wayTaken 1 r d s) = v at hjslots hjways hjdw hjdict hjclk
  have hrep : ∀ k, (slc v k).repairs = [] := fun k => by
    rw [← hj, joinOp_repairs]
    exact (hqt k).2
  have hvw : tabFind v.led.ways r = some w := by rw [hjways, hk.ways, hw]
  have hvdie : onDie v r = true := by
    rw [onDie, hvw, Option.map_some, hb]
    simp
  obtain ⟨hc, hdw, hways⟩ := writeNow_spec (eccAt_wayLedOp 1 r .clean s) hvw hb hrep
  obtain ⟨t, hrun, htq, htslots, htways, -, htdw, -⟩ := runLedger_joinOp_quiet (o := wayLedOp 1 r .clean s)
    (u := writeNow (wayLedOp 1 r .clean s) r v) hqt (wayLedOp_entered 1 r .clean s) (by rw [hj]; exact runOp_writeback hrep hvdie hvw)
    (by rw [hj]; exact OpsKept.of_slices hc.slices)
  have hused : (writeNow (wayLedOp 1 r .clean s) r v).clk.cclk = s.clk.cclk := by rw [hc.clk, hjclk, hk.cclk]
  have hhot : hotAt v r = hotAt s r := hotAt_congr (hjslots.trans hk.slots) r
  refine ⟨t, hexec.trans (congrArg Host.Outcome.next hrun), ?_, fun k hne => ?_, ?_, ?_, htq⟩
  · rw [htways]
    refine (ways_useWay r r _).trans ?_
    rw [if_pos rfl, hways, if_pos rfl, hhot, hused]
    rfl
  · rw [htways]
    refine (ways_useWay r k _).trans ?_
    rw [if_neg hne, hways, if_neg hne, hjways, hk.ways]
  · rw [htslots, hc.slots, hjslots, hk.slots]
  · have hdw' : wayOp t 1 r = wayOp (wayTaken 1 r d s) 1 r := by rw [wayOp, htdw, hdw, hjdw, wayOp]
    rw [hdw', wayOp_of_held hk]

/-! ### A slice that takes nothing, and the aging cursor (R434, R439) -/

section
variable {f n : Nat} {s : State}

theorem exec_ledgerAging (hf : isSlice f = true) : exec (.ledgerAging f) s = .next (ageStep f s) := if_pos hf

theorem takesDeferred_halted (h : inService s (16 + f) = false) : takesDeferred s f = false := by
  rw [takesDeferred, sliceOpen, h]
  rfl

theorem dispatchWay_halted (kind : Nat) (ecc : Ecc) (hn : isSlot n = true) (h : inService s (16 + f) = false) :
    dispatchWay kind (recNo f n) ecc s = s := by
  unfold dispatchWay
  dsimp only
  rw [recSlice_recNo hn, takesDeferred_halted h]
  split
  · rfl
  · rfl

theorem ageStep_halted (h : inService s (16 + f) = false) : ageStep f s = s := by
  unfold ageStep
  rw [takesDeferred_halted h]
  split
  · rfl
  · rfl

theorem ageStep_visits {o : DwOp} (ho : nextStep s f = some o) (ht : takesDeferred s f = true)
    (hs : s.svc.swept.testBit f = false) : ageStep f s =
      enterDeferred { id := 0, slice := f, who := .aging, home := recNo f (cursorStep s f), slot := some (recNo f (cursorStep s f)) }
        (if cursorStep s f + 1 < slotsPer (stepCursor f o s) then stepCursor f o s
         else { stepCursor f o s with svc := { (stepCursor f o s).svc with swept := setBit (stepCursor f o s).svc.swept f } }) := by
  unfold ageStep
  rw [ho]
  dsimp only
  rw [ht, hs]
  rfl

end

/-! ### What HBM answers (R295, R297, R298, R324) -/

section
variable {f n : Nat} {hot cold : Ecc} {s : State} (hf : isSlice f = true) (hn : isSlot n = true)
include hf hn

theorem exec_hbmReadReturn : exec (.hbmReadReturn f n hot cold) s = .next (readReturn (recNo f n) hot cold s) :=
  if_pos (by rw [hf, hn]; rfl)

theorem exec_ledgerScrub : exec (.ledgerScrub f n hot cold) s = .next (scrubSlot f n hot cold s) :=
  if_pos (by rw [hf, hn]; rfl)

omit hf in
theorem readReturn_unawaited (h : (slc s f).reads.contains (recNo f n) = false) : readReturn (recNo f n) hot cold s = s := by
  unfold readReturn
  dsimp only
  rw [recSlice_recNo hn, h]
  rfl

omit hf in
/-- An awaited read leaves its entry; its content is on die, or lost. -/
theorem readReturn_awaited (h : (slc s f).reads.contains (recNo f n) = true) : readReturn (recNo f n) hot cold s =
    let u := when (hot = .corrected) (count (cSlice f 0x68)) (setSlc f { slc s f with reads := (slc s f).reads.erase (recNo f n) } s)
    if hot = .uncorrectable then runLedger (hotUe (recNo f n) u)
    else runLedger (coldRead (recNo f n) cold (installWay (recNo f n) u)) := by
  unfold readReturn
  dsimp only
  rw [recSlice_recNo hn, h]
  rfl

end

/-- A hot part that has come from HBM is on die. -/
theorem onDie_installWay (r : Nat) (s : State) : onDie (installWay r s) r = true := by
  unfold installWay
  split
  case isTrue h => rw [onDie, h, Bool.true_or]
  case isFalse => 
    split
    · have hw (w : Way) (hb : w.bad = false) : onDie (putWay r w s) r = true := by
        have hfind : tabFind (putWay r w s).led.ways r = some w := tabFind_insert_self ..
        rw [onDie, hfind, Option.map_some, hb]
        simp
      exact hw _ rfl
    · have hfind : tabFind (putWay r { used := s.clk.cclk } s).led.ways r = some { used := s.clk.cclk } := tabFind_insert_self ..
      rw [onDie, hfind]
      simp

theorem exec_hbmWriteComplete {f : Nat} {s : State} (hf : isSlice f = true) : exec (.hbmWriteComplete f) s =
    .next (if (slc s f).writes = [] then s
      else runLedger (setSlc f { slc s f with writes := (slc s f).writes.drop 1 } s)) := if_pos hf

/-- Settles O33: a write-back reaches its way as it is dispatched (`writeback_spec`), and an answer of HBM is awaited or does nothing. -/
theorem ledgerMemory : Obligations.LedgerMemory := by
  refine ⟨fun f n s hf hn => ⟨fun w hq ht hnext hw hb => writeback_spec hf hn hq ht hnext hw hb, fun h ecc => ⟨?_, ?_, ?_⟩,
      fun o ho ht hs => ?_⟩,
    fun f n hot cold s hf hn => ⟨fun h => ?_, fun h => ⟨fun hh => ?_, fun hh => ?_, fun hh => ⟨?_, onDie_installWay _ _⟩⟩, fun h => ?_,
      fun w l h => ?_, fun h => ?_, fun he hl hs => ⟨fun hh => ?_, fun hh => ?_, fun hh => ?_⟩⟩⟩
  · rw [exec_writeback ecc s hf hn, dispatchWay_halted 1 ecc hn h]
  · rw [exec_fold ecc s hf hn, dispatchWay_halted 2 ecc hn h]
  · rw [exec_ledgerAging hf, ageStep_halted h]
  · rw [exec_ledgerAging hf]
    exact congrArg Host.Outcome.next (ageStep_visits ho ht hs)
  · rw [exec_hbmReadReturn hf hn, readReturn_unawaited hn h]
  · rw [exec_hbmReadReturn hf hn, readReturn_awaited hn h, hh]
    rfl
  · rw [exec_hbmReadReturn hf hn, readReturn_awaited hn h, hh]
    rfl
  · rw [exec_hbmReadReturn hf hn, readReturn_awaited hn h, hh]
    rfl
  · rw [exec_hbmWriteComplete hf, if_pos h]
  · rw [exec_hbmWriteComplete hf, if_neg (by simp [h]), h]
    rfl
  · rw [exec_ledgerScrub hf hn, scrubSlot, if_pos]
    simpa [or_assoc] using h
  all_goals
    rw [exec_ledgerScrub hf hn, scrubSlot, if_neg (by simp [he, hl]; omega), hh]
    rfl

end Sys2Proof.Machine
end

section
/-! O34 (R320 to R322, R557, R627): errors of cold parts, repairs, faults of a slice, and the end of its flush. -/

namespace Sys2Proof.Machine
open Sys2Proof

/-! ### Errors of cold parts (R322) -/

theorem fld_setBit_ne {v n o w : Nat} (h : n < o ∨ o + w ≤ n) : fld (setBit v n) o w = fld v o w := by
  refine Nat.eq_of_testBit_eq fun i => ?_
  rw [testBit_fld, testBit_fld]
  by_cases hi : i < w
  · rw [testBit_setBit_ne (by omega)]
  · simp [hi]

/-- The slot of a record whose cold part is lost: COLD_PENDING, and the error stands. -/
def pendingSlot (x : Slot) : Slot := { x with hot := setBit x.hot 68, coldBad := true }

/-- The ledger with the error noted in the slot. -/
def coldLost (r : Nat) (s : State) : State :=
  let t := setHot r (setBit (hotAt s r) 68) s
  putSlot r { slotAt t r with coldBad := true } t

theorem slotAt_coldLost (r k : Nat) (s : State) :
    slotAt (coldLost r s) k = if k = r then pendingSlot (slotAt s r) else slotAt s k := by
  refine (slotAt_putSlot ..).trans ?_
  split
  · rw [slotAt_setHot_self]
    rfl
  · exact slotAt_setHot_ne _ _ ‹_›

theorem coldLost_slices (r : Nat) (s : State) : (coldLost r s).led.slices = s.led.slices := setHot_slices _ _ _

theorem coldUe_eq {r : Nat} {s : State} (hv : hValid (hotAt s r) = true) (hl : lowLedger s = false) : coldUe r s =
    let u := count (cSlice (recSlice r) 0x78) (wr oLedgerUeLast (2 ^ 31 + r) (coldLost r s))
    raise evLedgerEcc (2 ^ 31 + r) (setPair { u.pair with errors := u.pair.errors + 1 } u) := if_neg (by rw [hv, hl]; decide)

theorem coldUe_led {r : Nat} {s : State} (hv : hValid (hotAt s r) = true) (hl : lowLedger s = false) :
    (coldUe r s).led = (coldLost r s).led := by
  rw [coldUe_eq hv hl]
  exact (raise_noted _ _ _ (Noted.refl _)).led

theorem coldUe_spec {r : Nat} {s : State} (hv : hValid (hotAt s r) = true) (hl : lowLedger s = false) :
    hPending (hotAt (coldUe r s) r) = true ∧ hValid (hotAt (coldUe r s) r) = true ∧
    hSig (hotAt (coldUe r s) r) = hSig (hotAt s r) ∧ (slotAt (coldUe r s) r).coldBad = true ∧
    (∀ k, k ≠ r → slotAt (coldUe r s) k = slotAt s k) ∧ rd (coldUe r s) oLedgerUeLast = 2 ^ 31 + r ∧
    (coldUe r s).led.slices = s.led.slices := by
  have hslot (k : Nat) : slotAt (coldUe r s) k = if k = r then pendingSlot (slotAt s r) else slotAt s k :=
    (slotAt_congr (congrArg Led.slots (coldUe_led hv hl)) k).trans (slotAt_coldLost r k s)
  have hself : slotAt (coldUe r s) r = pendingSlot (slotAt s r) := (hslot r).trans (if_pos rfl)
  rw [hotAt, hself]
  refine ⟨testBit_setBit_self _ _, (testBit_setBit_ne (by decide)).trans hv, fld_setBit_ne (by decide), rfl,
    fun k hk => (hslot k).trans (if_neg hk), ?_, ?_⟩
  · rw [coldUe_eq hv hl]
    dsimp only
    rw [rd_raise_of_area _ _ (by decide) (by decide) (by decide), rd_congr setPair_dict, rd_congr count_dict, rd_wr_self]
  · rw [coldUe_led hv hl, coldLost_slices]

/-! ### Repairs (R321) -/

section
variable {f n : Nat} {cold : Ecc} {read : List (Nat × Ecc × Ecc)} {s : State} (hf : isSlice f = true) (hn : isSlot n = true)
include hf hn

theorem exec_ledgerRepair : exec (.ledgerRepair f n cold read) s = .next (repairSlot (recNo f n) cold read s) :=
  if_pos (by rw [hf, hn]; rfl)

/-- What a dispatched repair of slot `n` must wait for. -/
abbrev repairReady (f r : Nat) (s : State) (o : DwOp) : Bool :=
  o.args = [r] && sliceOpen s f && inCycle s (deferredKey f) s.clk.cclk = 0 && !repairWaits s r

theorem ledgerRepair_none (h : nextOp s f 4 (repairReady f (recNo f n) s) = none) :
    exec (.ledgerRepair f n cold read) s = .next s := by
  rw [exec_ledgerRepair hf hn]
  unfold repairSlot
  dsimp only
  rw [recSlice_recNo hn, h]

variable {o : DwOp} (h : nextOp s f 4 (repairReady f (recNo f n) s) = some o)
include h

theorem ledgerRepair_ended (hr : (slc (dispatched o (useCycle (deferredKey f) s.clk.cclk s)) f).repairs.contains (recNo f n) = false) :
    exec (.ledgerRepair f n cold read) s = .next (dispatched o (useCycle (deferredKey f) s.clk.cclk s)) := by
  rw [exec_ledgerRepair hf hn]
  unfold repairSlot
  dsimp only
  rw [recSlice_recNo hn, h]
  dsimp only
  rw [hr]
  rfl

theorem ledgerRepair_runs (hr : (slc (dispatched o (useCycle (deferredKey f) s.clk.cclk s)) f).repairs.contains (recNo f n) = true) :
    let w := readForRepair (recNo f n) read (when (cold = .corrected) (count (cSlice f 0x68))
      (dispatched o (useCycle (deferredKey f) s.clk.cclk s)))
    ∃ u, u = rebuildHome (recNo f n) (if role w = 3 then w
        else forEach (List.range 16) (fun t d => forgetSlot (recNo f n) d t) (loseRecord (recNo f n) cold w)) ∧
      exec (.ledgerRepair f n cold read) s = .next (runLedger (count (cSlice f 0x80)
        (setPair { u.pair with repairs := u.pair.repairs + 1 }
          (setSlc f { slc u f with repairs := (slc u f).repairs.erase (recNo f n) } u)))) := by
  intro w
  refine ⟨_, rfl, ?_⟩
  rw [exec_ledgerRepair hf hn]
  unfold repairSlot
  dsimp only
  rw [recSlice_recNo hn, h]
  dsimp only
  rw [hr]
  rfl

end

/-! ### Faults of a slice (R557, R627) -/

theorem exec_ledgerFault {f : Nat} (l : Bool) {s : State} (hf : isSlice f = true) : exec (.ledgerFault f l) s =
    .next (if pairEnabled s then s
      else if l then (if limitExceeded s then raise evLedgerFault f s else s)
      else sliceFault f s) := if_pos hf

theorem pairEnabled_iff (s : State) : pairEnabled s = decide (rd s oPairEnable = 1) := rfl

/-! ### The end of a flush -/

/-- A way as a flush leaves it: none that is not pinned, none dirty. -/
def Flushed (s : State) (r : Nat) : Prop := ∀ w, tabFind s.led.ways r = some w → w.dirty = false ∧ 0 < w.pins

/-- A slot that a flush does not reach. -/
def Unreached (s t : State) (r : Nat) : Prop := tabFind t.led.ways r = tabFind s.led.ways r ∧ slotAt t r = slotAt s r

/-- A way before it goes, or stays pinned: its operations have ended, and a dirty content is written or lost. -/
def flushContent (bad : Bool) (r : Nat) (w : Way) (s : State) : State :=
  let s := endWay 1 r (endWay 2 r s)
  if bad && w.dirty then putSlot r { slotAt s r with hot := w.clean } s
  else if w.dirty then occurGlobal 0x102 1 s
  else s

theorem flushWay_eq (bad : Bool) (r : Nat) (w : Way) (s : State) : flushWay bad r w s =
    if w.pins = 0 then setLed { (flushContent bad r w s).led with ways := tabErase (flushContent bad r w s).led.ways r } (flushContent bad r w s)
    else putWay r { w with dirty := false, clean := hotAt (flushContent bad r w s) r } (flushContent bad r w s) := rfl

theorem flushContent_spec (bad : Bool) (r : Nat) (w : Way) (s : State) :
    (flushContent bad r w s).led.ways = s.led.ways ∧ (flushContent bad r w s).led.slices = s.led.slices ∧
      ∀ k, k ≠ r → slotAt (flushContent bad r w s) k = slotAt s k := by
  unfold flushContent
  dsimp only
  split
  · exact ⟨rfl, rfl, fun k hk => (slotAt_putSlot ..).trans (if_neg hk)⟩
  · split
    · have hm := occurGlobal_measured 0x102 1 (endWay 1 r (endWay 2 r s)) (Measured.refl _)
      exact ⟨congrArg Led.ways hm.led, congrArg Led.slices hm.led, fun k _ => slotAt_congr (congrArg Led.slots hm.led) k⟩
    · exact ⟨rfl, rfl, fun _ _ => rfl⟩

theorem flushWay_spec (bad : Bool) (r : Nat) (w : Way) (s : State) : Flushed (flushWay bad r w s) r ∧
    (flushWay bad r w s).led.slices = s.led.slices ∧ ∀ k, k ≠ r → Unreached s (flushWay bad r w s) k := by
  obtain ⟨hways, hslices, hslots⟩ := flushContent_spec bad r w s
  rw [flushWay_eq]
  generalize flushContent bad r w s = u at hways hslices hslots
  split
  case isTrue =>
    have hgone (k : Nat) : tabFind (tabErase u.led.ways r) k = if k = r then none else tabFind u.led.ways k := tabFind_erase _ _ _
    refine ⟨fun x hx => ?_, hslices, fun k hk => ⟨?_, hslots k hk⟩⟩
    · exact absurd (((hgone r).trans (if_pos rfl)).symm.trans hx) (by simp)
    · exact (hgone k).trans ((if_neg hk).trans (by rw [hways]))
  case isFalse hpins =>
    have hput (k : Nat) : tabFind (putWay r { w with dirty := false, clean := hotAt u r } u).led.ways k =
        if k = r then some { w with dirty := false, clean := hotAt u r } else tabFind u.led.ways k := tabFind_insert _ _ _ _
    refine ⟨fun x hx => ?_, hslices, fun k hk => ⟨?_, hslots k hk⟩⟩
    · have hw : some { w with dirty := false, clean := hotAt u r } = some x := ((hput r).trans (if_pos rfl)).symm.trans hx
      obtain rfl := Option.some.inj hw
      exact ⟨rfl, Nat.pos_of_ne_zero hpins⟩
    · exact (hput k).trans ((if_neg hk).trans (by rw [hways]))

/-- A flush of a list of ways: each of them is flushed, and no other slot is reached. -/
theorem forEach_flushWay (g : Nat × Way → Bool) (l : List (Nat × Way)) (s : State) :
    (∀ r, r ∈ l.map (·.1) ∨ Flushed s r → Flushed (forEach l (fun t e => flushWay (g e) e.1 e.2 t) s) r) ∧
    (forEach l (fun t e => flushWay (g e) e.1 e.2 t) s).led.slices = s.led.slices ∧
    ∀ r, r ∉ l.map (·.1) → Unreached s (forEach l (fun t e => flushWay (g e) e.1 e.2 t) s) r := by
  induction l generalizing s with
  | nil => exact ⟨fun r h => h.resolve_left List.not_mem_nil, rfl, fun r _ => ⟨rfl, rfl⟩⟩
  | cons e l ih =>
    obtain ⟨hself, hslices, hother⟩ := flushWay_spec (g e) e.1 e.2 s
    obtain ⟨hrest, hslices', hother'⟩ := ih (flushWay (g e) e.1 e.2 s)
    refine ⟨fun r h => hrest r ?_, hslices'.trans hslices, fun r hr => ?_⟩
    · by_cases he : r = e.1
      · exact .inr (he ▸ hself)
      · rcases h with h | h
        · exact .inl ((List.mem_cons.mp h).resolve_left he)
        · right
          intro w hw
          exact h w ((hother r he).1.symm.trans hw)
    · rw [List.map_cons, List.mem_cons, not_or] at hr
      obtain ⟨hways, hslot⟩ := hother r hr.1
      obtain ⟨hways', hslot'⟩ := hother' r hr.2
      exact ⟨hways'.trans hways, hslot'.trans hslot⟩

theorem exec_sliceFlushComplete {f : Nat} (tags : List Nat) {s : State} (hf : isSlice f = true) :
    exec (.sliceFlushComplete f tags) s = .next (flushEnd f tags s) := if_pos hf

/-- The ledger with the ways of a slice flushed. -/
def flushedWays (f : Nat) (tags : List Nat) (s : State) : State :=
  forEach (s.led.ways.filter (fun e => recSlice e.1 = f)) (fun t e => flushWay (tags.contains (recSlot e.1)) e.1 e.2 t) s

theorem flushEnd_eq {f : Nat} (tags : List Nat) {s : State} (h : (slc s f).flushing = true) : flushEnd f tags s =
    runLedger (setSlc f { slc (flushedWays f tags s) f with flushing := false } (flushedWays f tags s)) := if_neg (by simp [h])

theorem flushedWays_spec (f : Nat) (tags : List Nat) (s : State) :
    (∀ r, recSlice r = f → Flushed (flushedWays f tags s) r) ∧ (flushedWays f tags s).led.slices = s.led.slices ∧
      ∀ r, recSlice r ≠ f → Unreached s (flushedWays f tags s) r := by
  obtain ⟨hflushed, hslices, hother⟩ := forEach_flushWay (fun e => tags.contains (recSlot e.1))
    (s.led.ways.filter (fun e => recSlice e.1 = f)) s
  refine ⟨fun r hr => hflushed r ?_, hslices, fun r hr => hother r fun hmem => ?_⟩
  · cases hw : tabFind s.led.ways r with
    | none => exact .inr fun w hw' => absurd (hw.symm.trans hw') (by simp)
    | some w => exact .inl (List.mem_map.mpr ⟨(r, w), List.mem_filter.mpr ⟨mem_of_tabFind hw, decide_eq_true hr⟩, rfl⟩)
  · obtain ⟨e, he, rfl⟩ := List.mem_map.mp hmem
    exact hr (of_decide_eq_true (List.mem_filter.mp he).2)

/-- Settles O34: an error of a cold part is noted in its slot (`slotAt_coldLost`), and a flush takes the ways of its slice one by one
(`forEach_flushWay`). -/
theorem ledgerFaults : Obligations.LedgerFaults := by
  refine ⟨⟨fun r s hv hl _ => coldUe_spec hv hl, fun f n cold read s hf hn => ⟨ledgerRepair_none hf hn, fun o ho =>
      ⟨ledgerRepair_ended hf hn ho, ledgerRepair_runs hf hn ho⟩⟩⟩,
    fun f s hf => ⟨fun hp => ⟨?_, fun hl => ?_, fun hl => ?_⟩, fun hp l => ?_, fun tags h => ?_, fun tags h => ?_⟩⟩
  · rw [exec_ledgerFault _ hf, pairEnabled_iff, if_neg (by simpa using hp)]
    rfl
  · rw [exec_ledgerFault _ hf, pairEnabled_iff, if_neg (by simpa using hp), hl]
    rfl
  · rw [exec_ledgerFault _ hf, pairEnabled_iff, if_neg (by simpa using hp), hl]
    rfl
  · rw [exec_ledgerFault _ hf, pairEnabled_iff, if_pos (by simpa using hp)]
  · rw [exec_sliceFlushComplete tags hf]
    exact congrArg Host.Outcome.next (if_pos (by simp [h]))
  · obtain ⟨hflushed, hslices, hother⟩ := flushedWays_spec f tags s
    refine ⟨_, (exec_sliceFlushComplete tags hf).trans (congrArg Host.Outcome.next (flushEnd_eq tags h)), ?_, ?_,
      fun r w hw hr => hflushed r hr w hw, hother⟩
    · rw [slc_setSlc_self]
    · rw [slc_setSlc_self]
      have hops := congrArg SliceSt.ops (slc_congr hslices f)
      exact hops

end Sys2Proof.Machine
end

section
/-! O30 (R21, R29, R286, R291, R295, R299, R307, R308, R323): FLOW_SET, and how operations come to a slice. -/

namespace Sys2Proof.Machine
open Sys2Proof

/-! ### FLOW_SET (R291) -/

/-- A field of a hot part that a mask bit may replace. -/
def setWhere (c : Bool) (h o n v : Nat) : Nat := if c then setByteFld h o n v else h

theorem byteFld_setWhere_self (c : Bool) (h o n v : Nat) :
    byteFld (setWhere c h o n v) o n = if c then v % 2 ^ (8 * n) else byteFld h o n := by
  cases c with
  | false => rfl
  | true => exact byteFld_setByteFld_self ..

theorem byteFld_setWhere_ne {c : Bool} {h o n v o' n' : Nat} (hd : o + n ≤ o' ∨ o' + n' ≤ o) :
    byteFld (setWhere c h o n v) o' n' = byteFld h o' n' := by
  cases c with
  | false => rfl
  | true => exact byteFld_setByteFld_ne hd

/-- The hot part of a record after a FLOW_SET. -/
def fieldsSet (mask conn addr port h : Nat) : Nat :=
  setWhere (mask.testBit 2) (setWhere (mask.testBit 1) (setWhere (mask.testBit 0) h 0x1B 1 conn) 0x1C 2 addr) 0x1E 2 port

theorem setFields_eq (mask conn addr port r : Nat) (s : State) :
    setFields mask conn addr port r s = setHot r (fieldsSet mask conn addr port (hotAt s r)) s := rfl

/-- What a FLOW_SET does not name stays. -/
theorem byteFld_fieldsSet {mask conn addr port h o n : Nat} (hd : o + n ≤ 0x1B) :
    byteFld (fieldsSet mask conn addr port h) o n = byteFld h o n := by
  rw [fieldsSet, byteFld_setWhere_ne (by omega), byteFld_setWhere_ne (by omega), byteFld_setWhere_ne (by omega)]

theorem fieldsSet_spec (mask conn addr port h : Nat) :
    hConn (fieldsSet mask conn addr port h) = (if mask.testBit 0 then conn % 2 ^ 8 else hConn h) ∧
    hSvcAddr (fieldsSet mask conn addr port h) = (if mask.testBit 1 then addr % 2 ^ 16 else hSvcAddr h) ∧
    hSvcPort (fieldsSet mask conn addr port h) = (if mask.testBit 2 then port % 2 ^ 16 else hSvcPort h) ∧
    hSig (fieldsSet mask conn addr port h) = hSig h ∧ hPackets (fieldsSet mask conn addr port h) = hPackets h ∧
    hOctets (fieldsSet mask conn addr port h) = hOctets h ∧ hSeen (fieldsSet mask conn addr port h) = hSeen h := by
  refine ⟨?_, ?_, ?_, byteFld_fieldsSet (by decide), byteFld_fieldsSet (by decide), byteFld_fieldsSet (by decide),
    byteFld_fieldsSet (by decide)⟩
  · exact (byteFld_setWhere_ne (by decide)).trans ((byteFld_setWhere_ne (by decide)).trans (byteFld_setWhere_self ..))
  · exact (byteFld_setWhere_ne (by decide)).trans ((byteFld_setWhere_self ..).trans
      (congrArg (ite _ _) (byteFld_setWhere_ne (by decide))))
  · exact (byteFld_setWhere_self ..).trans (congrArg (ite _ _)
      ((byteFld_setWhere_ne (by decide)).trans (byteFld_setWhere_ne (by decide))))

/-- The operation of a FLOW_SET, as it joins the slice of the frame's record. -/
def setLedOp (mask conn addr port r : Nat) (s : State) : LedOp :=
  { id := s.led.nextOp, slice := recSlice r, who := .set mask conn addr port, home := r, slot := some r, sig := hSig (hotAt s r) }

/-- The state in which it joins it: the frame's pass has issued its FLOW_SET. -/
def setIssued (fid : Nat) (f : Frame) (s : State) : State :=
  setLed { s.led with nextOp := s.led.nextOp + 1 } (putFrame fid { f with flowSetDone := true } s)

section
variable {fid mask conn addr port : Nat} {f : Frame} {s : State} (hf : frame s fid = some f)
include hf

theorem exec_flowSet : exec (.flowSet fid mask conn addr port) s = .next (
    if f.phase = .ingress && !f.finished && !f.flowSetDone && f.ra.flowValid = 1 then
      let r := f.ra.flowRecord
      let s := putFrame fid { f with flowSetDone := true } s
      let open_ := sliceOpen s (recSlice r) && sliceAccepts s (recSlice r)
      newOp { id := 0, slice := recSlice r, who := .set mask conn addr port, home := r, slot := some r,
              sig := hSig (hotAt s r), stage := if open_ then .reading else .held } s
    else s) := by
  show execFlowSet fid mask conn addr port s = _
  rw [execFlowSet, hf]

theorem flowSet_idle (h : f.flowSetDone = true ∨ f.ra.flowValid ≠ 1) : exec (.flowSet fid mask conn addr port) s = .next s := by
  rw [exec_flowSet hf, if_neg]
  simp only [Bool.and_eq_true, decide_eq_true_eq, Bool.not_eq_true']
  rintro ⟨⟨-, hd⟩, hv⟩
  rcases h with h | h
  · exact absurd (h.symm.trans hd) (by decide)
  · exact h hv

variable (hph : f.phase = .ingress) (hfin : f.finished = false) (hd : f.flowSetDone = false) (hv : f.ra.flowValid = 1)
include hph hfin hd hv

theorem flowSet_joins (hr : slotReady s f.ra.flowRecord) : exec (.flowSet fid mask conn addr port) s =
    .next (runLedger (joinOp (setLedOp mask conn addr port f.ra.flowRecord s) (setIssued fid f s))) := by
  obtain ⟨ho, ha, -⟩ := hr
  have hstage : (if sliceOpen (putFrame fid { f with flowSetDone := true } s) (recSlice f.ra.flowRecord) &&
      sliceAccepts (putFrame fid { f with flowSetDone := true } s) (recSlice f.ra.flowRecord) then LedStage.reading else .held) =
      .reading := by
    change (if sliceOpen s (recSlice f.ra.flowRecord) && sliceAccepts s (recSlice f.ra.flowRecord) then LedStage.reading else .held) = _
    rw [ho, ha]
    rfl
  rw [exec_flowSet hf, if_pos (by simp [hph, hfin, hd, hv])]
  dsimp only
  rw [hstage]
  rfl

omit hf hph hfin hd hv in
/-- One attempt at a FLOW_SET on a slot that is ready. -/
theorem runOp_set {r : Nat} {v : State} (h : ∀ k, (slc v k).repairs = []) (hr : onDie v r = true) (hp : isPrimary v r = true)
    (hh : hotAt v r = hotAt s r) :
    runOp [] (setLedOp mask conn addr port r s) v = .done (setFields mask conn addr port r v) := by
  have haim : aimSlot [] (setLedOp mask conn addr port r s) r v = .at_ r := aimSlot_ready h hr
  unfold runOp
  dsimp only [setLedOp, Option.getD_some] at haim ⊢
  rw [haim, hp, hh]
  simp

theorem flowSet_applies (hq : ledgerQuiet s) (hr : slotReady s f.ra.flowRecord) (hp : isPrimary s f.ra.flowRecord = true) :
    ∃ t, exec (.flowSet fid mask conn addr port) s = .next t ∧
      (∀ k, slotAt t k = if k = f.ra.flowRecord then
        { slotAt s k with hot := fieldsSet mask conn addr port (hotAt s k) } else slotAt s k) ∧
      t.pip = (setIssued fid f s).pip ∧ ledgerQuiet t := by
  have hex := flowSet_joins (mask := mask) (conn := conn) (addr := addr) (port := port) hf hph hfin hd hv hr
  generalize f.ra.flowRecord = r at hex hr hp
  have hqt : ledgerQuiet (setIssued fid f s) := hq.of_kept (OpsKept.of_slices rfl)
  obtain ⟨hjslots, hjways, hjpip, hjdw, hjdict, -⟩ := joinOp_leaves (setLedOp mask conn addr port r s) (setIssued fid f s)
  generalize hj : joinOp (setLedOp mask conn addr port r s) (setIssued fid f s) = v at hjslots hjways hjpip hjdw hjdict
  have hrep : ∀ k, (slc v k).repairs = [] := fun k => by
    rw [← hj, joinOp_repairs]
    exact (hqt k).2
  have hslot (k : Nat) : slotAt v k = slotAt s k := slotAt_congr hjslots k
  have hhot (k : Nat) : hotAt v k = hotAt s k := hotAt_congr hjslots k
  have hvdie : onDie v r = true := (onDie_congr hjdict hjways r).trans hr.2.2
  have hvp : isPrimary v r = true := by rw [isPrimary, hhot]; exact hp
  obtain ⟨t, hrun, htq, htslots, -, htpip, -, -⟩ := runLedger_joinOp_quiet (o := setLedOp mask conn addr port r s)
    (u := setFields mask conn addr port r v) hqt (show LedStage.reading ≠ .held by decide)
    (by rw [hj]; exact runOp_set hrep hvdie hvp (hhot r)) (by rw [hj]; exact OpsKept.of_slices (setHot_slices _ _ _))
  refine ⟨t, hex.trans (congrArg Host.Outcome.next hrun), fun k => ?_, ?_, htq⟩
  · rw [slotAt_congr htslots, setFields_eq, slotAt_setHot, hslot, hslot, hhot]
    split
    case isTrue hk => rw [hk]
    case isFalse => rfl
  · rw [htpip, setFields_eq, setHot_pip, hjpip]

end

theorem frames_setIssued (fid : Nat) (f : Frame) (s : State) (k : Nat) :
    frame (setIssued fid f s) k = if k = fid then some { f with flowSetDone := true } else frame s k := tabFind_insert ..

/-! ### A frame's operation (R286, R299, R323) -/

/-- The frame of an operation that has left the crossbar. -/
def enteredFrame (f : Frame) : Frame := { f with due := setBit (clearBit f.due 6) 7 }

section
variable {fid : Nat} {f : Frame} {ways : List (Nat × Ecc)} {s : State} (hf : frame s fid = some f) (hph : f.phase = .ingress)
include hf hph

theorem exec_ledgerOperation : exec (.ledgerOperation fid ways) s = .next (ledgerEnter fid f ways s) := by
  show execLedgerOperation fid ways s = _
  rw [execLedgerOperation, hf]
  exact congrArg Host.Outcome.next (if_pos hph)

theorem ledgerOperation_waits (h : f.due.testBit 6 = false ∨ flowEnters s fid f = true ∨ sliceAccepts s (hashSlice f.h0) = false ∨
    crossbarTakes s (hashSlice f.h0) = false) : exec (.ledgerOperation fid ways) s = .next s := by
  rw [exec_ledgerOperation hf hph]
  refine congrArg Host.Outcome.next (if_pos ?_)
  simp only [Bool.or_eq_true, Bool.not_eq_true']
  tauto

/-- The operation of a frame, as it enters its slice. -/
def frameLedOp (fid : Nat) (f : Frame) (ways : List (Nat × Ecc)) (s : State) : LedOp :=
  { id := s.led.nextOp, slice := hashSlice f.h0, who := .frame fid (enteredFrame f), key := f.key, h0 := f.h0, sig := f.sig,
    home := homeOf s f.h0
    touch := (ways.filter (fun e => e.2 = .uncorrectable)).map (fun e => recNo (hashSlice f.h0) e.1) }

/-- The state in which it enters it. -/
def frameCrossed (fid : Nat) (f : Frame) (s : State) : State :=
  setLed { s.led with nextOp := s.led.nextOp + 1 }
    (cross (hashSlice f.h0) (count (cTemplate (admOf (enteredFrame f)) 0x00) (putFrame fid (enteredFrame f) s)))

theorem ledgerOperation_arrives (h6 : f.due.testBit 6 = true) (he : flowEnters s fid f = false)
    (ha : sliceAccepts s (hashSlice f.h0) = true) (hc : crossbarTakes s (hashSlice f.h0) = true) :
    exec (.ledgerOperation fid ways) s = .next (arrive (frameLedOp fid f ways s) ways (frameCrossed fid f s)) := by
  rw [exec_ledgerOperation hf hph]
  exact congrArg Host.Outcome.next (if_neg (by simp [h6, he, ha, hc]))

end

theorem arrive_open {o : LedOp} {ways : List (Nat × Ecc)} {s : State} (h : sliceOpen s o.slice = true) :
    arrive o ways s = runLedger (forEach ways (fun t e => wayRead (recNo o.slice e.1) e.2 t) (joinOp o s)) := if_pos h

theorem arrive_frame_shut {o : LedOp} {ways : List (Nat × Ecc)} {fid : Nat} {f : Frame} {s : State} (hw : o.who = .frame fid f)
    (h : sliceOpen s o.slice = false) : arrive o ways s = runLedger (exhaust o fid f 4 s) := by
  rw [arrive, if_neg (by simp [h]), exhaustOp, hw]

/-! ### Operations between slices (R307, R308) -/

section
variable {f : Nat} {s : State} (hf : isSlice f = true)
include hf

theorem exec_aliasAdmission : exec (.aliasAdmission f) s = .next (match s.led.replies.find? (fun o => o.slice = f) with
    | some o => if sliceAccepts s f && crossbarTakes s f then
        arrive o [] (cross f (setLed { s.led with replies := s.led.replies.erase o } s)) else s
    | none => s) := if_pos hf

theorem exec_aliasForward : exec (.aliasForward f) s = .next (match s.led.forwards.find? (fun o => o.slice = f) with
    | some o => if sliceAccepts s f && crossbarTakes s f then
        arrive o [] (cross f (setLed { s.led with forwards := s.led.forwards.erase o } s)) else s
    | none => s) := if_pos hf

theorem alias_waits (h : sliceAccepts s f = false ∨ crossbarTakes s f = false) :
    exec (.aliasAdmission f) s = .next s ∧ exec (.aliasForward f) s = .next s := by
  have hno : ¬ (sliceAccepts s f && crossbarTakes s f) = true := by
    rw [Bool.and_eq_true]
    rintro ⟨h1, h2⟩
    simp [h1, h2] at h
  rw [exec_aliasAdmission hf, exec_aliasForward hf]
  constructor
  · split
    · rw [if_neg hno]
    · rfl
  · split
    · rw [if_neg hno]
    · rfl

variable (ha : sliceAccepts s f = true) (hc : crossbarTakes s f = true) {o : LedOp}
include ha hc

theorem aliasAdmission_arrives (h : s.led.replies.find? (fun o => o.slice = f) = some o) : exec (.aliasAdmission f) s =
    .next (arrive o [] (cross f (setLed { s.led with replies := s.led.replies.erase o } s))) := by
  rw [exec_aliasAdmission hf, h]
  exact congrArg Host.Outcome.next (if_pos (by rw [ha, hc]; rfl))

theorem aliasForward_arrives (h : s.led.forwards.find? (fun o => o.slice = f) = some o) : exec (.aliasForward f) s =
    .next (arrive o [] (cross f (setLed { s.led with forwards := s.led.forwards.erase o } s))) := by
  rw [exec_aliasForward hf, h]
  exact congrArg Host.Outcome.next (if_pos (by rw [ha, hc]; rfl))

end

theorem slice_of_found {l : List LedOp} {f : Nat} {o : LedOp} (h : l.find? (fun o => o.slice = f) = some o) : o.slice = f :=
  of_decide_eq_true (List.find?_some (p := fun o : LedOp => decide (o.slice = f)) h)

/-- Settles O30: a FLOW_SET reaches its record as it is issued (`flowSet_applies`); an operation that the crossbar lets through joins
its slice, or meets a slice that takes none (`arrive`). -/
theorem flowFieldsAndArrivals : Obligations.FlowFieldsAndArrivals := by
  refine ⟨fun fid mask conn addr port f s hf hph hfin => ⟨flowSet_idle hf, fun hd hv hq hr hp => ?_⟩,
    fun fid f ways s hf hph => ⟨ledgerOperation_waits hf hph, fun h6 he ha hc => ⟨fun ho => ?_, fun ho => ?_⟩⟩,
    fun f s hf => ⟨alias_waits hf, fun ha hc o => ⟨fun h => ⟨_, rfl, fun ho => ?_, fun _ => aliasAdmission_arrives hf ha hc h⟩,
      fun h => ⟨_, rfl, fun ho => ?_, fun _ => aliasForward_arrives hf ha hc h⟩⟩⟩⟩
  · obtain ⟨t, hex, hslots, hpip, htq⟩ := flowSet_applies (mask := mask) (conn := conn) (addr := addr) (port := port) hf hph hfin hd hv
      hq hr hp
    have hself := (hslots f.ra.flowRecord).trans (if_pos rfl)
    have hframes (k : Nat) : frame t k = if k = fid then some { f with flowSetDone := true } else frame s k :=
      (frame_congr hpip k).trans (frames_setIssued fid f s k)
    refine ⟨t, hex, ?_⟩
    obtain ⟨h1, h2, h3, h4, h5, h6, h7⟩ := fieldsSet_spec mask conn addr port (hotAt s f.ra.flowRecord)
    have hhot : hotAt t f.ra.flowRecord = fieldsSet mask conn addr port (hotAt s f.ra.flowRecord) := congrArg Slot.hot hself
    have hcold : coldAt t f.ra.flowRecord = coldAt s f.ra.flowRecord := by
      have hc := congrArg Slot.cold hself
      exact hc
    have hother : ∀ k, k ≠ f.ra.flowRecord → slotAt t k = slotAt s k := fun k hk => (hslots k).trans (if_neg hk)
    have hown : frame t fid = some { f with flowSetDone := true } := (hframes fid).trans (if_pos rfl)
    have hframe : ∀ k, k ≠ fid → frame t k = frame s k := fun k hk => (hframes k).trans (if_neg hk)
    dsimp only
    rw [hhot]
    exact ⟨h1, h2, h3, h4, h5, h6, h7, hcold, hother, hown, hframe, htq⟩
  · exact (ledgerOperation_arrives hf hph h6 he ha hc).trans (congrArg Host.Outcome.next (arrive_open ho))
  · exact (ledgerOperation_arrives hf hph h6 he ha hc).trans (congrArg Host.Outcome.next (arrive_frame_shut rfl ho))
  · refine (aliasAdmission_arrives hf ha hc h).trans (congrArg Host.Outcome.next (arrive_open ?_))
    rw [slice_of_found h]
    exact ho
  · refine (aliasForward_arrives hf ha hc h).trans (congrArg Host.Outcome.next (arrive_open ?_))
    rw [slice_of_found h]
    exact ho

end Sys2Proof.Machine
end

section
/-! O29 (R286 to R288, R290): a frame's operation that reaches its record as it arrives. -/

namespace Sys2Proof.Machine
open Sys2Proof

/-! ### The record (R287) -/

/-- A hot part after a frame's update: the frame counted, its octets, its time, and its connection state. -/
def updatedHot (h conn : Nat) (f : Frame) : Nat :=
  setByteFld (setByteFld (setByteFld (setByteFld h 0x10 4 (stampMs f.stamp)) 0x14 3 (hPackets h + 1)) 0x17 4
    (hOctets h + frameLen f)) 0x1B 1 conn

theorem updatedHot_spec (h conn : Nat) (f : Frame) :
    hPackets (updatedHot h conn f) = (hPackets h + 1) % 2 ^ 24 ∧ hOctets (updatedHot h conn f) = (hOctets h + frameLen f) % 2 ^ 32 ∧
    hSeen (updatedHot h conn f) = stampMs f.stamp ∧ hSig (updatedHot h conn f) = hSig h ∧
    hSvcAddr (updatedHot h conn f) = hSvcAddr h ∧ hSvcPort (updatedHot h conn f) = hSvcPort h := by
  have skip {v o n x o' n' : Nat} (hd : o + n ≤ o' ∨ o' + n' ≤ o) : byteFld (setByteFld v o n x) o' n' = byteFld v o' n' :=
    byteFld_setByteFld_ne hd
  refine ⟨?_, ?_, ?_, ?_, ?_, ?_⟩
  · exact (skip (by decide)).trans ((skip (by decide)).trans (byteFld_setByteFld_self ..))
  · exact (skip (by decide)).trans (byteFld_setByteFld_self ..)
  · refine (skip (by decide)).trans ((skip (by decide)).trans ((skip (by decide)).trans ((byteFld_setByteFld_self ..).trans ?_)))
    exact Nat.mod_mod _ _
  · exact (skip (by decide)).trans ((skip (by decide)).trans ((skip (by decide)).trans (skip (by decide))))
  · exact (skip (by decide)).trans ((skip (by decide)).trans ((skip (by decide)).trans (skip (by decide))))
  · exact (skip (by decide)).trans ((skip (by decide)).trans ((skip (by decide)).trans (skip (by decide))))

theorem foldDue_cached (r : Nat) (s : State) : Cached s (foldDue r s) := by
  unfold foldDue
  dsimp only
  split
  · exact Cached.refl s
  · exact issueWay_cached _ _ _ _ _ s

theorem countBackend_led (set h n : Nat) (s : State) : (countBackend set h n s).led = s.led := by
  unfold countBackend
  split <;> rfl

theorem countBackend_pip (set h n : Nat) (s : State) : (countBackend set h n s).pip = s.pip := by
  unfold countBackend
  split <;> rfl

theorem when_count_led (c : Bool) (k : Nat) (s : State) : (when c (count k) s).led = s.led := by cases c <;> rfl

theorem when_count_pip (c : Bool) (k : Nat) (s : State) : (when c (count k) s).pip = s.pip := by cases c <;> rfl

/-- R287: a frame's update of a record whose cold part stands changes its hot part alone. -/
theorem updateRecord_spec {set r : Nat} {o : LedOp} {f : Frame} {s : State}
    (hp : hPending (hotAt s r) = false ∨ lowLedger s = true) : ∃ conn,
      (∀ k, slotAt (updateRecord set r o f s) k =
        if k = r then { slotAt s r with hot := updatedHot (hotAt s r) conn f } else slotAt s k) ∧
      (updateRecord set r o f s).led.slices = s.led.slices ∧ (updateRecord set r o f s).pip = s.pip := by
  have hheal : healCold r o s = s := if_neg (by rcases hp with h | h <;> simp [h])
  have heq : updateRecord set r o f s = foldDue r (countBackend set (updatedHot (hotAt s r) (frameConn s set o f (hotAt s r)).1 f)
      (frameLen f) (when (frameConn s set o f (hotAt s r)).2 (count (cService 0x18))
        (setHot r (updatedHot (hotAt s r) (frameConn s set o f (hotAt s r)).1 f) s))) := by
    unfold updateRecord
    rw [hheal]
    rfl
  rw [heq]
  generalize frameConn s set o f (hotAt s r) = c
  generalize hu : countBackend set (updatedHot (hotAt s r) c.1 f) (frameLen f)
    (when c.2 (count (cService 0x18)) (setHot r (updatedHot (hotAt s r) c.1 f) s)) = u
  have hled : u.led = (setHot r (updatedHot (hotAt s r) c.1 f) s).led := by
    rw [← hu, countBackend_led, when_count_led]
  have hpip : u.pip = (setHot r (updatedHot (hotAt s r) c.1 f) s).pip := by
    rw [← hu, countBackend_pip, when_count_pip]
  have hfold := foldDue_cached r u
  refine ⟨c.1, fun k => ?_, ?_, ?_⟩
  · refine (slotAt_congr (hfold.slots.trans (congrArg Led.slots hled)) k).trans ?_
    exact slotAt_setHot ..
  · exact hfold.slices.trans ((congrArg Led.slices hled).trans (setHot_slices _ _ _))
  · exact hfold.pip.trans (hpip.trans (setHot_pip _ _ _))

/-! ### The result (R288, R290) -/

/-- The result of a frame's operation that found its record. -/
theorem deliverLedger_found {o : LedOp} {fid r : Nat} {f : Frame} {s : State} (hf : frame s fid = some f) :
    ∃ g flags, frame (deliverLedger o fid 0 0 r s) fid = some g ∧ g.results = f.results ++ [.ledger 0 flags 0 r (hotAt s r)] ∧
      g.ra.flowValid = 1 ∧ g.ra.flowRecord = r ∧ g.ledStatus = some 0 ∧ g.bytes = f.bytes ∧ g.epoch = f.epoch ∧
      (∀ k, k ≠ fid → frame (deliverLedger o fid 0 0 r s) k = frame s k) ∧ (deliverLedger o fid 0 0 r s).led = s.led := by
  unfold deliverLedger
  rw [hf]
  dsimp only
  have hm := occur_measured f.pipe (0x30 + 0) 1 (occOf fid f) s (Measured.refl s)
  generalize occur f.pipe (0x30 + 0) 1 (occOf fid f) s = u at hm
  have hu : frame { u with pip := { u.pip with nextSeq := u.pip.nextSeq + 1 } } fid = some f :=
    (congrArg (fun p : Pip => tabFind p.frames fid) hm.pip).trans hf
  rw [modFrame_of_frame _ hu]
  refine ⟨_, _, frame_putFrame_self .., rfl, rfl, rfl, rfl, rfl, rfl, fun k hk => ?_, hm.led⟩
  have hother : tabFind u.pip.frames k = frame s k := congrArg (fun p : Pip => tabFind p.frames k) hm.pip
  exact (frame_putFrame ..).trans ((if_neg hk).trans hother)

/-! ### The operation -/

/-- What the look-up of a record and the checks of it read. -/
structure RecordKept (s t : State) : Prop where
  dict : t.dict = s.dict
  slots : t.led.slots = s.led.slots
  ways : t.led.ways = s.led.ways
  stepping : t.ep.stepping = s.ep.stepping

section
variable {s t : State} (h : RecordKept s t)
include h

theorem setFor_of_kept (e : Nat) : setFor t e = setFor s e := by
  unfold setFor activeEpoch activeSet shadowSet activeSet
  rw [rd_congr h.dict, rd_congr h.dict, h.stepping]

theorem rdSet_of_kept (set obj row : Nat) : rdSet t set obj row = rdSet s set obj row := by
  rw [rdSet, rdSet, rdOpt, rdOpt, h.dict]

theorem isStale_of_kept (set r : Nat) : isStale t set r = isStale s set r := by
  unfold isStale translates admServices serviceGen
  rw [hotAt_congr h.slots]
  dsimp only
  rw [rdSet_of_kept h, rd_congr h.dict]

theorem failAction_of_kept (set r : Nat) : failAction t set r = failAction s set r := by
  unfold failAction admServices beState beTable beRow
  rw [hotAt_congr h.slots]
  dsimp only
  rw [rdSet_of_kept h, rdSet_of_kept h, rd_congr h.dict]
  simp only [rdSet_of_kept h]

theorem lookup_of_kept (home fp sig : Nat) : lookup t home fp sig = lookup s home fp sig := by
  have hdie (r : Nat) : onDie t r = onDie s r := onDie_congr h.dict h.ways r
  have hplus (r d : Nat) : recPlus t r d = recPlus s r d := by rw [recPlus, recPlus, slotsPer, slotsPer, rd_congr h.dict]
  have hlist (l : List Nat) : lookList t home sig l = lookList s home sig l := by
    induction l with
    | nil => rfl
    | cons d l ih =>
      unfold lookList
      dsimp only
      rw [hplus, hdie, hotAt_congr h.slots, ih]
  unfold lookup
  dsimp only
  rw [hdie, hotAt_congr h.slots, hlist]

end

section
variable {fid r : Nat} {o : LedOp} {f : Frame} {v : State}

/-- One attempt at a frame's operation whose record is on die, a primary, and may be used. -/
theorem runOp_frame_found (hw : o.who = .frame fid f) (hst : o.stage = .reading) (hvia : o.viaAlias = false) (ht : o.touch = [])
    (h : ∀ k, (slc v k).repairs = []) (hl : lookup v o.home (hashFp o.h0) o.sig = .found r) (ha : hAlias (hotAt v r) = false)
    (hs : isStale v (setFor v f.epoch) r = false) (hfa : (failAction v (setFor v f.epoch) r).1 = 0) :
    runOp [] o v = .done (deliverLedger { o with slot := some r } fid 0 0 r (updateRecord (setFor v f.epoch) r { o with slot := some r } f
      (useWay r (count (cSlice o.slice 0x08) v)))) := by
  have haim : aimKey [] o v = .at_ r := by
    unfold aimKey
    rw [blocked_nil h, hl]
    dsimp only
    rw [blocked_nil h]
    simp
  have hrun : runFrame [] o fid f v = applyFrame { o with slot := some r } fid f r v := by
    unfold runFrame
    rw [hvia, haim]
    dsimp only
    rw [ha]
    rfl
  have happly : applyFrame { o with slot := some r } fid f r v =
      .done (deliverLedger { o with slot := some r } fid 0 0 r (updateRecord (setFor v f.epoch) r { o with slot := some r } f
        (useWay r (count (cSlice o.slice 0x08) v)))) := by
    unfold applyFrame
    dsimp only
    rw [hs, hfa, ht]
    rfl
  unfold runOp
  rw [hst, hw]
  exact hrun.trans happly

end

theorem joinOp_recordKept (fid : Nat) (f : Frame) (o : LedOp) (s : State) : RecordKept s (joinOp o (frameCrossed fid f s)) :=
  ⟨rfl, rfl, rfl, rfl⟩

theorem frames_crossed (fid : Nat) (f : Frame) (o : LedOp) (s : State) (k : Nat) :
    frame (joinOp o (frameCrossed fid f s)) k = if k = fid then some (enteredFrame f) else frame s k := tabFind_insert ..

/-- No way that the operation reads is in error: it reads them, and has none to read again. -/
theorem frameLedOp_untouched {fid : Nat} {f : Frame} {ways : List (Nat × Ecc)} (s : State) (h : ∀ e ∈ ways, e.2 = .clean) :
    (frameLedOp fid f ways s).touch = [] := by
  have hnone : ways.filter (fun e => e.2 = .uncorrectable) = [] := List.filter_eq_nil_iff.mpr fun e he => by simp [h e he]
  show List.map _ (ways.filter _) = []
  rw [hnone]
  rfl

theorem forEach_wayRead_clean {sl : Nat} {ways : List (Nat × Ecc)} (s : State) (h : ∀ e ∈ ways, e.2 = .clean) :
    forEach ways (fun t e => wayRead (recNo sl e.1) e.2 t) s = s :=
  forEach_same fun e he => by rw [h e he, wayRead_clean]

/-- What the update of a record by the operation of a frame leaves, and the result it brings. -/
theorem updated_delivered {set fid r : Nat} {o : LedOp} {f : Frame} {v : State} (hf : frame v fid = some f)
    (hp : hPending (hotAt v r) = false ∨ lowLedger v = true) : ∃ conn g flags x,
      deliverLedger o fid 0 0 r (updateRecord set r o f (useWay r (count (cSlice o.slice 0x08) v))) = x ∧
      frame x fid = some g ∧ g.results = f.results ++ [.ledger 0 flags 0 r (hotAt x r)] ∧ g.ra.flowValid = 1 ∧
      g.ra.flowRecord = r ∧ g.ledStatus = some 0 ∧ g.bytes = f.bytes ∧ g.epoch = f.epoch ∧
      (∀ k, k ≠ fid → frame x k = frame v k) ∧ x.led.slices = v.led.slices ∧
      ∀ k, slotAt x k = if k = r then { slotAt v r with hot := updatedHot (hotAt v r) conn f } else slotAt v k := by
  generalize hu : useWay r (count (cSlice o.slice 0x08) v) = u
  have hc : Cached (count (cSlice o.slice 0x08) v) u := hu ▸ useWay_cached r _
  have hslot (k : Nat) : slotAt u k = slotAt v k := slotAt_congr hc.slots k
  have hhot : hotAt u r = hotAt v r := hotAt_congr hc.slots r
  have hlow : lowLedger u = lowLedger v := lowLedger_congr hc.dict
  obtain ⟨conn, hslots, hslices, hpip⟩ := updateRecord_spec (set := set) (o := o) (f := f) (s := u) (r := r) (by rw [hhot, hlow]; exact hp)
  have hpip' : (updateRecord set r o f u).pip = v.pip := hpip.trans hc.pip
  generalize updateRecord set r o f u = w at hslots hslices hpip'
  obtain ⟨g, flags, hg, hres, hvalid, hrec, hstatus, hbytes, hepoch, hother, hled⟩ :=
    deliverLedger_found (o := o) (r := r) ((frame_congr hpip' fid).trans hf)
  have hxhot : hotAt (deliverLedger o fid 0 0 r w) r = hotAt w r := hotAt_congr (congrArg Led.slots hled) r
  refine ⟨conn, g, flags, _, rfl, hg, hxhot ▸ hres, hvalid, hrec, hstatus, hbytes, hepoch, fun k hk => ?_, ?_, fun k => ?_⟩
  · exact (hother k hk).trans (frame_congr hpip' k)
  · exact (congrArg Led.slices hled).trans (hslices.trans hc.slices)
  · rw [slotAt_congr (congrArg Led.slots hled), hslots, hslot, hslot, hhot]

/-- A frame's operation that finds its record on die, in a ledger where nothing is under way. -/
theorem frame_applies {fid r : Nat} {o : LedOp} {f : Frame} {s u : State} (hk : RecordKept s (joinOp o u)) (hq : ledgerQuiet u)
    (hw : o.who = .frame fid f) (hst : o.stage = .reading) (hvia : o.viaAlias = false) (ht : o.touch = [])
    (hf : frame (joinOp o u) fid = some f) (hl : lookup s o.home (hashFp o.h0) o.sig = .found r) (ha : hAlias (hotAt s r) = false)
    (hp : hPending (hotAt s r) = false ∨ lowLedger s = true) (hs : isStale s (setFor s f.epoch) r = false)
    (hfa : (failAction s (setFor s f.epoch) r).1 = 0) : ∃ conn g flags t, runLedger (joinOp o u) = t ∧ frame t fid = some g ∧
      g.results = f.results ++ [.ledger 0 flags 0 r (hotAt t r)] ∧ g.ra.flowValid = 1 ∧ g.ra.flowRecord = r ∧
      g.ledStatus = some 0 ∧ g.bytes = f.bytes ∧ g.epoch = f.epoch ∧ (∀ k, k ≠ fid → frame t k = frame (joinOp o u) k) ∧
      (∀ k, slotAt t k = if k = r then { slotAt s r with hot := updatedHot (hotAt s r) conn f } else slotAt s k) ∧ ledgerQuiet t := by
  have hrep : ∀ k, (slc (joinOp o u) k).repairs = [] := fun k => by
    rw [joinOp_repairs]
    exact (hq k).2
  have hquiet := @runLedger_joinOp_quiet o u
  generalize joinOp o u = v at *
  have hslot (k : Nat) : slotAt v k = slotAt s k := slotAt_congr hk.slots k
  have hhot : hotAt v r = hotAt s r := hotAt_congr hk.slots r
  have hset : setFor v f.epoch = setFor s f.epoch := setFor_of_kept hk f.epoch
  have hrun := runOp_frame_found hw hst hvia ht hrep ((lookup_of_kept hk _ _ _).trans hl) (by rw [hhot]; exact ha)
    (by rw [hset, isStale_of_kept hk]; exact hs) (by rw [hset, failAction_of_kept hk]; exact hfa)
  obtain ⟨conn, g, flags, x, hx, hg, hres, hvalid, hrec, hstatus, hbytes, hepoch, hother, hslices, hslots⟩ :=
    updated_delivered (set := setFor v f.epoch) (r := r) (o := { o with slot := some r }) hf
      (by rw [hhot, lowLedger_congr hk.dict]; exact hp)
  rw [hx] at hrun
  obtain ⟨t, ht, htq, htslots, -, htpip, -, -⟩ := hquiet hq (by rw [hst]; decide) hrun (OpsKept.of_slices hslices)
  have hxhot : hotAt x r = hotAt t r := (hotAt_congr htslots r).symm
  refine ⟨conn, g, flags, t, ht, (frame_congr htpip fid).trans hg, hxhot ▸ hres, hvalid, hrec, hstatus, hbytes, hepoch, fun k hne => ?_,
    fun k => ?_, htq⟩
  · exact (frame_congr htpip k).trans (hother k hne)
  · rw [slotAt_congr htslots, hslots, hslot, hslot, hhot]

/-- An operation whose reads find no error joins its slice as it arrives. -/
theorem ledgerOperation_joins {fid : Nat} {f : Frame} {ways : List (Nat × Ecc)} {s : State} (hf : frame s fid = some f)
    (hph : f.phase = .ingress) (h6 : f.due.testBit 6 = true) (he : flowEnters s fid f = false)
    (ha : sliceAccepts s (hashSlice f.h0) = true) (hc : crossbarTakes s (hashSlice f.h0) = true)
    (hclean : ∀ e ∈ ways, e.2 = .clean) (ho : sliceOpen (frameCrossed fid f s) (hashSlice f.h0) = true) :
    exec (.ledgerOperation fid ways) s = .next (runLedger (joinOp (frameLedOp fid f ways s) (frameCrossed fid f s))) := by
  have harr : arrive (frameLedOp fid f ways s) ways (frameCrossed fid f s) = runLedger (joinOp (frameLedOp fid f ways s) (frameCrossed fid f s)) :=
    (arrive_open (o := frameLedOp fid f ways s) ho).trans (congrArg runLedger (forEach_wayRead_clean (sl := (frameLedOp fid f ways s).slice) (joinOp (frameLedOp fid f ways s) (frameCrossed fid f s)) hclean))
  exact (ledgerOperation_arrives hf hph h6 he ha hc).trans (congrArg Host.Outcome.next harr)

/-- Settles O29: the operation finds its record as it arrives (`frame_applies`), updates it (`updateRecord_spec`), and delivers what its
own update left (`deliverLedger_found`). -/
theorem frameHitsItsRecord : Obligations.FrameHitsItsRecord := by
  intro fid r f ways s hq hf hph h6 he hclean hopen hacc hcross hl ha hp hs hfa
  have hex := ledgerOperation_joins hf hph h6 he hacc hcross hclean hopen
  obtain ⟨conn, g, flags, t, ht, hg, hres, hvalid, hrec, hstatus, hbytes, hepoch, hother, hslots, htq⟩ :=
    frame_applies (o := frameLedOp fid f ways s) (f := enteredFrame f) (joinOp_recordKept fid f (frameLedOp fid f ways s) s)
      (hq.of_kept (OpsKept.of_slices rfl)) rfl rfl rfl (frameLedOp_untouched s hclean) (tabFind_insert_self ..) hl ha hp hs hfa
  have hself : slotAt t r = { slotAt s r with hot := updatedHot (hotAt s r) conn (enteredFrame f) } := (hslots r).trans (if_pos rfl)
  have hthot : hotAt t r = updatedHot (hotAt s r) conn (enteredFrame f) := congrArg Slot.hot hself
  have htcold : coldAt t r = coldAt s r := by
    have hc := congrArg Slot.cold hself
    exact hc
  obtain ⟨hpk, hoc, hseen, hsig, haddr, hport⟩ := updatedHot_spec (hotAt s r) conn (enteredFrame f)
  have hothers : ∀ k, k ≠ fid → frame t k = frame s k := fun k hne =>
    (hother k hne).trans ((frames_crossed fid f (frameLedOp fid f ways s) s k).trans (if_neg hne))
  refine ⟨t, g, flags, hex.trans (congrArg Host.Outcome.next ht), hg, hres, hvalid, hrec, hstatus, hbytes, hepoch, ?_⟩
  rw [hthot]
  exact ⟨hpk, hoc, hseen, hsig, haddr, hport, htcold, fun k hne => (hslots k).trans (if_neg hne), hothers, htq⟩

end Sys2Proof.Machine
end

section
/-! O31 (R285, R311, R312, R314 to R318, R672, R673): flow commands, how they start and what they do where nothing is under way. -/

namespace Sys2Proof.Machine
open Sys2Proof

/-! ### How a flow command starts (R311, R312, R318, R673) -/

section
variable {c : SqCmd} {code : Nat} {a : FlowArgs} {image : Bytes} {ecc : List (Nat × Ecc)} {s : State}

theorem namedCmd_outside (hk : a.byKey = false) (h : recordCode s a.record = 0x0B) :
    namedCmd c code a image ecc s = complete c 0x0B 0 0 s := (if_neg (by simp [hk])).trans (if_pos h)

theorem namedCmd_record (hk : a.byKey = false) (h : recordCode s a.record ≠ 0x0B) : namedCmd c code a image ecc s =
    cmdOp (recSlice a.record) [] (some a.record) (.cmd c code a image []) ecc s := (if_neg (by simp [hk])).trans (if_neg h)

theorem namedCmd_key (hk : a.byKey = true) : namedCmd c code a image ecc s =
    cmdOp (hashSlice (hashH0 s (keyBlock a.key))) (keyBlock a.key) none (.cmd c code { a with key := keyBlock a.key } image []) ecc s :=
  if_pos hk

theorem namedRecord_number (hk : a.byKey = false) : namedRecord s a = a.record := if_neg (by simp [hk])

theorem namedRecord_key (hk : a.byKey = true) : namedRecord s a = (findRec s (keyBlock a.key)).getD 0 := if_pos hk

theorem exec_flowRead (cold : Ecc) (h : servesCommand c 0 s) :
    exec (.flowRead c a cold) s = .next (namedCmd c 0x40 a [] [(namedRecord s a, cold)] s) := onUnits_startCmd h _

theorem exec_flowWalk (walk : List (Nat × Ecc)) (h : servesCommand c 0 s) :
    exec (.flowWalk c a walk) s = .next (walkStart c a walk s) := onUnits_startCmd h _

theorem exec_flowDelete (h : servesCommand c 1 s) : exec (.flowDelete c a) s = .next (namedCmd c 0x44 a [] [] s) := onUnits_startCmd h _

theorem exec_flowPin (h : servesCommand c 1 s) : exec (.flowPin c a) s = .next (namedCmd c 0x45 a [] [] s) := onUnits_startCmd h _

theorem exec_flowUnpin (h : servesCommand c 1 s) : exec (.flowUnpin c a) s = .next (namedCmd c 0x46 a [] [] s) := onUnits_startCmd h _

theorem exec_flowUpdate (d : Dma) (h : servesCommand c 1 s) : exec (.flowUpdate c a d) s = .next (updateStart c a d s) :=
  onUnits_startCmd h _

theorem exec_flowInsert (d k : Dma) (h : servesCommand c 1 s) : exec (.flowInsert c a d k) s = .next (insertStart c a d k s) :=
  onUnits_startCmd h _

theorem walkStart_outside {walk : List (Nat × Ecc)} (h : 16 ≤ a.slice ∨ slotsPer s ≤ a.record ∨ a.count = 0 ∨ 4096 < a.count) :
    walkStart c a walk s = complete c 0x0B 0 0 s := if_pos (by simpa [or_assoc] using h)

theorem walkStart_inside {walk : List (Nat × Ecc)} (h1 : a.slice < 16) (h2 : a.record < slotsPer s) (h3 : a.count ≠ 0)
    (h4 : a.count ≤ 4096) : walkStart c a walk s = cmdOp a.slice [] (some (recNo a.slice a.record)) (.cmd c 0x41 a [] [])
      (walk.map (fun e => (recNo a.slice e.1, e.2))) s :=
  if_neg (by simp only [Bool.or_eq_true, decide_eq_true_eq]; omega)

/-- FLOW_DELETE, FLOW_PIN and FLOW_UNPIN start alike. -/
theorem exec_named {i : Instr} (h : servesCommand c 1 s)
    (hi : (code, i) ∈ [(0x44, Instr.flowDelete c a), (0x45, .flowPin c a), (0x46, .flowUnpin c a)]) :
    exec i s = .next (namedCmd c code a [] [] s) := by
  simp only [List.mem_cons, Prod.mk.injEq, List.not_mem_nil, or_false] at hi
  rcases hi with ⟨rfl, rfl⟩ | ⟨rfl, rfl⟩ | ⟨rfl, rfl⟩
  · exact exec_flowDelete h
  · exact exec_flowPin h
  · exact exec_flowUnpin h

theorem dataOf_enough {n : Nat} {b : Bytes} (h : n ≤ b.length) : dataOf n (.data b) = .inl (b.take n) := if_neg (by omega)

theorem updateStart_reserved {d : Dma} (h : 128 ≤ a.mask) : updateStart c a d s = complete c 0x82 0x60 0 s := if_pos h

theorem updateStart_fault (h : a.mask < 128) : updateStart c a .fault s = complete c 0x81 0x60 0 s := if_neg (by omega)

theorem updateStart_image {b : Bytes} (h : a.mask < 128) (hb : 144 ≤ b.length) :
    updateStart c a (.data b) s = namedCmd c 0x43 a (b.take 144) [] s := by
  rw [updateStart, if_neg (by omega), dataOf_enough hb]

/-- FLOW_INSERT with an image that could be read, and a second key or none. -/
theorem insertStart_read {d k : Dma} {b r : Bytes} (hb : dataOf 144 d = .inl b)
    (hr : (if a.aliasAddr = 0 then (.inl [] : Bytes ⊕ Nat) else dataOf 48 k) = .inl r) : insertStart c a d k s =
      if !keyFormOk (imageKey s b) || (r ≠ [] && !keyFormOk r) then complete c 0x0B 0 0 s
      else if kKind (imageKey s b) ≠ rdAct s (oAdmFamily (leAt b 0x19 1 % 64)) then complete c 0x83 0x38 0 s
      else if r ≠ [] && r = imageKey s b then complete c 0x20 0 0 s
      else cmdOp (hashSlice (hashH0 s (imageKey s b))) (imageKey s b) none (.cmd c 0x42 a b r) [] s := by
  unfold insertStart
  rw [hb, hr]

theorem insertStart_fault {k : Dma} : insertStart c a .fault k s = complete c 0x81 0x60 0 s := rfl

end

/-! ### What a flow command leaves of the slices -/

theorem OpsKept.of_issued {s t : State} (h : Issued s t) : OpsKept s t := OpsKept.of_slices (congrArg Led.slices h.led)

theorem OpsKept.of_ended {s t : State} (h : Ended s t) : OpsKept s t := OpsKept.of_slices (congrArg Led.slices h.led)

theorem exportRecord_issued (kind r : Nat) (s : State) : Issued s (exportRecord kind r s) := by
  unfold exportRecord
  split
  · exact issue_issued _ _ _ _ _ (Issued.refl s)
  · exact Issued.refl s

theorem setPort1_slices (pool entry v : Nat) (s : State) : (setPort1 pool entry v s).led.slices = s.led.slices :=
  congrArg Led.slices (mirrorChange_issued [2, pool, entry] _).led

theorem countRecord_led (v : Nat) (up : Bool) (s : State) : (countRecord v up s).led = s.led := by
  unfold countRecord
  dsimp only
  split <;> rfl

theorem releasePort_slices (pool entry r : Nat) (s : State) : (releasePort pool entry r s).led.slices = s.led.slices := by
  unfold releasePort
  dsimp only
  split
  · exact (congrArg Led.slices (issueAt_issued _ _ _ _ _ _ _ (Issued.refl _)).led).trans (setPort1_slices _ _ _ _)
  · rfl

theorem releaseServices_slices (r : Nat) (orphan : Bool) (s : State) : (releaseServices r orphan s).led.slices = s.led.slices := by
  unfold releaseServices
  split
  · refine (congrArg Led.slices (countRecord_led _ _ _)).trans ?_
    split
    · rfl
    · exact releasePort_slices _ _ _ _
  · split <;> rfl

theorem putOrErase_slices (c : Bool) (r : Nat) (w : Way) (s : State) :
    (if c then setLed { s.led with ways := tabErase s.led.ways r } s else putWay r w s).led.slices = s.led.slices := by
  cases c <;> rfl

theorem addPins_slices (l : List Nat) (up : Bool) (s : State) : (addPins l up s).led.slices = s.led.slices := by
  unfold addPins
  induction l generalizing s with
  | nil => rfl
  | cons r l ih => exact (ih _).trans (putOrErase_slices _ r _ s)

theorem dropHome_slices (home d : Nat) (s : State) : (dropHome home d s).led.slices = s.led.slices := by
  unfold dropHome
  dsimp only
  split
  · exact setHot_slices _ _ _
  · rfl

theorem clearRecord_slices (r : Nat) (s : State) : (clearRecord r s).led.slices = s.led.slices := by
  unfold clearRecord
  extract_lets h pinned home h' kept x hot
  refine (congrArg Led.slices (mirrorChange_issued [1, r] _).led).trans ((setHot_slices r kept home).trans ?_)
  refine (dropHome_slices _ _ pinned).trans ?_
  show (if hPinned h then addPins (pinSet s r) false s else s).led.slices = _
  split
  · exact addPins_slices _ _ _
  · rfl

theorem removeRecord_slices (kind r : Nat) (s : State) : (removeRecord kind r s).led.slices = s.led.slices := by
  unfold removeRecord
  extract_lets p a exported released cleared
  have hcleared : cleared.led.slices = s.led.slices := by
    refine (clearRecord_slices p released).trans ((releaseServices_slices p true exported).trans ?_)
    show (if kind = 0 then s else exportRecord kind p s).led.slices = _
    split
    · rfl
    · exact congrArg Led.slices (exportRecord_issued kind p s).led
  clear_value a
  cases a with
  | some a => exact (clearRecord_slices _ cleared).trans hcleared
  | none => exact hcleared

theorem setCold_slices (r c : Nat) (s : State) : (setCold r c s).led.slices = s.led.slices := by
  unfold setCold
  split
  · rfl
  · exact (Cached.of_measured (occurGlobal_measured _ _ _ (Measured.refl _))).slices.trans rfl

theorem updateMasked_slices (mask r : Nat) (image : Bytes) (s : State) : (updateMasked mask r image s).led.slices = s.led.slices := by
  unfold updateMasked
  extract_lets
  split
  · exact setHot_slices _ _ _
  · split
    · exact setHot_slices _ _ _
    · exact (setCold_slices _ _ _).trans (setHot_slices _ _ _)

theorem unpinRecords_slices (l : List Nat) (s : State) : (unpinRecords l s).led.slices = s.led.slices := by
  unfold unpinRecords
  dsimp only
  generalize l.filter (fun r => hPinned (hotAt s r)) = held
  induction held generalizing s with
  | nil => rfl
  | cons r held ih => exact (ih _).trans ((addPins_slices _ _ _).trans (setHot_slices _ _ _))

/-! ### Room for pins (R672) -/

theorem OpsKept.setSlc {f : Nat} {x : SliceSt} {s : State} (ho : x.ops = (slc s f).ops) (hr : x.repairs = (slc s f).repairs) :
    OpsKept s (setSlc f x s) := fun k => by
  rw [slc_setSlc]
  split
  case isTrue hk => rw [hk]; exact ⟨ho, hr⟩
  case isFalse => exact ⟨rfl, rfl⟩

theorem OpsKept.of_measured {s t : State} (h : Measured s t) : OpsKept s t := OpsKept.of_slices (Cached.of_measured h).slices

theorem evict_opsKept (r : Nat) (w : Way) (s : State) : OpsKept s (evict r w s) := by
  unfold evict
  extract_lets f t u
  have hu : OpsKept s u := OpsKept.of_slices rfl
  split
  · refine hu.trans (OpsKept.trans ?_ (OpsKept.of_measured (occurGlobal_measured _ _ _ (Measured.refl _))))
    exact OpsKept.setSlc rfl rfl
  · exact hu

theorem makeWay_opsKept {r : Nat} {s t : State} (h : makeWay r s = .ok t) : OpsKept s t := by
  unfold makeWay at h
  dsimp only at h
  split at h
  · cases h
    exact OpsKept.refl s
  · split at h
    · cases h
      exact OpsKept.refl s
    · split at h
      · cases h
      · split at h
        · cases h
        · cases h
          exact evict_opsKept _ _ _

theorem installWay_slices (r : Nat) (s : State) : (installWay r s).led.slices = s.led.slices := by
  unfold installWay
  split
  · rfl
  · split <;> rfl

theorem countMiss_measured (r : Nat) (s : State) : Measured s (countMiss r s) :=
  count_measured _ _ (occurGlobal_measured _ _ _ (occurGlobal_measured _ _ _ (Measured.refl s)))

theorem roomForPin_opsKept {r : Nat} {s t : State} (h : roomForPin r s = some t) : OpsKept s t := by
  unfold roomForPin at h
  split at h
  · cases h
    exact OpsKept.refl s
  · split at h
    · rename_i u hu
      cases h
      exact ((makeWay_opsKept hu).trans (OpsKept.of_measured (countMiss_measured r u))).trans
        (OpsKept.of_slices (installWay_slices _ _))
    · cases h

theorem roomForPins_none (l : List Nat) : l.foldl (fun (a : Option State) r => a.bind (roomForPin r)) none = none := by
  induction l with
  | nil => rfl
  | cons _ _ ih => exact ih

theorem roomForPins_opsKept {l : List Nat} {s t : State} (h : roomForPins l s = some t) : OpsKept s t := by
  unfold roomForPins at h
  induction l generalizing s with
  | nil =>
    cases h
    exact OpsKept.refl _
  | cons r l ih =>
    rw [List.foldl_cons, Option.bind_some] at h
    cases hr : roomForPin r s with
    | none =>
      rw [hr, roomForPins_none] at h
      cases h
    | some u =>
      rw [hr] at h
      exact (roomForPin_opsKept hr).trans (ih h)

theorem setPinned_slices (l : List Nat) (s : State) :
    (forEach l (fun u r => setHot r (setBit (hotAt u r) 70) u) s).led.slices = s.led.slices := by
  induction l generalizing s with
  | nil => rfl
  | cons r l ih => exact (ih _).trans (setHot_slices _ _ _)

theorem pinRecords_opsKept {l : List Nat} {s t : State} (h : pinRecords l s = some t) : OpsKept s t := by
  unfold pinRecords at h
  dsimp only at h
  split at h
  · cases h
  · rename_i u hu
    split at h
    · cases h
      exact (roomForPins_opsKept hu).trans (OpsKept.of_slices ((setPinned_slices _ _).trans (addPins_slices _ _ _)))
    · cases h

/-! ### A flow command that names its record by its number, where nothing is under way -/

theorem finish_opsKept {c : SqCmd} {d : Done} {s : State} (h : OpsKept s d.state) : OpsKept s (finish c d) := by
  unfold finish
  split
  · exact h
  · exact h.trans (OpsKept.of_ended (complete_ended _ _ _ _ _ (Ended.refl _)))

theorem finishWrite_opsKept (c : SqCmd) (b : Bytes) (result : Nat) (s : State) : OpsKept s (finishWrite c b result s) := by
  unfold finishWrite
  split
  · exact OpsKept.of_ended (complete_ended _ _ _ _ _ (writeData_ended _ _ s (Ended.refl s)))
  · exact OpsKept.of_ended (complete_ended _ _ _ _ s (Ended.refl s))

/-- The effect of an update, a deletion, a pin or an unpin of the primary `r`. -/
def flowEffect (code : Nat) (a : FlowArgs) (image : Bytes) (r : Nat) (u : State) : Done :=
  if code = 0x43 then succeeded (updateMasked a.mask r image u)
  else if code = 0x44 then succeeded (removeRecord 3 r u)
  else if code = 0x45 then
    match pinRecords (pinPair u r) u with
    | some t => succeeded t
    | none => failed 0x82 0x38 u
  else succeeded (unpinRecords (pinPair u r) u)

/-- An update alone takes the image. -/
theorem flowEffect_image {code : Nat} {a : FlowArgs} {b image : Bytes} {r : Nat} {u : State} (h : code = 0x43 → b = image) :
    flowEffect code a b r u = flowEffect code a image r u := by
  by_cases h43 : code = 0x43
  · rw [h h43]
  · rw [flowEffect, flowEffect, if_neg h43, if_neg h43]

theorem flowEffect_opsKept (code : Nat) (a : FlowArgs) (image : Bytes) (r : Nat) (u : State) :
    OpsKept u (flowEffect code a image r u).state := by
  unfold flowEffect
  split
  · exact OpsKept.of_slices (updateMasked_slices _ _ _ _)
  · split
    · exact OpsKept.of_slices (removeRecord_slices _ _ _)
    · split
      · split
        · rename_i t ht
          exact pinRecords_opsKept ht
        · exact OpsKept.refl u
      · exact OpsKept.of_slices (unpinRecords_slices _ _)

/-- A command that names a primary by its number reaches it. -/
theorem flowDone_number {code : Nat} {a : FlowArgs} {image reply : Bytes} {u : State} (hc : code ≠ 0x42) (hk : a.byKey = false)
    (hr : recordCode u a.record = 0) (ha : hAlias (hotAt u a.record) = false) :
    flowDone code a image reply u = flowEffect code a image a.record u := by
  have ht : flowTarget u a = .inl a.record := (if_neg (by simp [hk])).trans (if_pos hr)
  have hp : primaryOf u a.record = a.record := if_neg (by simp [ha])
  unfold flowDone
  rw [if_neg hc, ht]
  dsimp only
  rw [hp]
  rfl

theorem recordCode_valid {s : State} {r : Nat} (h1 : r < 2 ^ 26) (h2 : recSlot r < slotsPer s) (hv : hValid (hotAt s r) = true) :
    recordCode s r = 0 := by
  unfold recordCode
  rw [if_neg (by simp only [Bool.or_eq_true, decide_eq_true_eq]; omega), if_pos hv]

theorem Cached.hst {s t : State} (h : Cached s t) : t.hst = s.hst := by
  have e := congrArg State.hst h
  exact e

theorem Cached.out {s t : State} (h : Cached s t) : t.out = s.out := by
  have e := congrArg State.out h
  exact e

theorem slotsPer_congr {s t : State} (h : t.dict = s.dict) : slotsPer t = slotsPer s := rd_congr h _ _

theorem pinSlots_congr {s t : State} (hs : t.led.slots = s.led.slots) (hd : t.dict = s.dict) (r : Nat) :
    (pinPair t r).flatMap (pinSet t) = (pinPair s r).flatMap (pinSet s) := by
  have hset (k : Nat) : pinSet t k = pinSet s k := by
    rw [pinSet, pinSet, hotAt_congr hs, recMinus, recMinus, slotsPer_congr hd]
  rw [pinPair, pinPair, aliasOf, aliasOf, hs]
  exact List.flatMap_congr fun k _ => hset k

theorem recordCode_congr {s t : State} (hs : t.led.slots = s.led.slots) (hd : t.dict = s.dict) (r : Nat) :
    recordCode t r = recordCode s r := by
  rw [recordCode, recordCode, slotsPer_congr hd, hotAt_congr hs]

/-- The operation of a flow command that names its record by its number. -/
def cmdLedOp (r : Nat) (who : LedWho) (ecc : List (Nat × Ecc)) (s : State) : LedOp :=
  { id := s.led.nextOp, slice := recSlice r, who := who, home := r, slot := some r, ecc := ecc }

/-- The state in which it joins its slice. -/
def cmdJoined (r : Nat) (s : State) : State :=
  setLed { s.led with nextOp := s.led.nextOp + 1 } (count (cSlice (recSlice r) 0x60) s)

/-- The state at its apply point. -/
def cmdApplied (r : Nat) (who : LedWho) (ecc : List (Nat × Ecc)) (s : State) : State :=
  useWay r (joinOp (cmdLedOp r who ecc s) (cmdJoined r s))

theorem cmdOp_ready {r : Nat} {who : LedWho} {ecc : List (Nat × Ecc)} {s : State} (hr : slotReady s r) :
    cmdOp (recSlice r) [] (some r) who ecc s = runLedger (joinOp (cmdLedOp r who ecc s) (cmdJoined r s)) := by
  obtain ⟨ho, ha, -⟩ := hr
  unfold cmdOp
  rw [ho, ha]
  rfl

section
variable {c : SqCmd} {code r : Nat} {a : FlowArgs} {image : Bytes} {ecc : List (Nat × Ecc)} {who : LedWho} {s : State}

theorem cmdApplied_spec (r : Nat) (who : LedWho) (ecc : List (Nat × Ecc)) (s : State) :
    (cmdApplied r who ecc s).led.slots = s.led.slots ∧ (cmdApplied r who ecc s).hst = s.hst ∧
    (cmdApplied r who ecc s).out = s.out ∧ (cmdApplied r who ecc s).dict = s.dict ∧ (cmdApplied r who ecc s).pair = s.pair ∧
    ∀ k, (tabFind (cmdApplied r who ecc s).led.ways k).map (fun w => { w with used := 0 }) =
      (tabFind s.led.ways k).map (fun w => { w with used := 0 }) := by
  have h : Cached (joinOp (cmdLedOp r who ecc s) (cmdJoined r s)) (cmdApplied r who ecc s) := useWay_cached r _
  refine ⟨h.slots, h.hst, h.out, h.dict, h.pair, fun k => ?_⟩
  have hw : tabFind (cmdApplied r who ecc s).led.ways k = if k = r then
      (tabFind s.led.ways r).map (fun w => { w with used := s.clk.cclk }) else tabFind s.led.ways k := ways_useWay r k _
  rw [hw]
  split
  case isTrue hk =>
    rw [hk, Option.map_map]
    rfl
  case isFalse => rfl

section
variable (hk : a.byKey = false) (hq : ledgerQuiet s) (hr : slotReady s a.record) (hv : hValid (hotAt s a.record) = true)
include hk hq hr hv

/-- One attempt at a command whose record is on die. -/
theorem runOp_named (h1 : code ≠ 0x41) (h2 : code ≠ 0x42) :
    runOp [] (cmdLedOp a.record (.cmd c code a image []) ecc s)
      (joinOp (cmdLedOp a.record (.cmd c code a image []) ecc s) (cmdJoined a.record s)) =
    cmdAt (cmdLedOp a.record (.cmd c code a image []) ecc s) c code a image [] a.record
      (joinOp (cmdLedOp a.record (.cmd c code a image []) ecc s) (cmdJoined a.record s)) := by
  obtain ⟨hslots, hways, -, -, hdict, -⟩ := joinOp_leaves (cmdLedOp a.record (.cmd c code a image []) ecc s) (cmdJoined a.record s)
  have hrep (k : Nat) : (slc (joinOp (cmdLedOp a.record (.cmd c code a image []) ecc s) (cmdJoined a.record s)) k).repairs = [] := by
    rw [joinOp_repairs]
    exact (hq k).2
  have haim := aimSlot_ready (o := cmdLedOp a.record (.cmd c code a image []) ecc s) hrep
    ((onDie_congr hdict hways a.record).trans hr.2.2)
  have hval : hValid (hotAt (joinOp (cmdLedOp a.record (.cmd c code a image []) ecc s) (cmdJoined a.record s)) a.record) = true := by
    rw [hotAt_congr hslots]
    exact hv
  generalize joinOp (cmdLedOp a.record (.cmd c code a image []) ecc s) (cmdJoined a.record s) = v at haim hval
  show runCmd [] (cmdLedOp a.record (.cmd c code a image []) ecc s) c code a image [] v = _
  have hvia : (cmdLedOp a.record (.cmd c code a image []) ecc s).viaAlias = false := rfl
  unfold runCmd
  rw [if_neg h1, if_neg h2, hvia, hk, haim]
  dsimp only
  rw [if_neg (by decide), if_neg (by decide), if_pos hval]

omit hk hv in
/-- The command runs alone: what it does at its apply point ends it. -/
theorem cmdOp_applies {u : State} (hrun : runOp [] (cmdLedOp a.record who ecc s)
      (joinOp (cmdLedOp a.record who ecc s) (cmdJoined a.record s)) = .done u) (hu : OpsKept (cmdApplied a.record who ecc s) u) :
    cmdOp (recSlice a.record) [] (some a.record) who ecc s =
      endSweep (dropOp (recSlice a.record) s.led.nextOp (useWay a.record u)) := by
  have hqj : ledgerQuiet (cmdJoined a.record s) := hq.of_kept (OpsKept.of_slices rfl)
  have happ : OpsKept (joinOp (cmdLedOp a.record who ecc s) (cmdJoined a.record s)) (cmdApplied a.record who ecc s) :=
    OpsKept.of_slices (useWay_slices a.record _)
  rw [cmdOp_ready hr]
  exact runLedger_joinOp (o := cmdLedOp a.record who ecc s) hqj.resting (show LedStage.reading ≠ .held by decide) hrun
    (happ.trans hu)

omit hk hq hr hv in
theorem imageRead_clean {o : LedOp} (h : eccAt o.ecc r = .clean) (s : State) : imageRead o r s = s := by
  unfold imageRead
  rw [h]
  exact ite_self s

/-- R314: FLOW_READ writes the record's image as it stands. -/
theorem flowRead_applies (hc : recordCode s a.record ≠ 0x0B) : namedCmd c 0x40 a [] [(namedRecord s a, .clean)] s =
    endSweep (dropOp (recSlice a.record) s.led.nextOp (useWay a.record
      (finishWrite c (recordImage (cmdApplied a.record (.cmd c 0x40 a [] []) [(a.record, .clean)] s) a.record) 0
        (cmdApplied a.record (.cmd c 0x40 a [] []) [(a.record, .clean)] s)))) := by
  rw [namedCmd_record hk hc, namedRecord_number hk]
  refine cmdOp_applies hq hr ((runOp_named hk hq hr hv (by decide) (by decide)).trans ?_) (finishWrite_opsKept _ _ _ _)
  refine congrArg Run.done ?_
  have hecc : eccAt [(a.record, Ecc.clean)] a.record = .clean := by simp [eccAt]
  unfold flowReadNow
  rw [imageRead_clean hecc]
  rfl

/-- R315 to R317, R285, R672: the other commands that name a primary by its number. -/
theorem flowCommand_applies (h0 : code ≠ 0x40) (h1 : code ≠ 0x41) (h2 : code ≠ 0x42) (hc : recordCode s a.record = 0)
    (hp : partnerFollows s = false) (ha : hAlias (hotAt s a.record) = false)
    (hpin : code = 0x45 → ∀ x ∈ (pinPair s a.record).flatMap (pinSet s), onDie s x = true) :
    namedCmd c code a image [] s = endSweep (dropOp (recSlice a.record) s.led.nextOp (useWay a.record
      (finish c (flowEffect code a image a.record (cmdApplied a.record (.cmd c code a image []) [] s))))) := by
  obtain ⟨hslots, -, -, hdict, hpair, -⟩ := cmdApplied_spec a.record (.cmd c code a image []) [] s
  obtain ⟨hjslots, hjways, -, -, hjdict, -⟩ := joinOp_leaves (cmdLedOp a.record (.cmd c code a image []) [] s) (cmdJoined a.record s)
  rw [namedCmd_record hk (by rw [hc]; decide)]
  refine cmdOp_applies hq hr ((runOp_named hk hq hr hv h1 h2).trans ?_) (finish_opsKept (flowEffect_opsKept _ _ _ _ _))
  have hmissing : (if code = 0x45 then ((pinPair (joinOp (cmdLedOp a.record (.cmd c code a image []) [] s) (cmdJoined a.record s))
      a.record).flatMap (pinSet (joinOp (cmdLedOp a.record (.cmd c code a image []) [] s) (cmdJoined a.record s)))).filter
      (fun x => !onDie (joinOp (cmdLedOp a.record (.cmd c code a image []) [] s) (cmdJoined a.record s)) x) else []) = [] := by
    split
    case isTrue h45 =>
      rw [pinSlots_congr hjslots hjdict]
      refine List.filter_eq_nil_iff.mpr fun x hx => ?_
      rw [onDie_congr hjdict hjways x]
      exact (Bool.not_eq_true _).mpr (congrArg not (hpin h45 x hx))
    case isFalse => rfl
  have happly : applyCmd c code a image [] (cmdApplied a.record (.cmd c code a image []) [] s) =
      finish c (flowEffect code a image a.record (cmdApplied a.record (.cmd c code a image []) [] s)) := by
    refine (commitCmd_alone ((partnerFollows_congr (rd_congr hdict _ _) hpair).trans hp)).trans (congrArg (finish c) ?_)
    exact flowDone_number h2 hk ((recordCode_congr hslots hdict _).trans hc) ((congrArg hAlias (hotAt_congr hslots _)).trans ha)
  unfold cmdAt
  rw [if_neg h0, if_neg (by rw [hotAt_congr hjslots]; exact (Bool.not_eq_true _).mpr ha), toApply, if_pos hmissing]
  exact congrArg Run.done happly

end
end

theorem take_ne_nil {n : Nat} {b : Bytes} (hn : n ≠ 0) (h : n ≤ b.length) : b.take n ≠ [] := fun he =>
  hn ((List.length_take_of_le h).symm.trans (congrArg List.length he))

/-- The code, the image and the instruction of a change of a record, as it starts. -/
theorem exec_flowChange {c : SqCmd} {code : Nat} {a : FlowArgs} {image : Bytes} {i : Instr} {s : State} (h : servesCommand c 1 s)
    (hl : image.length = 144) (hm : a.mask < 128) (hi : (code, i) ∈ [(0x43, Instr.flowUpdate c a (.data image)), (0x44, .flowDelete c a),
      (0x45, .flowPin c a), (0x46, .flowUnpin c a)]) :
    (code = 0x43 ∨ code = 0x44 ∨ code = 0x45 ∨ code = 0x46) ∧ ∃ b, (code = 0x43 → b = image) ∧ exec i s = .next (namedCmd c code a b [] s) := by
  rw [List.mem_cons] at hi
  rcases hi with hi | hi
  · cases hi
    refine ⟨.inl rfl, image, fun _ => rfl, (exec_flowUpdate _ h).trans (congrArg Host.Outcome.next ?_)⟩
    rw [updateStart_image hm hl.ge, ← hl, List.take_length]
  · have hcode : code = 0x44 ∨ code = 0x45 ∨ code = 0x46 := by
      simp only [List.mem_cons, Prod.mk.injEq, List.not_mem_nil, or_false] at hi
      exact hi.imp And.left (Or.imp And.left And.left)
    exact ⟨.inr hcode, [], fun h43 => by omega, exec_named h hi⟩

/-- Settles O31: how a flow command starts, case by case of its checks, and that one which names a primary on die of a resting
ledger reaches its apply point in the step in which it arrives. -/
theorem flowCommands : Obligations.FlowCommands := by
  unfold Obligations.FlowCommands
  refine ⟨⟨fun c a cold walk s h => ⟨fun hk hr => ?_, fun hk hr => ?_, fun hk => ?_, fun ho => ?_, fun h1 h2 h3 h4 => ?_⟩,
    fun c a s h code i hi => ⟨fun hk hr => ?_, fun hk hr => ?_, fun hk => ?_⟩,
    fun c a image aliasKey s h => ⟨fun hm => ?_, fun hm hf => ?_, fun b hm hb hl => ⟨fun hk hr => ?_, fun hk => ?_⟩, fun hf => ?_,
      fun b hb hl ha => ⟨fun hf => ?_, fun hf hfam => ?_, fun hf hfam => ?_⟩,
      fun b r hb hl ha hr hrl => fun hf hfr hfam => ⟨fun he => ?_, fun he => ?_⟩⟩⟩,
    fun c a s hk h1 h2 hq hr hv => ⟨fun h => ?_, fun h hp hal code image i hl hm hi hpin => ?_⟩⟩
  · exact (exec_flowRead cold h).trans (congrArg Host.Outcome.next (namedCmd_outside hk hr))
  · rw [exec_flowRead cold h, namedCmd_record hk hr, namedRecord_number hk]
  · rw [exec_flowRead cold h, namedCmd_key hk, namedRecord_key hk]
  · exact (exec_flowWalk walk h).trans (congrArg Host.Outcome.next (walkStart_outside ho))
  · exact (exec_flowWalk walk h).trans (congrArg Host.Outcome.next (walkStart_inside h1 h2 h3 h4))
  · exact (exec_named h hi).trans (congrArg Host.Outcome.next (namedCmd_outside hk hr))
  · exact (exec_named h hi).trans (congrArg Host.Outcome.next (namedCmd_record hk hr))
  · exact (exec_named h hi).trans (congrArg Host.Outcome.next (namedCmd_key hk))
  · exact (exec_flowUpdate image h).trans (congrArg Host.Outcome.next (updateStart_reserved hm))
  · rw [hf]
    exact (exec_flowUpdate .fault h).trans (congrArg Host.Outcome.next (updateStart_fault hm))
  · rw [hb, exec_flowUpdate _ h, updateStart_image hm hl, namedCmd_record hk hr]
  · rw [hb, exec_flowUpdate _ h, updateStart_image hm hl, namedCmd_key hk]
  · rw [hf]
    exact (exec_flowInsert .fault aliasKey h).trans (congrArg Host.Outcome.next insertStart_fault)
  · rw [hb, exec_flowInsert _ _ h, insertStart_read (dataOf_enough hl) (if_pos ha), if_pos (by rw [hf]; rfl)]
  · rw [hb, exec_flowInsert _ _ h, insertStart_read (dataOf_enough hl) (if_pos ha), if_neg (by rw [hf]; decide), if_pos hfam]
  · rw [hb, exec_flowInsert _ _ h, insertStart_read (dataOf_enough hl) (if_pos ha), if_neg (by rw [hf]; decide),
      if_neg (not_not_intro hfam), if_neg (by simp)]
  · rw [hb, hr, exec_flowInsert _ _ h, insertStart_read (dataOf_enough hl) ((if_neg ha).trans (dataOf_enough hrl)),
      if_neg (by rw [hf, hfr]; simp), if_neg (not_not_intro hfam), if_pos (by simp [take_ne_nil (by decide) hrl, ← he])]
  · rw [hb, hr, exec_flowInsert _ _ h, insertStart_read (dataOf_enough hl) ((if_neg ha).trans (dataOf_enough hrl)),
      if_neg (by rw [hf, hfr]; simp), if_neg (not_not_intro hfam), if_neg (by simp [he])]
  · have hcode := recordCode_valid h1 h2 hv
    obtain ⟨hslots, hhst, hout, hdict, -, -⟩ := cmdApplied_spec a.record (.cmd c 0x40 a [] []) [(a.record, .clean)] s
    refine ⟨_, hslots, hhst, hout, hdict, ?_⟩
    exact (exec_flowRead .clean h).trans (congrArg Host.Outcome.next (flowRead_applies hk hq hr hv (by rw [hcode]; decide)))
  · obtain ⟨hcodes, b, hb, hex⟩ := exec_flowChange h hl hm hi
    have happ := flowCommand_applies (c := c) (image := b) hk hq hr hv (show code ≠ 0x40 by omega) (show code ≠ 0x41 by omega)
      (show code ≠ 0x42 by omega) (recordCode_valid h1 h2 hv) hp hal hpin
    obtain ⟨hslots, hhst, hout, hdict, -, hways⟩ := cmdApplied_spec a.record (.cmd c code a b []) [] s
    have heffect := flowEffect_image (a := a) (r := a.record) (u := cmdApplied a.record (.cmd c code a b []) [] s) hb
    refine ⟨_, hslots, hhst, hout, hdict, hways, hex.trans (congrArg Host.Outcome.next (happ.trans ?_))⟩
    exact congrArg (fun d => endSweep (dropOp (recSlice a.record) s.led.nextOp (useWay a.record (finish c d)))) heffect

end Sys2Proof.Machine
end
